-- ==== Sys2Proof/Word.lean ====
section
/-! DEFINITION. The word types of the sled: every register, address field, line and record is a bit vector of the width
the spec gives it (00 R12 to R14: binary sizes, bit 0 least significant, little-endian). -/

namespace Sys2Proof

/-- One byte. -/
abbrev Byte := BitVec 8
/-- A 16-bit field. -/
abbrev W16 := BitVec 16
/-- A 32-bit register or field. -/
abbrev W32 := BitVec 32
/-- A 48-bit time of the always-on timebase (13 R476). -/
abbrev W48 := BitVec 48
/-- A 64-bit register, word or slot. -/
abbrev W64 := BitVec 64
/-- A 128-bit predicate register (08 R327). -/
abbrev W128 := BitVec 128
/-- A 64 B line as one bit vector, byte 0 in bits [7:0] (00 R14). -/
abbrev Line := BitVec 512
/-- A chunk of an image, 65,536 bytes, byte 0 in bits [7:0] (17 R578; 00 R14). -/
abbrev Chunk := BitVec 524288
/-- A v register of 1,024 bits (08 R327). -/
abbrev VReg := BitVec 1024
/-- A host ID, 10 bits (00 R20). -/
abbrev HostId := BitVec 10
/-- A region ID, 14 bits (00 R20). -/
abbrev RegionId := BitVec 14
/-- A queue number of a host function, 0 to 63 (08 R315). -/
abbrev QueueNo := BitVec 6

end Sys2Proof
end

