-- ==== Sys2Proof/Syntax.lean ====
section
/-! DEFINITION. The commands the sled takes: one constructor of Instr per row of spec/opcode_table.json. An operand is what the
sender of the command decides: a request's address and data, a register value, a frame, a reading of a sensor, or how the
environment answered (a sector's read outcome, a link's training, a signature check). `pick` operands name the allocator's
choice among free runs, which the manual leaves open (assumption log 4, 5). A Tallow command names the running program whose
current word it executes. -/

namespace Sys2Proof

/-- How the sectors read for an access or a copy came out (03 R111): error-free, corrected with at most so many symbols in one
sector, uncorrectable, or uncorrectable with the error located in a tag symbol. -/
inductive Chk
  | ok
  | corrected (symbols : Fin 4)
  | bad
  | tag
deriving DecidableEq, Repr

/-- A trial's stored form: its size in sectors and its bytes (03 R129, R652). -/
structure Packed where
  csize : Nat
  run : List Byte
deriving DecidableEq, Repr

/-- How a flash read ended: the first read, a retry step, or the rebuild from the stripe's parity gave the sectors, or no
decode step did (05 R188); and the sector check of what was read. -/
inductive LakeOut
  | first (chk : Chk)
  | retried (chk : Chk)
  | rebuilt (chk : Chk)
  | unreadable
deriving DecidableEq, Repr

/-- The request ports of a Pond controller (04 R144). -/
inductive PPort
  | rt | host | wick | codec | move
deriving DecidableEq, Repr

/-- The age thresholds of a queued Pond request (04 R145). -/
inductive UrgPct
  | p50 | p75 | p100
deriving DecidableEq, Repr

/-- What the peer sled answers about the region that an evacuation or peer move names (06 R260, R262; 08 R345). -/
inductive PeerView
  | ok
  | notNew
  | noGrant
  | refused (status : Byte) (detail : W16)
deriving DecidableEq, Repr

/-- How a copy ended: whether the destination's sectors verified, and what reading the source gave (02 R68). -/
structure Copied where
  ok : Bool
  src : LakeOut
deriving DecidableEq, Repr

/-- Which checkpoint a mount can read (05 R215). -/
inductive CkptRead
  | latest
  | older
  | neither
deriving DecidableEq, Repr

/-- What a push finds as it starts: the peer's answer about its region, and the check of the first segment it reads (06 R260). -/
structure PushView where
  peer : PeerView
  chk : Chk
deriving DecidableEq, Repr

/-- The checks of a frame that has the sled read: its own CRC, and that of the first segment read (07 R294; 06 R260). -/
structure FrameCheck where
  crcOk : Bool
  chk : Chk
deriving DecidableEq, Repr

/-- Who sets a Fence Map bit, and whether the part that failed is shared: the RT stream buffer of a port half, the channel sequencer of a die
(14 R504). -/
structure FenceBy where
  setter : BitVec 2
  whole : Bool
deriving DecidableEq, Repr

/-- What the self-test found: the units that failed, and the ports whose RT stream buffer failed (07 R311). -/
structure SelfTest where
  failed : List (Fin 1584)
  buffers : List (Fin 8)
deriving DecidableEq, Repr

/-- The payload of a Chain DATA frame and the outcome of its CRC (17 R573). -/
structure ChunkIn where
  data : Chunk
  crcOk : Bool
deriving DecidableEq, Repr

/-- What reading an image from host memory gave: its chunks, and whether every read was answered (17 R581). -/
structure ImageRead where
  body : List Chunk
  ok : Bool
deriving DecidableEq, Repr

/-- A firmware image or settings bundle as its manifest gives it, with the outcome of the checks that only its bytes
decide (17 R575 to R583). -/
structure Image where
  iseq : W64
  svn : W32
  version : W32
  setfmt : W16
  chunks : Nat
  /-- MAGIC, FORMAT, KIND, BODY_LEN and every reserved field of chunk 0 are valid (17 R582). -/
  formed : Bool
  /-- a settings bundle (17 R594). -/
  settings : Bool
deriving DecidableEq, Repr

/-- Which copy of the governing settings record can be read (17 R591, R593). -/
inductive RecRead
  | newer   -- the one with the higher `RSEQ`
  | other   -- only the other one
  | neither
deriving DecidableEq, Repr

/-- How one port half trained (07 R307, R310); a half that trains to no width is fenced. -/
structure Train where
  half : Fin 16
  ok : Bool
  width : BitVec 3
  speed : BitVec 3
  flit : BitVec 2
deriving DecidableEq, Repr

/-- A frame of the peer window, less its KIND (07 R293). -/
structure PFrame where
  src : W16
  tag : W32
  region : RegionId
  seg : BitVec 34
  seq : W32
  count : W32
  payload : List Byte
deriving DecidableEq, Repr

/-- How a management command arrives (18 R603, R613): SMBus or I3C without a session, PCIe VDM without one, or inside an SPDM
session. -/
inductive Via
  | bus
  | vdm
  | session (n : Nat)
deriving DecidableEq, Repr

/-- Where an SPDM message or session runs (18 R611): the management bus, a port half, the DOE mailbox of a host function. -/
inductive Carrier
  | bus
  | half (n : Fin 16)
  | doe (host : HostId)
deriving DecidableEq, Repr

/-- The three BARs of a host function (07 R279). -/
inductive Bar
  | bar0 | bar2 | bar4
deriving DecidableEq, Repr

/-- The commands of the sled: one constructor per row of the table of operations and events. -/
inductive Instr
  /-- WARM_RESTART: Management command for a warm restart, with a Keep flush first. (R563) -/
  | warmRestart (via : Via)
  /-- ENTER_VIGIL: Management command that enters VIGIL. (R539) -/
  | enterVigil (via : Via)
  /-- CLEAR_TRIES: Management command that sets every watchdog's tries to zero. (R533) -/
  | clearTries (via : Via)
  /-- POWER_OFF: Management command that runs Dusk flush with the input present, then enters Dark. (R492) -/
  | powerOff (via : Via)
  /-- POWER_ON: Management command that starts a cold start from Dark. (R557) -/
  | powerOn (via : Via)
  /-- REG_READ: Galben command reading sled-global slots. (R607) -/
  | regRead (addr : W32) (count : Nat)
  /-- REG_WRITE: Galben command writing one sled-global slot. (R607) -/
  | regWrite (addr : W32) (value : W64) (via : Via)
  /-- EVENT_READ: Acknowledges records and returns records with the management lost count. (R608) -/
  | eventRead (ack : Nat) (max : Nat)
  /-- TRACE_READ: Galben command returning trace slots with TRC_STAT. (R626) -/
  | traceRead (slot : Nat) (count : Nat)
  /-- FIRMWARE_ARM: Management sets ARM_ISEQ for Chain staging. (R575) -/
  | firmwareArm (iseq : W64) (via : Via)
  /-- FIRMWARE_ACTIVATE: Management activation, run as a warm restart in VIGIL. (R586) -/
  | firmwareActivate (via : Via)
  /-- FIRMWARE_CONFIRM: Management confirmation of the probation image. (R588) -/
  | firmwareConfirm (via : Via)
  /-- SETTING_GET: Returns a management setting. (R615) -/
  | settingGet (id : W16)
  /-- SETTING_SET: Sets and stores a management setting. (R615) -/
  | settingSet (id : W16) (value : W32) (via : Via)
  /-- OWNER_ENROL_ROOT: Enrols or replaces the owner root hash. (R612) -/
  | ownerEnrolRoot (hash : BitVec 384) (via : Via)
  /-- OWNER_LOCK_SET: Sets the owner lock. (R614) -/
  | ownerLockSet (via : Via)
  /-- OWNER_LOCK_CLEAR: Clears the owner lock. (R612) -/
  | ownerLockClear (via : Via)
  /-- OWNER_ENROL_SETTINGS_KEY: Enrols the owner settings key. (R612) -/
  | ownerEnrolSettingsKey (key : BitVec 776) (via : Via)
  /-- OWNER_RELEASE: Removes the root and the settings key, and clears the lock. (R612) -/
  | ownerRelease (via : Via)
  /-- PEER_ENROL: Enrols a peer sled in the lowest free lane. (R615) -/
  | peerEnrol (sled : W16) (pbr : BitVec 12) (via : Via)
  /-- PEER_WITHDRAW: Withdraws a peer enrolment. (R309) -/
  | peerWithdraw (sled : W16) (via : Via)
  /-- STATS: Returns region or schedule statistics. (R618) -/
  | stats (okind : Byte) (obj : W32)
  /-- LAKE_FORMAT: Discards Keep data and journal, then warm restarts. (R610) -/
  | lakeFormat (sled : W16) (via : Via)
  /-- UNSUPPORTED_COMMAND: An unknown GCMD is answered with UNSUPPORTED. (R605) -/
  | unsupportedCommand (gcmd : Byte)
  /-- MEM_RD: A host CXL.mem read, with region lookup, directory action, SME read and line delivery or poison. (R249) -/
  | memRd (half : Fin 16) (spid : BitVec 12) (dpa : BitVec 48) (nocache : Bool) (chk : Chk)
  /-- MEM_RD_DATA: A host read to own a line of a writable shared region, with snoops as the directory requires. (R249) -/
  | memRdData (half : Fin 16) (spid : BitVec 12) (dpa : BitVec 48) (chk : Chk)
  /-- MEM_INV: A host MemInv request, which the sled serves through the directory. (R249) -/
  | memInv (half : Fin 16) (spid : BitVec 12) (dpa : BitVec 48)
  /-- MEM_WR: A host full-line write, which may unpack, promote, hold or discard the store. (R249) -/
  | memWr (half : Fin 16) (spid : BitVec 12) (dpa : BitVec 48) (data : Line) (poison : Bool) (keep : Bool) (chk : Chk) (pick : W32)
  /-- MEM_WR_PTL: A host partial write, which is applied, or discarded on a lost line. (R285) -/
  | memWrPtl (half : Fin 16) (spid : BitVec 12) (dpa : BitVec 48) (data : Line) (mask : W64) (poison : Bool) (chk : Chk) (pick : W32)
  /-- MEM_SPEC_RD: A speculative read hint, which the sled may drop. (R285) -/
  | memSpecRd (half : Fin 16) (spid : BitVec 12) (dpa : BitVec 48)
  /-- BI_SNOOP_RESPONSE: A host's response to a back-invalidate snoop arrives, with any write-back, and the waiting access proceeds. (R249) -/
  | biSnoopResponse (host : HostId) (region : RegionId) (line : BitVec 40) (modified : Bool) (data : Line) (chk : Chk) (pick : W32)
  /-- BI_SNOOP_TIMEOUT: A snoop goes unanswered past the back-invalidate timeout, so the host gets a fatal error and its grants end. (R253) -/
  | biSnoopTimeout (host : HostId) (region : RegionId) (line : BitVec 40) (chk : Chk) (pick : W32)
  /-- HELD_REQUEST_RESUME: A request held on an odd generation proceeds once the entry turns even. (R29) -/
  | heldRequestResume (req : Nat) (chk : Chk) (pick : W32)
  /-- RT_ROLLBACK: An entry odd for 1 ms is restored from its shadow and set even, and its instruction completes with E_TIMEOUT. (R32) -/
  | rtRollback (region : RegionId)
  /-- NARROWING_CHANGE_DRAINED: All requests tagged with earlier generations have completed, so a narrowing instruction completes. (R31) -/
  | narrowingChangeDrained (region : RegionId)
  /-- LAKE_READ_COMPLETE: A flash read ends after the decode escalation and the sector check. (R188) -/
  | lakeReadComplete (region : RegionId) (seg : Nat) (outcome : LakeOut) (pick : W32)
  /-- STORE_HOLD_TIMEOUT: A store held 10 ms for a reserved segment's sectors follows step 5 of R101. (R87) -/
  | storeHoldTimeout (req : Nat)
  /-- MOVE_COPY_DONE: A move's copy ends, and the move verifies the destination and commits by one SME write. (R68) -/
  | moveCopyDone (move : Nat) (ok : Bool) (src : LakeOut) (pick : W32)
  /-- MOVE_SOURCE_RELEASE: Once requests that resolved to the source have drained, the source is released. (R68) -/
  | moveSourceRelease (rel : Nat)
  /-- IMAGE_PLACED: A lent image's copy is verified, and LEND and IMAGE are set. (R75) -/
  | imagePlaced (move : Nat) (copy : Copied) (pick : W32)
  /-- IMAGE_RELEASE: A dropped image's sectors are released once its requests have completed. (R76) -/
  | imageRelease (rel : Nat)
  /-- AGE_CLOCK_TICK: The 16-bit age clock advances once per second. (R61) -/
  | ageClockTick
  /-- STORE_CLOCK_TICK: The 31-bit store clock advances once per millisecond. (R61) -/
  | storeClockTick
  /-- AGE_SWEEP: The sweeper clamps stale AGE and LAST_STORE values at least every 30 minutes. (R61) -/
  | ageSweep
  /-- PACK_DELAY_EXPIRY: An OPEN segment's pack delay runs out, and it is submitted for a trial pack. (R73) -/
  | packDelayExpiry (region : RegionId) (seg : Nat)
  /-- TRIAL_PACK_DONE: A trial pack ends and commits ZERO, PATTERN or PACKED, or leaves the segment OPEN. (R129) -/
  | trialPackDone (region : RegionId) (seg : Nat) (lzv exp : Option Packed) (chk : Chk) (pick : W32)
  /-- URGENCY_THRESHOLD: A queued Pond request's age crosses 50, 75 or 100 percent of its port target. (R145) -/
  | urgencyThreshold (pch : Fin 384) (port : PPort) (pct : UrgPct)
  /-- PANIC_ASSERT: An RT stream buffer's fill falls below the watermark, and it presents PANIC. (R148) -/
  | panicAssert (half : Fin 16)
  /-- PANIC_CLEAR: The buffer's fill rises above the clear level, PANIC is withdrawn, and refresh debt is repaid. (R148) -/
  | panicClear (half : Fin 16)
  /-- REFRESH_DUE: A per-bank Thermal refresh falls due and is issued, or postponed under PANIC. (R152) -/
  | refreshDue (pch : Fin 384) (bank : Fin 64)
  /-- STEADY_REFRESH_DUE: The Steady all-bank refresh falls due at its fixed phase. (R150) -/
  | steadyRefreshDue (pch : Fin 384)
  /-- STACK_TEMP_READ: The controller reads each stack's temperature every 64 µs and adjusts the refresh interval. (R151) -/
  | stackTempRead (stack : Fin 12) (temp : Option W16)
  /-- REF_MODE_BOUNDARY: A written REF_MODE takes effect at the next interval boundary. (R153) -/
  | refModeBoundary (pch : Fin 384)
  /-- PD_TIMER_EXPIRY: A SID without commands for PD_TIMER enters power-down. (R154) -/
  | pdTimerExpiry (pch : Fin 384) (sid : Fin 4)
  /-- RETRAIN_REQUEST: A write of 1 to RETRAIN requests a retrain of the pseudo-channel. (R158) -/
  | retrainRequest (pch : Fin 384)
  /-- RETRAIN_START: A due retrain reaches its stack's turn and holds the pseudo-channel's traffic. (R159) -/
  | retrainStart (pch : Fin 384)
  /-- RETRAIN_PANIC_TIMEOUT: A retrain that has waited 1 ms for PANIC to clear starts anyway. (R160) -/
  | retrainPanicTimeout (pch : Fin 384)
  /-- RETRAIN_DONE: A retrain ends with new lane settings, or with no working setting and a fence. (R157) -/
  | retrainDone (pch : Fin 384) (ok : Bool)
  /-- CE_WINDOW_END: A fixed 1 s window ends, and its corrected count is checked against CE_THRESH. (R158) -/
  | ceWindowEnd (pch : Fin 384)
  /-- COMMAND_PARITY_ERROR: The stack rejects a command; it is retried once, and two failures in a row cause a retrain. (R163) -/
  | commandParityError (pch : Fin 384)
  /-- SCRUB_DUE: The patrol scrub reads sectors that hold homes or images within each scrub period. (R165) -/
  | scrubDue (pch : Fin 384) (sector : BitVec 23) (chk : Chk) (pick : W32)
  /-- PCH_STALL: A request held unanswered for 100 µs outside a retrain fences its pseudo-channel. (R175) -/
  | pchStall (pch : Fin 384)
  /-- STACK_INIT_TIMEOUT: A stack that has not initialised 10 ms after reset release is fenced whole. (R176) -/
  | stackInitTimeout (stack : Fin 12)
  /-- POND_STARTUP_DONE: Pond training ends, and too many fences send the sled to VIGIL. (R177) -/
  | pondStartupDone (failed : List (Fin 384))
  /-- STRIPE_TIMER: An open stripe is programmed 2 ms after its first run entered it. (R193) -/
  | stripeTimer (stripe : Nat)
  /-- STRIPE_PROGRAMMED: A stripe's pages and its parity are programmed and read back, and its moves commit. (R194) -/
  | stripeProgrammed (stripe : Nat) (bad : List Nat)
  /-- CHECKPOINT_DUE: A checkpoint runs after 60 s or 512 MiB of journal. (R199) -/
  | checkpointDue
  /-- GC_SUPERBLOCK_DONE: Garbage collection has moved a superblock's valid runs, and it erases the superblock. (R201) -/
  | gcSuperblockDone (sb : Nat) (eraseOk : Bool)
  /-- PATROL_DUE: Retention patrol samples a superblock and relocates it when needed. (R205) -/
  | patrolDue (sb : Nat) (retry3 : Bool) (rebuilt : List (Fin 128))
  /-- PROGRAM_FAIL: A NAND program failure rewrites the pages and retires the block. (R228) -/
  | programFail (stripe : Nat) (ch : Fin 32)
  /-- ERASE_FAIL: A NAND erase failure retires the block. (R206) -/
  | eraseFail (sb : Nat) (member : Fin 128)
  /-- WEAR_EVAL: The FTL evaluates the endurance phase once a minute and at each retirement. (R208) -/
  | wearEval
  /-- LAKE_DIE_FAIL: A die that does not answer, or fails 16 operations in 1 s, is fenced and its runs rebuilt. (R227) -/
  | lakeDieFail (die : Fin 1024)
  /-- LAKE_MOUNT_DONE: Replay ends, restoring Keep regions and dropping volatile ones. `lost`: preserved segments whose SME copies or sectors the deferred
  Keep flush cannot read (16 R566). (R215) -/
  | lakeMountDone (read : CkptRead) (lost : List Nat)
  /-- REGION_NEW: Creates a region from the extension word's fixed fields. (R369) -/
  | regionNew (prog : Nat) (list : List W16) (stall : Bool)
  /-- REGION_GRANT_HOST: Offers a host an extent for RO or RW access. (R240) -/
  | regionGrantHost (prog : Nat)
  /-- REGION_GRANT_LEND: Takes a Tarn window from the host. (R91) -/
  | regionGrantLend (prog : Nat)
  /-- REGION_GRANT_PEER: Grants another sled RO or RW access for peer moves. (R370) -/
  | regionGrantPeer (prog : Nat)
  /-- REGION_REVOKE: Ends a grant, with release, recall and a narrowing change. (R241) -/
  | regionRevoke (prog : Nat)
  /-- REGION_SEAL: Trials, reserves Lake room, narrows grants and homes the region in Lake read-only. (R74) -/
  | regionSeal (prog : Nat) (stall : Bool) (pick : W32)
  /-- REGION_KEEP: Sets or clears the Keep attribute. (R235) -/
  | regionKeep (prog : Nat) (stall : Bool)
  /-- REGION_FREE: Frees a region and releases its storage at C3. (R234) -/
  | regionFree (prog : Nat) (stall : Bool)
  /-- REGION_RELEASE_DONE: A freed region's storage release ends, and its ID becomes reusable. (R233) -/
  | regionReleaseDone (region : RegionId)
  /-- PIN: Pins a range, promoting it to Pond within the reservation limit. (R89) -/
  | pin (prog : Nat)
  /-- UNPIN: Unpins a range. (R368) -/
  | unpin (prog : Nat)
  /-- MOVE_TIER: Moves a range to Spring, Pond, Lake or Tarn. (R371) -/
  | moveTier (prog : Nat)
  /-- MOVE_FILL: Makes every segment of a range ZERO or PATTERN, ending poison. (R371) -/
  | moveFill (prog : Nat)
  /-- MOVE_PEER_PUSH: Copies a range of this region to a peer sled's region. (R260) -/
  | movePeerPush (prog : Nat) (view : PushView)
  /-- MOVE_PEER_PULL: Copies a range from a peer sled into this region. (R260) -/
  | movePeerPull (prog : Nat) (peer : PeerView)
  /-- EVACUATE: Narrows grants, copies the region to a peer region, then frees it. (R262) -/
  | evacuate (prog : Nat) (peerOk : PeerView) (stall : Bool)
  /-- POWER_PROFILE: Switches to the Serving or Training profile values. (R480) -/
  | powerProfile (prog : Nat)
  /-- PROFILE_SWITCH_DONE: Every unit has taken the new profile values, and the switch completes. (R481) -/
  | profileSwitchDone
  /-- FW_STAGE: Stages an image into the other slot from the Chain or from host memory. (R581) -/
  | fwStage (prog : Nat) (image : Image) (read : ImageRead)
  /-- FW_ACTIVATE: Restarts the control and management firmware from the staged slot. (R584) -/
  | fwActivate (prog : Nat)
  /-- FW_CONFIRM: Confirms the probation image and supersedes the previous one. (R588) -/
  | fwConfirm (prog : Nat)
  /-- ADD_DYNAMIC_CAPACITY_RESPONSE: A host accepts or declines an offered extent, and the grant takes effect or is refused. (R240) -/
  | addDynamicCapacityResponse (host : HostId) (offer : Nat) (accept : Bool) (stall : Bool)
  /-- GRANT_OFFER_TIMEOUT: An offer unanswered for 10 s is withdrawn with E_TIMEOUT. (R240) -/
  | grantOfferTimeout (offer : Nat)
  /-- REVOKE_TIMEOUT: A host that has not released its extent in time has it forcibly removed. (R241) -/
  | revokeTimeout (grant : Nat) (stall : Bool)
  /-- RELEASE_DYNAMIC_CAPACITY: A host releases an extent, ending that grant. (R241) -/
  | releaseDynamicCapacity (host : HostId) (grant : Nat) (stall : Bool)
  /-- GET_DYNAMIC_CAPACITY_CONFIGURATION: Mailbox command returning the dynamic capacity configuration. (R283) -/
  | getDynamicCapacityConfiguration (host : HostId)
  /-- GET_DYNAMIC_CAPACITY_EXTENT_LIST: Mailbox command returning the host's extents. (R283) -/
  | getDynamicCapacityExtentList (host : HostId)
  /-- IDENTIFY_MEMORY_DEVICE: Mailbox command returning device identity. (R283) -/
  | identifyMemoryDevice (host : HostId)
  /-- GET_EVENT_RECORDS: Mailbox command returning event log records, including dynamic capacity events. (R283) -/
  | getEventRecords (host : HostId)
  /-- CLEAR_EVENT_RECORDS: Mailbox command clearing event log records. (R283) -/
  | clearEventRecords (host : HostId)
  /-- GET_HEALTH_INFO: Mailbox command returning health information. (R283) -/
  | getHealthInfo (host : HostId)
  /-- GET_SUPPORTED_LOGS: Mailbox command returning the supported logs. (R283) -/
  | getSupportedLogs (host : HostId)
  /-- MAILBOX_UNSUPPORTED: Any other mailbox command completes with Unsupported. (R283) -/
  | mailboxUnsupported (host : HostId) (opcode : W16)
  /-- DOE_CDAT: A DOE request returns the CDAT with DSMAS and DSLBIS entries. (R284) -/
  | doeCdat (host : HostId)
  /-- PRESENCE_SWEEP: Every 10 minutes the presence bits of regions with no entries are cleared. (R251) -/
  | presenceSweep
  /-- PERST_ASSERT: PERST# of a port group resets every host ID on its enabled halves. (R299) -/
  | perstAssert (pg : Fin 4)
  /-- PERST_RELEASE: PERST# releases, and the half leaves Detect. (R300) -/
  | perstRelease (pg : Fin 4)
  /-- HOT_RESET: A hot or secondary bus reset resets every host ID on the half. (R299) -/
  | hotReset (half : Fin 16)
  /-- LINK_DOWN: A data link down or surprise loss resets every host ID on the half. (R299) -/
  | linkDown (half : Fin 16)
  /-- FUNCTION_LEVEL_RESET: An FLR resets the function's host ID. (R299) -/
  | functionLevelReset (host : HostId)
  /-- CXL_RESET: A CXL Reset resets the function's host ID. (R299) -/
  | cxlReset (host : HostId)
  /-- FRESET: A write of 1 to FRESET resets this host ID under R300. (R305) -/
  | freset (host : HostId)
  /-- KDEV_BIND_WRITE: Clearing or changing a binding resets the host ID and applies the new value. (R308) -/
  | kdevBindWrite (host : HostId) (value : W32)
  /-- D3COLD_ENTRY: A function's entry into D3cold acts as PERST# for its host ID. (R297) -/
  | d3coldEntry (host : HostId)
  /-- D3HOT_ENTRY: A function in D3hot stops new dispatch and holds its events. (R297) -/
  | d3hotEntry (host : HostId)
  /-- D0_ENTRY: A function returns to D0, and dispatch and events resume. (R297) -/
  | d0Entry (host : HostId)
  /-- LINK_RETURN: The link or function returns with reset values, and step 6 of the host-scoped reset applies. (R300) -/
  | linkReturn (half : Fin 16) (train : Train)
  /-- BUS_MASTER_DISABLE: Clearing Bus Master Enable loses every Tarn window of the host ID. (R292) -/
  | busMasterDisable (host : HostId)
  /-- RT_STREAM_IDLE: An RT stream without a read for 10 µs closes. (R287) -/
  | rtStreamIdle (half : Fin 16) (host : HostId) (region : RegionId)
  /-- TARN_READ_COMPLETE: A Tarn read's completion arrives and its sectors are checked, with one retry on failure. (R291) -/
  | tarnReadComplete (region : RegionId) (seg : Nat) (chk : Chk) (pick : W32)
  /-- COMPLETION_TIMEOUT: A non-posted sled request passes its completion timeout. (R291) -/
  | completionTimeout (req : Nat)
  /-- PEER_DATA_FRAME: A DATA frame is accepted in a peer lane, its CRC checked and an ACK or NAK sent. (R294) -/
  | peerDataFrame (pbr : BitVec 12) (frame : PFrame) (crcOk : Bool) (pick : W32)
  /-- PEER_PULL_FRAME: A PULL frame starts DATA frames to the puller. (R294) -/
  | peerPullFrame (pbr : BitVec 12) (frame : PFrame) (check : FrameCheck)
  /-- PEER_ACK_FRAME: An ACK frame frees the sender's window of unacknowledged frames. (R294) -/
  | peerAckFrame (pbr : BitVec 12) (frame : PFrame) (check : FrameCheck)
  /-- PEER_NAK_FRAME: A NAK frame makes the sender resend a frame once. (R294) -/
  | peerNakFrame (pbr : BitVec 12) (frame : PFrame) (crcOk : Bool)
  /-- PEER_DONE_FRAME: A DONE frame ends a peer move and draws a final ACK. (R294) -/
  | peerDoneFrame (pbr : BitVec 12) (frame : PFrame) (crcOk : Bool)
  /-- L1_IDLE_EXPIRY: A half without traffic for L1_IDLE initiates ASPM L1. (R296) -/
  | l1IdleExpiry (half : Fin 16)
  /-- L0P_REQUEST: A host's L0p width request is accepted unless RT grants forbid it. (R296) -/
  | l0pRequest (half : Fin 16) (width : BitVec 3)
  /-- CORRECTED_LINK_ERROR: A corrected receiver, FEC or replay error is counted with ERR_COR. (R310) -/
  | correctedLinkError (half : Fin 16)
  /-- MALFORMED_TLP: A malformed TLP or flit from the host gives ERR_FATAL and a link down. (R310) -/
  | malformedTlp (half : Fin 16)
  /-- IDE_CHECK_FAIL: An IDE integrity failure discards the flit and takes the half down. (R310) -/
  | ideCheckFail (half : Fin 16)
  /-- SQ_TAIL_WRITE: A KQ_SQTAIL write makes new descriptors valid, or puts the queue into ERROR. (R320) -/
  | sqTailWrite (host : HostId) (q : QueueNo) (value : W32)
  /-- CQ_HEAD_WRITE: A KQ_CQHEAD write frees completion entries and releases held completions. (R321) -/
  | cqHeadWrite (host : HostId) (q : QueueNo) (value : W32)
  /-- QUEUE_ENABLE: A write of 1 to ENABLE sets and locks the RWL fields and makes the queue RUNNING, or sets ERR. (R348) -/
  | queueEnable (host : HostId) (q : QueueNo) (cfg : W64)
  /-- QUEUE_DISABLE: A write of 0 to ENABLE stops descriptor reads and starts DRAINING. (R348) -/
  | queueDisable (host : HostId) (q : QueueNo)
  /-- QUEUE_DRAINED: A draining queue's running programs complete, and the queue becomes DISABLED. (R348) -/
  | queueDrained (host : HostId) (q : QueueNo)
  /-- DESCRIPTOR_FETCH_DONE: A descriptor read completes and is checked, then readied or completed with E_ARG. (R324) -/
  | descriptorFetchDone (host : HostId) (q : QueueNo) (desc : Line) (words : List W64) (chk : Chk)
  /-- DESCRIPTOR_FETCH_FAIL: A failed descriptor read puts the queue into ERROR with FETCH. (R351) -/
  | descriptorFetchFail (host : HostId) (q : QueueNo)
  /-- COMPLETION_POST_FAIL: A refused completion write puts the queue into ERROR with POST. (R351) -/
  | completionPostFail (host : HostId) (q : QueueNo)
  /-- PROGRAM_DISPATCH: A ready program starts on the chosen eligible core or Lantern. (R400) -/
  | programDispatch (host : HostId) (q : QueueNo) (pick : W32)
  /-- RUN_LIMIT_EXPIRY: A program passes RUNLIM and completes with E_TIMEOUT. (R338) -/
  | runLimitExpiry (prog : Nat)
  /-- DISPATCHER_STALL: 100 ms without a start while work is ready counts as a trip at stage 2. (R532) -/
  | dispatcherStall
  /-- COMMIT_WRITE_DONE: The commit unit finishes writing a commit log to homes. (R398) -/
  | commitWriteDone (prog : Nat) (chk : Chk) (pick : W32)
  /-- FEEDER_STREAM_IDLE: A feeder stream without a read for 10 µs closes. (R395) -/
  | feederStreamIdle (prog : Nat) (region : RegionId)
  /-- BR: Branches, optionally linking. (R364) -/
  | br (prog : Nat)
  /-- LOOP: Decrements a counter and branches while it is non-zero. (R364) -/
  | loop (prog : Nat)
  /-- WAIT_TIME: Waits for IMM µs. (R365) -/
  | waitTime (prog : Nat)
  /-- WAIT_BEAT: Waits until a schedule's beat count reaches g[D]. (R365) -/
  | waitBeat (prog : Nat)
  /-- WAIT_SIGNAL: Waits until a signal counter reaches g[D]. (R365) -/
  | waitSignal (prog : Nat)
  /-- WAIT_TIMEOUT: A WAIT bound runs out, and the program completes with E_TIMEOUT. (R364) -/
  | waitTimeout (prog : Nat)
  /-- SIGNAL: Adds to a signal counter of the host function, waking matching waits. (R366) -/
  | signal (prog : Nat)
  /-- KICK: Serves the engine watchdog of the executing group. (R527) -/
  | kick (prog : Nat)
  /-- FENCE: A commit point, waiting for prefetches when PF is set. (R334) -/
  | fence (prog : Nat)
  /-- HALT: Commits and ends the program with its completion entry. (R335) -/
  | halt (prog : Nat)
  /-- MOVS: Scalar, handle, special-register and predicate operations by form. (R367) -/
  | movs (prog : Nat)
  /-- LD: Loads scalar, register or group data from a region or scratch. (R374) -/
  | ld (prog : Nat) (chk : Chk)
  /-- ST: Stores pending to a region, or directly to scratch. (R374) -/
  | st (prog : Nat)
  /-- GATHER: Copies or sums indexed rows into scratch. (R376) -/
  | gather (prog : Nat) (chk : Chk)
  /-- SCATTER: Writes or adds rows to indexed region rows as pending stores. (R377) -/
  | scatter (prog : Nat)
  /-- PREFETCH: Places a range in Pond without waiting. (R375) -/
  | prefetch (prog : Nat)
  /-- VMAC: Performs an elementwise FMA, FMS, MUL, ADD, RSQ or MAX. (R379) -/
  | vmac (prog : Nat)
  /-- VDOT: Accumulates short dot products. (R380) -/
  | vdot (prog : Nat)
  /-- DEQ: Dequantizes with block scales. (R381) -/
  | deq (prog : Nat)
  /-- SMAXP: Takes one online softmax step. (R382) -/
  | smaxp (prog : Nat)
  /-- TOPK: Merges candidates into a sorted top-k list. (R383) -/
  | topk (prog : Nat)
  /-- RED: Reduces a register or group to a scalar. (R384) -/
  | red (prog : Nat)
  /-- CVT: Converts between element types. (R385) -/
  | cvt (prog : Nat)
  /-- SCHED_STEP: Appends a step record to the step buffer. (R386) -/
  | schedStep (prog : Nat)
  /-- SCHED_LOAD: Checks and loads a schedule's records. (R410) -/
  | schedLoad (prog : Nat) (chk : Chk)
  /-- SCHED_ARM: Arms a schedule, writing its lamp words and block. (R427) -/
  | schedArm (prog : Nat) (chk : Chk) (pick : W32)
  /-- SCHED_DISARM: Disarms a schedule, idling its lamp words. (R428) -/
  | schedDisarm (prog : Nat) (chk : Chk) (pick : W32)
  /-- BEAT: Acts as a host write to a beat doorbell. (R386) -/
  | beat (prog : Nat)
  /-- BEAT_DOORBELL: A beat write advances the beat position and starts and retires instances. (R411) -/
  | beatDoorbell (host : HostId) (q : QueueNo) (sch : Fin 32) (value : W64) (chk : Chk) (pick : W32)
  /-- INSTANCE_PLACED: The last placement of an instance commits, and it settles READY. (R422) -/
  | instancePlaced (host : HostId) (q : QueueNo) (sch : Fin 32) (step : Nat) (pick : W32)
  /-- DEADLINE_EXPIRY: An unplaced instance reaches its deadline and settles to its fallback. (R422) -/
  | deadlineExpiry (host : HostId) (q : QueueNo) (sch : Fin 32) (step : Nat) (pick : W32)
  /-- SCHEDULE_TAKEOVER: The other Lantern takes over a fenced Lantern's schedules and settles overdue instances. (R431) -/
  | scheduleTakeover (lantern : Fin 4) (pick : W32)
  /-- SUPPLY_RANGE: The input enters a warning band. (R450) -/
  | supplyRange (vin : W16)
  /-- SUPPLY_SAG: The input falls below 42.0 V, and the hold-up store carries the sled. (R450) -/
  | supplySag (vin : W16)
  /-- SAG_END: The input rises above 43.0 V, and the sled returns to the input. (R451) -/
  | sagEnd (vin : W16)
  /-- SAG_TIMER_RESET: The input has stayed above 43.0 V for 100 ms, so the ride-through timer resets. (R451) -/
  | sagTimerReset
  /-- RIDE_THROUGH_EXPIRY: The ride-through timer reaches 20 ms, and Dusk flush begins. (R451) -/
  | rideThroughExpiry
  /-- OVERVOLTAGE: Input above 60.5 V for 50 µs opens the input switch and begins Dusk flush. (R450) -/
  | overvoltage (vin : W16)
  /-- OVERCURRENT: Current above 35 A for 1 ms opens the input switch. (R452) -/
  | overcurrent
  /-- PILOT_DUSK_TIMEOUT: The Pilot has not started the flush within 1 ms, so the island commands it. (R49) -/
  | pilotDuskTimeout
  /-- DUSK_FLUSH_END: The flush's Lake steps end, the rails fall, and the sled is OFF. (R453) -/
  | duskFlushEnd
  /-- INPUT_STABLE: Input in range for 2 s with AUTO_ON set starts a cold start. (R557) -/
  | inputStable
  /-- HOLDUP_MEASURE: A 10-minute controlled discharge measures E_MEAS and recomputes the budget. (R456) -/
  | holdupMeasure (joules : Nat) (ok : Bool)
  /-- STORE_ADMIT_TIMEOUT: A dirtying store held 10 ms is admitted beyond A and counted. (R463) -/
  | storeAdmitTimeout (req : Nat) (pick : W32)
  /-- WRITEBACK_ESCALATE: D above B for 10 s escalates write-back to C1. (R464) -/
  | writebackEscalate
  /-- LEDGER_REQUEST: A consumer writes its request slot, and the Pilot answers within 1 ms. (R34) -/
  | ledgerRequest (entry : Fin 21) (ceil : W16) (perm : BitVec 2)
  /-- LEDGER_GRANT: The Pilot writes a grant word to raise or lower a grant. (R35) -/
  | ledgerGrant (entry : Fin 21) (ceil : W16) (perm : BitVec 2)
  /-- LEDGER_ACK: A consumer acknowledges a lowered grant's sequence number. (R35) -/
  | ledgerAck (entry : Fin 21) (seq : Byte)
  /-- LEDGER_FORCED: No acknowledgement in 10 µs forces the consumer's clock to a quarter of its rate. (R35) -/
  | ledgerForced (entry : Fin 21)
  /-- LEDGER_IDLE_LOWER: An entry drawing under half its ceiling for 10 ms is lowered. (R471) -/
  | ledgerIdleLower (entry : Fin 21)
  /-- HW_WAKE_GRANT: The island raises a Banked unit to Lit at its floor within 2 µs. (R472) -/
  | hwWakeGrant (entry : Fin 21)
  /-- GOVERNOR_ESTIMATE: Every 1 µs the governor estimates draw and throttles to stay under the ceiling. (R473) -/
  | governorEstimate (entry : Fin 21) (draw : W16)
  /-- CAP_SAMPLE: Input power is sampled every 100 µs, and ceilings are lowered on a 10 ms excess. (R474) -/
  | capSample (vin iin pin : W16)
  /-- TRIM_IDLE_EXPIRY: A unit idle for TRIM_IDLE enters Trimmed. (R477) -/
  | trimIdleExpiry (entry : Fin 21)
  /-- BANK_IDLE_EXPIRY: A unit Trimmed for BANK_IDLE is made Banked. (R477) -/
  | bankIdleExpiry (entry : Fin 21)
  /-- TRIMMED_PERM_TIMER: Under Training, a tile Trimmed for 10 ms is limited to Trimmed at most. (R480) -/
  | trimmedPermTimer (tile : Fin 12)
  /-- TILE_WAKE_DONE: A tile's wake sequence ends, and requests are accepted. (R479) -/
  | tileWakeDone (tile : Fin 12) (lockOk : Bool)
  /-- THERMAL_READ: Chiplet, NAND and inlet temperatures are read every 1 ms and acted on. (R482) -/
  | thermalRead (tjw tje inlet nand0 nand1 nand2 nand3 : Option W16)
  /-- RC_CALIBRATE: The RC clock is calibrated against the crystal every second. (R475) -/
  | rcCalibrate (factor : W16)
  /-- CRYSTAL_FAIL: The crystal stops, and the timebase continues on the RC clock. (R490) -/
  | crystalFail
  /-- FAST_REF_FAIL: A fast reference stops, and the island switches to the other, or enters VIGIL if both stop. (R490) -/
  | fastRefFail (ref : Fin 2)
  /-- TILE_PLL_LOCK_FAIL: A tile PLL that fails to lock fences the tile's cores and engines. (R490) -/
  | tilePllLockFail (tile : Fin 12)
  /-- STACK_PLL_LOCK_FAIL: A stack interface PLL that fails to lock fences the stack. (R490) -/
  | stackPllLockFail (stack : Fin 12)
  /-- FENCE_SET: A Fence Map bit is set, and every allocator sees it within 1 µs. (R41) -/
  | fenceSet (bit : Fin 1584) (cause : Byte) (set : FenceBy)
  /-- FENCE_RECOVERY: The recovery walk of a fenced unit poisons homes, drops images and rebuilds tables. (R508) -/
  | fenceRecovery (bit : Fin 1584) (lost : List Nat)
  /-- KEVT_ACK_WRITE: Moves the function's Event Ring read index. (R500) -/
  | kevtAckWrite (host : HostId) (value : W32)
  /-- KEVT_LOST_READ: Returns the lost count and clears it. (R500) -/
  | kevtLostRead (host : HostId)
  /-- KEVT_CTL_WRITE: Sets MINSEV and NOTIFY; enabling NOTIFY with records available sends one signal. (R501) -/
  | kevtCtlWrite (host : HostId) (value : W32)
  /-- EVENT_VECTOR_SPACING: A vector 0 signal held back by the 10 µs spacing is sent. (R501) -/
  | eventVectorSpacing (host : HostId)
  /-- LATCH_OPEN: The service latch opens, starting Dusk flush or a safe power-off. (R517) -/
  | latchOpen
  /-- BRIDGE_LINK_FAIL: A bridge link leaves service, with continue, power-off or VIGIL by remaining links. (R519) -/
  | bridgeLinkFail
  /-- WDP_START: A write of 1 to RUN, or a first service, starts and locks the Pilot watchdog. (R523) -/
  | wdpStart (cfg : W32)
  /-- WDP_SERVICE: A WDP_SVC key write completes a service or trips on a bad one. (R524) -/
  | wdpService (key : W32)
  /-- WDP_EARLY_WARNING: The count reaches 75 percent of the timeout and wakes the Pilot. (R525) -/
  | wdpEarlyWarning
  /-- WDP_TIMEOUT: The Pilot watchdog trips and takes its ladder stage. (R525) -/
  | wdpTimeout
  /-- WDP_OSC_FAIL: The watchdog oscillator stops, and the count continues on the 4 MHz clock. (R553) -/
  | wdpOscFail
  /-- WDE_SERVICE: A WDE_SVC write restarts the count or trips on a bad key. (R527) -/
  | wdeService (n : Fin 16) (key : W32)
  /-- WDE_TIMEOUT: An engine watchdog trips and takes its ladder stage. (R528) -/
  | wdeTimeout (n : Fin 16)
  /-- WDE_CLOCK_MONITOR: The chosen clock gives no edge for 2 µs, and the watchdog trips. (R529) -/
  | wdeClockMonitor (n : Fin 16)
  /-- WDE_DISABLE_KEY: A WDE_DIS write advances or restarts the disable sequence. (R530) -/
  | wdeDisableKey (n : Fin 16) (key : W32)
  /-- WDE_ENABLE: A write of 1 to EN enables the watchdog with its count at zero. (R530) -/
  | wdeEnable (n : Fin 16) (cfg : W32)
  /-- WDE_LOCK: A write of 1 to LOCK locks the configuration and the disable sequence. (R531) -/
  | wdeLock (n : Fin 16) (cfg : W32)
  /-- UNIT_RESTART_DONE: A stage 1 restart ends with a self-test that returns the unit or fences it. (R536) -/
  | unitRestartDone (n : Fin 17) (failed : List Nat)
  /-- KEEP_FLUSH_DONE: A warm restart's Keep flush ends, and the restart proceeds. (R537) -/
  | keepFlushDone
  /-- RESET_BUTTON_RELEASE: A press is released and classed, and a class 1 press does a warm restart. (R543) -/
  | resetButtonRelease (ms : Nat)
  /-- RESET_BUTTON_10S: A press reaching 10 s enters VIGIL. (R543) -/
  | resetButton10s
  /-- RESET_FAULTY: A button held 60 s, or asserted at island start, is marked faulty. (R544) -/
  | resetFaulty
  /-- RESET_BUTTON_RESTORED: A faulty button seen released for 1 s is restored. (R544) -/
  | resetButtonRestored
  /-- COLD_START: A power-on reset starts the island, boot ROM and rail sequencing. (R558) -/
  | coldStart
  /-- RAIL_FAULT: A rail group without power-good in 20 ms drops every rail for one retry. (R559) -/
  | railFault
  /-- RAIL_RETRY: After 1 s the rails are retried once, or the sled stays OFF. (R569) -/
  | railRetry (ok : Bool)
  /-- IMAGE_VERIFY_DONE: The boot ROM's verification of the selected slot ends in boot, fallback or DEAD. (R590) -/
  | imageVerifyDone (slot : Fin 2) (ok : Bool) (record : RecRead) (pilotOk : Bool)
  /-- SELF_TEST_DONE: Self-test ends, failing units are fenced, and TRAIN begins. (R558) -/
  | selfTestDone (found : SelfTest)
  /-- SELF_TEST_TIMEOUT: Self-test passes its bound, and unfinished units are fenced. (R569) -/
  | selfTestTimeout (unfinished : List (Fin 1584))
  /-- TRAIN_COMPLETE: The conditions for READY hold, and the ports train. (R560) -/
  | trainComplete (halves : List Train)
  /-- CHAIN_HELLO: A HELLO frame updates the peer's view. (R572) -/
  | chainHello (link : Fin 2) (peer : W16) (ok : Bool)
  /-- HELLO_TIMER: Every 100 ms the sled sends HELLO on both links. (R573) -/
  | helloTimer
  /-- CHAIN_OFFER: An OFFER frame is checked, refused or stored as armed, and forwarded. (R575) -/
  | chainOffer (link : Fin 2) (image : Image) (ok : Bool)
  /-- CHAIN_DATA: A DATA chunk is checked, ACKed or NAKed, forwarded and written. (R573) -/
  | chainData (link : Fin 2) (seq : Nat) (chunk : ChunkIn)
  /-- CHAIN_ACK: An ACK frame lets the sender send more chunks. (R573) -/
  | chainAck (link : Fin 2) (seq : W32) (free : Nat) (ok : Bool)
  /-- CHAIN_NAK: A NAK frame makes the sender resend a chunk. (R573) -/
  | chainNak (link : Fin 2) (seq : Nat) (ok : Bool)
  /-- CHAIN_DONE: A DONE frame ends a transfer once all chunks are forwarded and written. (R573) -/
  | chainDone (link : Fin 2) (ok : Bool) (entries : List (W32 × W64)) (verifies : Bool)
  /-- CHAIN_ABORT: An ABORT frame stops a transfer. (R573) -/
  | chainAbort (link : Fin 2) (ok : Bool)
  /-- CHAIN_ACK_TIMEOUT: No ACK within 1 s resends the chunk, and after three failures the transfer aborts. (R573) -/
  | chainAckTimeout (link : Fin 2) (seq : Nat)
  /-- CHAIN_LINK_UP: 64 good commas bring a Chain link up. (R572) -/
  | chainLinkUp (link : Fin 2)
  /-- CHAIN_LINK_LOSS: A link that loses commas for 1 s is down. (R600) -/
  | chainLinkLoss (link : Fin 2)
  /-- CHUNK_WRITTEN: A chunk is written to SPI-NOR, freeing its buffer, and the slot is STAGED after the last. (R574) -/
  | chunkWritten (seq : Nat)
  /-- SPI_PROGRAM_FAIL: A SPI-NOR program or erase failure marks the slot FAILED. (R601) -/
  | spiProgramFail
  /-- FW_STAGE_TIMEOUT: Chain staging waits 1 h without an offer and completes with E_TIMEOUT. (R581) -/
  | fwStageTimeout
  /-- ACTIVATION_PANIC_WAIT_END: PANIC clears, or 2 s pass, and the activation pause begins. (R584) -/
  | activationPanicWaitEnd
  /-- ACTIVATION_VERIFY_DONE: The boot ROM's verification of the staged image ends in a bank swap or a restore. (R584) -/
  | activationVerifyDone (ok : Bool)
  /-- PROBATION_TICK: Every 10 minutes PROB_EL advances, and probation that ends unconfirmed falls back. (R587) -/
  | probationTick
  /-- SETTINGS_WRITE: The Pilot writes a changed settings record within 1 s. (R593) -/
  | settingsWrite
  /-- SET_ENDPOINT_ID: MCTP control message setting the endpoint ID. (R603) -/
  | setEndpointId (eid : Byte)
  /-- GET_ENDPOINT_ID: MCTP control message returning the endpoint ID. (R603) -/
  | getEndpointId
  /-- GET_MCTP_VERSION_SUPPORT: MCTP control message returning the supported versions. (R603) -/
  | getMctpVersionSupport (ty : Byte)
  /-- GET_MESSAGE_TYPE_SUPPORT: MCTP control message returning the supported message types. (R603) -/
  | getMessageTypeSupport
  /-- GET_VENDOR_DEFINED_MESSAGE_SUPPORT: MCTP control message returning vendor message support. (R603) -/
  | getVendorDefinedMessageSupport (sel : Byte)
  /-- SPDM_GET_VERSION: SPDM version negotiation request. (R611) -/
  | spdmGetVersion (on : Carrier)
  /-- SPDM_GET_CAPABILITIES: SPDM capabilities request. (R611) -/
  | spdmGetCapabilities (on : Carrier)
  /-- SPDM_NEGOTIATE_ALGORITHMS: SPDM algorithm negotiation. (R611) -/
  | spdmNegotiateAlgorithms (on : Carrier)
  /-- SPDM_GET_DIGESTS: Returns the certificate chain digests. (R611) -/
  | spdmGetDigests (on : Carrier)
  /-- SPDM_GET_CERTIFICATE: Returns a certificate chain from slot 0 or 1. (R611) -/
  | spdmGetCertificate (on : Carrier) (slot : Byte)
  /-- SPDM_CHALLENGE: Signs a challenge with the device key. (R611) -/
  | spdmChallenge (on : Carrier) (slot : Byte)
  /-- SPDM_GET_MEASUREMENTS: Returns signed measurements 1 to 7. (R611) -/
  | spdmGetMeasurements (on : Carrier) (index : Byte)
  /-- SPDM_KEY_EXCHANGE: Opens a secured session, up to 8 at once. (R611) -/
  | spdmKeyExchange (on : Carrier)
  /-- SPDM_FINISH: Completes session establishment, with mutual authentication where asked. (R611) -/
  | spdmFinish (session : Nat) (root : Option (BitVec 384))
  /-- SPDM_HEARTBEAT: Keeps a session alive. (R611) -/
  | spdmHeartbeat (session : Nat)
  /-- SPDM_KEY_UPDATE: Updates a session's keys. (R611) -/
  | spdmKeyUpdate (session : Nat)
  /-- SPDM_END_SESSION: Ends a secured session. (R611) -/
  | spdmEndSession (session : Nat)
  /-- IDENTIFY: Galben command returning identity, state and last start fault. (R606) -/
  | identify
  /-- SENSOR: Galben command returning sensor values. (R616) -/
  | sensor (ids : List W16)
  /-- TRC_RESTART: Empties the trace buffer and clears its state. (R625) -/
  | trcRestart
  /-- TRC_FREEZE: Stops trace writing at once. (R625) -/
  | trcFreeze
  /-- TRC_MARK_WRITE: Writes a MARK record with the given value. (R621) -/
  | trcMarkWrite (value : W64)
  /-- REGISTER_WRITE: A write to any register without a row of its own, under the access and range rules. (R638) -/
  | registerWrite (host : HostId) (bar : Bar) (off : Nat) (bytes : List Byte)
  /-- HOLDUP_STORE_EXHAUSTED: The hold-up store runs out during a sag or a Dusk flush, and the rails fall without the flush finishing. (R490) -/
  | holdupStoreExhausted (written : Nat)
  /-- HOLDUP_CHARGE_COMPLETE: The hold-up store reaches full charge, after a start or after a measurement's recharge, and the first or next measurement is taken. (R491) -/
  | holdupChargeComplete (joules : Nat)
  /-- IDE_KM_MESSAGE: An IDE_KM message over DOE programs keys or starts an IDE stream, establishing IDE on the half. (R271) -/
  | ideKmMessage (half : Fin 16) (start : Bool)
  /-- PEER_MOVE_TIMEOUT: A peer move whose frames go unacknowledged passes its completion timeout and ends with E_TIMEOUT and detail PEER. (R309) -/
  | peerMoveTimeout (tag : W32)
  /-- LINK_POWER_STATE_CHANGE: A port half's link enters or leaves L1, L1.1, L1.2 or L2 at the host's request or on traffic. (R298) -/
  | linkPowerStateChange (half : Fin 16) (link : BitVec 4)
  /-- LAKE_FORMAT_DONE: A Lake format finishes within 60 s and runs the warm restart out of VIGIL. (R610) -/
  | lakeFormatDone
  /-- CHANNEL_GROUP_WAKE_DONE: A Lake channel group's sequencers and dies finish waking from Trimmed or Banked, and its held operations proceed. (R220) -/
  | channelGroupWakeDone (group : Fin 4)
  /-- RESET_BUTTON_PRESS: The front RESET button is asserted, and after debounce the sled starts timing the press and shows it as pressed. (R543) -/
  | resetButtonPress
deriving DecidableEq, Repr

end Sys2Proof
end

