-- ==== Sys2Proof/Machine/Tbl.lean ====
section
/-! DEFINITION. Tables of plain data: a list of (key, value) pairs with strictly rising keys. Memory bytes, Region Table
entries, grants, queues and every other sparse structure of the sled is one of these. An unlisted key has the value that
the structure's own reader names. -/

namespace Sys2Proof.Machine

/-- A sparse table, keys strictly rising. -/
abbrev Tbl (α : Type) := List (Nat × α)

/-- The entry at a key. -/
def Tbl.find {α : Type} : Tbl α → Nat → Option α
  | [], _ => none
  | (k, v) :: t, n => if k = n then some v else Tbl.find t n

/-- Writes one entry, keeping the order of the keys. -/
def Tbl.put {α : Type} : Tbl α → Nat → α → Tbl α
  | [], n, x => [(n, x)]
  | (k, v) :: t, n, x =>
    if n < k then (n, x) :: (k, v) :: t
    else if k = n then (n, x) :: t
    else (k, v) :: Tbl.put t n x

/-- Removes one key. -/
def Tbl.del {α : Type} (t : Tbl α) (n : Nat) : Tbl α := t.filter (fun p => p.1 != n)

/-- The entry at a key, or a default. -/
def Tbl.getD {α : Type} (t : Tbl α) (n : Nat) (d : α) : α := (t.find n).getD d

/-- Writes a value; the default value is not listed, so that equal tables are equal data. -/
def Tbl.set {α : Type} [DecidableEq α] (t : Tbl α) (n : Nat) (d x : α) : Tbl α :=
  if x = d then t.del n else t.put n x

/-- Changes the entry at a key, if it is listed. -/
def Tbl.upd {α : Type} (t : Tbl α) (n : Nat) (f : α → α) : Tbl α :=
  match t.find n with
  | some v => t.put n (f v)
  | none => t

/-- Whether a key is listed. -/
def Tbl.has {α : Type} (t : Tbl α) (n : Nat) : Bool := (t.find n).isSome

/-- The lowest key not listed, from a start, within a bound. -/
def Tbl.lowestFree {α : Type} (t : Tbl α) : Nat → Nat → Option Nat
  | 0, _ => none
  | f + 1, n => if t.has n then Tbl.lowestFree t f (n + 1) else some n

/-- Keys strictly rising. -/
def Tbl.sorted {α : Type} : Tbl α → Bool
  | [] => true
  | [_] => true
  | (k, _) :: (k', v') :: t => decide (k < k') && Tbl.sorted ((k', v') :: t)

end Sys2Proof.Machine
end

