-- ==== Sys2Proof/Machine/Parts/Names.lean ====
section
/-! DEFINITION. The named states and units of the sled (00 R1, R20, R21; 06 R231; 02 R57). -/

namespace Sys2Proof.Machine

/-- The three products (00 R1); all differences are in the product variants table (00 R2). -/
inductive Variant
  | l64 | l128 | p
deriving DecidableEq, Repr

/-- The eight sled states (00, sled states table). -/
inductive SledSt
  | off | boot | train | ready | serve | duskFlush | vigil | dead
deriving DecidableEq, Repr

/-- Region states (06 R231). -/
inductive RState
  | freed | new | active | seald | evacuating
deriving DecidableEq, Repr

/-- Segment states (02 R57). -/
inductive SegSt
  | zero | pattern | opn | packed | lake | tarn | transit | poisoned
deriving DecidableEq, Repr

/-- Lamp word states (11; 00, other state sets). -/
inductive Lamp
  | ready | alt | direct | cold
deriving DecidableEq, Repr

/-- Power states of a unit (13). -/
inductive PState
  | lit | trimmed | banked | dark
deriving DecidableEq, Repr

/-- Profiles (13 R480). -/
inductive Profile
  | serving | training
deriving DecidableEq, Repr

/-- Lake wear phases (05 R207). -/
inductive Wear
  | bright | dim | guttering | spent
deriving DecidableEq, Repr

/-- The four tiers (02, tiers table). -/
inductive Tier
  | spring | pond | lake | tarn
deriving DecidableEq, Repr

/-- The units that a Fence Map bit can stand for (01 R40, 14 R502). -/
inductive FUnit
  | wick (n : Nat) | lantern (n : Nat) | codec (n : Nat) | pch (n : Nat) | stack (n : Nat) | half (n : Nat) | die (n : Nat)
deriving DecidableEq, Repr

/-- Where a stored run or sector lies (02 R58, R59): a near address with its `SPR` bit, a flash page with its first
sector, or a Tarn window with its first sector. -/
inductive Loc
  | near (spr : Bool) (a : Nat)
  | flash (fpa : Nat) (sector : Nat)
  | tarn (window : Nat) (sector : Nat)
deriving DecidableEq, Repr

end Sys2Proof.Machine
end

