-- ==== Sys2Proof/Machine/Parts/Region.lean ====
section
/-! DEFINITION. The Region Table, grants, windows and peer grants (01 R28 to R32; 06 R231 to R246; 09 R370). -/

namespace Sys2Proof.Machine

/-- A Region Table entry (06 R236). -/
structure REnt where
  gen : W32
  st : RState
  keep : Bool
  rt : Bool
  shared : Bool
  ponly : Bool
  back : Bool
  hint : BitVec 4
  policy : BitVec 2
  cls : BitVec 2
  owner : HostId
  coarse : Bool
  dlost : Bool
  sizeG : BitVec 18
  nhost : BitVec 11
  ilSet : W16
  ilWays : BitVec 4
  ilPos : BitVec 4
  ilGran : BitVec 3
  tset : W32
  root : W32
  slist : W32
deriving DecidableEq, Repr

/-- The entry of an ID that holds no region, at power-on. -/
def REnt.freed : REnt :=
  ⟨0, .freed, false, false, false, false, false, 0, 0, 0, 0, false, false, 0, 0, 0, 0, 0, 0, 0, 0, 0⟩

/-- A host grant: one dynamic capacity extent (06 R238 to R241; 07 R280). -/
structure Grant where
  host : HostId
  region : RegionId
  /-- first granule and number of granules. -/
  first : Nat
  count : Nat
  rw : Bool
  /-- base of the extent in the host's DPA space. -/
  dpa : Nat
deriving DecidableEq, Repr

/-- An offer that awaits its host's answer (06 R240): the grant as it will stand, and the program that waits. -/
structure Offer where
  grant : Grant
  prog : Nat
  /-- the destination g register of the grant number. -/
  d : Nat
deriving DecidableEq, Repr

/-- A host grant's extent that has been forcibly removed or released while its revoke is not complete (06 R241). -/
inductive RevStage
  | waitRelease | recall | change
deriving DecidableEq, Repr

/-- A revoke in progress (06 R241; 09 R370): the programs that wait for it, oldest first. -/
structure Revoke where
  progs : List Nat
  stage : RevStage
deriving DecidableEq, Repr

/-- A Tarn window (02 R91). -/
structure Window where
  host : HostId
  base : Nat
  size : Nat
deriving DecidableEq, Repr

/-- A peer grant: the whole region, for peer moves (06 R238, 09 R370). -/
structure PGrant where
  sled : W16
  region : RegionId
  rw : Bool
deriving DecidableEq, Repr

/-- What an entry change that has made its entry odd will write, or restore (01 R28, R32). -/
structure Stalled where
  region : RegionId
  /-- content at the last even generation, with the changes that have waited. -/
  shadow : REnt
  /-- the program whose control instruction began the change, when a program did. -/
  prog : Option Nat
  /-- grant number index when the change is step 4 of a host grant's revoke, which is made again after the rollback. -/
  revoke : Option Nat
  /-- changes of other writers that have waited for the token while the entry stood odd: they stand in `shadow`, one generation each. -/
  late : Nat
deriving DecidableEq, Repr

/-- A narrowing change that has been written and whose instruction waits for requests of earlier generations (01 R31). -/
structure Drain where
  region : RegionId
  gen : W32
  prog : Nat
deriving DecidableEq, Repr

/-- A region being evacuated (06 R262): the state before and the RW grants narrowed at the start. -/
structure EvacRec where
  before : RState
  narrowed : List Nat
deriving DecidableEq, Repr

/-- Per-region counts (14 R494). -/
structure RCnt where
  poisoned : Nat
  lostLines : Nat
  poisonReads : Nat
  discarded : Nat
  codecFault : Nat
  sectorTag : Nat
deriving DecidableEq, Repr

/-- Region Table state. -/
structure RtS where
  ent : Tbl REnt
  /-- share slots: 64 per region, the host ID in each taken slot (06 R237, R246). -/
  slots : Tbl HostId
  grants : Tbl Grant
  offers : Tbl Offer
  /-- extents that have left their host (released or forcibly removed) while the grant's revoke runs. -/
  gone : List Nat
  revokes : Tbl Revoke
  windows : Tbl Window
  /-- 8-bit epoch per window index (03 R110). -/
  epochs : Tbl Byte
  peers : Tbl PGrant
  tsets : Tbl (List Nat)
  stalled : List Stalled
  drains : List Drain
  evac : Tbl EvacRec
  /-- regions FREED whose storage release has not ended (06 R233, R234). -/
  releasing : List Nat
  cnt : Tbl RCnt
  /-- age clock at REGION.NEW, per region (02 R57). -/
  born : Tbl W16
  /-- store-clock ms of the last GRANT_RO_WRITE per grant and POISON_WRITE per region (06 R243, 14 R512). -/
  roAt : Tbl Nat
  pwAt : Tbl Nat
deriving DecidableEq, Repr

end Sys2Proof.Machine
end

