-- ==== Sys2Proof/Machine/Parts/Map.lean ====
section
/-! DEFINITION. The Segment Map, moves, trials and the sharer directory (02 R54 to R87; 06 R245 to R254). -/

namespace Sys2Proof.Machine

/-- A Segment Map Entry: 16 bytes as two words (02 R57, R58). -/
structure Sme where
  w0 : W64
  w1 : W64
deriving DecidableEq, Repr

/-- What started a move, and so who hears of its end. -/
inductive MoveFor
  | evict            -- age eviction, low-water reclaim, map cache, window use
  | demand           -- a demand miss or prefetch promotion
  | op (n : Nat)     -- a control instruction's operation
  | step (n : Nat)   -- a Lamplighter instance
  | ftl              -- garbage collection, relocation, patrol
  | wback            -- write-back of dirty Keep data
deriving DecidableEq, Repr

/-- A move or image placement in flight: the SME token of its segment is held (02 R68, R75). -/
structure Move where
  region : RegionId
  seg : Nat
  dest : Loc
  /-- sectors of the destination run. -/
  len : Nat
  /-- an image placement or image move: the home stays (02 R75). -/
  image : Bool
  /-- a seal's move: commits LAKE with the former home as its image (02 R74). -/
  sealing : Bool
  /-- verification failures so far (02 R69). -/
  fails : Nat
  /-- step 5 has passed for a move to Lake whose stripe is not yet programmed (05 R194). -/
  verified : Bool
  /-- class 0 to 3 (06 R263). -/
  cls : Nat
  why : MoveFor
deriving DecidableEq, Repr

/-- A run whose release waits for requests that resolved to it (02 R68 step 7, R76). -/
structure Release where
  loc : Loc
  len : Nat
  /-- 1 for an image's sectors (02 R76). -/
  image : Bool
deriving DecidableEq, Repr

/-- Segment Map state. -/
structure MapS where
  sme : Tbl Sme
  moves : Tbl Move
  moveNo : Nat
  /-- codec engine of each segment whose trial pack runs, key: the segment's (02 R73; 03 R134). -/
  trials : Tbl Nat
  /-- store-clock ms before which a segment is not submitted again (02 R73). -/
  trialAfter : Tbl Nat
  /-- the model's own record of what the encoders have made of a segment's bytes: 3 for LZV, 8 + `DTYPE` for EXP, the bytes, and the form, none
  where no form of at most 14 sectors came out; the engines all make the same choices (03 R652). -/
  forms : List (Nat × List Byte × Option Packed)
  rel : Tbl Release
  relNo : Nat
  /-- runs that only a malformed SME named: out of use until the free lists are rebuilt (02 R61). -/
  lostRuns : List (Loc × Nat)
  /-- map pages stored in Lake and not in the map cache (02 R64). -/
  away : List Nat
  /-- stacks on which reclaim runs (02 R82). -/
  low : List Nat
  capWarn : Bool
  capCrit : Bool
  /-- segments in the SME lookaside of each chiplet, most recent first (12 R435). -/
  look : List (Nat × Nat)
deriving DecidableEq, Repr

/-- `DSTATE` of a directory entry (06 R248); an entry that is BUSY is one with a snoop in flight. -/
inductive DState
  | shared | excl
deriving DecidableEq, Repr

/-- A directory entry (06 R248). For `excl`, `vec` holds the host ID in bits [9:0]. `busy` is DSTATE 3. -/
structure DEnt where
  line : BitVec 40
  region : RegionId
  st : DState
  coarse : Bool
  vec : W64
  busy : Bool
deriving DecidableEq, Repr

/-- Back-invalidate snoop kinds (06 R249). -/
inductive SnpKind
  | inv | data | cur
deriving DecidableEq, Repr

/-- A snoop in flight: one host that has not yet answered for one line (06 R249). -/
structure Snoop where
  region : RegionId
  line : BitVec 40
  host : HostId
  kind : SnpKind
deriving DecidableEq, Repr

/-- CXL.mem request kinds (07 R285). -/
inductive ReqKind
  | rd | rdOwn | inv | wr | wrPtl
  /-- the modified line of a snoop response that waits for its segment. -/
  | wback
deriving DecidableEq, Repr

/-- Why a request is held (01 R29; 02 R65, R70, R87; 04 R159; 05 R218; 06 R249; 13 R462). -/
inductive Held
  | odd           -- the Region Table entry is odd
  | busy          -- its line is BUSY, or the request itself waits for snoops
  | cur           -- its own BISnpCur is in flight
  | recall        -- waits for way 0 of its set to be recalled
  | miss          -- waits for a Lake, Tarn or map read
  | token         -- waits for a promotion's commit
  | space         -- waits for sectors of its reservation, at most 10 ms
  | admission         -- waits for the dirty-Keep admission level, at most 10 ms
  | wake          -- waits for a unit to wake
  | bank          -- waits in a bank queue while its pseudo-channel retrains
deriving DecidableEq, Repr

/-- A held host request, in arrival order. -/
structure HReq where
  no : Nat
  host : HostId
  half : Nat
  dpa : BitVec 48
  kind : ReqKind
  /-- a read without caching, or a write whose sender keeps no copy (06 R249). -/
  nocache : Bool
  region : RegionId
  line : BitVec 40
  gen : W32
  /-- the content of the entry, and the grant with its number, that it looked up: it completes under them (01 R30). -/
  ent : REnt
  gnt : Option (Nat × Grant)
  data : BitVec 512
  mask : W64
  poison : Bool
  why : Held
deriving DecidableEq, Repr

/-- Directory state. -/
structure DirS where
  /-- entries in allocation order, oldest first (06 R247). -/
  ent : List DEnt
  snoops : List Snoop
  /-- lost lines: chiplet, region, line (06 R254). -/
  lost : List (Nat × RegionId × BitVec 40)
  /-- presence bits that are 1: pseudo-channel, region (06 R251). -/
  pres : List (Nat × Nat)
  recalls : Nat
  held : List HReq
  reqNo : Nat
deriving DecidableEq, Repr

end Sys2Proof.Machine
end

