-- ==== Sys2Proof/Machine/Parts/PondLake.lean ====
section
/-! DEFINITION. Pond controllers (04 R139 to R177) and Lake (05 R181 to R230). -/

namespace Sys2Proof.Machine

/-- A `PND_ROWLOG` entry that is not empty (04 R173). -/
structure RowLog where
  row : BitVec 15
  slot : BitVec 6
  count : Byte
  age : W16
deriving DecidableEq, Repr

/-- A retrain that is due (04 R158 to R160). -/
structure Due where
  cause : BitVec 3
  /-- an error-rate cause started or joined it. -/
  err : Bool
  /-- it has waited 1 ms for PANIC and starts anyway. -/
  forced : Bool
  /-- it is running. -/
  running : Bool
deriving DecidableEq, Repr

/-- One pseudo-channel controller (04 R169, R170, R173). -/
structure Pch where
  /-- `REF_MODE` as written, and the mode in force (R153). -/
  refMode : Bool
  steady : Bool
  pdTimer : BitVec 9
  /-- trained and in service. -/
  svc : Bool
  tTrain : Byte
  cause : BitVec 3
  trainCnt : W32
  ce1 : W32
  ce23 : W32
  ue : W16
  capar : W16
  rowlog : List RowLog
  /-- refresh debt of bank slots that carry any (R152). -/
  debt : Tbl Nat
  /-- SIDs in power-down (R154). -/
  pd : List Nat
  /-- every SID in self-refresh (R156). -/
  selfRef : Bool
  due : Option Due
  /-- one command-parity failure stands (R163). -/
  parity : Bool
  /-- corrected sectors in the current 1 s window (R158). -/
  window : Nat
  /-- retrains for error rate in a row, and the ms of the last (R161). -/
  errRuns : Nat
  errAt : Nat
  /-- place of its last training among all trainings (R159). -/
  trainNo : Nat
deriving DecidableEq, Repr

/-- A controller at power-on. -/
def Pch.reset : Pch :=
  { refMode := false, steady := false, pdTimer := 8, svc := false, tTrain := 0, cause := 0, trainCnt := 0, ce1 := 0, ce23 := 0, ue := 0,
    capar := 0, rowlog := [], debt := [], pd := [], selfRef := false, due := none, parity := false, window := 0,
    errRuns := 0, errAt := 0, trainNo := 0 }

/-- One stack's temperature (04 R151, `PND_TEMP` R173). Temperatures are whole degrees, two's complement in 16 bits. -/
structure Stk where
  /-- the last good reading. -/
  tNow : W16
  valid : Bool
  tMax : W16
  /-- the read just before, good or not. -/
  last : Option W16
  /-- some reading since power-on was good. -/
  seen : Bool
  /-- good reads in a row, while the reported temperature is not in use. -/
  good : Nat
  lost : Bool
  /-- the 1.95 µs interval is in use by temperature. -/
  hot : Bool
deriving DecidableEq, Repr

/-- A stack at power-on. -/
def Stk.reset : Stk :=
  { tNow := 0, valid := false, tMax := 0, last := none, seen := false, good := 0, lost := false, hot := false }

/-- A request in a bank queue or at a port of a controller (04 R143 to R147). -/
structure BReq where
  /-- place in the order of arrival. -/
  no : Nat
  port : PPort
  cls : Nat
  bank : Nat
  row : Nat
  sector : Nat
  /-- the urgency level that its age has reached. -/
  level : Nat
  /-- how often a younger request of its bank has been issued before it. -/
  passed : Nat
  /-- the held host request whose access it is. -/
  req : Option Nat
deriving DecidableEq, Repr

/-- The queues of one controller, its open rows by bank slot, and the rotation pointer. -/
structure BankQ where
  reqs : List BReq
  atPort : List BReq
  rows : Tbl Nat
  ptr : Nat
  no : Nat
deriving DecidableEq, Repr

/-- Queues at power-on: empty, every row closed. -/
def BankQ.reset : BankQ := { reqs := [], atPort := [], rows := [], ptr := 0, no := 0 }

/-- Pond (04). -/
structure PondS where
  pch : Tbl Pch
  bq : Tbl BankQ
  stk : Tbl Stk
  lat : W64
  panicReg : W32
  errctl : W32
  /-- halves whose stream buffer signals PANIC, with the pseudo-channels it presents it to (R148). -/
  panic : Tbl (List Nat)
  missHost : W16
  missWick : W16
  missCodec : W16
  missMove : W16
  asserts : W32
  forced : W32
  /-- trainings so far, for their order (R159). -/
  trainNo : Nat
  /-- `PND_SPRERR`, per Wick core: corrected and uncorrectable sectors. -/
  sprCe : Tbl W32
  sprUe : Tbl W16
  /-- ms of the last power-on, from which the on-die corrections are counted (R173). -/
  odeFrom : Nat
deriving DecidableEq, Repr

/-- Pond at power-on (19 R647). -/
def PondS.reset : PondS :=
  { pch := [], bq := [], stk := [], lat := 0x0FA001E0014000A0#64, panicReg := 0x00043219#32, errctl := 0x01180100#32, panic := [],
    missHost := 0, missWick := 0, missCodec := 0, missMove := 0, asserts := 0, forced := 0, trainNo := 0, sprCe := [], sprUe := [], odeFrom := 0 }

/-- State of a superblock (05 R189, R201). An unlisted one is erased and never used. -/
inductive SbSt
  | free | opened | closed
deriving DecidableEq, Repr

/-- A superblock of the data area or of the Dusk reserve. -/
structure Sb where
  st : SbSt
  erase : Nat
  /-- store-clock ms of its last program and of its last patrol sample. -/
  progAt : Nat
  sampleAt : Nat
  /-- blocks retired from it: member numbers channel x 4 + plane. -/
  retired : List Nat
  /-- page reads per block, same numbering (R204). -/
  reads : Tbl Nat
deriving DecidableEq, Repr

/-- An erased, unused superblock. -/
def Sb.reset : Sb := { st := .free, erase := 0, progAt := 0, sampleAt := 0, retired := [], reads := [] }

/-- The streams that write runs (05 R192). -/
inductive Strm
  | host | cold | metaS
deriving DecidableEq, Repr

/-- A programmed stripe as flash holds it: the `WSEQ` of its first page, its members' channels in the order they were programmed, the parity page's
channel last, and those whose page holds a run, with the sectors in use (05 R187, R190, R193). -/
structure WStripe where
  wseq : Nat
  members : List Nat
  par : Nat
  data : Tbl Nat
  isMeta : Bool
deriving DecidableEq, Repr

/-- A summary entry: the owner of a run and its stored form (05 R195). -/
structure Summ where
  region : RegionId
  seg : Nat
  csize : Nat
  codec : BitVec 3
deriving DecidableEq, Repr

/-- An open stripe: stripe `idx` of a superblock is page idx / 4 of plane idx mod 4 (assumption log 18). `fill` gives the
sectors taken per channel. -/
structure Stripe where
  sb : Nat
  idx : Nat
  strm : Strm
  fill : Tbl Nat
  /-- moves whose runs it holds. -/
  moves : List Nat
  /-- full: it takes no further run. -/
  full : Bool
deriving DecidableEq, Repr

/-- A journal record (05 R197). -/
inductive JRec
  | seg (region : RegionId) (seg : Nat) (e : Sme)
  | region (region : RegionId) (e : REnt)
  | regionDrop (region : RegionId)
  /-- location of the checkpoint's table of contents, and `WSEQ` at its start. -/
  | checkpoint (toc : Nat) (wseq : Nat)
  | retire (sb member : Nat)
  | flushBegin
  | flushEnd (count : Nat)
  /-- a record of a reserved type, which the sled never writes and replay skips (05 R215). -/
  | other (type : Byte)
deriving DecidableEq, Repr

/-- The erase counts and page reads of a superblock's blocks, as a block table holds them (05 R199). -/
structure BlockRow where
  erase : Nat
  reads : Tbl Nat
deriving DecidableEq, Repr

/-- What a checkpoint holds: the entries, SMEs and root lists of the Keep regions, and the block table (05 R199). -/
structure Ckpt where
  ent : Tbl REnt
  sme : Tbl Sme
  roots : Tbl Nat
  blocks : Tbl BlockRow
deriving DecidableEq, Repr

/-- A checkpoint of nothing. -/
def Ckpt.empty : Ckpt := ⟨[], [], [], []⟩

/-- Lake (05). -/
structure LakeS where
  wear : Wear
  mounted : Bool
  /-- write-protected after a failed mount (R229). -/
  wp : Bool
  sb : Tbl Sb
  retired : Nat
  peMax : Nat
  hostOpen : Option (Nat × Nat)
  coldOpen : Option (Nat × Nat)
  metaOpen : Option (Nat × Nat)
  /-- stripes as programmed, by superblock x 9,216 + stripe. -/
  written : Tbl WStripe
  /-- summary entries of runs, by location in the LAKE form of SME word 1 (R195). -/
  summ : Tbl Summ
  /-- map pages stored in the meta stream: the entry of an index page, `ABSENT` in bit 46 (R196). -/
  mapAt : Tbl Nat
  /-- index pages stored there, by region x 2^17 + map page / 512: the entries of the root lists (R196). -/
  idxAt : Tbl Nat
  /-- index pages changed since they were last written. -/
  idxDirty : List Nat
  /-- the block table written last (R199, R214). -/
  btab : Tbl BlockRow
  /-- the sequencers have read their bad-block tables (R184). -/
  bbt : Bool
  stripes : Tbl Stripe
  stripeNo : Nat
  /-- sectors of Lake user space reserved by seals (02 R74). -/
  resv : Nat
  /-- Lake or Tarn reads in progress: key of the segment, and the program that waits, if one does (05 R218). -/
  misses : List (Nat × Option Nat)
  wseq : Nat
  jseq : Nat
  mark : Nat
  /-- records since the checkpoint before the latest one, oldest first; the first `jmark` are older than the latest. -/
  jour : List JRec
  jmark : Nat
  ckpt : Ckpt
  ckptOld : Ckpt
  /-- sectors of the Dusk reserve in use (R213). -/
  duskUsed : Nat
  urgent : Bool
  bgc : Bool
  ctl : W32
  hostPg : W64
  nandPg : W64
  retry : W32
  recon : W32
  rdReloc : W16
  patReloc : W16
  progFail : W16
  eraseFail : W16
  /-- dies whose LAKE_RECON has posted (R227). -/
  reconDies : List Nat
deriving DecidableEq, Repr

/-- Lake as manufactured (05 R207; assumption log 9). -/
def LakeS.reset : LakeS :=
  { wear := .bright, mounted := false, wp := false, sb := [], retired := 0, peMax := 0, hostOpen := none, coldOpen := none,
    metaOpen := none, written := [], summ := [], mapAt := [], idxAt := [], idxDirty := [], btab := [], bbt := false,
    stripes := [], stripeNo := 0, resv := 0, misses := [], wseq := 0, jseq := 0, mark := 0, jour := [], jmark := 0, ckpt := .empty,
    ckptOld := .empty, duskUsed := 0, urgent := false, bgc := false, ctl := 0x0027040C#32, hostPg := 0, nandPg := 0, retry := 0,
    recon := 0, rdReloc := 0, patReloc := 0, progFail := 0, eraseFail := 0, reconDies := [] }

end Sys2Proof.Machine
end

