-- ==== Sys2Proof/Machine/BankQ.lean ====
section
/-! DEFINITION. Bank queues of a Pond controller: which requests may enter, which one each bank chooses as its head, and which head is issued
(04 R143 to R149). Command timings are out of scope (assumption log 15), so every head is ready. -/

namespace Sys2Proof.Machine

/-- Urgency level of a queued request (R145): what its age has given it; P-RT stands at 3, and at 4 under PANIC. -/
def BReq.urgency (x : BReq) (panic : Bool) : Nat := if x.port = .rt then (if panic then 4 else 3) else x.level

/-- Whether a request may issue: under PANIC no P-MOVE request of class C3 and no P-CODEC trial does (R149). -/
def BReq.goes (x : BReq) (panic : Bool) : Bool := !(panic && x.cls == 3 && (x.port == .move || x.port == .codec))

/-- Whether a bank queue has an entry that a request may use (R144): entry 7 is P-RT's, and P-CODEC and P-MOVE hold at most 4 together. -/
def BankQ.room (q : BankQ) (x : BReq) : Bool :=
  let here := q.reqs.filter (fun y => y.bank == x.bank)
  let other := here.filter (fun y => y.port != .rt)
  let back := here.filter (fun y => y.port == .codec || y.port == .move)
  decide (here.length < 8) && (x.port == .rt || (decide (other.length < 7) && (!(x.port == .codec || x.port == .move) || decide (back.length < 4))))

/-- A request enters its bank queue, or is held at its port behind those that wait there (R144). -/
def BankQ.enter (q : BankQ) (x : BReq) : BankQ :=
  if q.atPort.all (fun y => y.port != x.port) ∧ q.room x = true then { q with reqs := q.reqs ++ [x] } else { q with atPort := q.atPort ++ [x] }

/-- Requests held at the ports enter as entries fall free, in arrival order per port. -/
def BankQ.refill (q : BankQ) : BankQ := q.atPort.foldl BankQ.enter { q with atPort := [] }

/-- The entries of a bank from which its head is chosen: those that may issue, each the oldest for its sector (R144). -/
def BankQ.entries (q : BankQ) (panic : Bool) (bank : Nat) : List BReq :=
  (q.reqs.filter (fun x => x.bank == bank && x.goes panic)).filter (fun x => (q.reqs.find? (fun y => y.sector == x.sector)) == some x)

/-- The head of a bank (R147): the highest urgency, then the lowest class, then a hit of the open row while the oldest has been passed over
fewer than 16 times, else the oldest. -/
def BankQ.head (q : BankQ) (panic : Bool) (bank : Nat) : Option BReq :=
  let l := q.entries panic bank
  let u := (l.map (fun x => x.urgency panic)).foldl max 0
  let l1 := l.filter (fun x => x.urgency panic == u)
  let c := (l1.map (fun x => x.cls)).foldl min 3
  let l2 := l1.filter (fun x => x.cls == c)
  match l2.head? with
  | none => none
  | some o => if o.passed < 16 then (l2.find? (fun x => q.rows.find bank == some x.row)).or (some o) else some o

/-- The bank whose head is issued: the first from the rotation pointer with a head at the highest urgency and, there, the lowest class. -/
def BankQ.pick (q : BankQ) (panic : Bool) : Option BReq :=
  let heads := (((List.range 64).map (fun i => (q.ptr + i) % 64)).filter (fun b => q.reqs.any (fun x => x.bank == b))).filterMap (q.head panic)
  let u := (heads.map (fun x => x.urgency panic)).foldl max 0
  let top := heads.filter (fun x => x.urgency panic == u)
  let c := (top.map (fun x => x.cls)).foldl min 3
  top.find? (fun x => x.cls == c)

/-- A request is issued: its row is open, the pointer moves past a bank that receives an activate, the older entries of its bank that it passed
over count it, and a held request may enter. -/
def BankQ.issue (q : BankQ) (x : BReq) : BankQ :=
  BankQ.refill { q with
    reqs := (q.reqs.filter (fun y => y.no != x.no)).map (fun y => if y.bank = x.bank ∧ y.no < x.no then { y with passed := y.passed + 1 } else y)
    rows := q.rows.put x.bank x.row
    ptr := if q.rows.find x.bank = some x.row then q.ptr else (x.bank + 1) % 64 }

/-- Issues requests one after the other: the queue left, and the requests in the order of their issue. `fuel` bounds the steps. -/
def BankQ.drain (panic : Bool) : Nat → BankQ → BankQ × List BReq
  | 0, q => (q, [])
  | n + 1, q =>
    match q.pick panic with
    | none => (q, [])
    | some x =>
      let r := BankQ.drain panic n (q.issue x)
      (r.1, x :: r.2)

/-- The oldest queued request of a port reaches an urgency level by its age (R145). -/
def BankQ.age (q : BankQ) (port : PPort) (level : Nat) : BankQ :=
  match q.reqs.find? (fun x => x.port == port && decide (x.level < level)) with
  | some o => { q with reqs := q.reqs.map (fun x => if x.no = o.no then { x with level := level } else x) }
  | none => q

end Sys2Proof.Machine
end

