-- ==== Sys2Proof/Machine/Codec.lean ====
section
/-! DEFINITION. The five stored forms of a segment and the sector check (03 R105 to R130, R652). Byte strings are lists with
byte 0 first. -/

namespace Sys2Proof.Machine

/-- Byte i of a byte string, 0 past its end. -/
def byteAt (l : List Byte) (i : Nat) : Nat := (l.getD i 0).toNat

/-- A little-endian 16-bit word at byte i (00 R14). -/
def u16At (l : List Byte) (i : Nat) : Nat := byteAt l i + 256 * byteAt l (i + 1)

/-- n bytes of a number, little-endian (00 R14). -/
def toBytes : Nat → Nat → List Byte
  | 0, _ => []
  | n + 1, v => BitVec.ofNat 8 v :: toBytes n (v / 256)

/-- The number a byte string spells, little-endian (00 R14). -/
def fromBytes : List Byte → Nat
  | [] => 0
  | b :: t => b.toNat + 256 * fromBytes t

/-- A line from its 64 bytes. -/
def lineOfBytes (l : List Byte) : BitVec 512 := BitVec.ofNat 512 (fromBytes (l.take 64))

/-- n zero bytes. -/
def zeros (n : Nat) : List Byte := List.replicate n 0

/-- Segment bytes of a PATTERN segment (03 R107). -/
def patternBytes (w1 : W64) : List Byte := (List.replicate 512 (toBytes 8 w1.toNat)).flatten

/-! ### LZV (03 R115 to R119) -/

/-- `LEN` and `MODE` of quarter q from the 8-byte header (03 R116). -/
def lzvEntry (run : List Byte) (q : Nat) : Nat × Nat :=
  let e := u16At run (2 * q)
  (e % 2048, e / 2048 % 4)

/-- The header rules of 03 R126: MODE and LEN of every quarter, and T within the run. -/
def lzvHeaderOk (run : List Byte) (csize : Nat) : Bool :=
  let ok := fun q =>
    match lzvEntry run q with
    | (len, 0) => decide (1 ≤ len) && decide (len ≤ 1023)
    | (len, 1) => len == 1024
    | (len, 2) => len == 0
    | _ => false
  let t := 8 + (lzvEntry run 0).1 + (lzvEntry run 1).1 + (lzvEntry run 2).1 + (lzvEntry run 3).1
  ok 0 && ok 1 && ok 2 && ok 3 && decide (t ≤ 256 * csize)

/-- Total length T of an LZV run (03 R115). -/
def lzvT (run : List Byte) : Nat :=
  8 + (lzvEntry run 0).1 + (lzvEntry run 1).1 + (lzvEntry run 2).1 + (lzvEntry run 3).1

/-- Where the stream of quarter q starts (03 R119). -/
def lzvStart (run : List Byte) (q : Nat) : Nat :=
  8 + ((List.range q).map (fun i => (lzvEntry run i).1)).sum

/-- A copy of `len` bytes from `off` bytes back, onto output held newest first (03 R118). -/
def lzvCopy : Nat → Nat → List Byte → Option (List Byte)
  | 0, _, out => some out
  | n + 1, off, out =>
    match out[off - 1]? with
    | some b => lzvCopy n off (b :: out)
    | none => none

/-- Decodes the tokens of one CODED quarter (03 R118). `stop` is the output size at which a line read stops; a whole
decode passes 1,025 and must meet END with 1,024 bytes and LEN consumed. Output newest first. -/
def lzvTokens : Nat → List Byte → Nat → Nat → Nat → Nat → List Byte → Option (List Byte)
  | 0, _, _, _, _, _, _ => none
  | fuel + 1, run, start, pos, len, stop, out =>
    if run.length < pos + 2 then none
    else
      let t := u16At run pos
      let pos := pos + 2
      let f := t % 1024
      let go := fun (pos' : Nat) (out' : List Byte) =>
        if 1024 < out'.length then none
        else if stop ≤ out'.length then some out'
        else lzvTokens fuel run start pos' len stop out'
      match t / 16384 with
      | 0 =>
        if run.length < pos + f + 1 then none
        else go (pos + f + 1) (((run.drop pos).take (f + 1)).reverse ++ out)
      | 1 =>
        match lzvCopy (t / 1024 % 16 + 3) (f + 1) out with
        | some o => go pos o
        | none => none
      | 2 =>
        if run.length < pos + 1 then none
        else
          match lzvCopy (19 + byteAt run pos) (f + 1) out with
          | some o => go (pos + 1) o
          | none => none
      | _ =>
        match t / 4096 % 4 with
        | 0 => if out.length = 1024 ∧ pos - start = len then some out else none
        | 1 =>
          if run.length < pos + 1 then none
          else go (pos + 1) (List.replicate (f + 1) (run.getD pos 0) ++ out)
        | _ => none

/-- One whole quarter, or none where it is malformed. -/
def lzvQuarter (run : List Byte) (q : Nat) : Option (List Byte) :=
  let st := lzvStart run q
  match lzvEntry run q with
  | (_, 2) => some (zeros 1024)
  | (_, 1) => some ((run.drop st).take 1024)
  | (len, _) => (lzvTokens 1030 run st st len 1025 []).map List.reverse

/-- Whole-segment decode of an LZV run; checks everything (03 R126). -/
def lzvDecode (run : List Byte) (csize : Nat) : Option (List Byte) :=
  if lzvHeaderOk run csize then
    match lzvQuarter run 0, lzvQuarter run 1, lzvQuarter run 2, lzvQuarter run 3 with
    | some a, some b, some c, some d => some (a ++ b ++ c ++ d)
    | _, _, _, _ => none
  else none

/-- A line read of line j (03 R119): the header in full, and the tokens up to the one that completes the line. -/
def lzvLine (run : List Byte) (csize j : Nat) : Option (List Byte) :=
  if lzvHeaderOk run csize then
    let q := j / 16
    let o := 64 * (j % 16)
    let st := lzvStart run q
    match lzvEntry run q with
    | (_, 2) => some (zeros 64)
    | (_, 1) => some ((run.drop (st + o)).take 64)
    | (len, _) => (lzvTokens 1030 run st st len (o + 64) []).map (fun r => (r.reverse.drop o).take 64)
  else none

/-! ### EXP (03 R120 to R125) -/

/-- Elements per line, exponent width and mantissa width of a `DTYPE` (03 R120). -/
def expType : Nat → Option (Nat × Nat × Nat)
  | 0 => some (32, 8, 7)
  | 1 => some (32, 5, 10)
  | 2 => some (16, 8, 23)
  | 3 => some (64, 4, 3)
  | 4 => some (64, 5, 2)
  | _ => none

/-- `CLEN` of table entry k (03 R121). -/
def expClen (run : List Byte) (k : Nat) : Nat := byteAt run (3 + 2 * k) % 16

/-- `EVAL` of table entry k. -/
def expEval (run : List Byte) (k : Nat) : Nat := byteAt run (2 + 2 * k)

/-- Offset of line j's record: 12 bits of the 96-byte field at byte 34 (03 R121). -/
def expOffset (run : List Byte) (j : Nat) : Nat :=
  let b := 34 + 12 * j / 8
  if j % 2 = 0 then u16At run b % 4096 else u16At run b / 16

/-- Table entries in order of `CLEN`, then of index (03 R122). -/
def expOrder (run : List Byte) : List Nat :=
  (List.range 16).flatMap (fun l => if l = 0 then [] else (List.range 16).filter (fun k => expClen run k == l))

/-- The canonical code: entry, code length, codeword; none where over-subscribed (03 R122). -/
def expCodes (run : List Byte) : Option (List (Nat × Nat × Nat)) :=
  let r := (expOrder run).foldl
    (fun (acc : List (Nat × Nat × Nat) × Nat × Nat) k =>
      let l := expClen run k
      let code := acc.2.1 * 2 ^ (l - acc.2.2)
      (acc.1 ++ [(k, l, code)], code + 1, l)) ([], 0, 0)
  if 2 ^ r.2.2 < r.2.1 then none else some r.1

/-- Bit i of a byte string, bit 0 of byte 0 first. -/
def bitAt (l : List Byte) (i : Nat) : Nat := byteAt l (i / 8) / 2 ^ (i % 8) % 2

/-- Reads one symbol, most significant bit first: entry and next bit position (03 R123). -/
def expSymbol (run : List Byte) (codes : List (Nat × Nat × Nat)) : Nat → Nat → Nat → Nat → Option (Nat × Nat)
  | 0, _, _, _ => none
  | fuel + 1, pos, len, acc =>
    if 8 * run.length ≤ pos then none
    else
      let acc' := 2 * acc + bitAt run pos
      match codes.find? (fun c => c.2.1 == len + 1 && c.2.2 == acc') with
      | some c => some (c.1, pos + 1)
      | none => expSymbol run codes fuel (pos + 1) (len + 1) acc'

/-- Reads n bits most significant first. -/
def bitsMsb (run : List Byte) : Nat → Nat → Nat → Nat
  | 0, _, acc => acc
  | n + 1, pos, acc => bitsMsb run n (pos + 1) (2 * acc + bitAt run pos)

/-- Reads n bits least significant first. -/
def bitsLsb (run : List Byte) : Nat → Nat → Nat
  | 0, _ => 0
  | n + 1, pos => bitAt run pos + 2 * bitsLsb run n (pos + 1)

/-- The exponents of n elements from a bit position, and the position after them (03 R123). -/
def expExps (run : List Byte) (codes : List (Nat × Nat × Nat)) (w : Nat) : Nat → Nat → List Nat → Option (List Nat × Nat)
  | 0, pos, acc => some (acc.reverse, pos)
  | n + 1, pos, acc =>
    match expSymbol run codes 15 pos 0 0 with
    | none => none
    | some (k, p) =>
      if k = 15 then
        if 8 * run.length < p + w then none
        else expExps run codes w n (p + w) (bitsMsb run w p 0 :: acc)
      else expExps run codes w n p (expEval run k :: acc)

/-- The header rules of 03 R126: DTYPE, EVAL range, over-subscription, every offset at least 130. -/
def expHeaderOk (run : List Byte) : Bool :=
  match expType (byteAt run 0 % 8) with
  | none => false
  | some (_, w, _) =>
    (List.range 15).all (fun k => expClen run k == 0 || decide (expEval run k < 2 ^ w))
      && (expCodes run).isSome
      && (List.range 64).all (fun j => decide (130 ≤ expOffset run j))

/-- Line j and the byte at which its record ends; none where malformed (03 R124, R125, R126). -/
def expRecord (run : List Byte) (csize j : Nat) : Option (List Byte × Nat) :=
  match expType (byteAt run 0 % 8), expCodes run with
  | some (n, w, m), some codes =>
    let off := expOffset run j
    match expExps run codes w n (8 * off) [] with
    | none => none
    | some (es, p) =>
      let sm := (p + 7) / 8
      let fin := sm + n * (m + 1) / 8
      if 256 * csize < fin ∨ off / 256 ≠ (fin - 1) / 256 then none
      else
        let el := fun (i : Nat) (e : Nat) =>
          let f := bitsLsb run (m + 1) (8 * sm + i * (m + 1))
          (f / 2 ^ m) * 2 ^ (w + m) + e * 2 ^ m + f % 2 ^ m
        some ((es.zipIdx.map (fun x => toBytes ((w + m + 1) / 8) (el x.2 x.1))).flatten, fin)
  | _, _ => none

/-- A line read of line j (03 R125, R126). -/
def expLine (run : List Byte) (csize j : Nat) : Option (List Byte) :=
  if expHeaderOk run then (expRecord run csize j).map (·.1) else none

/-- Whole-segment decode of an EXP run (03 R126). -/
def expDecode (run : List Byte) (csize : Nat) : Option (List Byte) :=
  if expHeaderOk run then
    ((List.range 64).map (expRecord run csize)).foldr
      (fun r acc => match r, acc with
        | some (b, _), some t => some (b ++ t)
        | _, _ => none) (some [])
  else none

/-! ### The EXP encoder (03 R121 to R125, R652) -/

/-- Bits in bytes, bit 0 of byte 0 first, with zero bits up to a byte boundary (03 R123). -/
def packBits (l : List Bool) : List Byte := toBytes ((l.length + 7) / 8) (l.foldr (fun b n => b.toNat + 2 * n) 0)

/-- n bits of a number, most significant first. -/
def msbFirst (n v : Nat) : List Bool := (List.range n).map (fun i => v.testBit (n - 1 - i))

/-- n bits of a number, least significant first. -/
def lsbFirst (n v : Nat) : List Bool := (List.range n).map (fun i => v.testBit i)

/-- The elements of some bytes for an exponent width and a mantissa width (03 R120). -/
def expEls (w m : Nat) (b : List Byte) : List Nat :=
  let sz := (w + m + 1) / 8
  (List.range (b.length / sz)).map (fun i => fromBytes ((b.drop (sz * i)).take sz))

/-- Biased exponent of an element. -/
def expPart (w m x : Nat) : Nat := x / 2 ^ m % 2 ^ w

/-- Entries 0 to 14: the most frequent exponent values, lower values first on a tie (03 R125, step 2). -/
def expValues (w : Nat) (es : List Nat) : List Nat :=
  (((List.range (2 ^ w)).filter (fun v => es.contains v)).insertionSort (fun a b => es.count b ≤ es.count a)).take 15

/-- Bits of an optimal prefix code for some weights in ascending order: the sum of Huffman's merges. With 16 symbols no code is longer than 15. -/
def huffCost : Nat → List Nat → Nat
  | n + 1, a :: b :: t => a + b + huffCost n (t.orderedInsert (· ≤ ·) (a + b))
  | _, _ => 0

/-- Whether code lengths suit the counts of the 16 entries (03 R125, steps 3 and 4): one for each that occurs, none for the others, together
optimal. The tie-break among optimal lengths is open (R652). -/
def expLensOk (counts lens : List Nat) : Bool :=
  let used := (counts.filter (fun c => decide (0 < c))).insertionSort (· ≤ ·)
  (List.range 16).all (fun k => decide (0 < counts.getD k 0) == decide (0 < lens.getD k 0)) &&
  ((List.range 16).map (fun k => counts.getD k 0 * lens.getD k 0)).sum == (if used.length = 1 then used.sum else huffCost 16 used)

/-- Lays records out from byte 130 in line order, with zero padding before one that would cross a sector (03 R125, step 5): offsets, and bytes. -/
def expLayout (recs : List (List Byte)) : List Nat × List Byte :=
  recs.foldl (fun a x =>
    let pos := 130 + a.2.length
    let gap := if pos / 256 = (pos + x.length - 1) / 256 then 0 else 256 - pos % 256
    (a.1 ++ [pos + gap], a.2 ++ zeros gap ++ x)) ([], [])

/-- The EXP run of a segment for a `DTYPE` and the 16 code lengths; none where the lengths are not such as the encoder gives (03 R121 to R125). -/
def expEncode (dtype : Nat) (lens : List Nat) (seg : List Byte) : Option (List Byte) :=
  match expType dtype with
  | none => none
  | some (n, w, m) =>
    let els := expEls w m seg
    let vals := expValues w (els.map (expPart w m))
    let counts := (List.range 15).map (fun k => (vals[k]?).elim 0 (fun v => (els.map (expPart w m)).count v))
    let head : List Byte := [BitVec.ofNat 8 dtype, 0] ++
      (List.range 16).flatMap (fun k => [BitVec.ofNat 8 (if k < 15 then vals.getD k 0 else 0), BitVec.ofNat 8 (lens.getD k 0)])
    match expLensOk (counts ++ [els.length - counts.sum]) lens, expCodes head with
    | true, some codes =>
      let code (k : Nat) : List Bool := (codes.find? (fun c => c.1 == k)).elim [] (fun c => msbFirst c.2.1 c.2.2)
      let sym (v : Nat) : List Bool := match vals.findIdx? (fun x => x == v) with
        | some k => code k
        | none => code 15 ++ msbFirst w v
      let record (j : Nat) : List Byte :=
        let l := (els.drop (n * j)).take n
        packBits (l.flatMap (fun x => sym (expPart w m x))) ++ packBits (l.flatMap (fun x => lsbFirst (m + 1) (x / 2 ^ (w + m) * 2 ^ m + x % 2 ^ m)))
      let lay := expLayout ((List.range 64).map record)
      let run := head ++ packBits (lay.1.flatMap (lsbFirst 12)) ++ lay.2
      some (run ++ zeros ((256 - run.length % 256) % 256))
    | _, _ => none

/-! ### Any stored form -/

/-- Whole-segment decode by `CODEC` code (03 R105). -/
def decodeForm (codec csize : Nat) (w1 : W64) (run : List Byte) : Option (List Byte) :=
  match codec with
  | 0 => some (zeros 4096)
  | 1 => some (patternBytes w1)
  | 2 => some (run.take 4096)
  | 3 => lzvDecode run csize
  | 4 => expDecode run csize
  | _ => none

/-- A line read by `CODEC` code (03 R105 to R125). -/
def decodeLine (codec csize : Nat) (w1 : W64) (run : List Byte) (j : Nat) : Option (List Byte) :=
  match codec with
  | 0 => some (zeros 64)
  | 1 => some ((patternBytes w1).take 64)
  | 2 => some ((run.drop (64 * j)).take 64)
  | 3 => lzvLine run csize j
  | 4 => expLine run csize j
  | _ => none

/-- Whether bytes are all zero (03 R129). -/
def allZero (seg : List Byte) : Bool := seg.all (· == 0)

/-- Whether the segment repeats its first 8 bytes (03 R129). -/
def isPattern (seg : List Byte) : Bool := seg == (List.replicate 512 (seg.take 8)).flatten

/-- Whether an LZV run is one that the encoder writes: the smallest `CSIZE`, zero padding (03 R115), ZEROQ for the all-zero quarters and for no
other (R119). -/
def lzvWritten (csize : Nat) (run seg : List Byte) : Bool :=
  decide (256 * (csize - 1) < lzvT run) && allZero (run.drop (lzvT run)) &&
  (List.range 4).all (fun q => ((lzvEntry run q).2 == 2) == allZero ((seg.drop (1024 * q)).take 1024))

/-- Whether a run is a stored form of a segment that the encoder may write (03 R652): it decodes to the segment, it is at most 14 sectors (R130),
and it has the layout and padding of its codec (R115, R121 to R125). -/
def validForm (codec csize : Nat) (run seg : List Byte) : Bool :=
  (codec == 3 || codec == 4) && decide (1 ≤ csize) && decide (csize ≤ 14) && run.length == 256 * csize
    && decodeForm codec csize 0 run == some seg
    && (if codec = 3 then lzvWritten csize run seg
        else expEncode (byteAt run 0) ((List.range 16).map (expClen run)) seg == some run)

/-! ### The sector check (03 R109 to R111) -/

/-- Multiplication by α = x in GF(2^16) modulo 0x1_100B (03 R109). -/
def gfX (a : W16) : W16 := if a.msb then (a <<< 1) ^^^ 0x100B#16 else a <<< 1

/-- Multiplication in GF(2^16), bit by bit of the second factor. -/
def gfMulAux : Nat → W16 → W16 → W16 → W16
  | 0, _, _, acc => acc
  | n + 1, a, b, acc => gfMulAux n (gfX a) (b >>> 1) (if b.getLsbD 0 then acc ^^^ a else acc)

/-- Multiplication in GF(2^16). -/
def gfMul (a b : W16) : W16 := gfMulAux 16 a b 0

/-- A polynomial, lowest coefficient first, times (x - α^i). -/
def gfTimesRoot (g : List W16) (root : W16) : List W16 :=
  List.zipWith (· ^^^ ·) (0 :: g) (g.map (gfMul root) ++ [0])

/-- The generator g(x) = (x - α^0) … (x - α^7), lowest coefficient first, its leading 1 included (03 R109). -/
def rsGenerator : List W16 :=
  ((List.range 8).foldl (fun (acc : List W16 × W16) _ => (gfTimesRoot acc.1 acc.2, gfX acc.2)) ([1], 1)).1

/-- One step of the division by g: the remainder, lowest coefficient first, after one more message symbol. -/
def rsStep (r : List W16) (m : W16) : List W16 :=
  let fb := m ^^^ r.getD 7 0
  List.zipWith (fun a g => a ^^^ gfMul fb g) (0 :: r.take 7) (rsGenerator.take 8)

/-- The 132 message symbols: four tag symbols, then the data (03 R109). -/
def rsMessage (tag : W64) (data : List Byte) : List W16 :=
  (List.range 4).map (fun k => (tag >>> (16 * k)).setWidth 16)
    ++ (List.range 128).map (fun k => BitVec.ofNat 16 (u16At data (2 * k)))

/-- The 16 check bytes of a sector (03 R109). -/
def sectorCheck (tag : W64) (data : List Byte) : List Byte :=
  ((rsMessage tag data).foldl rsStep (List.replicate 8 0)).flatMap (fun c => toBytes 2 c.toNat)

end Sys2Proof.Machine
end

