-- ==== Sys2Proof/Config.lean ====
section
/-! DEFINITION. What an implementation fixes or the manual leaves open: constants with no body. Nothing can be proved of a
value below beyond its type, so a statement holds whatever it is (assumption log 10 to 13). -/

namespace Sys2Proof.Config

/-- Set index of a line in the sharer directory: the hash of region ID and line index that 06 R247 names and does not give,
before its reduction modulo 2^23. -/
opaque dirHash : Nat → Nat → Nat

/-- The reciprocal square root the vector unit returns (09 R362); the model uses it only where it lies within 1 ulp. -/
opaque rsqrt : W32 → W32

/-- The exponential the vector unit returns (09 R362); the model uses it only where it lies within 2 ulp. -/
opaque expf : W32 → W32

/-- Core clock cycles since a program's start, read by MOVS (08 R329): timing is outside the model. -/
opaque cycle : Nat → W64

/-- Contents of standard payloads (CXL mailbox, CDAT, SPDM, MCTP) that the manual leaves to their standards: payload word of
a request code at a moment. -/
opaque stdPayload : Nat → Nat → W64

/-- `FRAC` of the n-th trace record: the fraction of a crystal period on the source's own clock (18 R619). -/
opaque frac : Nat → BitVec 12

/-- `REF_PHASE` of a pseudo-channel in Steady mode at a moment: the ns since its last all-bank refresh (04 R170), below 1,950; timing is outside
the model. -/
opaque refPhase : Nat → Nat → W16

/-- Corrections of the on-die ECC that the stack of a pseudo-channel reports on its severity pins in one ms (04 R163). -/
opaque onDie : Nat → Nat → W16

/-- The taps of a lane that pass, bit t for tap t, at the n-th training of the sled: pseudo-channel, lane 0 to 8, write direction (04 R157). -/
opaque tapPass : Nat → Nat → Nat → Bool → BitVec 128

/-- Galben's PCI-SIG vendor ID, whose number 07 R278 does not give. -/
opaque vendorId : W16

/-- The Galben image key in the Vrelser's fuses (17 R579). -/
opaque imageKey : BitVec 256

/-- AES-256-GCM decryption of a wrapped content key: key, nonce, text, tag (17 R578, R579). -/
opaque gcmKey : BitVec 256 → BitVec 96 → BitVec 256 → BitVec 128 → Option (BitVec 256)

/-- AES-256-GCM decryption of a body chunk: key, nonce, additional data, text, tag (17 R579). -/
opaque gcmChunk : BitVec 256 → BitVec 96 → BitVec 512 → Chunk → BitVec 128 → Option Chunk

/-- SHA-384 of some bytes (17 R580; 18 R611, R612). -/
opaque sha384 : List Byte → BitVec 384

/-- A measured rail voltage or current: sensor ID and moment (18 R616). -/
opaque rail : Nat → Nat → W32

/-- The bad-block table of a plane, as manufactured: physical blocks that the sled never uses (05 R184). -/
opaque badBlocks : Nat → List Nat

end Sys2Proof.Config
end

