-- ==== Sys2Proof/Machine/Parts/Event.lean ====
section
/-! DEFINITION. The Event Ring, the Fence Map array and their readers (01 R37 to R43; 14 R495 to R505, R515). -/

namespace Sys2Proof.Machine

/-- Every event the sled posts (14 R499). RING_FAULT is returned by a read and never posted (14 R520). -/
inductive Ev
  | pchCeHigh | pchCeFence | pchTrainFail | pchStall | stackTempLost | stackFence | sectorTag | codecFault | mapLost
  | lakeDim | lakeGutter | lakeSpent | lakeDieFence | lakeRecon | lakeMountFail | journalFault
  | lowWater | moveFail | smeMalformed | segPoison | tarnLost | capWarn | capCrit | capacityFatal | poisonWrite | regionPoisoned
  | grantForced | grantRoWrite | lineLost | dirLost | rtRollback
  | hostUnbound | unmappedAccess | portFence | hostReset | dusk
  | queueError | schedMiss | schedDisarmed
  | wickFence | lanternFence | codecFence | fenceRecovered | bridgeLink | bridgeLost | replaceAdvised | ledgerForced
  | supplyRange | supplySag | holdupWeak | holdupFail | budgetLow | capExceed | thermThrottle | stackHot | thermTrip | thermInlet
  | clockFault
  | wdpWarn | wdTrip | vigilEnter | resetPress | resetFaulty | sledState | latchOpen | safeToRemove
  | fwStaged | fwRefused | fwActivated | fwConfirmed | fwFallback | chainFault | settingsFault | traceStopped | ringFault
deriving DecidableEq, Repr

/-- An event record (14 R495). `p0` is bytes 16 to 23 and `p1` bytes 24 to 31. `bad` marks a record whose stored words
read uncorrectable (14 R520). -/
structure EvRec where
  code : W16
  sev : BitVec 3
  plane : BitVec 2
  okind : Byte
  obj : W32
  time : W48
  shost : HostId
  scope : BitVec 2
  p0 : W64
  p1 : W64
  bad : Bool
deriving DecidableEq, Repr

/-- One reader of the ring: a host function, named by its host ID, or the management port (01 R38, 14 R500, R501). `idx`
counts records from the first ever posted. -/
structure Reader where
  idx : Nat
  lost : W32
  minsev : BitVec 3
  notify : Bool
  /-- 1 while the 10 µs spacing of vector 0 runs (14 R501). -/
  spacing : Bool
  /-- a signal held back by the spacing. -/
  heldSig : Bool
deriving DecidableEq, Repr

/-- A fenced unit whose recovery has not ended (14 R505). -/
structure Recov where
  unit : FUnit
  cause : Byte
  /-- homes poisoned at an access (R509) before the walk of step 5 ends, per region: count and lowest segment. -/
  poisoned : Tbl (Nat × Nat)
  /-- images dropped so far. -/
  dropped : Nat
deriving DecidableEq, Repr

/-- Event Ring and Fence Map state. -/
structure EvtS where
  /-- the newest 2,048 records, oldest first (01 R37). -/
  ring : List EvRec
  /-- records ever posted: the producer index. -/
  prod : Nat
  rd : Tbl Reader
  mgmt : Reader
  /-- Fence Map bits that are 1, with their FCAUSE (14 R502, R503). -/
  fmap : Tbl Byte
  recov : List Recov
  /-- REPLACE_ADVISED reasons already posted (14 R515). -/
  advised : List Nat
deriving DecidableEq, Repr

end Sys2Proof.Machine
end

