-- ==== Sys2Proof/Machine/Parts/LampP.lean ====
section
/-! DEFINITION. Lamplighter schedules (11 R408 to R429). -/

namespace Sys2Proof.Machine

/-- A step record after its load checks (11 R409). -/
structure LStep where
  region : RegionId
  seg : Nat
  nseg : Nat
  dbeat : Nat
  dus : Nat
  fb : BitVec 2
  spring : Bool
  drop : Bool
  altreg : RegionId
  altseg : Nat
  altnseg : Nat
  core : Nat
  lamp : Nat
deriving DecidableEq, Repr

/-- A live instance of a step (11 R413): started and not retired. `d` is its deadline position. -/
structure Inst where
  step : Nat
  d : Nat
  /-- p has reached d; the deadline runs or has passed. -/
  due : Bool
  settled : Option Lamp
  /-- no further placement is issued for it. -/
  stopped : Bool
  /-- it settled DIRECT under Training, so its placement continues (11 R426). -/
  late : Bool
  /-- its start waits for a retirement (11, limits). -/
  deferred : Bool
  /-- its deadline has passed while no Lantern ran the schedule (11 R431). -/
  passed : Bool
deriving DecidableEq, Repr

/-- A loaded schedule (11 R408, R409, R418, R419). -/
structure Sched where
  lregion : RegionId
  loff : Nat
  period : Nat
  window : Nat
  steps : List LStep
  armed : Bool
  /-- the program that armed it, while it runs (11 R425). -/
  prog : Option Nat
  /-- beat count, p + 1 (11 R411). -/
  beats : Nat
  met : W32
  miss : W32
  altn : W32
  directn : W32
  coldn : W32
  laten : W32
  voidn : W32
  badbeat : W32
  paused : W32
  defer : W32
  void : List Nat
  insts : List Inst
  /-- latest beat write kept during an activation (11 R430). -/
  kept : Option W64
  missAt : Option Nat
  /-- the Lantern that runs it is fenced and the takeover has not happened (11 R431). -/
  orphan : Bool
deriving DecidableEq, Repr

/-- Lamplighter state, key: host ID x 2048 + queue x 32 + schedule. -/
structure LampS where
  sch : Tbl Sched
  /-- Lamplighter is stopped by an activation or DUSK-FLUSH (11 R430, R433). -/
  stopped : Bool
deriving DecidableEq, Repr

end Sys2Proof.Machine
end

