-- ==== Sys2Proof/Machine/Parts/Ports.lean ====
section
/-! DEFINITION. Host ports, bindings, host functions, RT streams and peer lanes (07 R271 to R311). -/

namespace Sys2Proof.Machine

/-- `KDEV_PORT` of one port (07 R306). -/
structure Port where
  bifurc : Bool
  perstEn : Bool
  modeA : Bool
  modeB : Bool
  tags : BitVec 11
  l1Idle : BitVec 10
  l0pEn : Bool
  ideReq : Bool
deriving DecidableEq, Repr

/-- `KDEV_PORT` at reset, 0x0410_2002 (07 R306, 19 R647). -/
def Port.reset : Port := ⟨false, true, false, false, 512, 16, true, false⟩

/-- `KDEV_PSTAT` of one port half (07 R307), and whether it was ever trained (19 R641). -/
structure Half where
  link : BitVec 4
  width : BitVec 3
  speed : BitVec 3
  flit : BitVec 2
  ide : Bool
  hold : Bool
  linkdown : W16
  persts : W16
  resets : W16
  trained : Bool
  /-- corrected link errors, counted (07 R310). -/
  cor : Nat
deriving DecidableEq, Repr

/-- `KDEV_PSTAT` at reset, 0x2000. -/
def Half.reset : Half := ⟨0, 0, 0, 0, false, true, 0, 0, 0, false, 0⟩

/-- `KDEV_BIND` of one host ID (07 R308). -/
structure Bind where
  valid : Bool
  half : BitVec 4
  func : Byte
  spid : BitVec 12
  owner : Bool
deriving DecidableEq, Repr

/-- An unbound host ID. -/
def Bind.none : Bind := ⟨false, 0, 0, 0, false⟩

/-- A host function, named by its host ID (07 R275, R297, R305). -/
structure Fn where
  wakeEv : Bool
  d3 : Bool
  busMaster : Bool
  /-- MSI-X pending bits of vectors whose signal is held (07 R297). -/
  msixPend : List Nat
  /-- words that the host has written into the standard structures of BAR0: the CXL component and device registers and the MSI-X table (19 R633;
  assumption log 13). -/
  std : Tbl W64
deriving DecidableEq, Repr

/-- A function at its reset values (07 R292). DESIGN CHOICE (assumption log 34): Bus Master Enable is set, as after enumeration by the host; the manual
gives no reset value. -/
def Fn.reset : Fn := ⟨false, false, true, [], []⟩

/-- An RT stream (07 R287): the read-ahead reaches 1,024 lines beyond the last line read. How far it has been filled is timing
(assumption log 15); its crossings of the PANIC levels are commands. -/
structure Stream where
  half : Nat
  host : HostId
  region : RegionId
  last : Nat
deriving DecidableEq, Repr

/-- A run of consecutive C0 reads that may open a stream (07 R287). -/
structure RdRun where
  half : Nat
  host : HostId
  region : RegionId
  last : Nat
  count : Nat
deriving DecidableEq, Repr

/-- Dynamic capacity event log records of a host (07 R283; 06 R239 to R241). -/
inductive DcEv
  | add (region : RegionId) (first count dpa : Nat)
  | release (region : RegionId) (first count dpa : Nat)
  | forced (region : RegionId) (first count dpa : Nat)
deriving DecidableEq, Repr

/-- A host ID whose reset of R300 has run steps 1 to 5 and waits for step 6: for its half's link, for its function's return from
D3cold, or both (07 R300, R309). -/
structure HReset where
  host : HostId
  link : Bool
  cold : Bool
  /-- a binding write that waits for step 6 (07 R309). -/
  bind : Option Bind
deriving DecidableEq, Repr

/-- Frame kinds of the peer window (07 R293). -/
inductive FrameKind
  | data | pull | ack | nak | done
deriving DecidableEq, Repr

/-- A DATA frame in one of slots 0 to 13 of a lane: sequence number, segment and payload (07 R293). -/
structure Slot14 where
  seq : Nat
  seg : Nat
  payload : List Byte
deriving DecidableEq, Repr

/-- A peer move in one lane and direction (07 R293, R294). -/
structure PMove where
  peer : W16
  tag : W32
  /-- this sled sends DATA frames. -/
  sends : Bool
  /-- the local operation, when this sled began the move. -/
  op : Option Nat
  region : RegionId
  /-- first local segment, and how many travel. -/
  first : Nat
  count : Nat
  /-- the local segments of an evacuation, which sends no ZERO segment; all of the range when none. -/
  segs : Option (List Nat)
  peerRegion : RegionId
  peerSeg : Nat
  /-- sender: next sequence to send; receiver: next expected in order. -/
  seq : Nat
  /-- sender: highest sequence acknowledged plus one; receiver: sequence after the last that it has acknowledged. -/
  acked : Nat
  /-- sequences already resent or NAKed once. -/
  retried : List Nat
  /-- receiver: frames that have arrived and are not yet written. -/
  slots : List Slot14
  /-- sender: DONE is sent; receiver: segments that DONE says were sent. -/
  done : Option Nat
  /-- sender: keys of segments whose read from Lake or Tarn has completed, and which have not been sent since. -/
  got : List Nat
deriving DecidableEq, Repr

/-- Outstanding non-posted requests of the sled (07 R290, R291). -/
structure NpReq where
  host : HostId
  /-- the Tarn sector read, or none for a descriptor or list read. -/
  region : RegionId
  seg : Nat
  retried : Bool
deriving DecidableEq, Repr

/-- Host port state. -/
structure PortsS where
  cfg : Tbl Port
  /-- bifurcation in force, per port, since its link last left Detect (07 R273). -/
  bifur : List Nat
  half : Tbl Half
  bind : Tbl Bind
  fn : Tbl Fn
  /-- port groups whose PERST# is asserted. -/
  perst : List Nat
  streams : List Stream
  runs : List RdRun
  dcLog : Tbl (List DcEv)
  stopStores : Bool
  unmappedAt : Tbl Nat
  unboundAt : Tbl Nat
  pmoves : List PMove
  /-- peer moves that wait for the one in their direction (07 R294). -/
  pwait : List PMove
  resets : List HReset
  np : Tbl NpReq
  npNo : Nat
deriving DecidableEq, Repr

end Sys2Proof.Machine
end

