-- ==== Sys2Proof/Machine/Parts/Queue.lean ====
section
/-! DEFINITION. Tallow queues and running programs (08 R315 to R349; 09 R355, R366, R386; 10 R390 to R400). -/

namespace Sys2Proof.Machine

/-- Queue classes (08 R316). -/
inductive QKind
  | control | compute | schedule
deriving DecidableEq, Repr

/-- `QSTATE` (08 R349). -/
inductive QSt
  | disabled | running | draining | error
deriving DecidableEq, Repr

/-- A fetched and checked descriptor with its program, ready to start (08 R323, R324). -/
structure Ready where
  cid : W16
  irq : Bool
  order : Bool
  words : List W64
  args : List W64
  h0 : W64
deriving DecidableEq, Repr

/-- A completion entry (08 R325) without its `PHASE` and `SQHEAD`, which are set when it is written. -/
structure Cpl where
  cid : W16
  irq : Bool
  status : Byte
  detail : W16
  result : W64
  word : W32
  fbcnt : W32
  info : W64
deriving DecidableEq, Repr

/-- One queue pair (08 R346 to R349). `sizeM1` is `SIZE`. -/
structure Queue where
  sqbase : W64
  cqbase : W64
  enable : Bool
  kind : BitVec 2
  bwclass : BitVec 2
  group : BitVec 4
  sizeM1 : BitVec 12
  irqEn : Bool
  runlim : W16
  inflight : BitVec 7
  st : QSt
  sqhead : Nat
  sqtail : Nat
  cqtail : Nat
  cqhead : Nat
  phase : Bool
  heldBit : Bool
  err : BitVec 4
  done : W32
  notok : W32
  /-- descriptors read and ready to start, oldest first. -/
  ready : List Ready
  /-- completions held while the ring is full, oldest first (R321). -/
  heldCpl : List Cpl
  /-- doorbell writes kept during an activation (R350). -/
  keptTail : Option W32
  keptHead : Option W32
  /-- lines of a `REGIONPTR` program whose snoop has been answered (06 R255). -/
  fetched : List Nat
deriving DecidableEq, Repr

/-- A queue at its reset values (08 R346 to R349; `KQ_CFG` 0x0000_0800_6420_01E8). -/
def Queue.reset : Queue :=
  { sqbase := 0, cqbase := 0, enable := false, kind := 0, bwclass := 1, group := 15, sizeM1 := 0, irqEn := true, runlim := 100,
    inflight := 8, st := .disabled, sqhead := 0, sqtail := 0, cqtail := 0, cqhead := 0, phase := true, heldBit := false, err := 0,
    done := 0, notok := 0, ready := [], heldCpl := [], keptTail := none, keptHead := none, fetched := [] }

/-- A pending store (08 R334; 09 R377): bytes to a region, or a row added in an element type. -/
structure PStore where
  region : RegionId
  off : Nat
  bytes : List Byte
  /-- element type of an ADD row (09 R377). -/
  add : Option (BitVec 4)
  /-- `ROUND` as it stood at issue (09 R377, R388). -/
  round : BitVec 2
deriving DecidableEq, Repr

/-- What a program does after its commit log has been written. -/
inductive AfterCommit
  | next       -- FENCE: go on at the next word
  | nextPf     -- FENCE with PF: then wait for prefetches
  | ends       -- HALT
  | again      -- the start of a control instruction: the instruction then runs
deriving DecidableEq, Repr

/-- What a program waits for. -/
inductive PWait
  | run
  | time                                    -- WAIT TIME
  | beat (q s : Nat) (n : W64)              -- WAIT BEAT: schedule s of queue pair q
  | signal (c : Nat) (n : W64)              -- WAIT SIGNAL
  | commit (a : AfterCommit)
  | control                                 -- a control instruction that has not completed
  | miss                                    -- a Lake, Tarn or map read of its own
  | prefetch                                -- FENCE PF
deriving DecidableEq, Repr

/-- A run of loads that is, or may become, a feeder stream (10 R395): region, line last read, consecutive lines up to 4. -/
structure Feed where
  region : RegionId
  last : Nat
  run : Nat
deriving DecidableEq, Repr

/-- A running program (08 R327). -/
structure Prog where
  host : HostId
  q : QueueNo
  kind : QKind
  cid : W16
  irq : Bool
  words : List W64
  pc : Nat
  /-- Wick index, or 0x100 plus the Lantern index (08 R329). -/
  core : Nat
  g : List W64
  v : List VReg
  p : List W128
  h : List W64
  round : BitVec 2
  lastSt : Byte
  fbcnt : W32
  stores : List PStore
  /-- near addresses of the 16-sector runs of its commit log (10 R394). -/
  log : List Nat
  stepBuf : List (BitVec 256)
  /-- near address of the Spring scratch, and its bytes (08 R329, 10 R392). -/
  scrBase : Nat
  scrSize : Nat
  wait : PWait
  /-- segments whose miss has been served for the instruction about to run again. -/
  served : List Nat
  /-- prefetch moves not yet placed or abandoned (09 R375). -/
  pf : List Nat
  /-- feeder streams of its core (10 R395). -/
  feed : List Feed
  /-- it ends with this status and detail once the control instruction in progress has finished (08 R350; 07 R300 step 3). -/
  cancel : Option (Byte × W16)
  /-- its host was reset: no completion is written (07 R300). -/
  mute : Bool
  /-- ms at which the commit in progress began to wait for sectors (02 R87). -/
  holdAt : Option Nat
deriving DecidableEq, Repr

/-- A multi-segment control instruction in progress (09 R371, R372; 02 R74, R89; 06 R260, R262). -/
inductive OpKind
  | sealing | pin | moveTier | push | pull | windowOut
  /-- an evacuation that copies, and one that has copied and ends the region's grants. -/
  | evacuate | leaving
deriving DecidableEq, Repr

/-- Such an operation. -/
structure COp where
  kind : OpKind
  prog : Nat
  /-- programs that wait for the same end (09 R370), oldest first. -/
  also : List Nat
  region : RegionId
  first : Nat
  count : Nat
  /-- segments committed or acknowledged so far. -/
  done : Nat
  /-- lowest segment not moved, when one has failed. -/
  failed : Option Nat
  /-- status and detail to report at the end. -/
  status : Byte
  detail : W16
  /-- destination g register. -/
  d : Nat
  /-- peer sled, peer region, first peer segment, C3 (06 R260). -/
  peerSled : W16
  peerRegion : RegionId
  peerSeg : Nat
  c3 : Bool
  /-- tier of a tier move. -/
  tier : Tier
  /-- window index of a revoke that empties its window; Wick core of a move to Spring, 127 for any; generation of a seal's or an
  evacuation's narrowing change, 0 before it. -/
  aux : Nat
  /-- sectors of Lake that a seal has reserved and not yet used (02 R74). -/
  resv : Nat
  /-- OPEN segments that a seal still has to run a trial on, and whether it has submitted them (03 R131). -/
  owed : List (Nat × Bool)
  /-- the free run that a seal's moves into Pond take first (02 R82 leaves the choice open). -/
  pick : W32
deriving DecidableEq, Repr

/-- Queue and program state. -/
structure QS where
  /-- key: host ID x 64 + q. -/
  qs : Tbl Queue
  progs : Tbl Prog
  progNo : Nat
  ops : Tbl COp
  opNo : Nat
  /-- signal counters, key: host ID x 16 + n (09 R366). -/
  sig : Tbl W64
  /-- the dispatcher may start programs (01, activation table; 15 R532). -/
  dispatching : Bool
  /-- store-clock ms of the last program start (15 R532). -/
  lastStart : Nat
  /-- Wick cores on which a program has ended, in the order of their last ends (10 R400). -/
  idle : List Nat
  /-- the model's own counter of free values (assumption log 10). -/
  freeNo : Nat
deriving DecidableEq, Repr

end Sys2Proof.Machine
end

