-- ==== Sys2Proof/Machine/Parts/Out.lean ====
section
/-! DEFINITION. What the sled sends to the outside. The model keeps it as a list, newest first (assumption log 16). -/

namespace Sys2Proof.Machine

/-- AER messages (07 R310). -/
inductive Err
  | cor | nonfatal | fatal
deriving DecidableEq, Repr

/-- Kinds of Chain frame the sled sends (17 R573). -/
inductive ChainKind
  | hello | offer | data | ack | nak | done | abort
deriving DecidableEq, Repr

/-- One thing sent. -/
inductive Output
  /-- read data to a host (07 R285). -/
  | data (host : HostId) (dpa : BitVec 48) (line : Line)
  /-- read answered with poison (06 R267). -/
  | poison (host : HostId) (dpa : BitVec 48)
  /-- completion of a request without data. -/
  | done (host : HostId) (dpa : BitVec 48)
  /-- back-invalidate snoop (06 R249). -/
  | snoop (host : HostId) (region : RegionId) (line : BitVec 40) (kind : SnpKind)
  /-- AER message on a half (07 R310); viral where the host enabled it is the host's. -/
  | err (half : Nat) (e : Err)
  /-- MSI-X vector of a host function (07 R295). -/
  | msix (host : HostId) (vector : Nat)
  /-- completion entry: index, phase, submission head (08 R325). -/
  | completion (host : HostId) (q : QueueNo) (index : Nat) (phase : Bool) (sqhead : Nat) (c : Cpl)
  /-- peer-window frame (07 R293). -/
  | frame (peer : W16) (kind : FrameKind) (f : PFrame)
  /-- posted writes of a Tarn sector's data and check bytes, each at its offset in the window (03 R113). -/
  | tarn (window at_ : Nat) (data : List Byte) (checkAt : Nat) (check : List Byte)
  /-- mailbox or DOE answer: return code and payload words. -/
  | mailbox (host : HostId) (code : Nat) (words : List W64)
  /-- answer on the management port: completion code and payload words (18 R605). -/
  | mgmt (code : Nat) (words : List W64)
  /-- register read answer. -/
  | regValue (v : W64)
  /-- Chain frame on link 0 UP or 1 DOWN (17 R573). -/
  | chain (link : Nat) (kind : ChainKind) (words : List Nat)
  /-- a frame that a Dead sled repeats on a link as it came in on the other (17 R595). -/
  | repeated (link : Nat) (kind : ChainKind) (words : List Nat) (data : Option Chunk)
  /-- DATA frame on DOWN: `ISEQ`, `CHUNK` and the chunk as it was received (17 R573, R579). -/
  | chunk (iseq : W64) (chunk : Nat) (data : Chunk)
deriving DecidableEq, Repr

end Sys2Proof.Machine
end

