-- ==== Sys2Proof/Machine/Parts/Units.lean ====
section
/-! DEFINITION. Identity, clocks, the sled's own state machine, Pond controllers, Lake, power, watchdogs, firmware, the
Chain, management and trace. -/

namespace Sys2Proof.Machine

/-- Identity (00 R1, R3, R20; 18 R606). -/
structure IdS where
  variant : Variant
  sledId : W16
  serial : W128
deriving DecidableEq, Repr

/-- Clocks (13 R475, R476, R490; 02 R61). `ms` counts store-clock ticks since power-on; the age and store clocks count from
BOOT. -/
structure ClkS where
  ms : Nat
  age : W16
  store : BitVec 31
  crystalOk : Bool
  ref0Ok : Bool
  ref1Ok : Bool
  /-- the fast reference in use, 0 or 1. -/
  refInUse : Nat
  /-- ms of the last RC calibration, and its factor. -/
  rcAt : Nat
  rcFactor : W16
deriving DecidableEq, Repr

/-- What a flush in progress is for, and so what follows it (13 R453, R492; 15 R537, R539, R552). -/
inductive Flush
  /-- Dusk flush with a DUSK trigger 0 to 6; `command` and the latch end in OFF or Dark. -/
  | dusk (trigger : Nat)
  /-- the Keep flush of a warm restart, with `RCAUSE`. -/
  | restart (rcause : Nat)
  /-- the Keep flush inside VIGIL entry. -/
  | vigil
deriving DecidableEq, Repr

/-- The steps of a start (16 R558, R563). -/
inductive Boot
  | none | rails | retry | verify | selfTest | pond | mount | ready
deriving DecidableEq, Repr

/-- The sled state machine (00; 13 R453; 14 R517, R519; 15 R539 to R545; 16 R556 to R570). -/
structure SledS where
  st : SledSt
  boot : Boot
  /-- this start is a warm restart. -/
  warm : Bool
  /-- input present while OFF: Dark (13 R478). -/
  dark : Bool
  startFault : Byte
  /-- bridge links in service (14 R519). -/
  bridge : Nat
  bridgeLost : Bool
  latchOpen : Bool
  /-- safe to remove: the front blue LED (14 R517). -/
  safe : Bool
  /-- OFF with the input present and no start of its own: powered off by command (13 R492), or after start fault 1, 3 or 4 (16 R569). A loss of
  input clears it. -/
  stayOff : Bool
  flush : Option Flush
  /-- the Pilot or the island has commanded the flush (01 R49). -/
  flushCmd : Bool
  /-- VIGIL entry waits for the flush to end, with its cause (15 R552). -/
  vigilNext : Option Nat
  /-- input lost or latch opened during a Keep flush: OFF follows it (16 R568). -/
  offNext : Bool
  /-- VIGIL entry has ended (15 R539 step 4). -/
  vigilDone : Bool
  /-- the preserved mark (16 R566). -/
  preserved : Bool
  /-- SMEs of Keep segments in the preserved map cache, with what they held (16 R566). -/
  kept : Tbl Sme
deriving DecidableEq, Repr

/-- One Ledger entry (13 R467 to R472; 01 R33 to R35). -/
structure Entry where
  ceil : W16
  perm : BitVec 2
  seq : Byte
  rtf : Bool
  rceil : W16
  rperm : BitVec 2
  ack : Byte
  draw : W16
  /-- ceiling still counted against the cap after a lowering. -/
  counted : W16
  /-- a lowering awaits its acknowledgement. -/
  lowering : Bool
  /-- the island has forced its clock to a quarter (01 R35). -/
  forcedClk : Bool
  /-- an answer is pending (13 R471). -/
  asks : Bool
  st : PState
  /-- ms at which it became Trimmed. -/
  trimAt : Nat
  /-- the governor throttles it (13 R473). -/
  gov : Bool
deriving DecidableEq, Repr

/-- Power (13 R450 to R492). -/
structure PwrS where
  vin : W16
  iin : W16
  pin : W16
  /-- input band of SUPPLY_RANGE: 0 none, 1 low, 2 high. -/
  band : Nat
  sag : Bool
  /-- ride-through timer in ms. -/
  ride : Nat
  lowVin : W16
  switchOpen : Bool
  cap : W32
  entries : Tbl Entry
  /-- hold-up charging allowance in W. -/
  charge : Nat
  profile : Profile
  /-- a profile switch in progress: its program and the profile it loads (R481). -/
  switching : Option (Nat × Profile)
  packMs : Nat
  trimUs : Nat
  bankMs : Nat
  /-- class weights C1, C2, C3 (06 R265). -/
  w1 : Nat
  w2 : Nat
  w3 : Nat
  eMeas : Nat
  eNow : Nat
  /-- E as the rules use it, held during a measurement. -/
  measuring : Option Nat
  /-- a higher measurement that awaits a second (13 R456). -/
  higher : Option Nat
  measFails : Nat
  weak : Bool
  failed : Bool
  full : Bool
  budget : Nat
  /-- admission ceiling A in bytes. -/
  admission : Nat
  overadmit : W16
  /-- write-back: 0 none, 1 C3, 2 C1. -/
  wb : Nat
  /-- throttle level of each tile. -/
  thr : Tbl Nat
  tjw : W16
  tje : W16
  inlet : W16
  inletHot : Bool
  tripped : Bool
  /-- NAND limit of each channel group: 0, 1 halved, 2 stopped. -/
  nandLim : Tbl Nat
  /-- the last good reading of each channel group. -/
  nandT : Tbl W16
  rides : W16
  dusks : W16
  forced : W16
  throttles : W16
  /-- level 1 of each chiplet by junction temperature or a failed sensor. -/
  chipHot : List Nat
  /-- sensors that have failed, chiplets 0 and 1 and channel groups 2 to 5: good reads still wanted (R490). -/
  badRead : Tbl Nat
deriving DecidableEq, Repr

/-- One engine watchdog (15 R527 to R531, R551). `ms` is the count. -/
structure Wde where
  tout : W16
  clksel : Bool
  en : Bool
  lock : Bool
  clkfail : Bool
  elapsed : Nat
  trips : Byte
  badsvc : Byte
  /-- ms of its trips. -/
  times : List Nat
  /-- writes of the disable sequence done, 0 to 2. -/
  dis : Nat
  /-- its unit is in a stage 1 restart. -/
  restart : Bool
deriving DecidableEq, Repr

/-- An engine watchdog at a power-on reset. -/
def Wde.reset (tout : W16) : Wde :=
  { tout := tout, clksel := true, en := true, lock := false, clkfail := false, elapsed := 0, trips := 0, badsvc := 0, times := [], dis := 0,
    restart := false }

/-- Watchdogs, the ladder and the button (15). -/
structure WdS where
  tout : BitVec 4
  run : Bool
  half : Bool
  warn : Bool
  oscfail : Bool
  elapsed : Nat
  trips : Byte
  badsvc : Byte
  last : BitVec 2
  times : List Nat
  /-- the Pilot is in a stage 1 restart. -/
  pilotRestart : Bool
  /-- WDP and Lantern WDEs are held by an activation (R534). -/
  held : Bool
  ntries : BitVec 3
  wde : Tbl Wde
  rcause : BitVec 4
  vcause : Byte
  /-- `BTN`: 0 released, 1 pressed, 2 faulty. -/
  btn : BitVec 2
  press : W16
  cls : BitVec 2
  /-- ms at which the present press began. -/
  pressAt : Nat
  /-- the 10 s mark of the present press has been classed. -/
  pressed10 : Bool
deriving DecidableEq, Repr

/-- Slot states (17 R577). -/
inductive SlotSt
  | empty | writing | staged | running | probation | previous | failed | superseded
deriving DecidableEq, Repr

/-- One SPI-NOR slot: its state and what its image's chunk 0 says (17 R577, R578). -/
structure Slot where
  st : SlotSt
  iseq : W64
  version : W32
  svn : W32
  setfmt : W16
  nchunk : Nat
  /-- the chunks written, as the sled received them (17 R579). -/
  body : Tbl Chunk
deriving DecidableEq, Repr

/-- An empty slot. -/
def Slot.empty : Slot := { st := .empty, iseq := 0, version := 0, svn := 0, setfmt := 0, nchunk := 0, body := [] }

/-- A staging in progress (17 R581): the image, chunks written, and the program that waits, if one does. -/
structure Stage where
  image : Image
  written : Nat
  chain : Bool
  prog : Option Nat
  /-- the chunks in host memory, for the host form. -/
  src : List Chunk
deriving DecidableEq, Repr

/-- An activation in progress (17 R584): step 1 waits for PANIC, then the pause. -/
structure Act where
  slot : Nat
  prog : Option Nat
  paused : Bool
  /-- ms at which the pause began. -/
  pausedAt : Nat
  /-- the fallback cause it carries out, 0 for an activation (17 R589). -/
  cause : Nat
deriving DecidableEq, Repr

/-- Firmware slots, probation and the settings store (17 R576 to R594, R598). -/
structure FwS where
  slot0 : Slot
  slot1 : Slot
  boot : Nat
  booted : Nat
  fallback : Bool
  probEl : W16
  dseq : W64
  /-- the SVN counter in fuses. -/
  svn : Nat
  probH : Byte
  lastRef : Byte
  lastFb : BitVec 3
  stage : Option Stage
  /-- an FW.STAGE in Chain form that waits for an offer: program, length, ms of its start. -/
  wait : Option (Nat × W64 × Nat)
  act : Option Act
  /-- the governing settings record: format and entries, address to value. -/
  fmt : W16
  store : Tbl W64
  /-- `RSEQ` of the governing record, and what its other copy holds: the record before the last write. -/
  rseq : W64
  prev : Tbl W64
  /-- the record of the older format, while both are kept. -/
  older : Option (W16 × Tbl W64)
  /-- a change awaits its write (17 R593). -/
  dirty : Bool
  /-- slots whose verification has failed in this boot. -/
  tried : List Nat
deriving DecidableEq, Repr

/-- A Chain link (17 R597). -/
structure Link where
  /-- `LINK`: 0 down, 1 training, 2 up, 3 bypass. -/
  st : Nat
  peerOk : Bool
  peerId : W16
  crcErr : W16
  resent : W16
  helloAt : Nat
deriving DecidableEq, Repr

/-- A link at power-on. -/
def Link.reset : Link := { st := 0, peerOk := false, peerId := 0, crcErr := 0, resent := 0, helloAt := 0 }

/-- The transfer a sled receives on UP (17 R573 to R575). -/
structure Rx where
  image : Image
  storing : Bool
  /-- it is forwarded on DOWN. -/
  fwd : Bool
  /-- chunks received. -/
  got : List Nat
  /-- chunk buffers in use, by chunk index. -/
  bufs : Tbl Chunk
  /-- DONE has arrived. -/
  done : Bool
deriving DecidableEq, Repr

/-- The transfer a sled sends on DOWN (17 R573). `next` is the next chunk to send. -/
structure Tx where
  image : Image
  /-- the sender is this sled (17 R575, `ORIGIN`), not the UP link. -/
  origin : Bool
  accepted : Bool
  next : Nat
  out : List Nat
  credits : Nat
  fails : Tbl Nat
  doneSent : Bool
deriving DecidableEq, Repr

/-- The Chain (17 R571 to R575, R596, R597). -/
structure ChnS where
  ctl : W32
  arm : W64
  up : Link
  dn : Link
  rx : Option Rx
  tx : Option Tx
  /-- `CHN_XFER`: RCVD, FWDED, WRITTEN and XSTATE of the current or last transfer. -/
  rcvd : W16
  fwded : W16
  written : W16
  xstate : Nat
deriving DecidableEq, Repr

/-- An SPDM session (18 R611, R613). -/
structure Sess where
  carrier : Carrier
  finished : Bool
  /-- opened with mutual authentication under the enrolled owner root. -/
  owner : Bool
  keys : Nat
deriving DecidableEq, Repr

/-- Management (18 R603 to R618). -/
structure MgtS where
  /-- settings that differ from their defaults (R615). -/
  set : Tbl Nat
  eid : Byte
  root : Option (BitVec 384)
  lock : Bool
  key : Option (BitVec 776)
  /-- peer lanes: sled ID and PBR ID (R615; 07 R293). -/
  lanes : Tbl (W16 × BitVec 12)
  sess : Tbl Sess
  formatting : Bool
  /-- commands that wait for the end of an activation pause (18 R629), oldest first. -/
  held : List Instr
deriving DecidableEq, Repr

/-- A trace record (18 R619). -/
structure TRec where
  ts : W48
  frac : BitVec 12
  fracv : Bool
  src : Byte
  rtype : Byte
  data : BitVec 48
deriving DecidableEq, Repr

/-- The trace unit (18 R619 to R628). -/
structure TrcS where
  buf : Tbl TRec
  wrap : Bool
  fzFatal : Bool
  ledg : Bool
  diag : Bool
  evsev : BitVec 3
  srcEn : W64
  wrptr : Nat
  /-- records held since the last restart, at most 32,768. -/
  held : Nat
  stopped : Bool
  frozen : Bool
  wraps : W16
  dropped : W16
  /-- records still to enter before the freeze of R625. -/
  left : Option Nat
  /-- sources that have written SLEEP and not WAKE: timebase at the SLEEP (R622). -/
  sleep : Tbl Nat
  /-- records ever written. -/
  no : Nat
deriving DecidableEq, Repr

end Sys2Proof.Machine
end

