-- ==== Sys2Proof/Machine/State.lean ====
section
/-! DEFINITION. The state of the sled: every register, table, buffer and mode of the manual, as plain data, the queue of
commands waiting, and what the sled has sent. -/

namespace Sys2Proof.Machine

/-- Why the model stops on a command. -/
inductive Fault
  /-- A command whose list operand does not have the length its format fixes: nothing on any wire or bus of the sled spells
  it. Raised by TRIAL_PACK_DONE on a stored form of another length than its size, and by PEER_DATA_FRAME on a payload that is
  no whole segment. Safe: no command of the hardware is stopped. -/
  | illFormed
deriving DecidableEq, Repr

/-- Why the model refuses a command. -/
inductive Refusal
  /-- No meaning yet. Raised only by the arms of exec. Safe. -/
  | notModelled (mnemonic : String)
deriving DecidableEq, Repr

/-- Stored bytes (assumption log 7: an unlisted byte reads 0), and the epoch under which each Tarn sector was written
(03 R110). -/
structure MemS where
  bytes : List Host.Cell
  tarnEp : Tbl Byte
deriving DecidableEq, Repr

/-- The whole state. -/
structure State where
  id : IdS
  clk : ClkS
  sled : SledS
  rt : RtS
  map : MapS
  mem : MemS
  dir : DirS
  pond : PondS
  lake : LakeS
  ports : PortsS
  q : QS
  lamp : LampS
  pwr : PwrS
  evt : EvtS
  wd : WdS
  fw : FwS
  chn : ChnS
  mgt : MgtS
  trc : TrcS
  out : List Output
  pending : List Instr
deriving DecidableEq, Repr

/-! ### Reset: the machine as an island without power, before its first start (16 R556: the sled is OFF). Fields the manual
gives no value for are named in assumption log 8 and 9. -/

/-- The Ledger entries at their Lit floors (13 R467, R468). -/
def Entry.reset (floor : W16) : Entry :=
  { ceil := floor, perm := 0, seq := 0, rtf := false, rceil := 0, rperm := 0, ack := 0, draw := 0, counted := floor, lowering := false, forcedClk := false,
    asks := false, st := .lit, trimAt := 0, gov := false }

/-- Power at power-on (13 R468, R484 to R488). -/
def PwrS.reset : PwrS :=
  { vin := 0, iin := 0, pin := 0, band := 0, sag := false, ride := 0, lowVin := 0, switchOpen := false, cap := 0x00040D46#32,
    entries := (List.range 21).map (fun i => (i, Entry.reset (if i < 12 then 140 else if i < 16 then 60 else if i < 20 then 80 else 200)))
    charge := 250, profile := .serving, switching := none, packMs := 50, trimUs := 200, bankMs := 10000, w1 := 8, w2 := 4, w3 := 1,
    eMeas := 0, eNow := 0, measuring := none, higher := none, measFails := 0, weak := false, failed := false, full := false, budget := 0,
    admission := 0, overadmit := 0, wb := 0, thr := [], tjw := 0, tje := 0, inlet := 0, inletHot := false, tripped := false, nandLim := [],
    nandT := [], rides := 0, dusks := 0, forced := 0, throttles := 0, chipHot := [], badRead := [] }

/-- Watchdogs at a power-on reset (15 R548 to R551). -/
def WdS.reset : WdS :=
  { tout := 4, run := false, half := false, warn := false, oscfail := false, elapsed := 0, trips := 0, badsvc := 0, last := 0, times := [],
    pilotRestart := false, held := false, ntries := 3, wde := (List.range 16).map (fun i => (i, Wde.reset (if i < 4 then 100 else 500))),
    rcause := 0, vcause := 0, btn := 0, press := 0, cls := 0, pressAt := 0, pressed10 := false }

/-- Firmware as manufactured (17 R598; assumption log 9): slot 0 holds the confirmed image. -/
def FwS.reset : FwS :=
  { slot0 := { Slot.empty with st := .running }, slot1 := Slot.empty, boot := 0, booted := 0, fallback := false, probEl := 0, dseq := 0,
    svn := 0, probH := 24, lastRef := 0, lastFb := 0, stage := none, wait := none, act := none, fmt := 0, store := [], rseq := 0, prev := [], older := none,
    dirty := false, tried := [] }

/-- The Chain at power-on (17 R596, R597). -/
def ChnS.reset : ChnS :=
  { ctl := 0x19#32, arm := BitVec.allOnes 64, up := .reset, dn := .reset, rx := none, tx := none, rcvd := 0, fwded := 0, written := 0,
    xstate := 0 }

/-- Management before any enrolment (18 R612, R615). -/
def MgtS.reset : MgtS := { set := [], eid := 0, root := none, lock := false, key := none, lanes := [], sess := [], formatting := false, held := [] }

/-- The trace unit at a power-on reset (18 R627, R628, R631). -/
def TrcS.reset : TrcS :=
  { buf := [], wrap := false, fzFatal := false, ledg := false, diag := false, evsev := 5, srcEn := BitVec.allOnes 64, wrptr := 0, held := 0,
    stopped := false, frozen := false, wraps := 0, dropped := 0, left := none, sleep := [], no := 0 }

/-- Host ports at power-on (07 R276, R306, R307): host ID k is bound to function 0 of port half k for the halves that exist, and
no port is bifurcated (R273). -/
def PortsS.reset : PortsS :=
  { cfg := [], bifur := [], half := [], bind := (List.range 8).map (fun i => (2 * i, ⟨true, BitVec.ofNat 4 (2 * i), 0, 0, false⟩)), fn := [], perst := [], streams := [], runs := [], dcLog := [],
    stopStores := false, unmappedAt := [], unboundAt := [], pmoves := [], pwait := [], resets := [], np := [], npNo := 0 }

/-- The machine right after reset. -/
def State.reset : State where
  id := { variant := .l128, sledId := 0, serial := 0 }
  clk := { ms := 0, age := 0, store := 0, crystalOk := true, ref0Ok := true, ref1Ok := true, refInUse := 0, rcAt := 0, rcFactor := 0 }
  sled := { st := .off, boot := .none, warm := false, dark := false, startFault := 0, bridge := 8, bridgeLost := false, latchOpen := false,
            safe := false, stayOff := false, flush := none, flushCmd := false, vigilNext := none, offNext := false, vigilDone := false, preserved := false,
            kept := [] }
  rt := { ent := [], slots := [], grants := [], offers := [], gone := [], revokes := [], windows := [], epochs := [], peers := [],
          tsets := [], stalled := [], drains := [], evac := [], releasing := [], cnt := [], born := [], roAt := [], pwAt := [] }
  map := { sme := [], moves := [], moveNo := 0, trials := [], trialAfter := [], forms := [], rel := [], relNo := 0, lostRuns := [], away := [],
           low := [], capWarn := false, capCrit := false, look := [] }
  mem := { bytes := [], tarnEp := [] }
  dir := { ent := [], snoops := [], lost := [], pres := [], recalls := 0, held := [], reqNo := 0 }
  pond := .reset
  lake := .reset
  ports := .reset
  q := { qs := [], progs := [], progNo := 0, ops := [], opNo := 0, sig := [], dispatching := false, lastStart := 0, idle := [], freeNo := 0 }
  lamp := { sch := [], stopped := false }
  pwr := .reset
  evt := { ring := [], prod := 0, rd := [], mgmt := { idx := 0, lost := 0, minsev := 3, notify := true, spacing := false, heldSig := false },
           fmap := [], recov := [], advised := [] }
  wd := .reset
  fw := .reset
  chn := .reset
  mgt := .reset
  trc := .reset
  out := []
  pending := []

end Sys2Proof.Machine
end

