-- ==== Sys2Proof/Machine/Trace.lean ====
section
/-! DEFINITION. The trace unit: records, the overwrite and stop policies, the freeze after a FATAL event (18 R619 to R625). -/

namespace Sys2Proof.Machine

/-- The always-on timebase: crystal periods of 1/32,768 s, 48 bits (13 R476). -/
def State.time (s : State) : W48 := BitVec.ofNat 48 (s.clk.ms * 32768 / 1000)

/-- A record of a source at the present moment (R619). -/
def State.trcRec (s : State) (src rtype : Nat) (data : BitVec 48) : TRec :=
  { ts := s.time, frac := Config.frac s.trc.no, fracv := s.clk.crystalOk, src := BitVec.ofNat 8 src, rtype := BitVec.ofNat 8 rtype, data := data }

/-- One record is lost in stop mode or while frozen (R624). -/
def TrcS.lose (t : TrcS) : TrcS := { t with dropped := if t.dropped = 0xFFFF then t.dropped else t.dropped + 1 }

/-- Writes one record, or loses it (R624, R625). -/
def TrcS.put (t : TrcS) (r : TRec) : TrcS :=
  if t.frozen ∨ t.stopped then t.lose
  else
    let p := (t.wrptr + 1) % 32768
    let h := min 32768 (t.held + 1)
    let n := t.left.map (fun k => k - 1)
    { t with
      buf := Tbl.put t.buf t.wrptr r
      no := t.no + 1
      wrptr := p
      held := h
      wraps := if p = 0 ∧ t.wrap = false then t.wraps + 1 else t.wraps
      stopped := t.wrap && h == 32768
      frozen := n == some 0
      left := if n = some 0 then none else n }

/-- Records that need their source's bit (R623): every type but SLEEP, WAKE, EVENT, EVENTP, STATE, DROP, FW, RESET, and LEDGER, which needs
`LEDG`. -/
def TrcS.wants (t : TrcS) (src rtype : Nat) : Bool :=
  if rtype = 0x0A then t.ledg
  else if rtype = 0x07 ∨ rtype = 0x08 then t.srcEn.getLsbD src
  else true

end Sys2Proof.Machine
end

