-- ==== Sys2Proof/Machine/Ops.lean ====
section
/-! DEFINITION. Operations that every family of commands shares: outputs, events and their readers (01 R37 to R39; 14 R495 to
R501), interrupts (07 R295, R297), region entries and grants (06 R236 to R246), program completion (08 R321, R325). -/

namespace Sys2Proof.Machine

/-- The outcome of a command. -/
abbrev R := Host.Outcome State Fault Refusal

/-- Sends one thing to the outside. -/
def State.send (s : State) (o : Output) : State := { s with out := o :: s.out }

/-! ### Bindings and functions (07 R275 to R277) -/

/-- The binding of a host ID. -/
def State.bindOf (s : State) (h : HostId) : Bind := s.ports.bind.getD h.toNat .none

/-- The function of a host ID. -/
def State.fnOf (s : State) (h : HostId) : Fn := s.ports.fn.getD h.toNat .reset

/-- Writes the function of a host ID. -/
def State.setFn (s : State) (h : HostId) (f : Fn) : State :=
  { s with ports := { s.ports with fn := s.ports.fn.set h.toNat .reset f } }

/-- Bound host IDs. -/
def State.boundHosts (s : State) : List HostId :=
  (s.ports.bind.filter (fun p => p.2.valid)).map (fun p => BitVec.ofNat 10 p.1)

/-- Whether a host ID is the owner function's (07 R277). -/
def State.isOwnerFn (s : State) (h : HostId) : Bool := (s.bindOf h).valid && (s.bindOf h).owner

/-- The port half of a host ID. -/
def State.halfOf (s : State) (h : HostId) : Nat := (s.bindOf h).half.toNat

/-- Chiplet of a port half: 0 Vrelser-W (HP0 to HP3), 1 Vrelser-E (00 R20). -/
def chipletOfHalf (half : Nat) : Nat := half / 8

/-- A port half's register. -/
def State.halfReg (s : State) (n : Nat) : Half := s.ports.half.getD n .reset

/-- Whether an SPDM session runs over a port half (18 R611). -/
def State.carriedBy (s : State) (n : Nat) (c : Carrier) : Bool :=
  match c with
  | .bus => false
  | .half k => k.val == n
  | .doe h => (s.bindOf h).valid && s.halfOf h == n

/-- Writes a port half's register. A half that is not in L0 carries no SPDM session (18 R611). -/
def State.setHalf (s : State) (n : Nat) (h : Half) : State :=
  { s with
    ports := { s.ports with half := s.ports.half.set n .reset h }
    mgt := if h.link = 2 ∨ h.link = 3 then s.mgt else { s.mgt with sess := s.mgt.sess.filter (fun p => !s.carriedBy n p.2.carrier) } }

/-- A port's configuration. -/
def State.portCfg (s : State) (n : Nat) : Port := s.ports.cfg.getD n .reset

/-- Adds one to a counter that saturates at all ones (07, 08: counters saturate). -/
def satInc {w : Nat} (v : BitVec w) : BitVec w := if v = BitVec.allOnes w then v else v + 1

/-! ### MSI-X (07 R295, R297) -/

/-- Signals a vector of a function; in D3hot vectors 0 and 1 become pending instead. -/
def State.signal (s : State) (h : HostId) (vec : Nat) : State :=
  let f := s.fnOf h
  if f.d3 ∧ vec < 2 then (if f.msixPend.contains vec then s else s.setFn h { f with msixPend := f.msixPend ++ [vec] })
  else s.send (.msix h vec)

/-- Vector 1: a grant offer, a revoke, a forced release or a change of KDEV_FSTAT. -/
def State.notice (s : State) (h : HostId) : State := s.signal h 1

/-! ### Region Table entries (06 R236) -/

/-- The entry of a region. -/
def State.ent (s : State) (r : RegionId) : REnt := s.rt.ent.getD r.toNat .freed

/-- Writes an entry as it stands. -/
def State.setEnt (s : State) (r : RegionId) (e : REnt) : State :=
  { s with rt := { s.rt with ent := s.rt.ent.set r.toNat .freed e } }

/-- Whether a generation is odd (01 R28). -/
def REnt.odd (e : REnt) : Bool := e.gen.getLsbD 0

/-- The content of an entry once the change that holds it odd has been rolled back: the entry itself where it is even (01 R32). -/
def State.standing (s : State) (r : RegionId) : REnt :=
  match s.rt.stalled.find? (fun x => x.region == r) with
  | some x => x.shadow
  | none => s.ent r

/-- A change of one entry under the three steps of 01 R28, done: the generation moves to the next even value. The token admits one writer at
a time: on an entry that another writer holds odd, the change waits for that writer's end (01 R32). -/
def State.change (s : State) (r : RegionId) (f : REnt → REnt) : State :=
  let e := s.ent r
  if e.odd then { s with rt := { s.rt with stalled := s.rt.stalled.map (fun x =>
      if x.region = r then { x with shadow := { f x.shadow with gen := x.shadow.gen }, late := x.late + 1 } else x) } }
  else s.setEnt r { f e with gen := e.gen + 2 }

/-- Segments of a region (00, units). -/
def REnt.segs (e : REnt) : Nat := (e.sizeG.toNat + 1) * 65536

/-- Bytes of a region. -/
def REnt.bytes (e : REnt) : Nat := e.segs * 4096

/-- `RSTATE` code (06 R231). -/
def RState.code : RState → Nat
  | .freed => 0
  | .new => 1
  | .active => 2
  | .seald => 3
  | .evacuating => 4

/-- A writable shared region: the directory tracks its lines (06 R245). -/
def REnt.tracked (e : REnt) : Bool := e.shared && (e.st == .new || e.st == .active || e.st == .evacuating)

/-- Whether a region is sealed. -/
def REnt.isSealed (e : REnt) : Bool := e.st == .seald

/-- Host grants of a region: index and grant. -/
def State.grantsOf (s : State) (r : RegionId) : List (Nat × Grant) := s.rt.grants.filter (fun p => p.2.region == r)

/-- Host grants of a host. -/
def State.grantsOfHost (s : State) (h : HostId) : List (Nat × Grant) := s.rt.grants.filter (fun p => p.2.host == h)

/-- Whether a host holds a host grant of a region. -/
def State.holdsGrant (s : State) (h : HostId) (r : RegionId) : Bool := s.rt.grants.any (fun p => p.2.host == h && p.2.region == r)

/-- The hosts that hold a host grant of a region: the grant bitmap (06 R237). -/
def State.grantHosts (s : State) (r : RegionId) : List HostId := ((s.grantsOf r).map (fun p => p.2.host)).dedup

/-! ### Events (14 R495 to R501) -/

/-- Code, severity, plane and scope of every event (14 R499). Severities 0 INFO to 5 FATAL; planes 0 data, 1 control, 2
management; scopes 0 ALL, 1 HOST, 2 REGION, 3 OWNER. -/
def Ev.info : Ev → Nat × Nat × Nat × Nat
  | .pchCeHigh => (0x0101, 2, 0, 0)
  | .pchCeFence => (0x0102, 3, 0, 0)
  | .pchTrainFail => (0x0103, 3, 0, 0)
  | .pchStall => (0x0104, 3, 0, 0)
  | .stackTempLost => (0x0105, 2, 0, 0)
  | .stackFence => (0x0106, 4, 1, 0)
  | .sectorTag => (0x0107, 3, 0, 2)
  | .codecFault => (0x0108, 3, 0, 2)
  | .mapLost => (0x0109, 3, 1, 2)
  | .lakeDim => (0x0201, 2, 1, 0)
  | .lakeGutter => (0x0202, 3, 1, 0)
  | .lakeSpent => (0x0203, 4, 1, 0)
  | .lakeDieFence => (0x0204, 3, 1, 0)
  | .lakeRecon => (0x0205, 1, 1, 0)
  | .lakeMountFail => (0x0206, 5, 1, 0)
  | .journalFault => (0x0207, 3, 1, 0)
  | .lowWater => (0x0301, 1, 0, 0)
  | .moveFail => (0x0302, 2, 0, 2)
  | .smeMalformed => (0x0303, 3, 0, 2)
  | .segPoison => (0x0304, 3, 0, 2)
  | .tarnLost => (0x0305, 3, 0, 1)
  | .capWarn => (0x0306, 2, 1, 0)
  | .capCrit => (0x0307, 3, 1, 0)
  | .capacityFatal => (0x0308, 4, 0, 2)
  | .poisonWrite => (0x0309, 1, 0, 2)
  | .regionPoisoned => (0x030A, 3, 1, 2)
  | .grantForced => (0x0401, 2, 1, 2)
  | .grantRoWrite => (0x0402, 1, 0, 2)
  | .lineLost => (0x0403, 3, 0, 2)
  | .dirLost => (0x0404, 4, 0, 2)
  | .rtRollback => (0x0405, 3, 1, 2)
  | .hostUnbound => (0x0501, 1, 0, 3)
  | .unmappedAccess => (0x0502, 1, 0, 1)
  | .portFence => (0x0503, 3, 0, 0)
  | .hostReset => (0x0504, 1, 0, 3)
  | .dusk => (0x0505, 4, 2, 0)
  | .queueError => (0x0601, 3, 1, 1)
  | .schedMiss => (0x0602, 2, 1, 1)
  | .schedDisarmed => (0x0603, 2, 1, 1)
  | .wickFence => (0x0701, 3, 1, 0)
  | .lanternFence => (0x0702, 4, 2, 0)
  | .codecFence => (0x0703, 3, 1, 0)
  | .fenceRecovered => (0x0704, 1, 1, 0)
  | .bridgeLink => (0x0705, 3, 2, 0)
  | .bridgeLost => (0x0706, 5, 2, 0)
  | .replaceAdvised => (0x0707, 4, 2, 0)
  | .ledgerForced => (0x0708, 2, 2, 3)
  | .supplyRange => (0x0801, 1, 2, 0)
  | .supplySag => (0x0802, 2, 2, 0)
  | .holdupWeak => (0x0803, 2, 2, 0)
  | .holdupFail => (0x0804, 4, 2, 0)
  | .budgetLow => (0x0805, 2, 2, 0)
  | .capExceed => (0x0806, 2, 2, 0)
  | .thermThrottle => (0x0807, 2, 2, 0)
  | .stackHot => (0x0808, 4, 2, 0)
  | .thermTrip => (0x0809, 5, 2, 0)
  | .thermInlet => (0x080A, 2, 2, 0)
  | .clockFault => (0x080B, 3, 2, 0)
  | .wdpWarn => (0x0901, 2, 2, 3)
  | .wdTrip => (0x0902, 3, 2, 0)
  | .vigilEnter => (0x0903, 5, 2, 0)
  | .resetPress => (0x0904, 1, 2, 0)
  | .resetFaulty => (0x0905, 3, 2, 0)
  | .sledState => (0x0906, 1, 2, 0)
  | .latchOpen => (0x0907, 4, 2, 0)
  | .safeToRemove => (0x0908, 1, 2, 0)
  | .fwStaged => (0x0A01, 1, 2, 3)
  | .fwRefused => (0x0A02, 2, 2, 3)
  | .fwActivated => (0x0A03, 1, 2, 0)
  | .fwConfirmed => (0x0A04, 1, 2, 3)
  | .fwFallback => (0x0A05, 3, 2, 0)
  | .chainFault => (0x0A06, 2, 2, 3)
  | .settingsFault => (0x0A07, 3, 2, 3)
  | .traceStopped => (0x0A08, 1, 2, 3)
  | .ringFault => (0xFFFF, 3, 2, 0)

/-- What a post names: the event, its object (14 R496), the host of a HOST scope and the payload words (14 R498). -/
structure Post where
  ev : Ev
  okind : Nat := 0
  obj : Nat := 0
  shost : HostId := 0
  p0 : W64 := 0
  p1 : W64 := 0
deriving DecidableEq, Repr

/-- The record a post makes at a time. -/
def Post.toRec (p : Post) (t : W48) : EvRec :=
  let i := p.ev.info
  { code := BitVec.ofNat 16 i.1, sev := BitVec.ofNat 3 i.2.1, plane := BitVec.ofNat 2 i.2.2.1, okind := BitVec.ofNat 8 p.okind,
    obj := BitVec.ofNat 32 p.obj, time := t, shost := p.shost, scope := BitVec.ofNat 2 i.2.2.2, p0 := p.p0, p1 := p.p1, bad := false }

/-- A PAIR payload (14 R498). -/
def pairPost (ev : Ev) (okind obj : Nat) (a b : Nat) : Post :=
  { ev := ev, okind := okind, obj := obj, p0 := BitVec.ofNat 64 a, p1 := BitVec.ofNat 64 b }

/-- A SEG payload: region, segment, poison cause, SME word 1 (14 R498). -/
def segPost (ev : Ev) (r : RegionId) (seg cause : Nat) (w1 : W64) : Post :=
  { ev := ev, okind := 1, obj := r.toNat, p0 := BitVec.ofNat 64 (r.toNat + seg * 2 ^ 16 + cause * 2 ^ 56), p1 := w1 }

/-- A LINE payload: region, line, host concerned (14 R498). -/
def linePost (ev : Ev) (r : RegionId) (line : Nat) (h : HostId) : Post :=
  { ev := ev, okind := 1, obj := r.toNat, p0 := BitVec.ofNat 64 (r.toNat + line * 2 ^ 16), p1 := BitVec.ofNat 64 h.toNat }

/-- A FENCE payload: cause, setter, bits set (14 R498). -/
def fencePost (ev : Ev) (okind obj cause setter bits : Nat) : Post :=
  { ev := ev, okind := okind, obj := obj, p0 := BitVec.ofNat 64 (cause + setter * 256 + bits * 2 ^ 32) }

/-- Whether a host function may read a record (14 R497). -/
def State.mayRead (s : State) (h : HostId) (r : EvRec) : Bool :=
  s.isOwnerFn h ||
    (match r.scope.toNat with
     | 0 => true
     | 1 => r.shost == h
     | 2 =>
       let rg : RegionId := r.obj.setWidth 14
       (s.ent rg).st != .freed && ((s.ent rg).owner == h || s.holdsGrant h rg)
     | _ => false)

/-- A reader at its reset values, at a producer index (14 R500; 07 R300 step 6). -/
def Reader.at (prod : Nat) : Reader := { idx := prod, lost := 0, minsev := 3, notify := true, spacing := false, heldSig := false }

/-- The reader of a host function. A function that never read starts at index 0 (14 R521). -/
def State.reader (s : State) (h : HostId) : Reader := s.evt.rd.getD h.toNat (Reader.at 0)

/-- Writes the reader of a function. -/
def State.setReader (s : State) (h : HostId) (r : Reader) : State :=
  { s with evt := { s.evt with rd := s.evt.rd.put h.toNat r } }

/-- Counts an overwritten record for one reader that had not read it (01 R38). -/
def Reader.overwritten (rd : Reader) (oldest : Nat) (could : Bool) : Reader :=
  if rd.idx ≤ oldest then { rd with idx := oldest + 1, lost := if could then satInc rd.lost else rd.lost } else rd

/-- Vector 0 of one function for a record just posted (14 R501). -/
def State.notify0 (s : State) (h : HostId) (r : EvRec) : State :=
  let rd := s.reader h
  if rd.notify ∧ rd.minsev.toNat ≤ r.sev.toNat ∧ s.mayRead h r = true then
    if rd.spacing then s.setReader h { rd with heldSig := true }
    else (s.setReader h { rd with spacing := true }).signal h 0
  else s

/-- Posts one record: overwrites the oldest when the ring is full, then advances the producer index (01 R38). -/
def State.postRec (s : State) (p : Post) : State :=
  let r := p.toRec s.time
  let full := decide (2048 ≤ s.evt.ring.length)
  let oldest := s.evt.prod - s.evt.ring.length
  let old := s.evt.ring.headD r
  let s1 : State :=
    if full then
      { s with evt := { s.evt with
          ring := s.evt.ring.drop 1 ++ [r]
          prod := s.evt.prod + 1
          rd := s.boundHosts.foldl (fun t h => t.put h.toNat ((s.reader h).overwritten oldest (s.mayRead h old))) s.evt.rd
          mgmt := s.evt.mgmt.overwritten oldest true } }
    else { s with evt := { s.evt with ring := s.evt.ring ++ [r], prod := s.evt.prod + 1 } }
  s1.boundHosts.foldl (fun t h => t.notify0 h r) s1

/-- The event poster's two trace records of an event, for FATAL ones and from `EVSEV` on (18 R621). A FATAL one starts the count of
`FZ_FATAL` (R625). -/
def State.traceEvent (s : State) (r : EvRec) : State :=
  if r.sev.toNat < 5 ∧ r.sev.toNat < s.trc.evsev.toNat then s
  else
    let a := s.trcRec 2 3 (BitVec.ofNat 48 (r.code.toNat + (r.sev.toNat + 8 * r.plane.toNat) * 2 ^ 16 + r.okind.toNat * 2 ^ 24 + r.obj.toNat % 65536 * 2 ^ 32))
    let t1 := s.trc.put a
    let t2 := if r.sev = 5 ∧ t1.fzFatal = true ∧ t1.frozen = false ∧ t1.left = none then { t1 with left := some 1024 } else t1
    let b : TRec := { a with rtype := 4, data := r.p0.setWidth 48, frac := Config.frac t2.no }
    { s with trc := t2.put b }

/-- TRACE_STOPPED posts as the unit stops (18 R625). -/
def State.traceCheck (s old : State) : State :=
  if s.trc.stopped ∧ old.trc.stopped = false then
    let p : Post := { ev := .traceStopped }
    (s.postRec p).traceEvent (p.toRec s.time)
  else s

/-- Posts one record, in every sled state but OFF (01 R37), and traces it. -/
def State.post (s : State) (p : Post) : State :=
  if s.sled.st = .off then s
  else
    let s1 := s.postRec p
    (s1.traceEvent (p.toRec s.time)).traceCheck s1

/-- A source writes a trace record, in every sled state but OFF (18 R620 to R624). -/
def State.trace (s : State) (src rtype data : Nat) : State :=
  if s.sled.st = .off ∨ s.trc.wants src rtype = false then s
  else ({ s with trc := s.trc.put (s.trcRec src rtype (BitVec.ofNat 48 data)) }).traceCheck s

/-- A RESET record: the domain, in the row order of 15 R542 (18 R621). -/
def State.traceReset (s : State) (domain : Nat) : State := s.trace 0 0x0B domain

/-- Place of a plane among records of equal severity: management, data, control (01 R39). -/
def planeRank : Nat → Nat
  | 2 => 0
  | 0 => 1
  | _ => 2

/-- Whether a post enters the ring before another that reaches the poster in the same cycle (01 R39). -/
def Post.before (a b : Post) : Bool :=
  let x := a.ev.info
  let y := b.ev.info
  decide (y.2.1 < x.2.1) || (x.2.1 == y.2.1 && decide (planeRank x.2.2.1 ≤ planeRank y.2.2.1))

/-- Inserts a post in the order of R39, after its equals. -/
def insertPost (p : Post) : List Post → List Post
  | [] => [p]
  | q :: t => if q.before p then q :: insertPost p t else p :: q :: t

/-- Posts the records of one moment in the order of 01 R39. -/
def State.postAll (s : State) (l : List Post) : State := (l.foldl (fun acc p => insertPost p acc) []).foldl State.post s

/-! ### Sled state (00; 07 R305; 16 R556) -/

/-- `SLED_STATE` code (07 R305). -/
def SledSt.code : SledSt → Nat
  | .off => 0
  | .boot => 1
  | .train => 2
  | .ready => 3
  | .serve => 4
  | .duskFlush => 5
  | .vigil => 6
  | .dead => 7

/-- Programs run and hosts are served (08 R345). -/
def State.up (s : State) : Bool := s.sled.st == .ready || s.sled.st == .serve

/-- A change of the sled state: SLED_STATE posts, and every function's KDEV_FSTAT has changed (07 R295). -/
def State.setSled (s : State) (st : SledSt) : State :=
  if s.sled.st = st then s
  else
    let s1 := { s with sled := { s.sled with st := st } }
    let s2 := (s1.post (pairPost .sledState 0 0 st.code s.sled.st.code)).trace 1 5 (st.code + s.sled.st.code * 256)
    s2.boundHosts.foldl State.notice s2

/-- READY with no host grant, SERVE with one (00, sled states; 07 R300; 16 R562). -/
def State.serveUpdate (s : State) : State :=
  match s.sled.st, s.rt.grants with
  | .ready, _ :: _ => s.setSled .serve
  | .serve, [] => s.setSled .ready
  | _, _ => s

/-! ### Units (00 R20; 14 R502) -/

/-- Fence Map bit of a unit (14 R502). -/
def FUnit.bit : FUnit → Nat
  | .wick n => n
  | .lantern n => 96 + n
  | .codec n => 100 + n
  | .pch n => 148 + n
  | .stack n => 532 + n
  | .half n => 544 + n
  | .die n => 560 + n

/-- The unit of a Fence Map bit. -/
def unitOfBit (b : Nat) : FUnit :=
  if b < 96 then .wick b else if b < 100 then .lantern (b - 96) else if b < 148 then .codec (b - 100)
  else if b < 532 then .pch (b - 148) else if b < 544 then .stack (b - 532) else if b < 560 then .half (b - 544)
  else .die (b - 560)

/-- Whether a unit is out of service (01 R40). -/
def State.fenced (s : State) (u : FUnit) : Bool := s.evt.fmap.has u.bit

/-- Whether a pseudo-channel is out of service, itself or with its stack. -/
def State.pchFenced (s : State) (n : Nat) : Bool := s.fenced (.pch n) || s.fenced (.stack (n / 32))

/-- A stack with no pseudo-channel in service counts as fenced (14 R504). -/
def State.stackFenced (s : State) (k : Nat) : Bool := s.fenced (.stack k)

/-- The first stack above k on the same chiplet whose bit is clear, within j steps (14 R507). -/
def State.substUp (s : State) (k : Nat) : Nat → Nat → Option Nat
  | 0, _ => none
  | f + 1, i =>
    let c := k / 6 * 6 + (k % 6 + i) % 6
    if s.stackFenced c then State.substUp s k f (i + 1) else some c

/-- The stack that stands for an anchor stack: itself, or its substitute (14 R507). -/
def State.anchor (s : State) (k : Nat) : Nat :=
  match s.substUp k 6 0 with
  | some c => c
  | none => (s.substUp ((k + 6) % 12) 6 0).getD k

/-- Anchor stack of a segment of a region: S((r + p) mod 12) for map page p (02, Where SMEs live). -/
def State.anchorOf (s : State) (r : RegionId) (seg : Nat) : Nat := s.anchor ((r.toNat + seg / 256) % 12)

/-- Chiplet of a region's Lanterns: that of map page 0's anchor (01 R23). -/
def State.chipletOf (s : State) (r : RegionId) : Nat := s.anchorOf r 0 / 6

/-! ### The Lanterns' work (01 R23, R24, R47) -/

/-- Firmware work that one Lantern does (01 R23): the flash translation layer of a chiplet's channels, the control queues of its ports, a
region's management, placement, packing and Lamplighter, and a stack's eviction, reclaim and fence decisions. -/
inductive Work
  | ftl (chiplet : Nat)
  | control (chiplet : Nat)
  | region (r : RegionId)
  | stack (k : Nat)
deriving DecidableEq, Repr

/-- The Lanterns that do a kind of work on chiplet c, the first one in service doing it: `odd` work is L1's and L3's, the other L0's and
L2's; the chiplet's other Lantern comes next (01 R24). DESIGN CHOICE (assumption log 26): R24 does not say which Lantern of the other chiplet
takes over which work; here the one that does the same kind of work comes before its neighbour. -/
def lanternOrder (c : Nat) (odd : Bool) : List Nat :=
  if odd then [2 * c + 1, 2 * c, (2 * c + 3) % 4, (2 * c + 2) % 4] else [2 * c, 2 * c + 1, (2 * c + 2) % 4, (2 * c + 3) % 4]

/-- The order of the Lanterns for a piece of work. -/
def State.workOrder (s : State) : Work → List Nat
  | .ftl c | .control c => lanternOrder c false
  | .region r => lanternOrder (s.chipletOf r) true
  | .stack k => lanternOrder (k / 6) true

/-- The Lantern that does a piece of work. -/
def State.lanternFor (s : State) (w : Work) : Nat :=
  ((s.workOrder w).find? (fun n => !s.fenced (.lantern n))).getD ((s.workOrder w).headD 0)

/-- Whether an activation has paused the firmware (17 R584). -/
def State.inPause (s : State) : Bool := s.fw.act.any (fun a => a.paused)

/-- Whether a piece of work goes on: its Lantern is in service and not in a stage 1 restart, and no activation pauses it (01 R46, R47). -/
def State.serves (s : State) (w : Work) : Bool :=
  let n := s.lanternFor w
  !s.fenced (.lantern n) && !(s.wd.wde.find n).any (fun x => x.restart) && !s.inPause

/-- The Lantern that runs a region's schedules (01 R23, R24; 11 R408); which one of the other chiplet takes over is a DESIGN CHOICE (assumption log
26). -/
def State.lanternOf (s : State) (r : RegionId) : Nat := s.lanternFor (.region r)

/-- The Lantern that executes the control queues of the ports of a chiplet (01 R23, R24); which one of the other chiplet takes over is a DESIGN CHOICE
(assumption log 26). -/
def State.controlLantern (s : State) (c : Nat) : Nat := s.lanternFor (.control c)

/-- The island is awake: the sled is not OFF. -/
def State.awake (s : State) : Bool := s.sled.st != .off

/-! ### Queues and completions (08 R321, R325, R335) -/

/-- Key of a queue pair. -/
def qKey (h : HostId) (q : QueueNo) : Nat := h.toNat * 64 + q.toNat

/-- A queue pair. -/
def State.queue (s : State) (h : HostId) (q : QueueNo) : Queue := s.q.qs.getD (qKey h q) .reset

/-- Writes a queue pair. -/
def State.setQueue (s : State) (h : HostId) (q : QueueNo) (x : Queue) : State :=
  { s with q := { s.q with qs := s.q.qs.set (qKey h q) .reset x } }

/-- A program. -/
def State.prog (s : State) (p : Nat) : Option Prog := s.q.progs.find p

/-- Writes a program. -/
def State.setProg (s : State) (p : Nat) (x : Prog) : State := { s with q := { s.q with progs := s.q.progs.put p x } }

/-- Running programs of a queue. -/
def State.progsOf (s : State) (h : HostId) (q : QueueNo) : List (Nat × Prog) :=
  s.q.progs.filter (fun p => p.2.host == h && p.2.q == q)

/-- Ring entries of a queue. -/
def Queue.size (q : Queue) : Nat := q.sizeM1.toNat + 1

/-- Whether the completion ring has no free entry: the tail is one below the head (08 R320, R321).
-/
def Queue.full (q : Queue) : Bool :=
  (q.cqtail + 1) % q.size == q.cqhead

/-- Writes one completion entry, and raises its vector when the descriptor and the queue ask for it (08 R323, R325). -/
def State.writeCpl (s : State) (h : HostId) (qn : QueueNo) (c : Cpl) : State :=
  let q := s.queue h qn
  let last := q.cqtail + 1 == q.size
  let s1 := (s.send (.completion h qn q.cqtail q.phase q.sqhead c)).setQueue h qn
    { q with cqtail := (q.cqtail + 1) % q.size, phase := if last then !q.phase else q.phase }
  if c.irq ∧ q.irqEn then s1.signal h (qn.toNat + 2) else s1

/-- Delivers a completion: writes it, or holds it while the ring is full (08 R321) or the port refuses writes (R351). -/
def State.deliver (s : State) (h : HostId) (qn : QueueNo) (c : Cpl) : State :=
  let q := s.queue h qn
  if q.full ∨ q.heldCpl ≠ [] ∨ q.err = 6 then s.setQueue h qn { q with heldBit := q.heldBit || q.full, heldCpl := q.heldCpl ++ [c] }
  else s.writeCpl h qn c

/-- Counts a completion (08 R349). -/
def Queue.count (q : Queue) (status : Byte) : Queue :=
  { q with done := satInc q.done, notok := if status = 0 ∨ status = 8 then q.notok else satInc q.notok }

/-! ### Ledger entries and power states (13 R467, R477; 18 R622) -/

/-- A Ledger entry. -/
def State.ledger (s : State) (i : Nat) : Entry := s.pwr.entries.getD i (Entry.reset 0)

/-- Writes a Ledger entry. -/
def State.setLedger (s : State) (i : Nat) (e : Entry) : State := { s with pwr := { s.pwr with entries := s.pwr.entries.put i e } }

/-- The trace sources of a Ledger entry (18 R620): the Lanterns for the common entry. -/
def sourcesOf (i : Nat) : List Nat :=
  if i < 12 then [0x20 + i] else if i < 16 then [0x30 + (i - 12)] else if i < 20 then [0x38 + (i - 16)] else [0x10, 0x11, 0x12, 0x13]

/-- A power state in SLEEP and WAKE records. -/
def PState.code : PState → Nat
  | .lit => 0
  | .trimmed => 1
  | .banked => 2
  | .dark => 3

/-- SLEEP of one source, with its reason. -/
def State.sleepRec (s : State) (src state reason : Nat) : State :=
  let t := s.trace src 1 (state + reason * 256)
  { t with trc := { t.trc with sleep := t.trc.sleep.put src s.time.toNat } }

/-- WAKE of one source, with its cause and the length of the gap. -/
def State.wakeRec (s : State) (src state cause : Nat) : State :=
  let gap := min (2 ^ 32 - 1) (s.time.toNat - s.trc.sleep.getD src s.time.toNat)
  let t := s.trace src 2 (state + cause * 256 + gap * 65536)
  { t with trc := { t.trc with sleep := t.trc.sleep.del src } }

/-- An entry takes a power state: its sources write SLEEP before a low state and WAKE after one (18 R622). -/
def State.setPst (s : State) (i : Nat) (st : PState) (reason cause : Nat) : State :=
  let old := (s.ledger i).st
  if old = st then s
  else
    let up := st.code < old.code
    let s1 := (sourcesOf i).foldl (fun t src =>
      let u := if up then t.wakeRec src old.code cause else t
      if st = .lit then u else u.sleepRec src st.code reason) s
    s1.setLedger i { s1.ledger i with st := st, trimAt := s.clk.ms }

end Sys2Proof.Machine
end

