-- ==== Sys2Proof/WellFormed.lean ====
section
/-! DEFINITION. Which commands some wire, bus or engine can spell: list operands have the length their format fixes. Everything
else a constructor's types already say. -/

namespace Sys2Proof

/-- An engine's stored form has the bytes its size says, at most 14 sectors (03 R130). -/
def Packed.wf (p : Packed) : Bool := decide (1 ≤ p.csize ∧ p.csize ≤ 14) && p.run.length == 256 * p.csize

/-- A DATA frame carries a whole segment (07 R293). -/
def PFrame.whole (f : PFrame) : Bool := f.payload.length == 4096

/-- Whether a command can be sent. -/
def Instr.wf : Instr → Bool
  | .trialPackDone _ _ lzv exp _ _ => lzv.all Packed.wf && exp.all Packed.wf
  | .peerDataFrame _ f _ _ => f.whole
  | _ => true

end Sys2Proof
end

