-- ==== Sys2Proof/Machine/Seg.lean ====
section
/-! DEFINITION. The Segment Map and stored runs: SME fields (02 R57 to R61), locations and bytes (02 R59; 03 R108 to R113; 05
R185), allocation in the four tiers (02 R72, R80 to R87; 05 R193, R653), physical use (02 R97), poisoning, image drops and the
start and end of moves (02 R67 to R79). -/

namespace Sys2Proof.Machine

/-! ### The Segment Map Entry (02 R57, R58) -/

/-- The fields of SME word 0. -/
structure SmeF where
  st : BitVec 3
  spr : Bool
  codec : BitVec 3
  csize : BitVec 5
  pin : Bool
  lend : Bool
  prior : BitVec 2
  age : W16
  aux : W32
deriving DecidableEq, Repr

/-- Reads the fields of word 0. -/
def Sme.f (e : Sme) : SmeF :=
  { st := e.w0.extractLsb' 0 3, spr := e.w0.getLsbD 3, codec := e.w0.extractLsb' 4 3, csize := e.w0.extractLsb' 7 5,
    pin := e.w0.getLsbD 12, lend := e.w0.getLsbD 13, prior := e.w0.extractLsb' 14 2, age := e.w0.extractLsb' 16 16,
    aux := e.w0.extractLsb' 32 32 }

/-- Word 0 of the fields. -/
def SmeF.word (f : SmeF) : W64 :=
  f.aux ++ f.age ++ f.prior ++ BitVec.ofBool f.lend ++ BitVec.ofBool f.pin ++ f.csize ++ f.codec ++ BitVec.ofBool f.spr ++ f.st

/-- Changes fields of word 0. -/
def Sme.edit (e : Sme) (g : SmeF → SmeF) : Sme := { e with w0 := (g e.f).word }

/-- `STATE` codes (02 R57). -/
def SegSt.code : SegSt → BitVec 3
  | .zero => 0
  | .pattern => 1
  | .opn => 2
  | .packed => 3
  | .lake => 4
  | .tarn => 5
  | .transit => 6
  | .poisoned => 7

/-- The state of a `STATE` code. -/
def segSt (b : BitVec 3) : SegSt :=
  match b.toNat with
  | 0 => .zero
  | 1 => .pattern
  | 2 => .opn
  | 3 => .packed
  | 4 => .lake
  | 5 => .tarn
  | 6 => .transit
  | _ => .poisoned

/-- `PRIOR` codes: the source state of a TRANSIT segment. -/
def priorSt (b : BitVec 2) : SegSt :=
  match b.toNat with
  | 0 => .opn
  | 1 => .packed
  | 2 => .lake
  | _ => .tarn

/-- `PRIOR` code of a source state. -/
def SegSt.prior : SegSt → BitVec 2
  | .packed => 1
  | .lake => 2
  | .tarn => 3
  | _ => 0

/-- State of an entry. -/
def Sme.st (e : Sme) : SegSt := segSt e.f.st

/-- The state whose location form word 1 has: `PRIOR` in TRANSIT (02 R58). -/
def Sme.src (e : Sme) : SegSt := if e.st = .transit then priorSt e.f.prior else e.st

/-- Stored size in sectors. -/
def Sme.cs (e : Sme) : Nat := e.f.csize.toNat

/-- Home location (02 R58). -/
def Sme.home (e : Sme) : Option Loc :=
  match e.src with
  | .opn | .packed => some (.near e.f.spr (e.w1.toNat % 2 ^ 32))
  | .lake => some (.flash (e.w1.toNat / 64 % 2 ^ 40) (e.w1.toNat % 64))
  | .tarn => some (.tarn (e.w1.toNat % 4096) (e.w1.toNat / 4096 % 2 ^ 40))
  | _ => none

/-- Location of the lent image. -/
def Sme.image (e : Sme) : Option Loc := if e.f.lend then some (.near e.f.spr e.f.aux.toNat) else none

/-- The entry `REGION.NEW` writes: ZERO with AGE at the creation time (02 R57). -/
def Sme.new (age : W16) : Sme := ⟨({ st := 0, spr := false, codec := 0, csize := 0, pin := false, lend := false, prior := 0, age := age, aux := 0 } : SmeF).word, 0⟩

/-- The POISONED form of an entry (02 R67). -/
def Sme.poison (e : Sme) (cause : Nat) : Sme :=
  { w0 := ({ st := 7, spr := false, codec := 0, csize := 0, pin := e.f.pin, lend := false, prior := 0, age := e.f.age, aux := 0 } : SmeF).word
    w1 := BitVec.ofNat 64 cause }

/-- Word 1 of a home location. -/
def Loc.word1 : Loc → W64
  | .near _ a => BitVec.ofNat 64 a
  | .flash f s => BitVec.ofNat 64 (f * 64 + s)
  | .tarn w s => BitVec.ofNat 64 (s * 4096 + w)

/-- State that a home at a location gives a stored form (02 R60). -/
def Loc.stOf (l : Loc) (codec : BitVec 3) : SegSt :=
  match l with
  | .near _ _ => if codec = 2 then .opn else .packed
  | .flash _ _ => .lake
  | .tarn _ _ => .tarn

/-- Whether a location lies in Spring. -/
def Loc.isSpring : Loc → Bool
  | .near true _ => true
  | _ => false

/-- Whether a location lies in Pond or Spring. -/
def Loc.isNear : Loc → Bool
  | .near _ _ => true
  | _ => false

/-- Whether a location lies in Lake. -/
def Loc.isLake : Loc → Bool
  | .flash _ _ => true
  | _ => false

/-- Pseudo-channel of a Pond location (02 R59). -/
def Loc.pch : Loc → Option Nat
  | .near false a => some (a / 2 ^ 23)
  | _ => none

/-- Wick core of a Spring location. -/
def Loc.core : Loc → Option Nat
  | .near true a => some (a / 4096)
  | _ => none

/-- The entry with its home at a location, keeping codec and size; LEND and PRIOR clear, AUX zero. -/
def Sme.at (e : Sme) (l : Loc) : Sme :=
  { w0 := ({ e.f with st := (l.stOf e.f.codec).code, spr := l.isSpring, lend := false, prior := 0, aux := 0 } : SmeF).word
    w1 := l.word1 }

/-- Key of a segment in the model's tables. -/
def segKey (r : RegionId) (seg : Nat) : Nat := r.toNat * 2 ^ 34 + seg

/-- Region of a segment key. -/
def keyRegion (k : Nat) : RegionId := BitVec.ofNat 14 (k / 2 ^ 34)

/-- Segment index of a segment key. -/
def keySeg (k : Nat) : Nat := k % 2 ^ 34

/-- What an unlisted segment of a region holds. -/
def State.newSme (s : State) (r : RegionId) : Sme := Sme.new (s.rt.born.getD r.toNat 0)

/-- The SME of a segment. -/
def State.sme (s : State) (r : RegionId) (seg : Nat) : Sme := s.map.sme.getD (segKey r seg) (s.newSme r)

/-- Writes an SME as one unit (02 R56). -/
def State.putSme (s : State) (r : RegionId) (seg : Nat) (e : Sme) : State :=
  { s with map := { s.map with sme := s.map.sme.set (segKey r seg) (s.newSme r) e } }

/-- Listed segments of a region, index and entry. -/
def State.smes (s : State) (r : RegionId) : List (Nat × Sme) :=
  (s.map.sme.filter (fun p => p.1 / 2 ^ 34 == r.toNat)).map (fun p => (keySeg p.1, p.2))

/-- Whether the sled has Lake. -/
def State.hasLake (s : State) : Bool := s.id.variant != .p

/-- Appends a journal record (05 R197, R198), on a journal page of its own that is programmed twice (assumption log 18); K9-P keeps no
journal. -/
def State.journal (s : State) (j : JRec) : State :=
  if s.hasLake then { s with lake := { s.lake with jour := s.lake.jour ++ [j], jseq := s.lake.jseq + 1, wseq := s.lake.wseq + 2, nandPg := s.lake.nandPg + 2 } } else s


/-- Whether a commit changes what replay gives a Keep segment: its state (05 R198), its pattern or whether it is pinned. The journal carries every
change that a flush leaves to it (05 R214; assumption log 38). -/
def keepChange (old new : Sme) : Bool :=
  old.f.st != new.f.st || old.f.pin != new.f.pin || (new.st == .pattern && old.w1 != new.w1)

/-- A commit of an SME, with the SEG record that 05 R198 asks for. -/
def State.commitSme (s : State) (r : RegionId) (seg : Nat) (e : Sme) : State :=
  let old := s.sme r seg
  let s1 := s.putSme r seg e
  if old.src = .lake ∨ e.src = .lake ∨ ((s.ent r).keep = true ∧ keepChange old e = true) then s1.journal (.seg r seg e) else s1

/-- Journals the Region Table entry of a Keep region as a change has left it (05 R198); a change that waits on an odd entry is journalled when
the entry is even. -/
def State.journalEnt (s : State) (r : RegionId) : State :=
  if (s.ent r).keep ∧ (s.ent r).odd = false then s.journal (.region r (s.ent r)) else s

/-! ### Malformed entries (02 R60, R61; 05 R185) -/

/-- Dies per channel of the product (05 R182). -/
def Variant.dies : Variant → Nat
  | .l64 => 8
  | .l128 => 16
  | .p => 0

/-- Whether a flash page address is in range (05 R185). -/
def flashOk (v : Variant) (fpa : Nat) : Bool :=
  decide (fpa / 32 % 32 < v.dies) && decide (fpa / 4096 % 2048 < 1656) && decide (fpa / 2 ^ 23 % 4096 < 2304)

/-- Whether a near address is in range (02 R61). -/
def nearOk (spr : Bool) (a : Nat) : Bool :=
  if spr then decide (a < 96 * 4096) else decide (a / 2 ^ 23 < 384) && decide (a % 2 ^ 23 < 0x7C0000)

/-- Whether a run lies within its pseudo-channel, Spring, page or window and crosses no 16-sector boundary (02 R60). -/
def State.runOk (s : State) (l : Loc) (len : Nat) : Bool :=
  match l with
  | .near spr a => nearOk spr a && decide (a % 16 + len ≤ 16)
  | .flash f sec => flashOk s.id.variant f && decide (sec + len ≤ 64)
  | .tarn w sec =>
    match s.rt.windows.find w with
    | some win => decide (sec + len ≤ win.size / 16 * 15 / 256)
    | none => true

/-- The codec and size a state allows (02 R60). -/
def formOk (st : SegSt) (codec : BitVec 3) (csize : Nat) : Bool :=
  let packed := (codec == 3 || codec == 4) && decide (1 ≤ csize ∧ csize ≤ 14)
  let opn := codec == 2 && csize == 16
  match st with
  | .zero => codec == 0 && csize == 0
  | .pattern => codec == 1 && csize == 0
  | .opn => opn
  | .packed => packed
  | .lake | .tarn => opn || packed
  | .transit => false
  | .poisoned => codec == 0 && csize == 0

/-- Whether the data plane treats an entry as malformed (02 R61). -/
def State.malformed (s : State) (e : Sme) : Bool :=
  !formOk e.src e.f.codec e.cs ||
  (e.st == .poisoned && (e.f.spr || e.f.lend)) ||
  (e.f.lend && e.src != .lake) ||
  (e.st != .transit && e.f.prior != 0) ||
  (match e.home with
   | some l => !s.runOk l e.cs
   | none => false) ||
  (match e.image with
   | some l => !s.runOk l e.cs
   | none => false)

/-! ### Stored bytes -/

/-- Whether memory is in its canonical form: addresses strictly rising, no zero byte listed. -/
def Memory.wf : List Host.Cell → Bool
  | [] => true
  | [c] => c.2 != 0
  | c :: d :: t => c.2 != 0 && decide (c.1 < d.1) && Memory.wf (d :: t)

/-- One byte; an unlisted byte reads 0 (assumption log 7). -/
def readByte (m : List Host.Cell) (a : Nat) : Byte :=
  match m with
  | [] => 0
  | c :: t => if c.1 = a then c.2 else readByte t a

/-- n bytes from memory whose first listed address is at or above a. -/
def readSorted : Nat → List Host.Cell → Nat → List Byte
  | 0, _, _ => []
  | n + 1, [], a => 0 :: readSorted n [] (a + 1)
  | n + 1, c :: t, a => if c.1 = a then c.2 :: readSorted n t (a + 1) else 0 :: readSorted n (c :: t) (a + 1)

/-- n bytes from an address. -/
def readBytes (m : List Host.Cell) (a n : Nat) : List Byte := readSorted n (m.dropWhile (fun c => decide (c.1 < a))) a

/-- The listed cells of a byte string placed at an address. -/
def cellsOf : Nat → List Byte → List Host.Cell
  | _, [] => []
  | a, b :: t => if b = 0 then cellsOf (a + 1) t else (a, b) :: cellsOf (a + 1) t

/-- Writes a byte string at an address. -/
def writeBytes (m : List Host.Cell) (a : Nat) (l : List Byte) : List Host.Cell :=
  m.filter (fun c => decide (c.1 < a)) ++ cellsOf a l ++ m.filter (fun c => decide (a + l.length ≤ c.1))

/-- Sector number of a location in the model's one address space: tier code in the top bits (03 R110). -/
def Loc.sector : Loc → Nat
  | .near false a => 1 * 2 ^ 60 + a
  | .near true a => 2 * 2 ^ 60 + a
  | .flash f sec => 3 * 2 ^ 60 + f * 64 + sec
  | .tarn w sec => 4 * 2 ^ 60 + w * 2 ^ 40 + sec

/-- The location some sectors further on. -/
def Loc.plus : Loc → Nat → Loc
  | .near spr a, i => .near spr (a + i)
  | .flash f sec, i => .flash f (sec + i)
  | .tarn w sec, i => .tarn w (sec + i)

/-- The location tag of a sector (03 R110). -/
def State.tagOf (s : State) (l : Loc) : W64 :=
  match l with
  | .near false a => BitVec.ofNat 64 (1 * 2 ^ 60 + a)
  | .near true a => BitVec.ofNat 64 (2 * 2 ^ 60 + a)
  | .flash f sec => BitVec.ofNat 64 (3 * 2 ^ 60 + f * 64 + sec)
  | .tarn w sec => BitVec.ofNat 64 (4 * 2 ^ 60 + (s.rt.epochs.getD w 0).toNat * 2 ^ 52 + sec * 4096 + w)

/-- The bytes of a run. -/
def State.readRun (s : State) (l : Loc) (n : Nat) : List Byte := readBytes s.mem.bytes (l.sector * 256) (n * 256)

/-- The bytes of a run of Tarn leave as posted writes with their check bytes (03 R113). -/
def State.sendTarn (s : State) (w sec : Nat) (l : List Byte) : Nat → State
  | 0 => s
  | n + 1 =>
    let t := s.sendTarn w sec l n
    let d := (l.drop (n * 256)).take 256
    let size := ((s.rt.windows.find w).map (fun x => x.size)).getD 0
    let u := t.send (.tarn w (256 * (sec + n)) d (15 * size / 16 + 16 * (sec + n)) (sectorCheck (s.tagOf (.tarn w (sec + n))) d))
    { u with mem := { u.mem with tarnEp := u.mem.tarnEp.put (w * 2 ^ 40 + sec + n) (s.rt.epochs.getD w 0) } }

/-- A pseudo-channel controller. -/
def State.pch (s : State) (n : Nat) : Pch := s.pond.pch.getD n .reset

/-- Writes a controller. -/
def State.setPch (s : State) (n : Nat) (p : Pch) : State := { s with pond := { s.pond with pch := s.pond.pch.set n .reset p } }

/-- Bank slot and row of a sector (04 R140). -/
def slotOf (sec : Nat) : Nat := (sec / 4 % 64) ^^^ (sec / 256 % 64)
def rowOf (sec : Nat) : Nat := sec / 256 % 32768

/-- The bank queues of a controller. -/
def State.bankQ (s : State) (n : Nat) : BankQ := s.pond.bq.getD n .reset

/-- Writes the bank queues of a controller. -/
def State.setBankQ (s : State) (n : Nat) (q : BankQ) : State := { s with pond := { s.pond with bq := s.pond.bq.put n q } }

/-- Whether a pseudo-channel is under PANIC (04 R148). -/
def State.pchPanic (s : State) (n : Nat) : Bool := s.pond.panic.any (fun p => p.2.contains n)

/-- Whether a retrain runs on a pseudo-channel. -/
def Pch.training (p : Pch) : Bool := p.due.any (fun d => d.running)

/-- Whether a retrain holds the traffic of the pseudo-channel that a location lies on (04 R159). -/
def State.trainHeld (s : State) (l : Loc) : Bool := l.pch.any (fun n => (s.pch n).training)

/-- A request for one sector enters the queues of its controller. -/
def BankQ.request (q : BankQ) (sec : Nat) (port : PPort) (cls : Nat) (req : Option Nat) : BankQ :=
  { (q.enter { no := q.no, port := port, cls := cls, bank := slotOf sec, row := rowOf sec, sector := sec, level := 0, passed := 0, req := req }) with
    no := q.no + 1 }

/-- A controller takes the requests for some sectors from a near Pond address, and issues what it may (04 R143 to R149). -/
def State.bankUse (s : State) (a len : Nat) (port : PPort) (cls : Nat) : State :=
  let n := a / 2 ^ 23
  let q := (List.range len).foldl (fun (q : BankQ) i => q.request (a % 2 ^ 23 + i) port cls none) (s.bankQ n)
  s.setBankQ n (if (s.pch n).training then q else (BankQ.drain (s.pchPanic n) (q.reqs.length + q.atPort.length) q).1)

/-- A command for a run ends the power-down of its SID (04 R154), and its requests pass the bank queues. -/
def State.wakeSid (s : State) (l : Loc) (len : Nat := 1) (port : PPort := .host) (cls : Nat := 1) : State :=
  match l with
  | .near false a =>
    let n := a / 2 ^ 23
    let p := s.pch n
    (if p.pd.isEmpty then s else s.setPch n { p with pd := p.pd.filter (fun x => x != slotOf (a % 2 ^ 23) / 16) }).bankUse a len port cls
  | _ => s

/-- The 16 check bytes that a sector carries in every place (03 R109, R112, R114): every write of a sector writes them fresh, so they follow from its
tag and its bytes; a sector whose check bytes do not fit its bytes is what the outcome of a sector check reports. -/
def State.checkBytes (s : State) (l : Loc) : List Byte := sectorCheck (s.tagOf l) (s.readRun l 1)

/-- Writes the bytes of a run, with fresh check bytes (03 R114). -/
def State.writeRun (s : State) (l : Loc) (b : List Byte) : State :=
  let s1 := { s with mem := { s.mem with bytes := writeBytes s.mem.bytes (l.sector * 256) b } }
  match l with
  | .tarn w sec => s1.sendTarn w sec b (b.length / 256)
  | _ => s1.wakeSid l (b.length / 256) .move 3

/-- Whether the sectors of a Tarn run carry the window's present epoch (03 R110, R111). -/
def State.epochOk (s : State) (l : Loc) (n : Nat) : Bool :=
  match l with
  | .tarn w sec => (List.range n).all (fun i => s.mem.tarnEp.find (w * 2 ^ 40 + sec + i) == some (s.rt.epochs.getD w 0))
  | _ => true

/-- The whole segment that an entry stores at a copy (03 R105); none where the form is malformed. -/
def State.segBytes (s : State) (e : Sme) (l : Option Loc) : Option (List Byte) :=
  decodeForm e.f.codec.toNat e.cs e.w1 (match l with
    | some x => s.readRun x e.cs
    | none => [])

/-- One line that an entry stores at a copy. -/
def State.lineBytes (s : State) (e : Sme) (l : Option Loc) (j : Nat) : Option (List Byte) :=
  decodeLine e.f.codec.toNat e.cs e.w1 (match l with
    | some x => s.readRun x e.cs
    | none => []) j

/-! ### Runs in use -/

/-- Near runs that a running program takes: sectors 0x000 to 0x4FF of its core, and its commit log (10 R391, R394). -/
def State.scratchRuns (s : State) : List (Loc × Nat) :=
  (s.q.progs.filter (fun p => decide (p.2.core < 96))).flatMap (fun p =>
    (Loc.near true (p.2.core * 4096), 0x500) :: p.2.log.map (fun a => (Loc.near true a, 16)))

/-- Every run that a home, an image, a move's destination, a pending release, a lost run or scratch takes. -/
def State.usedRuns (s : State) : List (Loc × Nat) :=
  s.map.sme.flatMap (fun p => p.2.home.toList.map (fun l => (l, p.2.cs)) ++ p.2.image.toList.map (fun l => (l, p.2.cs))) ++
  s.map.moves.map (fun p => (p.2.dest, p.2.len)) ++ s.map.rel.map (fun p => (p.2.loc, p.2.len)) ++ s.map.lostRuns ++ s.scratchRuns

/-- Near addresses in use with the given SPR bit. -/
def State.nearUsed (s : State) (spr : Bool) : List (Nat × Nat) :=
  s.usedRuns.filterMap (fun p => match p.1 with
    | .near b a => if b = spr then some (a, p.2) else none
    | _ => none)

/-- Whether a run meets one in use. -/
def meets (used : List (Nat × Nat)) (a len : Nat) : Bool := used.any (fun u => decide (a < u.1 + u.2 ∧ u.1 < a + len))

/-- First free run of a length from a base, within a number of aligned 16-sector blocks, crossing no block boundary. -/
def firstFit (used : List (Nat × Nat)) (base blocks len : Nat) : Option Nat :=
  (List.range (min blocks (used.length + 1))).findSome? (fun b =>
    (List.range (17 - len)).findSome? (fun o =>
      let a := base + 16 * b + o
      if meets used a len then none else some a))

/-! ### Pond capacity (02 R82, R86, R97) -/

/-- Segment sectors per pseudo-channel (02, limits). -/
def pchSectors : Nat := 8126464

/-- Pseudo-channels of a stack in service. -/
def State.pchsIn (s : State) (k : Nat) : List Nat := ((List.range 32).map (fun y => 32 * k + y)).filter (fun n => !s.pchFenced n)

/-- Pond segment sectors in service of a stack. -/
def State.stackSectors (s : State) (k : Nat) : Nat := (s.pchsIn k).length * pchSectors

/-- Pond segment sectors in service. -/
def State.pondSectors (s : State) : Nat := ((List.range 12).map s.stackSectors).sum

/-- Regions that exist: not FREED. -/
def State.regions (s : State) : List (RegionId × REnt) :=
  (s.rt.ent.filter (fun p => p.2.st != .freed)).map (fun p => (BitVec.ofNat 14 p.1, p.2))

/-- Whether a segment is reserved under 02 R86. -/
def State.reserved (s : State) (r : RegionId) (e : Sme) : Bool := (s.ent r).ponly || e.f.pin

/-- Sectors a segment's home or image takes on a stack. -/
def sectorsOn (e : Sme) (k : Nat) : Nat :=
  (((e.home.toList ++ e.image.toList).filterMap Loc.pch).filter (fun p => p / 32 == k)).length * e.cs

/-- Map pages p below n with (r + p) mod 12 = j. -/
def pagesOn (r n j : Nat) : Nat := n / 12 + (if (j + 12 - r % 12) % 12 < n % 12 then 1 else 0)

/-- Sectors reserved in all (02 R86): full sizes of POND-ONLY regions, and 16 for each other pinned segment. -/
def State.reservedSectors (s : State) : Nat :=
  (s.regions.map (fun p => if p.2.ponly then p.2.segs * 16 else 16 * ((s.smes p.1).filter (fun q => q.2.f.pin)).length)).sum

/-- Sectors of a stack withheld for reservations and not occupied by the homes they belong to (02 R86). -/
def State.withheld (s : State) (k : Nat) : Nat :=
  (s.regions.map (fun p =>
    let used := ((s.smes p.1).map (fun q => if s.reserved p.1 q.2 then sectorsOn q.2 k else 0)).sum
    let whole :=
      if p.2.ponly then
        16 * 256 * (((List.range 12).filter (fun j => s.anchor j == k)).map (pagesOn p.1.toNat (p.2.segs / 256))).sum
      else 16 * ((s.smes p.1).filter (fun q => q.2.f.pin && s.anchorOf p.1 q.1 == k)).length
    whole - used)).sum

/-- Sectors of a stack that runs take on pseudo-channels in service. -/
def State.stackUsed (s : State) (k : Nat) : Nat :=
  (((s.nearUsed false).filter (fun u => u.1 / 2 ^ 23 / 32 == k && !s.pchFenced (u.1 / 2 ^ 23))).map (fun u => u.2)).sum

/-- Free segment sectors of a stack (02 R82). -/
def State.freeSectors (s : State) (k : Nat) : Nat := s.stackSectors k - s.stackUsed k - s.withheld k

/-- Low-water percentage (02 R82; setting 0x0007 of 18 R615). -/
def State.lowPct (s : State) : Nat := s.mgt.set.getD 7 2

/-- Low-water mark of a stack in sectors. -/
def State.lowMark (s : State) (k : Nat) : Nat := s.lowPct * s.stackSectors k / 100

/-- Whether a stack's free sectors are below its mark. -/
def State.belowMark (s : State) (k : Nat) : Bool := decide (100 * s.freeSectors k < s.lowPct * s.stackSectors k)

/-- What an allocation is for. -/
inductive Use
  /-- a store or a pack: may draw below the mark (R84, R101). -/
  | store
  /-- a placement of an image or a promotion for a load: never below the mark (R84). -/
  | place
  /-- a segment with a reservation (R86, R87); `placing` says that it is for a placement or a load's promotion. -/
  | reservedSeg (r : RegionId) (seg : Nat) (placing : Bool)
deriving DecidableEq, Repr

/-- Sectors withheld on a stack for the reservations of segments other than one (02 R86). -/
def State.withheldOthers (s : State) (k : Nat) (r : RegionId) (seg : Nat) : Nat :=
  s.withheld k - (if s.anchorOf r seg = k then 16 - sectorsOn (s.sme r seg) k else 0)

/-- Whether a stack has room for a use (02 R82, R84, R86). A segment with a reservation draws on it, and on the sectors that its present home
gives back (assumption log 64). -/
def State.roomFor (s : State) (k len : Nat) : Use → Bool
  | .store => decide (len ≤ s.freeSectors k)
  | .place => decide (len ≤ s.freeSectors k) && !s.belowMark k
  | .reservedSeg r seg placing =>
    decide (len + s.withheldOthers k r seg ≤ s.stackSectors k - s.stackUsed k + sectorsOn (s.sme r seg) k) && !(placing && s.belowMark k)

/-- A free Pond run on a stack: the `pick` where it is one, else the first fit (assumption log 5). -/
def State.allocPond (s : State) (k len : Nat) (u : Use) (pick : W32) : Option Nat :=
  if !s.roomFor k len u then none
  else
    let used := s.nearUsed false
    let p := pick.toNat
    if p / 2 ^ 23 / 32 == k && !s.pchFenced (p / 2 ^ 23) && nearOk false p && decide (p % 16 + len ≤ 16) && !meets used p len then some p
    else (s.pchsIn k).findSome? (fun n =>
      firstFit (used.filter (fun x => x.1 / 2 ^ 23 == n)) (n * 2 ^ 23) (pchSectors / 16) len)

/-- Whether a program runs on a core. -/
def State.coreBusy (s : State) (c : Nat) : Bool := s.q.progs.any (fun p => p.2.core == c)

/-- A free run of a core's Spring (10 R391): while a program runs there, only sectors 0x500 to 0xFFF. -/
def State.allocSpring (s : State) (c len : Nat) : Option Nat :=
  let first := if s.coreBusy c then 0x50 else 0
  if s.fenced (.wick c) then none
  else firstFit ((s.nearUsed true).filter (fun x => x.1 / 4096 == c)) (c * 4096 + 16 * first) (256 - first) len

/-! ### Tarn (02 R91 to R94) -/

/-- Data-area sectors of a window (03 R113). -/
def Window.sectors (w : Window) : Nat := w.size / 16 * 15 / 256

/-- A free run in a window: the start of the data area or the end of a run in use. -/
def State.allocTarn (s : State) (w len : Nat) : Option Nat :=
  match s.rt.windows.find w with
  | none => none
  | some win =>
    let used := s.usedRuns.filterMap (fun p => match p.1 with
      | .tarn x a => if x = w then some (a, p.2) else none
      | _ => none)
    (0 :: used.map (fun u => u.1 + u.2)).find? (fun a => decide (a + len ≤ win.sectors) && !meets used a len)

/-- The windows of a region's Tarn set that are granted (02 R92): those of its creating host, unless it is backed by Tarn and names others. A region
backed by Lake uses them for the demotions of 05 R210. -/
def State.tset (s : State) (r : RegionId) : List Nat :=
  let e := s.ent r
  let stays (w : Nat) : Bool := !s.q.ops.any (fun o => o.2.kind == .windowOut && o.2.aux == w)
  if e.back = false ∨ e.tset = BitVec.allOnes 32 then (s.rt.windows.filter (fun p => p.2.host == e.owner && stays p.1)).map (fun p => p.1)
  else (s.rt.tsets.getD r.toNat []).filter (fun w => s.rt.windows.has w && stays w)

/-- A free run in the region's Tarn set, in its order, leaving one window out. -/
def State.allocTset (s : State) (r : RegionId) (len : Nat) (but : Option Nat) : Option Loc :=
  ((s.tset r).filter (fun w => some w != but)).findSome? (fun w => (s.allocTarn w len).map (fun a => Loc.tarn w a))

/-! ### Lake (05 R189 to R193, R200, R653) -/

/-- Raw capacity in bytes (05 R182). -/
def Variant.raw : Variant → Nat
  | .l64 => 64000000000000
  | .l128 => 128000000000000
  | .p => 0

/-- User capacity U in bytes (05 R200). -/
def Variant.user (v : Variant) : Nat := v.raw / 10000 * 8125

/-- Metadata area M, last reserve L, Dusk reserve D in bytes (05 R200). -/
def Variant.metaArea (v : Variant) : Nat := v.raw / 50
def Variant.last (v : Variant) : Nat := v.raw / 100
def duskReserve : Nat := 65 * 2 ^ 30

/-- Blocks in all (05 R184, R185). -/
def Variant.blocks (v : Variant) : Nat := 32 * v.dies * 4 * 1656

/-- Superblocks in all (05 R189). -/
def Variant.sbs (v : Variant) : Nat := 1656 * v.dies

/-- First superblock of the data area: below it lie the metadata area and the Dusk reserve (assumption log 18). -/
def Variant.dataFrom : Variant → Nat
  | .l64 => 280
  | .l128 => 545
  | .p => 0

/-- Fenced Lake dies. -/
def State.diesFenced (s : State) : Nat := ((List.range 1024).filter (fun d => s.fenced (.die d))).length

/-- Capacity G of good blocks that are not retired, in bytes (05 R200, R227). -/
def State.goodBytes (s : State) : Nat :=
  s.id.variant.raw * (s.id.variant.blocks - s.lake.retired) / s.id.variant.blocks - s.diesFenced * 250000000000

/-- Spare fraction times raw, in bytes, as an integer (05 R200). -/
def State.spareBytes (s : State) : Int :=
  (s.goodBytes * 31 / 32 : Nat) - ((s.id.variant.user + s.id.variant.metaArea + s.id.variant.last + duskReserve : Nat) : Int)

/-- Last reserve remaining, in bytes (05 R200). -/
def State.lastReserve (s : State) : Nat := ((s.id.variant.last : Int) + s.spareBytes).toNat

/-- Sectors of Lake that homes hold, and moves into Lake and seals have taken (05 R653; 02 R74). -/
def State.lakeUsed (s : State) : Nat :=
  (s.map.sme.map (fun p => if p.2.src = .lake then p.2.cs else 0)).sum +
  (s.map.moves.map (fun p => if p.2.dest.isLake then p.2.len else 0)).sum

/-- Whether Lake admits further sectors of host-stream writes (05 R653, R207, R211). -/
def State.lakeAdmits (s : State) (n : Nat) : Bool :=
  let limit := s.id.variant.user + (if s.lake.wear = .guttering then s.lastReserve else 0)
  s.hasLake && s.lake.mounted && !s.lake.wp && s.lake.wear != .spent && decide ((s.lakeUsed + s.lake.resv + n) * 256 ≤ limit)

/-- A superblock. -/
def State.sb (s : State) (n : Nat) : Sb := s.lake.sb.getD n .reset

/-- Writes a superblock. -/
def State.setSb (s : State) (n : Nat) (b : Sb) : State := { s with lake := { s.lake with sb := s.lake.sb.set n .reset b } }

/-- Whether a superblock is free: erased, opened by no stream, and with a block in service (05 R201, R206). -/
def Sb.isFree (b : Sb) : Bool := b.st == .free && decide (b.retired.length < 128)

/-- Free superblocks of the data area (05 R201). -/
def State.freeSb (s : State) : Nat :=
  s.id.variant.sbs - s.id.variant.dataFrom - (s.lake.sb.filter (fun p => !p.2.isFree && decide (s.id.variant.dataFrom ≤ p.1))).length

/-- Channels of a superblock in service for one plane: the die is in service and the block not retired (05 R189, R190). -/
def State.members (s : State) (n plane : Nat) : List Nat :=
  (List.range 32).filter (fun c => !s.fenced (.die (32 * c + n / 1656)) && !(s.sb n).retired.contains (c * 4 + plane))

/-- Channel of the parity page of stripe idx (05 R190). -/
def State.parityCh (s : State) (n idx : Nat) : Nat :=
  let plane := idx % 4
  let m := s.members n plane
  let c := (n % 1656 + idx / 4 + plane) % 32
  (((List.range 32).map (fun i => (c + i) % 32)).find? m.contains).getD c

/-- Flash page address of a channel in stripe idx of a superblock (05 R185). -/
def fpaOf (n idx ch : Nat) : Nat := ch + n / 1656 * 32 + idx % 4 * 1024 + n % 1656 * 4096 + idx / 4 * 2 ^ 23

/-- Superblock of a flash page address. -/
def sbOf (fpa : Nat) : Nat := 1656 * (fpa / 32 % 32) + fpa / 4096 % 2048

/-- The free superblock a stream opens: lowest erase count for the host stream, highest for the cold stream (05 R203); the meta stream takes the
lowest of the metadata area, above the journal's ring of 8 (R192, R197; assumption log 18). -/
def State.openChoice (s : State) (st : Strm) : Option Nat :=
  let from0 := s.id.variant.dataFrom
  let fresh := s.lake.sb.lowestFree (s.id.variant.sbs - from0) from0
  let used := s.lake.sb.filter (fun p => p.2.isFree && decide (from0 ≤ p.1))
  match st with
  | .metaS => (List.range (from0 - 23)).findSome? (fun i => if (s.sb (i + 8)).isFree then some (i + 8) else none)
  | .host =>
    match fresh with
    | some n => some n
    | none => (used.foldl (fun (acc : Option (Nat × Nat)) p => match acc with
        | some a => if p.2.erase < a.2 then some (p.1, p.2.erase) else acc
        | none => some (p.1, p.2.erase)) none).map (fun a => a.1)
  | .cold =>
    match used.foldl (fun (acc : Option (Nat × Nat)) p => match acc with
        | some a => if a.2 < p.2.erase then some (p.1, p.2.erase) else acc
        | none => some (p.1, p.2.erase)) none with
    | some a => some a.1
    | none => fresh

/-- The first data page of a stripe, on the channels of a chiplet, with room for a run (05 R191, R193). -/
def State.stripeRoom (s : State) (t : Stripe) (chip len : Nat) : Option (Nat × Nat) :=
  let par := s.parityCh t.sb t.idx
  ((s.members t.sb (t.idx % 4)).filter (fun c => c / 16 == chip && c != par)).findSome? (fun c =>
    let n := t.fill.getD c 0
    if n + len ≤ 64 then some (c, n) else none)

/-- Opens the next stripe of a stream: in its open superblock, or in a new one when that is full (05 R192, R203). -/
def State.nextStripe (s : State) (st : Strm) : Option (State × Nat) :=
  let cur := match st with
    | .host => s.lake.hostOpen
    | .cold => s.lake.coldOpen
    | .metaS => s.lake.metaOpen
  let put (t : State) (sb idx : Nat) : State × Nat :=
    let no := t.lake.stripeNo
    let l := { t.lake with stripes := t.lake.stripes.put no ⟨sb, idx, st, [], [], false⟩, stripeNo := no + 1 }
    (match st with
     | .host => { t with lake := { l with hostOpen := some (sb, idx + 1) } }
     | .cold => { t with lake := { l with coldOpen := some (sb, idx + 1) } }
     | .metaS => { t with lake := { l with metaOpen := some (sb, idx + 1) } }, no)
  let fresh (t : State) : Option (State × Nat) :=
    (t.openChoice st).map (fun n => put (t.setSb n { t.sb n with st := .opened }) n 0)
  match cur with
  | some (sb, idx) => if idx < 9216 then some (put s sb idx) else fresh (s.setSb sb { s.sb sb with st := .closed })
  | none => fresh s

/-- Whether host-stream writes wait for a free superblock: urgent collection runs, and the stream's open superblock is full (05 R202). A flush does
not wait. -/
def State.hostWaits (s : State) (st : Strm) : Bool :=
  st == .host && s.lake.urgent && s.sled.flush.isNone && s.lake.hostOpen.all (fun p => decide (9216 ≤ p.2)) &&
  !s.lake.stripes.any (fun p => p.2.strm == .host && !p.2.full)

/-- A stream's open stripe that cannot take a run is full (05 R193): a stream fills one stripe at a time. -/
def State.stripeFull (s : State) (st : Strm) : State :=
  { s with lake := { s.lake with stripes := s.lake.stripes.map (fun (p : Nat × Stripe) => if p.2.strm = st then (p.1, { p.2 with full := true }) else p) } }

/-- Places a run of a move in the stream's open stripe (05 R193): the location and the stripe. -/
def State.lakePlace (s : State) (st : Strm) (chip len move : Nat) : Option (State × Loc) :=
  let into (t : State) (no : Nat) : Option (State × Loc) :=
    match t.lake.stripes.find no with
    | none => none
    | some x =>
      (t.stripeRoom x chip len).map (fun cn =>
        ({ t with lake := { t.lake with stripes := t.lake.stripes.put no { x with fill := x.fill.put cn.1 (cn.2 + len), moves := x.moves ++ [move] } } },
         Loc.flash (fpaOf x.sb x.idx cn.1) cn.2))
  match s.lake.stripes.findSome? (fun p => if p.2.strm = st ∧ p.2.full = false then into s p.1 else none) with
  | some r => some r
  | none => if s.hostWaits st then none else ((s.stripeFull st).nextStripe st).bind (fun p => into p.1 p.2)

/-! ### Physical use (02 R97) -/

/-- Physical use in sectors. -/
def State.physUse (s : State) : Nat :=
  (s.regions.map (fun p =>
    if p.2.ponly ∨ p.2.isSealed then 0
    else ((s.smes p.1).map (fun q => if q.2.f.pin then 0 else if (q.2.home.bind Loc.pch).isSome then q.2.cs else 0)).sum)).sum +
  s.reservedSectors + (s.map.sme.map (fun p => if p.2.src = .lake then p.2.cs else 0)).sum

/-- Physical capacity in bytes: Pond for segments and Lake user capacity (00 R4). -/
def State.physCap (s : State) : Nat := s.pondSectors * 256 + s.id.variant.user

/-- Posts CAP_WARN and CAP_CRIT as physical use crosses their levels (02 R97). -/
def State.capCheck (s : State) : State :=
  let u := s.physUse * 256
  let c := s.physCap
  let post (t : State) (ev : Ev) : State := t.post (pairPost ev 0 0 (u / 2 ^ 30) (c / 2 ^ 30))
  let s1 :=
    if s.map.capWarn then (if 100 * u < 88 * c then { s with map := { s.map with capWarn := false } } else s)
    else if 90 * c ≤ 100 * u then post { s with map := { s.map with capWarn := true } } .capWarn else s
  if s1.map.capCrit then (if 100 * u < 93 * c then { s1 with map := { s1.map with capCrit := false } } else s1)
  else if 95 * c ≤ 100 * u then post { s1 with map := { s1.map with capCrit := true } } .capCrit else s1

/-- Dirty Keep data D in bytes: stored sizes of writable Keep homes in Pond and Spring (13 R459; 02 R104). -/
def State.dirty (s : State) : Nat :=
  256 * (s.map.sme.map (fun p =>
    let e := s.ent (keyRegion p.1)
    if e.keep && (match p.2.home with
      | some l => l.isNear
      | none => false) then p.2.cs else 0)).sum

/-! ### Access time stamps (02 R62) -/

/-- Chiplet on whose stacks an entry's home lies, where it lies in Pond (00 R20). -/
def Sme.chiplet (e : Sme) : Option Nat :=
  match e.home with
  | some (.near false a) => some (a / 2 ^ 23 / 192)
  | _ => none

/-- A read of an SME puts its segment first in the SME lookaside of its home's chiplet, which holds 65,536 (12 R435). -/
def State.looked (s : State) (r : RegionId) (seg : Nat) : State :=
  match (s.sme r seg).chiplet with
  | none => s
  | some c =>
    let l := (c, segKey r seg) :: s.map.look.filter (fun x => x.2 != segKey r seg)
    let full := decide (65536 < (l.filter (fun x => x.1 == c)).length)
    { s with map := { s.map with look := if full then (l.reverse.eraseP (fun x => x.1 == c)).reverse else l } }

/-- Writes AGE on an access or placement. -/
def State.touch (s0 : State) (r : RegionId) (seg : Nat) : State :=
  let s := s0.looked r seg
  let e := s.sme r seg
  let s1 := [e.image, e.home].reduceOption.foldl (fun t l => t.wakeSid l) s
  if e.f.age = s.clk.age then s1 else s1.putSme r seg (e.edit (fun f => { f with age := s.clk.age }))

/-- Writes AGE and `LAST_STORE` and clears `TRIED`, for a store to an OPEN segment. -/
def State.touchStore (s0 : State) (r : RegionId) (seg : Nat) : State :=
  let s := s0.looked r seg
  let e := s.sme r seg
  (e.home.elim s (fun l => s.wakeSid l)).putSme r seg (e.edit (fun f => { f with age := s.clk.age, aux := s.clk.store.setWidth 32 }))

/-! ### Releases (02 R68 step 7, R76) -/

/-- A run leaves use once requests that resolved to it have completed. -/
def State.release (s : State) (l : Loc) (len : Nat) (image : Bool) : State :=
  if len = 0 then s
  else { s with map := { s.map with rel := s.map.rel.put s.map.relNo ⟨l, len, image⟩, relNo := s.map.relNo + 1 } }

/-- Releases the home of an entry, where it has one; space in Lake stops being valid with its SME (05 R195). -/
def State.releaseHome (s : State) (e : Sme) : State :=
  match e.home with
  | some (.flash _ _) => s
  | some l => s.release l e.cs false
  | none => s

/-- Drops a lent image (02 R76). -/
def State.dropImage (s : State) (r : RegionId) (seg : Nat) : State :=
  let e := s.sme r seg
  match e.image with
  | none => s
  | some l =>
    (s.commitSme r seg (e.edit (fun f => { f with lend := false, spr := false, aux := 0 }))).release l e.cs true

/-! ### Moves (02 R68 to R70, R75) -/

/-- The move in flight of a segment, with its number: its SME token is held. -/
def State.moveOf (s : State) (r : RegionId) (seg : Nat) : Option (Nat × Move) :=
  s.map.moves.find? (fun p => p.2.region == r && p.2.seg == seg)

/-- Key of a map page: 256 segments of one region (02 R63). -/
def pageKey (r : RegionId) (seg : Nat) : Nat := r.toNat * 2 ^ 26 + seg / 256

/-- Steps 1 to 3 of 02 R68: the token, TRANSIT, the destination. An image placement leaves the SME as it is. The map page of the segment is
resident from here on (R64). -/
def State.startMove (s : State) (m : Move) : State × Nat :=
  let n := s.map.moveNo
  let e := s.sme m.region m.seg
  let s1 := { s with map := { s.map with moves := s.map.moves.put n m, moveNo := n + 1, away := s.map.away.filter (fun p => p != pageKey m.region m.seg) } }
  (if m.image then s1
   else s1.commitSme m.region m.seg (e.edit (fun f => { f with st := 6, prior := e.st.prior })), n)

/-- A seal's move gives back the space in Lake that it had taken from the seal's reservation (02 R74). -/
def State.sealBack (s : State) (m : Move) : State :=
  match m.why with
  | .op k =>
    if m.dest.isLake ∧ (s.q.ops.find k).any (fun o => o.kind == .sealing) = true then
      { s with lake := { s.lake with resv := s.lake.resv + m.len }, q := { s.q with ops := s.q.ops.upd k (fun o => { o with resv := o.resv + m.len }) } }
    else s
  | _ => s

/-- A move ends without a commit: `PRIOR` returns and the destination is released (02 R69, R70). -/
def State.abortMove (s0 : State) (n : Nat) : State :=
  match s0.map.moves.find n with
  | none => s0
  | some m =>
    let s := s0.sealBack m
    let e := s.sme m.region m.seg
    let s1 := { s with
      map := { s.map with moves := s.map.moves.del n }
      lake := { s.lake with stripes := s.lake.stripes.map (fun p => (p.1, { p.2 with moves := p.2.moves.filter (fun x => x != n) })) } }
    if e.st = .transit then s1.commitSme m.region m.seg (e.edit (fun f => { f with st := e.src.code, prior := 0 })) else s1

/-- Ends whatever move holds a segment's token. -/
def State.cancelMove (s : State) (r : RegionId) (seg : Nat) : State :=
  match s.moveOf r seg with
  | some p => s.abortMove p.1
  | none => s

/-- Changes a region's counts (14 R494). -/
def State.count (s : State) (r : RegionId) (f : RCnt → RCnt) : State :=
  let z : RCnt := ⟨0, 0, 0, 0, 0, 0⟩
  { s with rt := { s.rt with cnt := s.rt.cnt.set r.toNat z (f (s.rt.cnt.getD r.toNat z)) } }

/-- Ends the trial of a segment, if one runs; `TRIED` stays as it is (02 R73). -/
def State.endTrial (s : State) (r : RegionId) (seg : Nat) : State := { s with map := { s.map with trials := s.map.trials.del (segKey r seg) } }

/-- Makes a segment POISONED (02 R67): one SME write, its image dropped with it, its move and trial ended. -/
def State.poisonSeg (s : State) (r : RegionId) (seg cause : Nat) : State :=
  let s1 := s.cancelMove r seg
  let e := s1.sme r seg
  let s2 := s1.commitSme r seg (e.poison cause)
  let s3 := match e.image with
    | some l => s2.release l e.cs true
    | none => s2
  (s3.endTrial r seg).count r
    (fun c => { c with poisoned := c.poisoned + 1 })

/-- Serves a malformed SME (02 R61): POISONED with cause 0x08, its near runs out of use, SME_MALFORMED posted. -/
def State.servedMalformed (s : State) (r : RegionId) (seg : Nat) : State :=
  let e := s.sme r seg
  let s1 := (s.cancelMove r seg).commitSme r seg (e.poison 8)
  let runs := (e.home.toList ++ e.image.toList).filter Loc.isNear
  { s1 with map := { s1.map with lostRuns := s1.map.lostRuns ++ runs.map (fun l => (l, e.cs)) } }.count r
    (fun c => { c with poisoned := c.poisoned + 1 }) |>.post (segPost .smeMalformed r seg 8 e.w1)

/-- Whether a near location lies on a fenced pseudo-channel (14 R509). The Spring of a fenced core is read until its homes have
moved (10 R405). -/
def State.dead (s : State) (l : Loc) : Bool :=
  match l with
  | .near false a => s.pchFenced (a / 2 ^ 23)
  | _ => false

/-- Whether a move may not end at a location: on a fenced pseudo-channel, or in the Spring of a fenced core (01 R43; 02 R98). -/
def State.deadDest (s : State) (l : Loc) : Bool := s.dead l || l.core.any (fun c => s.fenced (.wick c))

/-- Whether the move of a segment has passed step 5: it commits although its source is fenced afterwards (02 R98). -/
def State.rescued (s : State) (r : RegionId) (seg : Nat) : Bool := (s.moveOf r seg).any (fun m => m.2.verified)

/-- Whether a location lies on a unit. -/
def FUnit.holds (u : FUnit) (l : Loc) : Bool :=
  match u, l with
  | .pch n, .near false a => a / 2 ^ 23 == n
  | .stack k, .near false a => a / 2 ^ 23 / 32 == k
  | .wick c, .near true a => a / 4096 == c
  | .die d, .flash f _ => f % 32 * 32 + f / 32 % 32 == d
  | _, _ => false

/-- The recoveries that count a home poisoned at an access (14 R509). -/
def State.countRecov (s : State) (l : Loc) (r : RegionId) (seg : Nat) : State :=
  { s with evt := { s.evt with recov := s.evt.recov.map (fun v =>
      if v.unit.holds l then
        let old := v.poisoned.getD r.toNat (0, seg)
        { v with poisoned := v.poisoned.put r.toNat (old.1 + 1, min old.2 seg) }
      else v) } }

/-- What an access does to an SME before it uses it: a malformed entry is poisoned (02 R61); a home on a fenced unit is
poisoned at once, unless a move has rescued it (R98), and an image there is dropped (14 R509). -/
def State.checkSme (s : State) (r : RegionId) (seg : Nat) : State :=
  let e := s.sme r seg
  if s.malformed e then s.servedMalformed r seg
  else match e.home, e.image with
    | _, some i => if s.dead i then s.dropImage r seg else s
    | some h, none =>
      if s.dead h ∧ s.rescued r seg = false then (s.poisonSeg r seg 1).countRecov h r seg else s
    | none, none => s

/-! ### Sector checks (03 R111, R127; 04 R164, R173) -/

/-- Adds a correction to the row log: a new row replaces the entry with the lowest count, the oldest on a tie (04 R173). -/
def logRow (log : List RowLog) (row slot : Nat) (age : W16) : List RowLog :=
  let r := BitVec.ofNat 15 row
  let b := BitVec.ofNat 6 slot
  if log.any (fun e => e.row == r && e.slot == b) then
    log.map (fun e => if e.row = r ∧ e.slot = b then { e with count := satInc e.count, age := age } else e)
  else if log.length < 16 then log ++ [⟨r, b, 1, age⟩]
  else
    let worse (x y : RowLog) : Bool := decide (x.count < y.count) || (x.count == y.count && decide (age - y.age < age - x.age))
    let i := (List.range log.length).foldl (fun (a : Nat) (k : Nat) =>
      if worse (log.getD k ⟨0, 0, 0, 0⟩) (log.getD a ⟨0, 0, 0, 0⟩) then k else a) 0
    log.set i ⟨r, b, 1, age⟩

/-- Counts a sector corrected in some symbols at a location. -/
def State.corrected (s : State) (l : Loc) (symbols : Nat) : State :=
  match l with
  | .near false a =>
    let n := a / 2 ^ 23
    let p := s.pch n
    let sec := a % 2 ^ 23
    s.setPch n { p with
      ce1 := if symbols = 1 then satInc p.ce1 else p.ce1
      ce23 := if 2 ≤ symbols then satInc p.ce23 else p.ce23
      window := p.window + 1
      rowlog := logRow p.rowlog (rowOf sec) (slotOf sec) s.clk.age }
  | .near true a =>
    let c := a / 4096
    { s with pond := { s.pond with sprCe := s.pond.sprCe.put c (satInc (s.pond.sprCe.getD c 0)) } }
  | _ => s

/-- Counts an uncorrectable sector at a location. -/
def State.uncorrectable (s : State) (l : Loc) : State :=
  match l with
  | .near false a =>
    let n := a / 2 ^ 23
    let p := s.pch n
    s.setPch n { p with ue := satInc p.ue }
  | .near true a =>
    let c := a / 4096
    { s with pond := { s.pond with sprUe := s.pond.sprUe.put c (satInc (s.pond.sprUe.getD c 0)) } }
  | _ => s

/-- Poison cause of an uncorrectable error at a home (02, poison causes). -/
def Loc.ueCause : Loc → Nat
  | .near _ _ => 2
  | .flash _ _ => 3
  | .tarn _ _ => 5

/-- An uncorrectable error of a home (02 R102; 03 R111, R127; 05 R226): the event of its kind, then POISONED. -/
def State.homeFault (s : State) (r : RegionId) (seg : Nat) (l : Loc) (tag form : Bool) : State :=
  let e := s.sme r seg
  let s1 := if form then s else s.uncorrectable l
  let s2 := s1.poisonSeg r seg l.ueCause
  let s3 := if tag then (s2.count r (fun c => { c with sectorTag := c.sectorTag + 1 })).post (segPost .sectorTag r seg l.ueCause e.w1) else s2
  if form then (s3.count r (fun c => { c with codecFault := c.codecFault + 1 })).post (segPost .codecFault r seg l.ueCause e.w1)
  else s3.post (segPost .segPoison r seg l.ueCause e.w1)

/-- An uncorrectable error of a lent image: the image is dropped (02 R78). -/
def State.imageFault (s : State) (r : RegionId) (seg : Nat) (l : Loc) (tag form : Bool) : State :=
  let e := s.sme r seg
  let s1 := if form then s else s.uncorrectable l
  let s2 := if tag then (s1.count r (fun c => { c with sectorTag := c.sectorTag + 1 })).post (segPost .sectorTag r seg 0 e.w1) else s1
  let s3 := if form then (s2.count r (fun c => { c with codecFault := c.codecFault + 1 })).post (segPost .codecFault r seg 0 e.w1) else s2
  s3.dropImage r seg

/-! ### Placing data -/

/-- Writes a segment in OPEN form at a near location and commits it (02 R72); the old home and image are released. -/
def State.commitOpen (s : State) (r : RegionId) (seg : Nat) (a : Nat) (bytes : List Byte) : State :=
  let e := s.sme r seg
  let s1 := s.writeRun (.near false a) bytes
  let f : SmeF := { st := 2, spr := false, codec := 2, csize := 16, pin := e.f.pin, lend := false, prior := 0, age := s.clk.age,
                    aux := s.clk.store.setWidth 32 }
  ((s1.commitSme r seg ⟨f.word, BitVec.ofNat 64 a⟩).releaseHome e)

/-- Copies a home to another location and commits it at once: a flush's move, which runs from its start to its commit within one command (02 R104;
05 R214). -/
def State.relocate (s : State) (r : RegionId) (seg : Nat) (dest : Loc) : State :=
  let s0 := s.cancelMove r seg
  let e := s0.sme r seg
  match e.home with
  | none => s0
  | some h =>
    let s1 := s0.writeRun dest (s0.readRun h e.cs)
    let keepsImage := e.f.lend && dest.isLake
    let e2 : Sme := if keepsImage then { e with w1 := dest.word1 } else e.at dest
    let e3 := if dest.isNear then e2.edit (fun f => { f with age := s.clk.age, aux := if f.codec = 2 then e.f.aux else 0 }) else e2
    (s1.commitSme r seg e3).releaseHome e

/-- Releases everything a segment's SME names (02, segment transitions: REGION.FREE, the fill form). -/
def State.releaseSeg (s : State) (r : RegionId) (seg : Nat) : State :=
  let s1 := s.cancelMove r seg
  let e := s1.sme r seg
  let s2 := match e.image with
    | some l => s1.release l e.cs true
    | none => s1
  s2.releaseHome e

/-- How long ago a segment was accessed, modulo 2^16 (02 R61). -/
def State.behind (s : State) (e : Sme) : Nat := (s.clk.age - e.f.age).toNat

/-- Segment keys with their entries, oldest AGE first, that pass a test. -/
def State.oldestFirst (s : State) (p : Nat × Sme → Bool) : List (Nat × Sme) :=
  (s.map.sme.filter p).insertionSort (fun a b => s.behind b.2 ≤ s.behind a.2)

end Sys2Proof.Machine
end

