-- ==== Sys2Proof/Machine/Engine.lean ====
section
/-! DEFINITION. The codec engines: which of them takes a decode or a trial, and what the encoders make of a segment (03 R128 to R138, R652). -/

namespace Sys2Proof.Machine

/-- Codec engines of a tile. -/
def tileEngines (k : Nat) : List Nat := (List.range 4).map (fun i => 4 * k + i)

/-- Trials on an engine. -/
def State.engineLoad (s : State) (n : Nat) : Nat := (s.map.trials.filter (fun p => p.2 == n)).length

/-- The engine of a list that is in service with the shortest queue; on a tie the lowest one (DESIGN CHOICE: assumption log 69). -/
def State.shortest (s : State) (l : List Nat) : Option Nat :=
  (l.filter (fun n => !s.fenced (.codec n))).foldl (fun acc n => match acc with
    | some m => if s.engineLoad n < s.engineLoad m then some n else acc
    | none => some n) none

/-- The engine that takes the work of a home on tile k (03 R134): one of the tile, where all four are fenced one of tile k XOR 1, then any of the
chiplet, then any of the other chiplet. -/
def State.engineFor (s : State) (k : Nat) : Option Nat :=
  let side (c : Nat) : List Nat := (List.range 24).map (fun i => 24 * c + i)
  [tileEngines k, tileEngines (k ^^^ 1), side (k / 6), side (1 - k / 6)].findSome? s.shortest

/-- The tile whose engine an access to a stored form at a location needs for its decode: none for ZERO, PATTERN and OPEN, which need no engine (03
R133, R134). -/
def State.decoder (s : State) (e : Sme) (t : Nat) : Option Nat :=
  if 3 ≤ e.f.codec.toNat then (s.engineFor t).map (fun n => n / 4) else none

/-- The engine that runs a trial of a segment whose home lies on tile k; a tile without Lit permission runs none (03 R138). -/
def State.trialEngine (s : State) (k : Nat) : Option Nat := (s.engineFor k).filter (fun n => (s.ledger (n / 4)).perm == 0)

/-- Submits a segment for a trial on an engine. -/
def State.submit (s : State) (r : RegionId) (seg n : Nat) : State :=
  { s with map := { s.map with trials := s.map.trials.put (segKey r seg) n, trialAfter := s.map.trialAfter.del (segKey r seg) } }

/-- A fenced engine abandons its trials; `TRIED` stays 0, so they run again later (03 R135). -/
def State.abandonTrials (s : State) (n : Nat) : State := { s with map := { s.map with trials := s.map.trials.filter (fun p => p.2 != n) } }

/-- `DTYPE` of a dtype hint, where it has one (03 R128). -/
def hintType (h : Nat) : Option Nat := if 1 ≤ h ∧ h ≤ 5 then some (h - 1) else none

/-- Whether a region's codec policy tries a codec: 3 LZV, 4 EXP (03 R128). -/
def REnt.tries (e : REnt) (codec : Nat) : Bool :=
  let typed := (hintType e.hint.toNat).isSome
  match e.policy.toNat, codec with
  | 0, 3 => true
  | 0, 4 => typed
  | 1, 3 => true
  | 2, 4 => typed
  | _, _ => false

/-- What tells one encoder from another: LZV, or EXP with a `DTYPE`. -/
def REnt.coder (e : REnt) (codec : Nat) : Nat := if codec = 4 then 8 + (hintType e.hint.toNat).getD 0 else codec

/-- Whether an encoder's result is a stored form that a trial may use: the codec is tried, the form is valid and at most 14
sectors, and an EXP form has the region's `DTYPE` (03 R128 to R130). -/
def State.formFits (s : State) (r : RegionId) (codec : Nat) (x : Packed) (seg : List Byte) : Bool :=
  (s.ent r).tries codec && decide (x.csize ≤ 14) && validForm codec x.csize x.run seg &&
  (codec != 4 || some (byteAt x.run 0 % 8) == hintType (s.ent r).hint.toNat)

/-- The usable form that the encoder of a codec gives for a segment's bytes: the one it gave for the same bytes before (03 R652), else what the
environment names. -/
def State.encoded (s : State) (r : RegionId) (codec : Nat) (x : Option Packed) (seg : List Byte) : Option Packed :=
  match s.map.forms.find? (fun f => f.1 == (s.ent r).coder codec && f.2.1 == seg) with
  | some f => f.2.2
  | none => x.filter (fun y => s.formFits r codec y seg)

/-- Records what an encoder gave for a segment's bytes. -/
def State.noteForm (s : State) (r : RegionId) (codec : Nat) (x : Option Packed) (seg : List Byte) : State :=
  let key := (s.ent r).coder codec
  if (s.ent r).tries codec = false ∨ s.map.forms.any (fun f => f.1 == key && f.2.1 == seg) = true then s
  else { s with map := { s.map with forms := s.map.forms ++ [(key, seg, s.encoded r codec x seg)] } }

/-- The smallest usable form among the codecs that the policy allows: EXP wins a tie (03 R129). -/
def State.bestForm (s : State) (r : RegionId) (lzv exp : Option Packed) (seg : List Byte) : Option (Nat × Packed) :=
  let form (codec : Nat) (x : Option Packed) : Option (Nat × Packed) :=
    if (s.ent r).tries codec then (s.encoded r codec x seg).map (fun y => (codec, y)) else none
  match form 3 lzv, form 4 exp with
  | some x, some y => some (if y.2.csize ≤ x.2.csize then y else x)
  | x, y => x.or y

end Sys2Proof.Machine
end

