-- ==== Sys2Proof/Machine/Dir.lean ====
section
/-! DEFINITION. The sharer directory, lost lines and the end of host grants (06 R241 to R255, R267, R268; 01 R28 to R32). -/

namespace Sys2Proof.Machine

/-! ### Share slots (06 R237, R246) -/

/-- The host in a share slot of a region. -/
def State.slotHost (s : State) (r : RegionId) (i : Nat) : Option HostId := s.rt.slots.find (r.toNat * 64 + i)

/-- The slot of a host. -/
def State.slotOf (s : State) (r : RegionId) (h : HostId) : Option Nat := (List.range 64).find? (fun i => s.slotHost r i == some h)

/-- A host's first grant takes effect: it takes the lowest free slot, or the region becomes COARSE (06 R246). -/
def State.takeSlot (s : State) (r : RegionId) (h : HostId) : State :=
  if (s.slotOf r h).isSome then s
  else match (List.range 64).find? (fun i => (s.slotHost r i).isNone) with
    | some i => { s with rt := { s.rt with slots := s.rt.slots.put (r.toNat * 64 + i) h } }
    | none => s.setEnt r { s.ent r with coarse := true }

/-! ### Entries (06 R247, R248) -/

/-- Granule of a line: 256 MiB hold 2^22 lines. -/
def granuleOf (line : Nat) : Nat := line / 2 ^ 22

/-- Whether a grant covers a line. -/
def Grant.covers (g : Grant) (r : RegionId) (line : Nat) : Bool :=
  g.region == r && decide (g.first ≤ granuleOf line ∧ granuleOf line < g.first + g.count)

/-- Whether a host holds a live grant covering a line. -/
def State.holdsLine (s : State) (h : HostId) (r : RegionId) (line : Nat) : Bool :=
  s.rt.grants.any (fun p => p.2.host == h && p.2.covers r line && !s.rt.gone.contains p.1)

/-- The entry of a line. -/
def State.dirEnt (s : State) (r : RegionId) (line : BitVec 40) : Option DEnt :=
  s.dir.ent.find? (fun e => e.region == r && e.line == line)

/-- Whether an entry is the line's. -/
def DEnt.isFor (e : DEnt) (r : RegionId) (line : BitVec 40) : Bool := e.region == r && e.line == line

/-- Removes the entry of a line. -/
def State.dirDel (s : State) (r : RegionId) (line : BitVec 40) : State :=
  { s with dir := { s.dir with ent := s.dir.ent.filter (fun e => !e.isFor r line) } }

/-- Chiplet and set of a line (06 R247); the hash is open (assumption log 11). -/
def State.dirSet (s : State) (r : RegionId) (line : BitVec 40) : Nat × Nat :=
  (s.anchorOf r (line.toNat / 64) / 6, Config.dirHash r.toNat line.toNat % 2 ^ 23)

/-- Pseudo-channel that holds a set. -/
def pchOfSet (c n : Nat) : Nat := (6 * c + n % 6) * 32 + n / 6 % 32

/-- A directory entry as its 128 bits stand in Pond (06 R248). -/
def DEnt.word (e : DEnt) : BitVec 128 :=
  e.vec ++ (0 : BitVec 7) ++ BitVec.ofBool e.coarse ++ (if e.busy then 3#2 else if e.st = .excl then 2 else 1) ++ e.region ++ e.line

/-- Bytes 0 to 255 of a region's share list (06 R237): the share slots, then the grant bitmap. -/
def State.shareList (s : State) (r : RegionId) : List Byte :=
  ((List.range 64).flatMap (fun i => toBytes 2 (((s.slotHost r i).map (fun h => h.toNat)).getD 0xFFFF))) ++
  toBytes 128 ((s.grantHosts r).foldl (fun v h => v + 2 ^ h.toNat) 0)

/-- Changes the entry of a line, or appends it as the youngest of its set; the presence bit of its pseudo-channel is set
(06 R250, R251). -/
def State.dirPut (s : State) (e : DEnt) : State :=
  let ent := if (s.dirEnt e.region e.line).isSome then s.dir.ent.map (fun x => if x.isFor e.region e.line then e else x) else s.dir.ent ++ [e]
  let p := s.dirSet e.region e.line
  let bit := (pchOfSet p.1 p.2, e.region.toNat)
  { s with dir := { s.dir with ent := ent, pres := if s.dir.pres.contains bit then s.dir.pres else bit :: s.dir.pres } }

/-- Way 0 of the full set a line needs, if it is full: 16 ways (06 R250). A directory of fewer than 16 entries has no full
set, whatever the hash. -/
def State.dirVictim (s : State) (r : RegionId) (line : BitVec 40) : Option DEnt :=
  if s.dir.ent.length < 16 then none
  else
    let same := s.dir.ent.filter (fun e => s.dirSet e.region e.line == s.dirSet r line)
    if same.length < 16 then none else same.head?

/-- The hosts an entry lists (06 R248, R249): a snoop of a group goes to its hosts that hold a grant covering the line. -/
def State.listed (s : State) (e : DEnt) : List HostId :=
  match e.st with
  | .excl => [BitVec.ofNat 10 e.vec.toNat]
  | .shared =>
    if e.coarse then (s.grantHosts e.region).filter (fun h => e.vec.getLsbD (h.toNat / 16) && s.holdsLine h e.region e.line.toNat)
    else (List.range 64).filterMap (fun i => if e.vec.getLsbD i then s.slotHost e.region i else none)

/-- Converts a precise SHARED entry of a COARSE region to group form at its next use (06 R246). -/
def State.coarsen (s : State) (e : DEnt) : DEnt :=
  if (s.ent e.region).coarse ∧ e.coarse = false ∧ e.st = .shared then
    { e with coarse := true, vec := (s.listed e).foldl (fun v h => v ||| (1 <<< (h.toNat / 16))) 0 }
  else e

/-- The entry with a host added as a sharer. -/
def State.addSharer (s : State) (e : DEnt) (h : HostId) : DEnt :=
  let e1 := s.coarsen e
  if e1.coarse then { e1 with vec := e1.vec ||| (1 <<< (h.toNat / 16)) }
  else match s.slotOf e1.region h with
    | some i => { e1 with vec := e1.vec ||| (1 <<< i) }
    | none => { e1 with coarse := true, vec := (1 <<< (h.toNat / 16)) ||| (s.listed e1).foldl (fun v x => v ||| (1 <<< (x.toNat / 16))) 0 }

/-- An entry without a host; none when no host is left. Other hosts of the same group keep their copies (06 R252). -/
def State.dropSharer (s : State) (e : DEnt) (h : HostId) : Option DEnt :=
  match e.st with
  | .excl => if e.vec.toNat = h.toNat then none else some e
  | .shared =>
    let v :=
      if e.coarse then
        if (s.listed e).any (fun x => x != h && x.toNat / 16 == h.toNat / 16) then e.vec else e.vec &&& ~~~((1 : W64) <<< (h.toNat / 16))
      else match s.slotOf e.region h with
        | some i => e.vec &&& ~~~((1 : W64) <<< i)
        | none => e.vec
    if v = 0 then none else some { e with vec := v }

/-- A SHARED entry of one host. -/
def State.shareEnt (s : State) (r : RegionId) (line : BitVec 40) (h : HostId) : DEnt :=
  s.addSharer { line := line, region := r, st := .shared, coarse := (s.ent r).coarse, vec := 0, busy := false } h

/-- An EXCL entry. -/
def exclEnt (r : RegionId) (line : BitVec 40) (h : HostId) : DEnt :=
  { line := line, region := r, st := .excl, coarse := false, vec := BitVec.ofNat 64 h.toNat, busy := false }

/-- Sends snoops of one kind for a line to hosts and marks its entry BUSY (06 R249). -/
def State.snoop (s : State) (e : DEnt) (kind : SnpKind) (hosts : List HostId) : State :=
  let s1 := s.dirPut { e with busy := true }
  hosts.foldl (fun t h =>
    let u := t.send (.snoop h e.region e.line kind)
    { u with dir := { u.dir with snoops := u.dir.snoops ++ [⟨e.region, e.line, h, kind⟩] } }) s1

/-- Snoops in flight for a line. -/
def State.snoopsOf (s : State) (r : RegionId) (line : BitVec 40) : List Snoop :=
  s.dir.snoops.filter (fun n => n.region == r && n.line == line)

/-! ### Lost lines (06 R254, R267, R268) -/

/-- Whether a line is lost. -/
def State.isLost (s : State) (r : RegionId) (line : BitVec 40) : Bool := s.dir.lost.any (fun l => l.2.1 == r && l.2.2 == line)

/-- Ends the loss of a line. -/
def State.endLoss (s : State) (r : RegionId) (line : BitVec 40) : State :=
  { s with dir := { s.dir with lost := s.dir.lost.filter (fun l => !(l.2.1 == r && l.2.2 == line)) } }

/-- ERR_FATAL on every port half of a host (06 R267). -/
def State.fatalTo (s : State) (h : HostId) : State := s.send (.err (s.halfOf h) .fatal)

/-- Directory state of a region is lost (06 R267, R268): every host of its grant bitmap gets a fatal error, every grant ends,
DLOST is set, DIR_LOST posts with the number of hosts. -/
def State.loseDir (s : State) (r : RegionId) : State :=
  if (s.standing r).dlost then s
  else
    let hosts := s.grantHosts r
    let s1 := hosts.foldl State.fatalTo s
    let keep (p : Nat × Grant) : Bool := p.2.region != r
    let s2 := { s1 with
      rt := { s1.rt with
        gone := s1.rt.gone.filter (fun n => s1.rt.grants.any (fun p => p.1 == n && keep p))
        grants := s1.rt.grants.filter keep }
      dir := { s1.dir with
        ent := s1.dir.ent.filter (fun e => e.region != r)
        snoops := s1.dir.snoops.filter (fun n => n.region != r)
        lost := s1.dir.lost.filter (fun l => l.2.1 != r) } }
    let s3 := (hosts.foldl State.notice s2).change r (fun e => { e with dlost := true, nhost := 0, st := if e.st = .active then .new else e.st })
    s3.post (pairPost .dirLost 1 r.toNat hosts.length 0)

/-- A line becomes lost (06 R254): it enters its chiplet's table of 4,096 entries and LINE_LOST posts; a full table loses the
region's directory state. -/
def State.loseLine (s : State) (r : RegionId) (line : BitVec 40) (h : HostId) : State :=
  let c := s.anchorOf r (line.toNat / 64) / 6
  let s1 := (s.dirDel r line).post (linePost .lineLost r line.toNat h)
  let s2 := s1.count r (fun x => { x with lostLines := x.lostLines + 1 })
  if s.isLost r line then s2
  else if 4096 ≤ (s2.dir.lost.filter (fun l => l.1 == c)).length then s2.loseDir r
  else { s2 with dir := { s2.dir with lost := s2.dir.lost ++ [(c, r, line)] } }

/-! ### The end of grants (06 R241, R246; 07 R300) -/

/-- Frees the share slots of hosts that hold no grant and that no entry names (06 R246). -/
def State.freeSlots (s : State) (r : RegionId) : State :=
  let busy (i : Nat) : Bool := s.dir.ent.any (fun e => e.region == r && e.st == .shared && !e.coarse && e.vec.getLsbD i)
  { s with rt := { s.rt with slots := s.rt.slots.filter (fun p =>
      p.1 / 64 != r.toNat || s.holdsGrant p.2 r || busy (p.1 % 64)) } }

/-- Recounts NHOST after a grant of a region has gone; the last one makes an ACTIVE region NEW (06 R232). -/
def State.recount (s : State) (r : RegionId) : State :=
  let n := (s.grantHosts r).length
  let s1 := s.change r (fun e => { e with nhost := BitVec.ofNat 11 n, st := if e.st = .active ∧ n = 0 then .new else e.st })
  (s1.freeSlots r).journalEnt r

/-- A grant number leaves the live grants. -/
def State.dropGrant (s : State) (g : Nat) : State :=
  match s.rt.grants.find g with
  | none => s
  | some x =>
    ({ s with rt := { s.rt with grants := s.rt.grants.del g, gone := s.rt.gone.filter (fun n => n != g) } }).recount x.region

/-- Lines a host holds EXCL in a region. -/
def State.exclLines (s : State) (h : HostId) (r : RegionId) : List (BitVec 40) :=
  (s.dir.ent.filter (fun e => e.region == r && e.st == .excl && e.vec.toNat == h.toNat)).map (fun e => e.line)

/-- A host leaves every directory entry of a region without snoops (07 R300 step 5). -/
def State.dirForget (s : State) (h : HostId) (r : RegionId) : State :=
  { s with dir := { s.dir with
      ent := s.dir.ent.filterMap (fun e => if e.region = r then s.dropSharer e h else some e)
      snoops := s.dir.snoops.filter (fun n => !(n.region == r && n.host == h)) } }

/-- Lines of a region whose snoops have all been answered are no longer BUSY. -/
def State.settleBusy (s : State) : State :=
  { s with dir := { s.dir with ent := s.dir.ent.map (fun e =>
      if e.busy ∧ s.dir.snoops.any (fun n => n.region == e.region && n.line == e.line) = false then { e with busy := false } else e) } }

/-- Every host grant of a host ends with its port (07 R300 steps 4 and 5): EXCL lines are lost, the host leaves the directory. -/
def State.endHostGrants (s : State) (h : HostId) : State :=
  let gs := s.grantsOfHost h
  let rs := (gs.map (fun p => p.2.region)).dedup
  let s1 := rs.foldl (fun t r => (t.exclLines h r).foldl (fun u l => u.loseLine r l h) t) s
  let s2 := gs.foldl (fun t p => t.dropGrant p.1) s1
  (rs.foldl (fun t r => (t.dirForget h r).freeSlots r) s2).settleBusy

end Sys2Proof.Machine
end

