-- ==== Sys2Proof/Machine/QOps.lean ====
section
/-! DEFINITION. Ending and advancing programs: statuses, `INFO`, completions and cancellation (08 R321, R325, R326, R335, R350;
07 R300). -/

namespace Sys2Proof.Machine

/-- Status codes (08 R335). -/
def stOk : Byte := 0
def eArg : Byte := 1
def ePerm : Byte := 2
def eState : Byte := 3
def eCapacity : Byte := 4
def ePoison : Byte := 5
def eFenced : Byte := 6
def eTimeout : Byte := 7
def eFallback : Byte := 8
def eRefused : Byte := 9
def eBusy : Byte := 10
def eIntegrity : Byte := 11

/-- How an instruction fails: status, detail, the region it names, and `INFO` where a rule gives it a value. -/
structure Err1 where
  status : Byte
  detail : W16
  region : Option RegionId := none
  info : W64 := 0
deriving DecidableEq, Repr

/-- `INFO` of E_STATE and E_PERM (08 R326). -/
def State.stateInfo (s : State) (r : Option RegionId) : W64 :=
  match r with
  | some x => BitVec.ofNat 64 (x.toNat + (s.ent x).st.code * 2 ^ 16 + s.sled.st.code * 2 ^ 24)
  | none => BitVec.ofNat 64 (s.sled.st.code * 2 ^ 24)

/-- `INFO` of E_POISON: region and byte offset of the line read (08 R326). -/
def poisonInfo (r : RegionId) (off : Nat) : W64 := BitVec.ofNat 64 (r.toNat + off * 2 ^ 16)

/-- `INFO` of a failure. -/
def State.infoOf (s : State) (e : Err1) : W64 := if e.status = eState ∨ e.status = ePerm then s.stateInfo e.region else e.info

/-- A general register (08 R327): g0 reads zero. -/
def Prog.gr (x : Prog) (i : Nat) : W64 := if i = 0 then 0 else x.g.getD i 0

/-- Writes a general register; g0 ignores writes. -/
def Prog.setG (x : Prog) (i : Nat) (v : W64) : Prog := if i = 0 then x else { x with g := x.g.set i v }

/-- Whether the word at an index has an extension word. -/
def hasExt (w : W64) : Bool := w.getLsbD 8

/-- The index of the word after the current instruction. -/
def Prog.nextPc (x : Prog) : Nat := x.pc + (if hasExt (x.words.getD x.pc 0) then 2 else 1)

/-- Serves the watchdog of a Wick group: a program on one of its cores completes, or executes KICK (15 R527). -/
def State.kickGroup (s : State) (tile : Nat) : State :=
  { s with wd := { s.wd with wde := s.wd.wde.upd (4 + tile) (fun w => { w with elapsed := 0 }) } }

/-- A program leaves the machine: its reads in progress and its waits are forgotten; its scratch and pending stores are discarded. An
operation that other programs wait for goes on for the next of them, and an entry change that has begun finishes (08 R352). -/
def State.leave (s : State) (p : Nat) : State :=
  { s with
    q := { s.q with
      progs := s.q.progs.del p
      idle := match s.q.progs.find p with
        | some x => if x.core < 96 then s.q.idle.filter (fun c => c != x.core) ++ [x.core] else s.q.idle
        | none => s.q.idle
      ops := s.q.ops.filterMap (fun o =>
        if o.2.prog = p then (match o.2.also with
          | [] => if o.2.kind = .evacuate ∨ o.2.kind = .leaving ∨ (o.2.kind = .sealing ∧ o.2.aux ≠ 0) then some o else none
          | n :: t => some (o.1, { o.2 with prog := n, also := t }))
        else some (o.1, { o.2 with also := o.2.also.filter (fun n => n != p) })) }
    lake := { s.lake with misses := s.lake.misses.map (fun m => if m.2 = some p then (m.1, none) else m) } }

/-- The completion entry of a program (08 R325). -/
def Prog.cpl (x : Prog) (status : Byte) (detail : W16) (info : W64) : Cpl :=
  { cid := x.cid, irq := x.irq, status := status, detail := detail, result := x.gr 1, word := BitVec.ofNat 32 x.pc, fbcnt := x.fbcnt, info := info }

/-- A program ends with a status: its completion is delivered and counted, unless its host was reset. -/
def State.endProg (s : State) (p : Nat) (status : Byte) (detail : W16) (info : W64) : State :=
  match s.prog p with
  | none => s
  | some x =>
    let s1 := s.leave p
    let s2 := if x.core < 96 then s1.kickGroup (x.core / 8) else s1
    if x.mute then s2
    else
      let s3 := s2.setQueue x.host x.q ((s2.queue x.host x.q).count status)
      s3.deliver x.host x.q (x.cpl status detail info)

/-- A program ends at a failing instruction (08 R335). -/
def State.failProg (s : State) (p : Nat) (e : Err1) : State := s.endProg p e.status e.detail (s.infoOf e)

/-- A program goes on after its current instruction, changed by f; one that was cancelled ends instead. -/
def State.goOn (s : State) (p : Nat) (f : Prog → Prog) : State :=
  match s.prog p with
  | none => s
  | some x =>
    let y := f x
    let z := { y with pc := x.nextPc, wait := .run, served := [] }
    match x.cancel with
    | some c => (s.setProg p z).endProg p c.1 c.2 (s.stateInfo none)
    | none => s.setProg p z

/-- The control instruction a program waits for completes with OK, and writes a register. -/
def State.ctlOk (s : State) (p d : Nat) (v : W64) : State := s.goOn p (fun x => { x.setG d v with lastSt := 0 })

/-- A program waits inside its control instruction. -/
def State.ctlWait (s : State) (p : Nat) : State :=
  { s with q := { s.q with progs := s.q.progs.upd p (fun x => { x with wait := .control }) } }

/-- Cancels a program at its next instruction: one inside a control instruction lets that finish first (08 R350). -/
def State.cancelProg (s : State) (p : Nat) (status : Byte) (detail : W16) : State :=
  match s.prog p with
  | none => s
  | some x =>
    if x.wait = .control then s.setProg p { x with cancel := some (status, detail) }
    else s.endProg p status detail (s.infoOf ⟨status, detail, none, 0⟩)

/-- Cancels a program of a host that is reset: no completion is written (07 R300 step 3). -/
def State.mutedCancel (s : State) (p : Nat) : State :=
  match s.prog p with
  | none => s
  | some x => (s.setProg p { x with mute := true }).cancelProg p eRefused 2

/-- Puts a queue into ERROR and posts QUEUE_ERROR (08 R322, R351). -/
def State.queueError (s : State) (h : HostId) (q : QueueNo) (err : BitVec 4) : State :=
  let s1 := s.setQueue h q { s.queue h q with st := .error, err := err }
  s1.post { ev := .queueError, okind := 3, obj := q.toNat + h.toNat * 2 ^ 16, shost := h, p0 := err.setWidth 64, p1 := 3 }

/-- Writes held completions while entries are free (08 R321). -/
def State.flushCpl (s : State) (h : HostId) (q : QueueNo) : Nat → State
  | 0 => s
  | n + 1 =>
    let x := s.queue h q
    match x.heldCpl with
    | [] => s.setQueue h q { x with heldBit := false }
    | c :: t => if x.full ∨ x.err = 6 then s else State.flushCpl ((s.setQueue h q { x with heldCpl := t }).writeCpl h q c) h q n

end Sys2Proof.Machine
end

