-- ==== Sys2Proof/Machine/Access.lean ====
section
/-! DEFINITION. Loads and stores of one segment, by hosts, programs and the sled itself (02 R62 to R73, R84, R87, R101; 03 R111;
13 R462, R463; 14 R509 to R512), and the start of promotions and demotions. -/

namespace Sys2Proof.Machine

/-! ### Misses (01, crossings; 02 R65; 05 R218) -/

/-- Whether the map page of a segment is stored in Lake and not in the map cache (02 R64). -/
def State.pageAway (s : State) (r : RegionId) (seg : Nat) : Bool := s.map.away.contains (pageKey r seg)

/-- Starts the read that a miss needs, once per segment; a Tarn read is a non-posted request (07 R290). -/
def State.startMiss (s : State) (r : RegionId) (seg : Nat) (p : Option Nat) : State :=
  let k := segKey r seg
  let s1 := { s with lake := { s.lake with misses := if s.lake.misses.contains (k, p) then s.lake.misses else s.lake.misses ++ [(k, p)] } }
  match (s.sme r seg).home with
  | some (.tarn w _) =>
    if s.ports.np.any (fun n => n.2.region == r && n.2.seg == seg) then s1
    else
      let h := match s.rt.windows.find w with
        | some x => x.host
        | none => 0
      { s1 with ports := { s1.ports with np := s1.ports.np.put s1.ports.npNo ⟨h, r, seg, false⟩, npNo := s1.ports.npNo + 1 } }
  | _ => s1

/-! ### Loads -/

/-- What a read of one line gives: its bytes, poison, or a miss that must be served first. -/
inductive Rd
  | line (b : List Byte)
  | poison
  | miss
deriving DecidableEq, Repr

/-- Counts the corrections of a read at a location. -/
def State.noteChk (s : State) (l : Loc) (c : Chk) : State :=
  match c with
  | .corrected n => s.corrected l n.val
  | _ => s

/-- A move with its defaults. -/
def mkMove (r : RegionId) (seg : Nat) (dest : Loc) (len : Nat) (image : Bool) (cls : Nat) (why : MoveFor) : Move :=
  { region := r, seg := seg, dest := dest, len := len, image := image, sealing := false, fails := 0, verified := false,
    cls := cls, why := why }

/-- What a store draws its sectors from (02 R84, R86, R87). -/
def State.useOf (s : State) (r : RegionId) (seg : Nat) (u : Use) : Use :=
  if s.reserved r (s.sme r seg) then .reservedSeg r seg (u == .place) else u

/-- A sector of a segment was corrected in 2 or 3 symbols (04 R164): a lent image is dropped, a writable Pond home moves to fresh sectors
on the same stack at C3, unless a move of it is under way (R174) or a flush starts none (02 R99). `MOVE_ON_CE` 0 turns the move off. -/
def State.mend (s : State) (r : RegionId) (seg : Nat) (l : Loc) (c : Chk) (pick : W32) : State :=
  let many : Bool := match c with
    | .corrected n => decide (2 ≤ n.val)
    | _ => false
  match many, l with
  | true, .near false a =>
    let e := s.sme r seg
    if e.image = some l then s.dropImage r seg
    else if e.home = some l ∧ s.pond.errctl.getLsbD 24 = true ∧ (s.moveOf r seg).isNone ∧ (s.ent r).isSealed = false ∧ s.sled.flush.isNone = true then
      match s.allocPond (a / 2 ^ 23 / 32) e.cs (s.useOf r seg .store) pick with
      | some b => (s.startMove (mkMove r seg (.near false b) e.cs false 3 .ftl)).1
      | none => s
    else s
  | _, _ => s

/-- Whether a sector check failed, and whether in a tag symbol. -/
def chkFails : Chk → Bool
  | .bad | .tag => true
  | _ => false

/-- Reads one line of a segment: from its image, else from its home in Pond or Spring (02 R62, R78; 03 R111, R127). The
outcome c of the sector check counts where sectors are read. A home on a fenced unit that a move has rescued is read where the move commits it
(R98): until then the load waits. -/
def State.readLine (s0 : State) (r : RegionId) (seg j : Nat) (c : Chk) : State × Rd :=
  let s := s0.checkSme r seg
  let e := s.sme r seg
  if s.pageAway r seg then (s, .miss)
  else if e.st = .poisoned then (s.touch r seg, .poison)
  else match e.image, e.home with
    | some i, _ =>
      if chkFails c then (s.imageFault r seg i (c == Chk.tag) false, .miss)
      else match s.lineBytes e (some i) j with
        | some b => (((s.noteChk i c).touch r seg).mend r seg i c 0, .line b)
        | none => (s.imageFault r seg i false true, .miss)
    | none, some (.near spr a) =>
      let h := Loc.near spr a
      if s.dead h then (s, .miss)
      else if chkFails c then ((s.homeFault r seg h (c == Chk.tag) false).touch r seg, .poison)
      else match s.lineBytes e (some h) j with
        | some b => (((s.noteChk h c).touch r seg).mend r seg h c 0, .line b)
        | none => ((s.homeFault r seg h false true).touch r seg, .poison)
    | none, some _ => (s, .miss)
    | none, none => (s.touch r seg, .line ((s.lineBytes e none j).getD (zeros 64)))

/-! ### The dirty-Keep admission (13 R462, R463; 05 R212) -/

/-- How a dirtying stands against the admission ceiling. -/
inductive Adm
  | yes | past | hold | drop
deriving DecidableEq, Repr

/-- Stored sectors that a segment has in Pond or Spring. -/
def Sme.nearSectors (e : Sme) : Nat :=
  match e.home with
  | some l => if l.isNear then e.cs else 0
  | none => 0

/-- Whether a commit that gives a segment a near home of some sectors is admitted. -/
def State.admitDirty (s : State) (r : RegionId) (seg sectors : Nat) : Adm :=
  let e := s.ent r
  let old := (s.sme r seg).nearSectors
  if !e.keep || e.isSealed || !s.hasLake || decide (sectors ≤ old) then .yes
  else if s.lake.wear = .spent then (if s.dirty + (sectors - old) * 256 ≤ min s.pwr.admission (s.pwr.budget * 2 ^ 30) then .yes else .drop)
  else if s.dirty + (sectors - old) * 256 ≤ s.pwr.admission then .yes
  else if s.pwr.budget = 0 then .past
  else .hold

/-- Counts a store admitted beyond A, and runs write-back at C1 (13 R463). -/
def State.overAdmit (s : State) : State := { s with pwr := { s.pwr with overadmit := satInc s.pwr.overadmit, wb := 2 } }

/-! ### Starting moves for loads and evictions -/

/-- Whether a segment lies in an open DIRECT range (11 R423). -/
def State.openDirect (s : State) (r : RegionId) (seg : Nat) : Bool :=
  s.lamp.sch.any (fun p => p.2.armed && p.2.insts.any (fun i => i.settled == some .direct &&
    (match p.2.steps[i.step]? with
     | some t => t.region == r && decide (t.seg ≤ seg ∧ seg < t.seg + t.nseg)
     | none => false)))

/-- Whether a segment's home lies in Lake for good: its region is sealed, so that placement lends an image (02 R74, R75). -/
def State.lends (s : State) (r : RegionId) (seg : Nat) : Bool := (s.ent r).isSealed && (s.sme r seg).src == .lake

/-- Starts a promotion to Pond, or the placement of an image, of a segment homed in Lake or Tarn, where R84 and R462 allow it; a flush starts
none (02 R99). -/
def State.placePond (s : State) (r : RegionId) (seg : Nat) (cls : Nat) (why : MoveFor) (pick : W32) : State :=
  let e := s.sme r seg
  let lend := s.lends r seg
  let far := match e.home with
    | some l => !l.isNear
    | none => false
  if !far || e.f.lend || (s.moveOf r seg).isSome || s.sled.flush.isSome || (!lend && s.admitDirty r seg e.cs != .yes) then s
  else match s.allocPond (s.anchorOf r seg) e.cs (s.useOf r seg .place) pick with
    | none => s
    | some a => (s.startMove (mkMove r seg (.near false a) e.cs lend cls why)).1

/-- Starts the placement of a segment that a load has missed, except inside an open DIRECT range (11 R423). -/
def State.promote (s : State) (r : RegionId) (seg : Nat) (cls : Nat) (why : MoveFor) (pick : W32) : State :=
  if s.openDirect r seg then s else s.placePond r seg cls why pick

/-- A destination in Lake for a stored form, in a stripe that a move of number n enters (05 R192, R193, R653). -/
def State.lakeDest (s : State) (r : RegionId) (seg len : Nat) : Option (State × Loc) :=
  if s.lakeAdmits len then s.lakePlace .host (s.anchorOf r seg / 6) len s.map.moveNo else none

/-- Whether a segment may be demoted from Pond: it is neither pinned nor in a POND-ONLY or RT-flagged region (02 R71, R83, R85). -/
def State.demotable (s : State) (r : RegionId) (e : Sme) : Bool := !e.f.pin && !(s.ent r).ponly && !(s.ent r).rt

/-- Whether the pseudo-channel of a location is under PANIC: P-MOVE commands of class C3 wait there (02 R83; 04 R149). -/
def State.panicAt (s : State) (l : Option Loc) : Bool := (l.bind Loc.pch).any s.pchPanic

/-- Starts a demotion of a segment to its region's backing tier (02 R82, R85; 05 R210); one of class C3 waits while its source is under PANIC (R83). -/
def State.demote (s : State) (r : RegionId) (seg cls : Nat) (why : MoveFor) : State :=
  let e := s.sme r seg
  let x := s.ent r
  if (s.moveOf r seg).isSome ∨ e.nearSectors = 0 ∨ s.sled.flush.isSome = true ∨ s.demotable r e = false ∨ (cls = 3 ∧ s.panicAt e.home = true) then s
  else
    let toTarn := s.allocTset r e.cs none
    let gut := s.lake.wear == .guttering && !x.keep && s.lake.ctl.getLsbD 21
    match (if x.back ∨ gut = true then toTarn else none) with
    | some l => (s.startMove (mkMove r seg l e.cs false cls why)).1
    | none =>
      if x.back then s
      else match s.lakeDest r seg e.cs with
        | some p => (p.1.startMove (mkMove r seg p.2 e.cs false cls why)).1
        | none => s

/-! ### Making room (02 R80 to R84, R87, R101) -/

/-- Sectors of a stack on their way out: releases, and moves whose source leaves it. -/
def State.leaving (s : State) (k : Nat) : Nat :=
  let on (l : Loc) : Bool := l.pch.any (fun p => p / 32 == k)
  ((s.map.rel.map (fun p => if on p.2.loc then p.2.len else 0)).sum) +
  ((s.map.moves.map (fun p => if (s.sme p.2.region p.2.seg).home.any on && !p.2.image && !on p.2.dest then p.2.len else 0)).sum)

/-- Frees space on one stack until a test holds: unpinned images go first, oldest first; then CACHED, non-RT writable segments are demoted, oldest
first, in a class (02 R82, R83, R87). -/
def State.freeStack (s : State) (k cls : Nat) (enough : State → Bool) : State :=
  let onK (l : Option Loc) : Bool := (l.bind Loc.pch).any (fun p => p / 32 == k)
  let imgs := s.oldestFirst (fun p => onK p.2.image && !p.2.f.pin)
  let s1 := imgs.foldl (fun t p => if enough t then t else t.dropImage (keyRegion p.1) (keySeg p.1)) s
  let homes := s1.oldestFirst (fun p =>
    onK p.2.home && s1.demotable (keyRegion p.1) p.2 && !(s1.ent (keyRegion p.1)).isSealed && p.2.st != .transit && !s1.malformed p.2)
  homes.foldl (fun t p => if enough t then t else t.demote (keyRegion p.1) (keySeg p.1) cls .evict) s1

/-- What an allocation on a core's Spring found. -/
inductive SpringRoom
  | run (a : Nat)   -- a free run, by its near address
  | wait            -- sectors on their way out will make room
  | none            -- nothing can
deriving DecidableEq, Repr

/-- Runs of a core's Spring on their way out: releases, and homes whose move leaves the core. -/
def State.leavingSpring (s : State) (c : Nat) : List (Nat × Nat) :=
  let at' (l : Loc) (n : Nat) : List (Nat × Nat) := match l with
    | .near true a => if a / 4096 = c then [(a, n)] else []
    | _ => []
  s.map.rel.flatMap (fun p => at' p.2.loc p.2.len) ++
  s.map.moves.flatMap (fun p =>
    if p.2.image ∨ p.2.dest.core = some c then [] else (s.sme p.2.region p.2.seg).home.elim [] (fun h => at' h p.2.len))

/-- Whether a run of a length fits on a core's Spring once everything on its way out has left. -/
def State.springFits (s : State) (c len : Nat) : Bool :=
  let out := s.leavingSpring c
  let first := if s.coreBusy c then 0x50 else 0
  (firstFit (((s.nearUsed true).filter (fun x => x.1 / 4096 == c)).filter (fun x => !out.contains x)) (c * 4096 + 16 * first) (256 - first) len).isSome

/-- Starts the move of a home from a core's Spring to Pond on the same tile (02 R81); none where Pond has no room. -/
def State.springOut (s : State) (c : Nat) (key cls : Nat) : Option State :=
  let r := keyRegion key
  let seg := keySeg key
  let e := s.sme r seg
  (s.allocPond (s.anchor (c / 8)) e.cs (s.useOf r seg .store) 0).map (fun a => (s.startMove (mkMove r seg (.near false a) e.cs false cls .evict)).1)

/-- Makes room for a run of a length on a core's Spring (02 R81): the oldest images are dropped, then the oldest homes move to Pond on the same
tile, until what is free and on its way out holds the run. DESIGN CHOICE (assumption log 27): a pinned image goes in its turn like any other, since
R81 names no exception and what R57 keeps from pinned images is eviction. `fuel` bounds the steps. -/
def State.roomSpring (s : State) (c len : Nat) : Nat → State × SpringRoom
  | 0 => (s, .none)
  | fuel + 1 =>
    if s.fenced (.wick c) then (s, .none)
    else match s.allocSpring c len with
    | some a => (s, .run a)
    | none =>
      if s.springFits c len then (s, .wait)
      else
        let inCore (l : Option Loc) : Bool := (l.bind Loc.core) == some c
        match (s.oldestFirst (fun p => inCore p.2.image)).head? with
        | some p => State.roomSpring (s.dropImage (keyRegion p.1) (keySeg p.1)) c len fuel
        | none =>
          match (s.oldestFirst (fun p => inCore p.2.home && (s.moveOf (keyRegion p.1) (keySeg p.1)).isNone && !s.malformed p.2)).head?.bind
              (fun p => s.springOut c p.1 3) with
          | some t => State.roomSpring t c len fuel
          | none => (s, .none)

/-! ### Stores -/

/-- How a store ended: applied, discarded, or held for a reason. -/
inductive StRes
  | done
  | drop
  | wait (h : Held)
deriving DecidableEq, Repr

/-- Bytes with a patch laid over them; an unmasked byte of the patch keeps the old one. -/
def patchBytes (old : List Byte) (p : List (Option Byte)) : List Byte := List.zipWith (fun o x => x.getD o) old p

/-- Bytes with a patch laid over them from an offset. -/
def patchAt (old : List Byte) (off : Nat) (p : List (Option Byte)) : List Byte :=
  old.take off ++ patchBytes ((old.drop off).take p.length) p ++ old.drop (off + p.length)

/-- A store is dropped for want of any space: POISONED with cause 0x06 and CAPACITY_FATAL (02 R101 step 5; 05 R212). -/
def State.capacityFatal (s : State) (r : RegionId) (seg : Nat) : State :=
  let w1 := (s.sme r seg).w1
  (s.poisonSeg r seg 6).post (segPost .capacityFatal r seg 6 w1)

/-- Rank of a state's tier: Spring above Pond above Lake and Tarn (02, tiers). -/
def Loc.rank : Loc → Nat
  | .near true _ => 2
  | .near false _ => 1
  | _ => 0

/-- Whether the move of a segment is a promotion (02, tiers). -/
def State.promoting (s : State) (r : RegionId) (seg : Nat) : Bool :=
  match s.moveOf r seg, (s.sme r seg).home with
  | some m, some h => decide (h.rank < m.2.dest.rank)
  | _, _ => false

/-- Gives a segment a fresh OPEN home with the given bytes (02 R72). Without a free run the store waits while images are dropped and demotions run
at C1: for a segment with a reservation up to 10 ms (R87), for any other as long as something is on its way out (R101; assumption log 65). `last`
ends the wait: the store is dropped (R101 step 5). -/
def State.storeFresh (s : State) (r : RegionId) (seg : Nat) (b : List Byte) (pick : W32) (last : Bool) : State × StRes :=
  let u := s.useOf r seg .store
  let k := s.anchorOf r seg
  match s.allocPond k 16 u pick with
  | some a => (s.commitOpen r seg a b, .done)
  | none =>
    if last then (s.capacityFatal r seg, .drop)
    else
      let s1 := s.freeStack k 1 (fun t => decide (16 ≤ t.leaving k))
      if s.reserved r (s.sme r seg) ∨ 0 < s1.leaving k then (s1, .wait .space) else (s1.capacityFatal r seg, .drop)

/-- A store of a patch at a byte offset of a segment (02 R70, R72, R73; 03 R112; 13 R462). `past` admits it beyond A, `last`
ends its wait for space. A home that a move has rescued from a fenced unit takes no store before the move commits (R98). -/
def State.storeSeg (s0 : State) (r : RegionId) (seg off : Nat) (p : List (Option Byte)) (c : Chk) (pick : W32) (past last : Bool) :
    State × StRes :=
  let s := s0.checkSme r seg
  if s.pageAway r seg then (s.startMiss r seg none, .wait .miss)
  else if (s.sme r seg).st = .poisoned then (s.touch r seg, .drop)
  else if s.promoting r seg ∨ ((s.sme r seg).home.any s.dead = true ∧ s.rescued r seg = true) then (s, .wait .token)
  else
    let s1 := s.cancelMove r seg
    let s2 := s1.endTrial r seg
    let e := s2.sme r seg
    let adm := if past then (if s2.admitDirty r seg 16 = .yes then Adm.yes else .past) else s2.admitDirty r seg 16
    match e.home with
    | some (.near spr a) =>
      let h := Loc.near spr a
      if chkFails c then ((s2.homeFault r seg h (c == Chk.tag) false).touch r seg, .drop)
      else if e.st = .opn then
        let s3 := s2.noteChk h c
        let old := readBytes s3.mem.bytes (h.sector * 256 + off) p.length
        let s4 := { s3 with mem := { s3.mem with bytes := writeBytes s3.mem.bytes (h.sector * 256 + off) (patchBytes old p) } }
        ((s4.touchStore r seg).mend r seg h c pick, .done)
      else match s2.segBytes e (some h) with
        | none => (s2.homeFault r seg h false true, .drop)
        | some b =>
          match adm with
          | .drop => (s2.capacityFatal r seg, .drop)
          | .hold => (s2, .wait .admission)
          | .past => (s2.noteChk h c).overAdmit.storeFresh r seg (patchAt b off p) pick last
          | .yes => (s2.noteChk h c).storeFresh r seg (patchAt b off p) pick last
    | some _ =>
      match adm with
      | .drop => (s2.capacityFatal r seg, .drop)
      | .hold => (s2, .wait .admission)
      | _ => if last then (s2.capacityFatal r seg, .drop) else (s2.startMiss r seg none, .wait .miss)
    | none =>
      let b := (s2.segBytes e none).getD (zeros 4096)
      match adm with
      | .drop => (s2.capacityFatal r seg, .drop)
      | .hold => (s2, .wait .admission)
      | .past => s2.overAdmit.storeFresh r seg (patchAt b off p) pick last
      | .yes => s2.storeFresh r seg (patchAt b off p) pick last

/-- A discarded store to a POISONED segment is counted, and POISON_WRITE posts at most once per second per region (14 R512). -/
def State.poisonWrite (s : State) (r : RegionId) (line : Nat) (h : HostId) : State :=
  let s1 := s.count r (fun c => { c with discarded := c.discarded + 1 })
  let recent := match s1.rt.pwAt.find r.toNat with
    | some t => decide (s1.clk.ms < t + 1000)
    | none => false
  if recent then s1
  else ({ s1 with rt := { s1.rt with pwAt := s1.rt.pwAt.put r.toNat s1.clk.ms } }).post (linePost .poisonWrite r line h)

/-- A poisoned read is counted for its region (14 R511). -/
def State.poisonRead (s : State) (r : RegionId) : State := s.count r (fun c => { c with poisonReads := c.poisonReads + 1 })

end Sys2Proof.Machine
end

