-- ==== Sys2Proof/Machine/HostReq.lean ====
section
/-! DEFINITION. Host memory requests: decode, grants, the directory, and requests that are held (01 R29, R30; 06 R243, R249 to R254;
07 R275, R276, R280 to R289, R306). -/

namespace Sys2Proof.Machine

/-! ### Decode (07 R275, R276, R280) -/

/-- Whether a half runs in fabric mode. -/
def State.fabric (s : State) (half : Nat) : Bool :=
  let c := s.portCfg (half / 2)
  if half % 2 = 0 then c.modeA else c.modeB

/-- The host ID that a request on a half carries. -/
def State.hostAt (s : State) (half : Nat) (spid : BitVec 12) : Option HostId :=
  (s.ports.bind.find? (fun p => p.2.valid && p.2.half.toNat == half &&
    (if s.fabric half then p.2.spid == spid else p.2.func == 0))).map (fun p => BitVec.ofNat 10 p.1)

/-- Whether a half's link carries requests. -/
def State.linkOpen (s : State) (half : Nat) : Bool :=
  let h := s.halfReg half
  (h.link == 2 || h.link == 3) && !h.hold && (s.up || s.sled.st == .duskFlush)

/-- Whether a host ID is between step 1 and step 6 of a host-scoped reset (07 R300). -/
def State.inReset (s : State) (h : HostId) : Bool := s.ports.resets.any (fun x => x.host == h)

/-- The extent that covers a DPA: grant number index, grant and line of its region. -/
def State.lookup (s : State) (h : HostId) (dpa : Nat) : Option (Nat × Grant × Nat) :=
  (s.grantsOfHost h).findSome? (fun p =>
    if !s.rt.gone.contains p.1 && decide (p.2.dpa ≤ dpa ∧ dpa < p.2.dpa + p.2.count * 2 ^ 28)
    then some (p.1, p.2, (p.2.first * 2 ^ 28 + (dpa - p.2.dpa)) / 64) else none)

/-- Whether a request kind reads. -/
def ReqKind.reads : ReqKind → Bool
  | .rd | .rdOwn | .inv => true
  | _ => false

/-- Answers a request whose data is poison, or whose store is discarded. -/
def State.answerPoison (s : State) (x : HReq) : State :=
  match x.kind with
  | .rd | .rdOwn => s.send (.poison x.host x.dpa)
  | .wback => s
  | _ => s.send (.done x.host x.dpa)

/-- A request to a DPA without an extent (07 R282). -/
def State.unmapped (s : State) (x : HReq) : State :=
  let s1 := s.answerPoison x
  let recent := match s1.ports.unmappedAt.find x.host.toNat with
    | some t => decide (s1.clk.ms < t + 1000)
    | none => false
  if recent then s1
  else ({ s1 with ports := { s1.ports with unmappedAt := s1.ports.unmappedAt.put x.host.toNat s1.clk.ms } }).post
    { ev := .unmappedAccess, okind := 2, obj := x.host.toNat, shost := x.host, p0 := x.dpa.setWidth 64 }

/-- A write to an extent held RO (06 R243). -/
def State.roWrite (s : State) (x : HReq) (g : Nat) (r : RegionId) (line : Nat) : State :=
  let s1 := s.answerPoison x
  let recent := match s1.rt.roAt.find g with
    | some t => decide (s1.clk.ms < t + 1000)
    | none => false
  if recent then s1
  else ({ s1 with rt := { s1.rt with roAt := s1.rt.roAt.put g s1.clk.ms } }).post (linePost .grantRoWrite r line x.host)

/-! ### Power (13 R472, R477) -/

/-- The tile of a near location: its stack's, or its core's. -/
def Loc.tile : Loc → Option Nat
  | .near false a => some (a / 2 ^ 23 / 32)
  | .near true a => some (a / 4096 / 8)
  | _ => none

/-- The tile that an access to a segment must wait for: its stack's, where that is Banked; the one that decodes its stored form, where that lacks Lit
permission (03 R138). -/
def State.asleep (s : State) (r : RegionId) (seg : Nat) : Option Nat :=
  let e := s.sme r seg
  (e.image <|> e.home).bind (fun l => l.tile.bind (fun t =>
    if (s.ledger t).st = .banked then some t else (s.decoder e t).filter (fun k => (s.ledger k).perm != 0)))

/-- Asks for Lit permission: the island wakes a Banked tile, the Pilot answers for any other (13 R472; 03 R138). -/
def State.askWake (s : State) (t : Nat) : State := s.setLedger t { s.ledger t with asks := true, rperm := 0 }

/-- The run whose pseudo-channel retrains that an access to a segment needs, if there is one. -/
def State.trainRun (s : State) (r : RegionId) (seg : Nat) : Option Nat :=
  let e := s.sme r seg
  match e.image <|> e.home with
  | some (.near false a) => if s.trainHeld (.near false a) ∧ s.dead (.near false a) = false then some a else none
  | _ => none

/-- A host request waits in the bank queue of a retraining pseudo-channel (04 R159): at P-RT for an RT-flagged region, else at P-HOST. -/
def State.bankWait (s : State) (a no : Nat) (rt : Bool) : State :=
  let n := a / 2 ^ 23
  if (s.bankQ n).reqs.any (fun x => x.req == some no) || (s.bankQ n).atPort.any (fun x => x.req == some no) then s
  else s.setBankQ n ((s.bankQ n).request (a % 2 ^ 23) (if rt then .rt else .host) (if rt then 0 else 1) (some no))

/-- Segments that some byte ranges of a region touch: offset and length. -/
def rangeSegsOf (l : List (Nat × Nat)) : List Nat :=
  l.flatMap (fun p => if p.2 = 0 then [] else (List.range ((p.1 + p.2 - 1) / 4096 - p.1 / 4096 + 1)).map (fun i => p.1 / 4096 + i))

/-- Whether an access by a program or the control plane to byte ranges of a region may go on: the entry is even (01 R29, R44), no retrain holds its
pseudo-channels (04 R159) and no tile it needs is Banked (13 R477). -/
def State.dataReady (s : State) (r : RegionId) (l : List (Nat × Nat)) : Bool :=
  !(s.ent r).odd && (rangeSegsOf l).all (fun seg => (s.trainRun r seg).isNone && (s.asleep r seg).isNone)

/-- Asks for the wake of the tiles that an access to byte ranges of a region finds Banked. -/
def State.wakeFor (s : State) (r : RegionId) (l : List (Nat × Nat)) : State :=
  if (s.ent r).odd then s else (rangeSegsOf l).foldl (fun t seg => (t.asleep r seg).elim t t.askWake) s

/-! ### The directory's part of a request (06 R249, R250) -/

/-- What a request asks of the directory. -/
inductive DirWant
  | share | own | cur | write
deriving DecidableEq, Repr

/-- The row of R249 that applies: none when the request may be served now, else what it waits for. -/
def State.dirStep (s : State) (r : RegionId) (line : BitVec 40) (h : HostId) (want : DirWant) : State × Option Held :=
  match s.dirEnt r line with
  | none =>
    match want with
    | .cur | .write => (s, none)
    | .share | .own =>
      match s.dirVictim r line with
      | some v =>
        if v.busy then (s, some .recall)
        else
          let s1 := s.snoop v .inv (s.listed v)
          ({ s1 with dir := { s1.dir with recalls := s1.dir.recalls + 1 } }, some .recall)
      | none => (s.dirPut (if want = .own then exclEnt r line h else s.shareEnt r line h), none)
  | some e0 =>
    if e0.busy then (s, some .busy)
    else
      let e := s.coarsen e0
      let mine := e.st == .excl && e.vec.toNat == h.toNat
      let others := (s.listed e).filter (fun x => x != h)
      match want, e.st with
      | .share, .shared => (s.dirPut (s.addSharer e h), none)
      | .share, .excl => if mine then (s, none) else (s.snoop e .data others, some .busy)
      | .own, _ => if mine then (s, none) else if others = [] then (s.dirPut (exclEnt r line h), none) else (s.snoop e .inv others, some .busy)
      | .cur, .excl => if mine then (s, none) else (s.snoop e .cur others, some .cur)
      | .cur, .shared => (s, none)
      | .write, _ => if mine then (s, none) else if others = [] then (s.dirDel r line, none) else (s.snoop e .inv others, some .busy)

/-- What a request kind asks of the directory. -/
def HReq.want (x : HReq) : DirWant :=
  match x.kind with
  | .rd => if x.nocache then .cur else .share
  | .rdOwn | .inv => .own
  | _ => .write

/-- The directory's part of a request; one whose own BISnpCur has been answered is past it. -/
def State.dirFor (s : State) (x : HReq) (r : RegionId) (line : Nat) : State × Option Held :=
  if (x.ent.tracked && (s.ent r).tracked) = false ∨ x.why = .cur then (s, none) else s.dirStep r (BitVec.ofNat 40 line) x.host x.want

/-! ### Serving (06 R249, R254; 07 R285) -/

/-- Serves a read of a mapped line. -/
def State.serveRead (s : State) (x : HReq) (r : RegionId) (line : Nat) (c : Chk) : State × Option Held :=
  if s.isLost r (BitVec.ofNat 40 line) then ((s.poisonRead r).answerPoison x, none)
  else match s.dirFor x r line with
    | (s1, some w) => (s1, some w)
    | (s1, none) =>
      if x.kind = .inv then (s1.send (.done x.host x.dpa), none)
      else match s1.asleep r (line / 64) with
        | some t => (s1.askWake t, some .wake)
        | none =>
          match s1.trainRun r (line / 64) with
          | some a => (s1.bankWait a x.no x.ent.rt, some .bank)
          | none =>
            match s1.readLine r (line / 64) (line % 64) c with
            | (s2, .line b) => (s2.send (.data x.host x.dpa (lineOfBytes b)), none)
            | (s2, .poison) => ((s2.poisonRead r).answerPoison x, none)
            | (s2, .miss) => (s2.startMiss r (line / 64) none, some .miss)

/-- The line of a write with its mask. -/
def HReq.patch (x : HReq) : List (Option Byte) :=
  (List.range 64).map (fun i => if x.kind ≠ .wrPtl ∨ x.mask.getLsbD i then some (x.data.extractLsb' (8 * i) 8) else none)

/-- Whether the store of a request finds its segment POISONED. -/
def State.storeInto (s : State) (x : HReq) (r : RegionId) (line : Nat) (c : Chk) (pick : W32) (past last : Bool) : State × Option Held :=
  let seg := line / 64
  match s.asleep r seg with
  | some t => (s.askWake t, some .wake)
  | none =>
    match s.trainRun r seg with
    | some a => (s.bankWait a x.no x.ent.rt, some .bank)
    | none =>
      let before := (s.sme r seg).st == .poisoned
      match s.storeSeg r seg (line % 64 * 64) x.patch c pick past last with
      | (s1, .wait w) => (s1, some w)
      | (s1, .done) => (s1, none)
      | (s1, .drop) => (if before ∨ (s1.sme r seg).w1 ≠ 6 then s1.poisonWrite r line x.host else s1, none)

/-- Serves a write of a mapped line. -/
def State.serveWrite (s : State) (x : HReq) (g : Nat) (gr : Grant) (line : Nat) (c : Chk) (pick : W32) (past last : Bool) :
    State × Option Held :=
  let r := gr.region
  let l := BitVec.ofNat 40 line
  if gr.rw = false then (s.roWrite x g r line, none)
  else if x.kind = .wrPtl ∧ s.isLost r l = true then (s.answerPoison x, none)
  else match s.dirFor x r line with
    | (s1, some w) => (s1, some w)
    | (s1, none) =>
      match s1.storeInto x r line c pick past last with
      | (s2, some w) => (s2, some w)
      | (s2, none) =>
        let s3 := if x.kind = .wr then s2.endLoss r l else s2
        let s4 :=
          if x.ent.tracked && (s3.ent r).tracked then
            (if x.kind = .wr ∧ x.nocache = false ∧ (s3.dirEnt r l).isSome then s3.dirPut (s3.shareEnt r l x.host) else s3.dirDel r l)
          else s3
        (s4.answerPoison x, none)

/-- The lookup of a request: its region and line, and the grant and entry content that it completes under, with their generation (01 R30). -/
def State.lookUp (s : State) (x : HReq) : HReq :=
  match s.lookup x.host x.dpa.toNat with
  | some (g, gr, line) =>
    { x with region := gr.region, line := BitVec.ofNat 40 line, gen := (s.ent gr.region).gen, ent := s.ent gr.region, gnt := some (g, gr) }
  | none => { x with gnt := none }

/-- Runs one request as far as it goes, under the content it looked up: none when it has completed, else what it waits for. A lookup that found an
odd generation holds it (01 R29). -/
def State.serveReq (s : State) (x : HReq) (c : Chk) (pick : W32) (past last : Bool) : State × Option Held :=
  if x.kind = .wback then s.storeInto x x.region x.line.toNat c pick past last
  else match x.gnt with
    | none => (s.unmapped x, none)
    | some (g, gr) =>
      if x.ent.odd then (s, some .odd)
      else if x.ent.dlost then (s.answerPoison x, none)
      else if x.kind.reads then s.serveRead x gr.region x.line.toNat c
      else s.serveWrite x g gr x.line.toNat c pick past last

/-! ### Held requests -/

/-- Takes a new request: serves it, or holds it. -/
def State.accept (s : State) (x : HReq) (c : Chk) (pick : W32) : State :=
  let y := s.lookUp { x with no := s.dir.reqNo }
  match s.serveReq y c pick false false with
  | (s1, none) => s1
  | (s1, some w) => { s1 with dir := { s1.dir with held := s1.dir.held ++ [{ y with why := w }], reqNo := s1.dir.reqNo + 1 } }

/-- Runs one held request again; one held on an odd generation uses the entry as it stands now (01 R29). -/
def State.runHeld (s : State) (no : Nat) (c : Chk) (pick : W32) (past last : Bool) : State :=
  match s.dir.held.find? (fun x => x.no == no) with
  | none => s
  | some x0 =>
    let x := if x0.why = .odd then s.lookUp x0 else x0
    match s.serveReq x c pick past last with
    | (s1, none) => { s1 with dir := { s1.dir with held := s1.dir.held.filter (fun y => y.no != no) } }
    | (s1, some w) => { s1 with dir := { s1.dir with held := s1.dir.held.map (fun y => if y.no = no then { x with why := w } else y) } }

/-- Runs again, in arrival order, the held requests that pass a test; the outcome c counts for the first. -/
def State.rerun (s : State) (test : HReq → Bool) (c : Chk) (pick : W32) : State :=
  ((s.dir.held.filter test).foldl (fun (a : State × Chk × W32) x => (a.1.runHeld x.no a.2.1 a.2.2 false false, .ok, 0)) (s, c, pick)).1

/-- A retrain has ended: the requests of the bank queues are issued, and the held host requests run in the order of their issue; the rest that
waited for a pseudo-channel follow. -/
def State.bankDrain (s : State) (n : Nat) : State :=
  let q := s.bankQ n
  let r := BankQ.drain (s.pchPanic n) (q.reqs.length + q.atPort.length) q
  let s1 := if q.reqs = [] ∧ q.atPort = [] then s else s.setBankQ n r.1
  let s2 := (r.2.filterMap (fun x => x.req)).foldl (fun t no => t.runHeld no .ok 0 false false) s1
  s2.rerun (fun x => x.why == .bank) .ok 0

/-- Held requests of a segment that wait for a read of it. -/
def missOf (r : RegionId) (seg : Nat) (x : HReq) : Bool := x.why == .miss && x.region == r && x.line.toNat / 64 == seg

/-- Whether a held request stores. -/
def ReqKind.stores (k : ReqKind) : Bool := !k.reads

/-! ### Snoop responses (06 R249, R250, R252) -/

/-- Key of a line in the list of reads in progress: apart from every segment's. -/
def lineKey (r : RegionId) (line : BitVec 40) : Nat := 2 ^ 60 + r.toNat * 2 ^ 40 + line.toNat

/-- A program's wait for one read ends: it runs its instruction again, with this read served. -/
def State.wakeProg (s : State) (p k : Nat) : State :=
  { s with q := { s.q with progs := s.q.progs.upd p (fun x =>
      if x.wait = .miss then { x with wait := .run, served := x.served ++ [k] } else { x with served := x.served ++ [k] }) } }

/-- Ends a read in progress and wakes the programs that wait for it. -/
def State.endMiss (s : State) (k : Nat) : State :=
  let ps := (s.lake.misses.filter (fun m => m.1 == k)).filterMap (fun m => m.2)
  ps.foldl (fun t p => t.wakeProg p k) { s with
    lake := { s.lake with misses := s.lake.misses.filter (fun m => m.1 != k) }
    ports := { s.ports with pmoves := s.ports.pmoves.map (fun m =>
      if m.sends ∧ m.region = keyRegion k ∧ k < 2 ^ 60 then { m with got := m.got.filter (fun x => x != k) ++ [k] } else m) } }

/-- Whether a revoke of a grant of this host and region recalls lines. -/
def State.recalling (s : State) (h : HostId) (r : RegionId) : Bool :=
  s.rt.revokes.any (fun p => match s.rt.grants.find p.1 with
    | some g => g.host == h && g.region == r
    | none => false)

/-- What one answered snoop leaves of its entry: Inv by a recalled host removes the host, Inv on the way to a new owner or a write
frees the entry once all have answered, Data leaves the holder as a sharer, Cur changes nothing (06 R249, R250, R252). -/
def State.answered (s : State) (n : Snoop) : State :=
  let rest := s.dir.snoops.erase n
  let s1 := { s with dir := { s.dir with snoops := rest } }
  let more := rest.any (fun m => m.region == n.region && m.line == n.line)
  match s1.dirEnt n.region n.line with
  | none => s1
  | some e =>
    match n.kind with
    | .cur => if more then s1 else s1.dirPut { e with busy := false }
    | .data => if more then s1 else s1.dirPut { (s1.shareEnt n.region n.line n.host) with busy := false }
    | .inv =>
      if s1.recalling n.host n.region then
        match s1.dropSharer e n.host with
        | some e1 => s1.dirPut { e1 with busy := more }
        | none => s1.dirDel n.region n.line
      else if more then s1 else s1.dirDel n.region n.line

/-- The line is no longer BUSY: the requests and programs that waited for it go on. -/
def State.lineFree (s : State) (r : RegionId) (line : BitVec 40) (c : Chk) (pick : W32) : State :=
  if (s.snoopsOf r line) ≠ [] then s
  else
    let s1 := s.endMiss (lineKey r line)
    s1.rerun (fun x => ((x.why == .busy || x.why == .cur) && x.region == r && x.line == line) || x.why == .recall) c pick

/-- The modified line of a response is stored before the waiting access goes on; one that cannot be stored yet is held first. -/
def State.writeBack (s : State) (n : Snoop) (data : Line) (c : Chk) (pick : W32) : State :=
  let x : HReq := { no := s.dir.reqNo, host := n.host, half := 0, dpa := 0, kind := .wback, nocache := true, region := n.region, line := n.line,
                    gen := (s.ent n.region).gen, ent := s.ent n.region, gnt := none, data := data, mask := BitVec.allOnes 64, poison := false, why := .miss }
  match s.serveReq x c pick false false with
  | (s1, none) => s1
  | (s1, some w) => { s1 with dir := { s1.dir with held := { x with why := w } :: s1.dir.held, reqNo := s1.dir.reqNo + 1 } }

/-! ### RT streams (07 R287, R288) -/

/-- Streams a half may hold open: 16, or 8 on a half of a bifurcated port. -/
def State.maxStreams (s : State) (half : Nat) : Nat := if s.ports.bifur.contains (half / 2) then 8 else 16

/-- A stream that opens or is extended loads the SMEs of the segments of its read-ahead into the lookaside (12 R435). -/
def State.lookAhead (s : State) (r : RegionId) (line : Nat) : State :=
  (List.range 17).foldl (fun t i =>
    let seg := (line + 1) / 64 + i
    if seg * 64 ≤ line + 1024 then t.looked r seg else t) s

/-- A C0 read moves, closes or opens a stream. Streams stand in order of their last read. -/
def State.streamStep (s : State) (half : Nat) (h : HostId) (r : RegionId) (line : Nat) : State :=
  let mine (t : Stream) : Bool := t.half == half && t.host == h && t.region == r
  match s.ports.streams.find? mine with
  | some t =>
    let rest := s.ports.streams.filter (fun x => !mine x)
    if t.last < line ∧ line ≤ t.last + 1024 then
      ({ s with ports := { s.ports with streams := rest ++ [{ t with last := line }] } } : State).lookAhead r line
    else { s with ports := { s.ports with
             streams := rest
             runs := s.ports.runs.filter (fun x => !(x.half == half && x.host == h && x.region == r)) ++ [⟨half, h, r, line, 1⟩] } }
  | none =>
    let run (x : RdRun) : Bool := x.half == half && x.host == h && x.region == r
    let n := match s.ports.runs.find? run with
      | some x => if x.last + 1 = line then x.count + 1 else 1
      | none => 1
    let others := s.ports.runs.filter (fun x => !run x)
    if n < 4 then { s with ports := { s.ports with runs := others ++ [⟨half, h, r, line, n⟩] } }
    else
      let onHalf := s.ports.streams.filter (fun t => t.half == half)
      let kept := if s.maxStreams half ≤ onHalf.length then
          (match onHalf.head? with
           | some t => s.ports.streams.erase t
           | none => s.ports.streams)
        else s.ports.streams
      ({ s with ports := { s.ports with runs := others, streams := kept ++ [⟨half, h, r, line⟩] } } : State).lookAhead r line

/-- Pseudo-channels that hold lines of the read-ahead of a half's streams: where its buffer has requests queued (04 R148). -/
def State.aheadPchs (s : State) (half : Nat) : List Nat :=
  ((s.ports.streams.filter (fun t => t.half == half)).flatMap (fun t =>
    ((List.range 17).map (fun i => (t.last + 1) / 64 + i)).filterMap (fun seg =>
      let e := s.sme t.region seg
      let l := (e.image).or e.home
      if seg * 64 ≤ t.last + 1024 then (l.bind Loc.pch).filter (fun n => !s.pchFenced n) else none))).dedup

/-- A half presents PANIC to a list of pseudo-channels: those that come under PANIC count as assertions (04 R173), those that leave it repay
their refresh debt (R152). -/
def State.presentPanic (s : State) (half : Nat) (l : List Nat) : State :=
  let old := s.pond.panic.getD half []
  let fresh := l.filter (fun n => !s.pchPanic n)
  let s1 : State := { s with pond := { s.pond with panic := s.pond.panic.put half l, asserts := fresh.foldl (fun v _ => satInc v) s.pond.asserts } }
  (old.filter (fun n => !s1.pchPanic n)).foldl (fun t n => t.setPch n { t.pch n with debt := [] }) s1

/-- While a half's buffer signals, PANIC follows its requests from pseudo-channel to pseudo-channel (04 R148). -/
def State.repanic (s : State) (half : Nat) : State := if s.pond.panic.has half then s.presentPanic half (s.aheadPchs half) else s

/-- A C0 read and its stream (07 R287, R288). -/
def State.streamRead (s : State) (half : Nat) (h : HostId) (r : RegionId) (line : Nat) : State := (s.streamStep half h r line).repanic half

end Sys2Proof.Machine
end

