-- ==== Sys2Proof/Machine/Lamp.lean ====
section
/-! DEFINITION. Lamplighter: placement of steps, lamp words, settlement, disarming (11 R408 to R433). -/

namespace Sys2Proof.Machine

/-- Key of schedule s of a queue pair. -/
def schKey (h : HostId) (q : QueueNo) (n : Nat) : Nat := h.toNat * 2048 + q.toNat * 32 + n

/-- Host ID of a schedule key. -/
def schHost (k : Nat) : HostId := BitVec.ofNat 10 (k / 2048)

/-- `OBJ` of a schedule (14 R496). -/
def schObj (k : Nat) : Nat := k % 32 + k / 32 % 64 * 32 + k / 2048 * 2 ^ 16

/-- A schedule. -/
def State.sched (s : State) (k : Nat) : Option Sched := s.lamp.sch.find k

/-- Writes a schedule. -/
def State.setSched (s : State) (k : Nat) (x : Sched) : State := { s with lamp := { s.lamp with sch := s.lamp.sch.put k x } }

/-- Changes a schedule. -/
def State.updSched (s : State) (k : Nat) (f : Sched → Sched) : State := { s with lamp := { s.lamp with sch := s.lamp.sch.upd k f } }

/-! ### Grants of a range (08 R339) -/

/-- Whether every granule of a byte range is covered by grants of a host; `rw` asks for RW grants. -/
def State.covered (s : State) (h : HostId) (r : RegionId) (off len : Nat) (rw : Bool) : Bool :=
  (List.range ((off + len - 1) / 2 ^ 28 - off / 2 ^ 28 + 1)).all (fun i =>
    let g := off / 2 ^ 28 + i
    s.rt.grants.any (fun p => p.2.host == h && p.2.region == r && decide (p.2.first ≤ g ∧ g < p.2.first + p.2.count) &&
      (p.2.rw || !rw) && !s.rt.gone.contains p.1))

/-- Whether the host of a schedule holds what its step needs (08 R341, `SCHED.LOAD`). -/
def State.stepGranted (s : State) (h : HostId) (t : LStep) : Bool :=
  s.covered h t.region (t.seg * 4096) (t.nseg * 4096) false &&
  (t.fb != 2 || s.covered h t.altreg (t.altseg * 4096) (t.altnseg * 4096) false)

/-- Bytes from the schedule block to the end of the last lamp word. -/
def Sched.span (x : Sched) : Nat := 64 + 8 * ((x.steps.map (fun t => t.lamp + 1)).foldl max 0)

/-- Whether the host of a schedule may write its block and lamp words. -/
def State.lampGranted (s : State) (k : Nat) (x : Sched) : Bool := s.covered (schHost k) x.lregion x.loff x.span true

/-! ### Writes of lamp words and the block (11 R418 to R420) -/

/-- Writes bytes within one line of the lamp region, as the arming host's store in class C1; readers of a shared region are
back-invalidated first (R420). The flag says that the write met a POISONED segment. -/
def State.lampStore (s : State) (k : Nat) (r : RegionId) (off : Nat) (b : List Byte) : State × Bool :=
  let line := off / 64
  let seg := off / 4096
  if s.covered (schHost k) r off b.length true = false ∨ ((s.ent r).st = .freed ∨ (s.ent r).isSealed = true) ∨ (s.ent r).dlost = true then (s, false)
  else
    let at0 := off % 64
    let x : HReq := { no := s.dir.reqNo, host := schHost k, half := 0, dpa := 0, kind := .wback, nocache := true, ent := s.ent r, gnt := none, region := r,
                      line := BitVec.ofNat 40 line, gen := (s.ent r).gen,
                      data := BitVec.ofNat 512 (fromBytes (zeros at0 ++ b)), mask := BitVec.ofNat 64 ((2 ^ b.length - 1) * 2 ^ at0),
                      poison := false, why := .busy }
    let dead := ((s.checkSme r seg).sme r seg).st
    let d := if (s.ent r).tracked then s.dirStep r x.line (schHost k) .write else (s, none)
    match d with
    | (s1, some w) => ({ s1 with dir := { s1.dir with held := s1.dir.held ++ [{ x with why := w }], reqNo := s1.dir.reqNo + 1 } }, dead == .poisoned)
    | (s1, none) =>
      match s1.storeInto x r line .ok 0 false false with
      | (s2, none) => ((if (s2.ent r).tracked then s2.dirDel r x.line else s2), dead == .poisoned)
      | (s2, some w) => ({ s2 with dir := { s2.dir with held := s2.dir.held ++ [{ x with why := w }], reqNo := s2.dir.reqNo + 1 } }, false)

/-- Lamp word states (11 R418). -/
def Lamp.code : Lamp → Nat
  | .ready => 0
  | .alt => 1
  | .direct => 2
  | .cold => 3

/-- A lamp word. -/
def lampWord (st : Lamp) (late idle : Bool) (seq : Nat) : List Byte :=
  toBytes 8 (st.code + (if late then 4 else 0) + (if idle then 8 else 0) + seq % 2 ^ 32 * 2 ^ 32)

/-- The schedule block (11 R419). -/
def Sched.block (x : Sched) : List Byte :=
  toBytes 8 x.beats ++ [x.met, x.miss, x.altn, x.directn, x.coldn, x.laten, x.voidn, x.badbeat, x.paused, x.defer].flatMap
    (fun v => toBytes 4 v.toNat) ++ [if x.armed then 1 else 0] ++ zeros 15

/-- Writes the schedule block. -/
def State.writeBlock (s : State) (k : Nat) : State :=
  match s.sched k with
  | none => s
  | some x => (s.lampStore k x.lregion x.loff x.block).1

/-- The byte of a stored line as it stands, without an access. -/
def State.peek (s : State) (r : RegionId) (off : Nat) : Byte :=
  let e := s.sme r (off / 4096)
  match s.lineBytes e (e.image <|> e.home) (off / 64 % 64) with
  | some b => b.getD (off % 64) 0
  | none => 0

/-- Sets `IDLE` in every lamp word of a schedule (11 R428, R430). -/
def State.idleWords (s : State) (k : Nat) : State :=
  match s.sched k with
  | none => s
  | some x =>
    x.steps.foldl (fun t st =>
      let off := x.loff + 64 + 8 * st.lamp
      (t.lampStore k x.lregion off [t.peek x.lregion off ||| 8]).1) s

/-! ### Disarming and void steps (11 R428, R429) -/

/-- Disarms a schedule. -/
def State.disarm (s : State) (k : Nat) : State :=
  match s.sched k with
  | none => s
  | some x =>
    if x.armed = false then s
    else ((s.updSched k (fun y => { y with armed := false, prog := none, insts := [], orphan := false })).idleWords k).writeBlock k

/-- The sled disarms a schedule for a cause, the row of R428 (11 R428). -/
def State.disarmFor (s : State) (k cause : Nat) : State :=
  match s.sched k with
  | none => s
  | some x =>
    if x.armed = false then s
    else (s.disarm k).post { ev := .schedDisarmed, okind := 4, obj := schObj k, shost := schHost k, p0 := BitVec.ofNat 64 cause }

/-- Writes one lamp word of a settlement; a word that meets a POISONED segment disarms the schedule (11 R432). -/
def State.writeLamp (s : State) (k : Nat) (x : Sched) (step : Nat) (st : Lamp) (late : Bool) (d : Nat) : State :=
  match x.steps[step]? with
  | none => s
  | some t =>
    let r := s.lampStore k x.lregion (x.loff + 64 + 8 * t.lamp) (lampWord st late false d)
    if r.2 then r.1.disarmFor k 3 else r.1

/-- Discards a schedule after disarming it. -/
def State.dropSched (s : State) (k cause : Nat) : State :=
  let s1 := s.disarmFor k cause
  { s1 with lamp := { s1.lamp with sch := s1.lamp.sch.del k } }

/-- Adds one settlement other than READY to its count (11 R422, R425), and to `FBCNT` of the program that armed the schedule. -/
def State.countFb (s : State) (k : Nat) (l : Lamp) : State :=
  let s1 := s.updSched k (fun y => match l with
    | .alt => { y with altn := satInc y.altn }
    | .direct => { y with directn := satInc y.directn }
    | .cold => { y with coldn := satInc y.coldn }
    | .ready => y)
  match (s.sched k).bind (fun x => x.prog) with
  | some p => { s1 with q := { s1.q with progs := s1.q.progs.upd p (fun y => { y with fbcnt := satInc y.fbcnt }) } }
  | none => s1

/-- Changes one live instance. -/
def State.updInst (s : State) (k step d : Nat) (f : Inst → Inst) : State :=
  s.updSched k (fun y => { y with insts := y.insts.map (fun i => if i.step = step ∧ i.d = d then f i else i) })

/-- Whether a later instance of a step has started, so that its lamp word is no longer this one's. -/
def Sched.newer (x : Sched) (step d : Nat) : Bool := x.insts.any (fun i => i.step == step && decide (d < i.d))

/-- Settles an instance other than READY. -/
def State.settleFb (s : State) (k step d : Nat) (l : Lamp) : State :=
  match s.sched k with
  | none => s
  | some x =>
    let s1 := (s.updInst k step d (fun i => { i with settled := some l })).countFb k l
    let s2 := if x.newer step d then s1 else s1.writeLamp k x step l false d
    s2.writeBlock k

/-- Settles READY (11 R422). -/
def State.settleReady (s : State) (k step d : Nat) : State :=
  match s.sched k with
  | none => s
  | some x =>
    let s1 := (s.updInst k step d (fun i => { i with settled := some .ready })).updSched k (fun y => { y with met := satInc y.met })
    let s2 := if x.newer step d then s1 else s1.writeLamp k x step .ready false d
    s2.writeBlock k

/-- Steps of a schedule that name a region become void: their live instances stop and settle COLD (11 R429, R430). -/
def State.voidSteps (s : State) (k : Nat) (bad : LStep → Bool) : State :=
  match s.sched k with
  | none => s
  | some x =>
    let idx := (List.range x.steps.length).filter (fun i => match x.steps[i]? with
      | some t => bad t && !x.void.contains i
      | none => false)
    let s1 := s.updSched k (fun y => { y with void := y.void ++ idx })
    (x.insts.filter (fun i => idx.contains i.step)).foldl (fun t i =>
      let u := t.updInst k i.step i.d (fun j => { j with stopped := true, late := false })
      if i.settled.isSome then u
      else (u.updSched k (fun y => { y with voidn := satInc y.voidn })).settleFb k i.step i.d .cold) s1

/-- A region is freed or starts evacuation: its schedules are disarmed, its steps become void (11 R428, R429). -/
def State.lampRegionGone (s : State) (r : RegionId) : State :=
  s.lamp.sch.foldl (fun t p =>
    let u := if p.2.lregion = r then t.disarmFor p.1 2 else t
    u.voidSteps p.1 (fun x => x.region == r || (x.fb == 2 && x.altreg == r))) s

/-- Placements that a host's programs asked for by PREFETCH and that are out of its reach are abandoned (09 R375, R388). -/
def State.prefetchGone (s : State) (h : HostId) : State :=
  ((s.q.progs.filter (fun p => p.2.host == h)).flatMap (fun p => p.2.pf)).foldl (fun t n =>
    if (t.map.moves.find n).any (fun m => !t.covered h m.region (m.seg * 4096) 4096 false) then t.abortMove n else t) s

/-- Grants of a host have ended or narrowed: armed schedules that lost their lamp words are disarmed, steps out of reach void, prefetches out of reach
end. -/
def State.lampGrantsGone (s : State) (h : HostId) : State :=
  ((s.lamp.sch.filter (fun p => schHost p.1 == h && p.2.armed)).foldl (fun t p =>
    if t.lampGranted p.1 p.2 then t.voidSteps p.1 (fun x => !t.stepGranted h x) else t.disarmFor p.1 2) s).prefetchGone h

/-! ### Placement (11 R414 to R417) -/

/-- Profile class of a placement (11 R426). -/
def State.lampClass (s : State) (x : Sched) (d : Nat) : Nat :=
  if s.pwr.profile = .serving ∧ d ≤ x.beats then 1 else 3

/-- Free sectors of a core's Spring. -/
def State.springFree (s : State) (c : Nat) : Nat :=
  4096 - (((s.nearUsed true).filter (fun u => u.1 / 4096 == c)).map (fun u => u.2)).sum

/-- The core of a Spring target: the one named, or the anchor tile's with the most free sectors (R415). -/
def State.lampCore (s : State) (r : RegionId) (seg core : Nat) : Nat :=
  if core < 96 then core
  else
    let t := s.anchorOf r seg
    ((List.range 8).map (fun i => 8 * t + i)).foldl (fun a c =>
      if s.fenced (.wick a) ∨ (s.fenced (.wick c) = false ∧ s.springFree a < s.springFree c) then c else a) (8 * t)

/-- Whether a region's segments are homed in Pond or Tarn only: sealed, on a sled without Lake (00 R7). -/
def State.pondOrTarn (s : State) (r : RegionId) : Bool := (s.ent r).isSealed && !s.hasLake

/-- Places or moves a segment or its image to a core's Spring, else to Pond on the same tile (R81, R415); while room is being made there, the step
tries again with each placement that ends and each ms. -/
def State.placeSpring (s : State) (r : RegionId) (seg core cls : Nat) (why : MoveFor) (pick : W32) : State :=
  let e := s.sme r seg
  let lend := s.lends r seg
  let c := s.lampCore r seg core
  if (s.moveOf r seg).isSome ∨ (e.home = none) ∨ s.sled.flush.isSome = true then s
  else if s.pondOrTarn r then s.placePond r seg cls why pick
  else if (e.image <|> e.home).any Loc.isSpring then s
  else
    let near := (e.image <|> e.home).any Loc.isNear
    if !near && !lend && s.admitDirty r seg e.cs != .yes then s
    else if s.fenced (.wick c) then s.placePond r seg cls why pick
    else match s.roomSpring c e.cs 8192 with
      | (s1, .run a) => (s1.startMove (mkMove r seg (.near true a) e.cs lend cls why)).1
      | (s1, .wait) => s1
      | (s1, .none) => s1.placePond r seg cls why pick

/-- Whether R414 marks a segment satisfied. -/
def State.satisfied (s : State) (t : LStep) (seg : Nat) : Bool :=
  let e := s.sme t.region seg
  match e.st with
  | .zero | .pattern | .poisoned => true
  | .transit => false
  | _ =>
    match e.image <|> e.home with
    | some l =>
      if l.isNear = false then false
      else if t.spring = false ∨ l.isSpring = true ∨ s.pondOrTarn t.region = true then true
      else
        let c := s.lampCore t.region seg t.core
        s.fenced (.wick c) || (s.roomSpring c e.cs 8192).2 == .none
    | none => true

/-- Segments of a step's range that hold anything. -/
def State.stepSegs (s : State) (t : LStep) : List Nat :=
  ((s.smes t.region).filter (fun p => decide (t.seg ≤ p.1 ∧ p.1 < t.seg + t.nseg))).map (fun p => p.1)

/-- Whether an instance of a step is placed. -/
def State.placedStep (s : State) (t : LStep) : Bool := (s.stepSegs t).all (fun i => s.satisfied t i)

/-- Acts on each segment of an instance's range (R414, R417, R426). -/
def State.placeInst (s : State) (k : Nat) (x : Sched) (i : Inst) (t : LStep) (pick : W32) : State :=
  (s.stepSegs t).foldl (fun u seg =>
    if u.satisfied t seg then u
    else if t.spring then u.placeSpring t.region seg t.core (u.lampClass x i.d) (.step (k * 4096 + i.step)) pick
    else u.placePond t.region seg (u.lampClass x i.d) (.step (k * 4096 + i.step)) pick) s

/-- Whether an instance still places: not settled and not stopped, or late under Training (R426). -/
def State.placing (s : State) (i : Inst) : Bool :=
  !i.stopped && !i.deferred && (i.settled.isNone || (i.late && s.pwr.profile == .training))

/-- Runs the placement of every live instance that still places, where Lamplighter runs. -/
def State.lampPlace (s : State) (pick : W32) : State :=
  if s.lamp.stopped then s
  else s.lamp.sch.foldl (fun u p =>
    if p.2.armed ∧ p.2.orphan = false then
      p.2.insts.foldl (fun v i => match p.2.steps[i.step]? with
        | some t => if v.placing i then v.placeInst p.1 p.2 i t pick else v
        | none => v) u
    else u) s

/-! ### Instances (11 R413, R422, R425, R426) -/

/-- Live instances of the Lamplighter of a chiplet. -/
def State.liveOn (s : State) (chip : Nat) : Nat :=
  ((s.lamp.sch.filter (fun p => s.chipletOf p.2.lregion == chip)).map (fun p => (p.2.insts.filter (fun i => !i.deferred)).length)).sum

/-- SCHED_MISS, at most once per second per schedule (R425). -/
def State.schedMiss (s : State) (k : Nat) : State :=
  match s.sched k with
  | none => s
  | some x =>
    let recent := match x.missAt with
      | some t => decide (s.clk.ms < t + 1000)
      | none => false
    if recent then s
    else (s.updSched k (fun y => { y with missAt := some s.clk.ms })).post
      { ev := .schedMiss, okind := 4, obj := schObj k, shost := schHost k, p0 := x.miss.setWidth 64, p1 := x.met.setWidth 64 }

/-- Whether the alternate range is near or empty (R422). -/
def State.altNear (s : State) (t : LStep) : Bool :=
  ((s.smes t.altreg).filter (fun p => decide (t.altseg ≤ p.1 ∧ p.1 < t.altseg + t.altnseg))).all (fun p =>
    p.2.st == .zero || p.2.st == .pattern || (p.2.st != .poisoned && (p.2.image <|> p.2.home).any Loc.isNear))

/-- The deadline of an instance: READY if placed, else a miss and its fallback (R422, R425, R426). -/
def State.deadline (s : State) (k step d : Nat) : State :=
  match s.sched k with
  | none => s
  | some x =>
    match x.insts.find? (fun i => i.step == step && i.d == d), x.steps[step]? with
    | some i, some t =>
      if i.settled.isSome then s
      else if s.placedStep t ∧ i.deferred = false then s.settleReady k step d
      else
        let s1 := s.updSched k (fun y => { y with miss := satInc y.miss })
        let l : Lamp := if t.fb = 2 then (if s.altNear t then .alt else .cold) else if t.fb = 1 then .direct else .cold
        let goes := l == .direct && s.pwr.profile == .training
        let s2 := s1.updInst k step d (fun j => { j with stopped := !goes, late := goes })
        (s2.settleFb k step d l).schedMiss k
    | _, _ => s

/-- Drops the unpinned images of a range (R416). -/
def State.dropRange (s : State) (t : LStep) : State :=
  (s.stepSegs t).foldl (fun u seg => if (u.sme t.region seg).f.pin then u else u.dropImage t.region seg) s

/-- Starts the placement of the oldest deferred instance of a chiplet's Lamplighter (11, limits). -/
def State.undefer (s : State) (chip : Nat) : State :=
  match s.lamp.sch.findSome? (fun p => if s.chipletOf p.2.lregion = chip then (p.2.insts.find? (fun i => i.deferred)).map (fun i => (p.1, i)) else none) with
  | some (k, i) => s.updInst k i.step i.d (fun j => { j with deferred := false })
  | none => s

/-- An instance retires (R413, R416): one that has not settled yet stays until its deadline (assumption log 21). -/
def State.retire (s : State) (k step d : Nat) : State :=
  match s.sched k with
  | none => s
  | some x =>
    match x.insts.find? (fun i => i.step == step && i.d == d), x.steps[step]? with
    | some i, some t =>
      if i.settled.isNone then s
      else
        let s1 := s.updSched k (fun y => { y with insts := y.insts.filter (fun j => !(j.step == step && j.d == d)) })
        let s2 := if t.drop then s1.dropRange t else s1
        if i.deferred then s2 else s2.undefer (s2.chipletOf x.lregion)
    | _, _ => s

/-- Starts an instance (R413, R429). -/
def State.startInst (s : State) (k step d : Nat) (pick : W32) : State :=
  match s.sched k with
  | none => s
  | some x =>
    if x.void.contains step then
      let s1 := (s.updSched k (fun y => { y with voidn := satInc y.voidn })).countFb k .cold
      (s1.writeLamp k x step .cold false d).writeBlock k
    else
      let full := decide (16384 ≤ s.liveOn (s.chipletOf x.lregion))
      let i : Inst := { step := step, d := d, due := false, settled := none, stopped := false, late := false, deferred := full, passed := false }
      let s1 := s.updSched k (fun y => { y with insts := y.insts ++ [i], defer := if full then satInc y.defer else y.defer })
      match x.steps[step]? with
      | none => s1
      | some t =>
        if full then s1.writeBlock k
        else
          let s2 := s1.placeInst k x i t pick
          if s2.placedStep t then s2.settleReady k step d else s2

/-- The phases of one beat position: starts, deadlines, retirements (R413). -/
def State.lampPosition (s : State) (k pos : Nat) (pick : W32) : State :=
  match s.sched k with
  | none => s
  | some x =>
    let ids := List.range x.steps.length
    let hit (i b : Nat) : Bool := match x.steps[i]? with
      | some t => t.dbeat == b
      | none => false
    let s0 := s.updSched k (fun y => { y with beats := pos + 1 })
    let s1 := (ids.filter (fun i => hit i ((pos + x.window) % x.period))).foldl (fun u i => u.startInst k i (pos + x.window) pick) s0
    let s2 := (ids.filter (fun i => hit i (pos % x.period))).foldl (fun u i =>
      let v := u.updInst k i pos (fun j => { j with due := true })
      match x.steps[i]? with
      | some t => if t.dus = 0 then v.deadline k i pos else v
      | none => v) s1
    if pos = 0 then s2
    else (ids.filter (fun i => hit i ((pos - 1) % x.period))).foldl (fun u i => u.retire k i (pos - 1)) s2

/-- An accepted beat (R411): the position moves to the least value above it that is congruent to the number. -/
def State.lampBeat (s : State) (k n : Nat) (pick : W32) : State :=
  match s.sched k with
  | none => s
  | some x =>
    if x.armed = false then s
    else if s.lamp.stopped ∨ x.orphan = true then s.updSched k (fun y => { y with kept := some (BitVec.ofNat 64 n) })
    else if x.period ≤ n then (s.updSched k (fun y => { y with badbeat := satInc y.badbeat })).writeBlock k
    else if (n + 1) % x.period = x.beats % x.period then s
    else
      let go := (n + x.period - x.beats % x.period) % x.period + 1
      let s1 := (List.range go).foldl (fun u i => u.lampPosition k (x.beats + i) pick) s
      let s2 := s1.writeBlock k
      { s2 with q := { s2.q with progs := s2.q.progs.map (fun p => match p.2.wait with
          | .beat q sc m => if qKey p.2.host (BitVec.ofNat 6 q) * 32 + sc = k ∧ m.toNat ≤ x.beats + go
              then (p.1, { p.2 with wait := .run, pc := p.2.nextPc, lastSt := 0, served := [] }) else p
          | _ => p) } }

/-- Lamplighter stops for an activation or a Dusk flush (R430, R433). -/
def State.lampStop (s : State) : State := { s with lamp := { s.lamp with stopped := true } }

/-- Lamplighter resumes after an activation and applies the beat write it kept (R430). -/
def State.lampResume (s : State) (pick : W32) : State :=
  let s1 := { s with lamp := { s.lamp with stopped := false } }
  s1.lamp.sch.foldl (fun u p => match p.2.kept with
    | some v => (u.updSched p.1 (fun y => { y with kept := none })).lampBeat p.1 v.toNat pick
    | none => u) s1

end Sys2Proof.Machine
end

