-- ==== Sys2Proof/Machine/Reset.lean ====
section
/-! DEFINITION. The host-scoped reset (07 R299 to R302, R309), lost Tarn windows (02 R95) and what waits for a host. -/

namespace Sys2Proof.Machine

/-! ### What waited for lines -/

/-- Lines whose snoops have ended: requests and programs that waited for them go on. -/
def State.freeLines (s : State) (c : Chk) (pick : W32) : State :=
  let open1 (k : Nat) : Bool := s.dir.snoops.any (fun n => lineKey n.region n.line == k)
  let ks := ((s.lake.misses.filter (fun m => decide (2 ^ 60 ≤ m.1) && !open1 m.1)).map (fun m => m.1)).dedup
  let s1 := ks.foldl State.endMiss s
  s1.rerun (fun x => x.why == .recall || ((x.why == .busy || x.why == .cur) && s1.snoopsOf x.region x.line == [])) c pick

/-! ### Tarn windows (02 R91, R95; 03 R110) -/

/-- A window is lost: every home in it is POISONED with cause 0x04, TARN_LOST posts, and the window's index is free again. -/
def State.loseWindow (s : State) (w : Nat) : State :=
  match s.rt.windows.find w with
  | none => s
  | some x =>
    let inW (l : Option Loc) : Bool := match l with
      | some (.tarn v _) => v == w
      | _ => false
    let into := s.map.moves.filter (fun m => inW (some m.2.dest))
    let s1 := into.foldl (fun t m => t.abortMove m.1) s
    let homes := s1.map.sme.filter (fun p => inW p.2.home)
    let s2 := homes.foldl (fun t p => t.poisonSeg (keyRegion p.1) (keySeg p.1) 4) s1
    let s3 := { s2 with
      rt := { s2.rt with windows := s2.rt.windows.del w, tsets := s2.rt.tsets.map (fun (p : Nat × List Nat) => (p.1, p.2.filter (fun x => x != w))) }
      map := { s2.map with rel := s2.map.rel.filter (fun p => !inW (some p.2.loc)) } }
    s3.post { ev := .tarnLost, okind := 2, obj := x.host.toNat, shost := x.host, p0 := BitVec.ofNat 64 w, p1 := BitVec.ofNat 64 homes.length }

/-- Every window of a host is lost; reads of its memory in progress end with it (07 R309), and the requests that waited run
again and meet the poison. -/
def State.loseWindows (s : State) (h : HostId) (c : Chk) (pick : W32) : State :=
  let ws := (s.rt.windows.filter (fun p => p.2.host == h)).map (fun p => p.1)
  let reads := s.ports.np.filter (fun n => n.2.host == h)
  let s1 := ws.foldl State.loseWindow s
  let s2 := { s1 with ports := { s1.ports with np := s1.ports.np.filter (fun n => n.2.host != h) } }
  let s3 := reads.foldl (fun t n => t.endMiss (segKey n.2.region n.2.seg)) s2
  reads.foldl (fun t n => t.rerun (missOf n.2.region n.2.seg) c pick) s3

/-! ### Offers and revokes -/

/-- An offer is withdrawn; its `REGION.GRANT` fails. -/
def State.withdraw (s : State) (o : Nat) (status : Byte) (detail : W16) : State :=
  match s.rt.offers.find o with
  | none => s
  | some x =>
    ({ s with rt := { s.rt with offers := s.rt.offers.del o } }).failProg x.prog { status := status, detail := detail, region := some x.grant.region }

/-- A revoke completes with OK for every program that waits for it. -/
def State.endRevoke (s : State) (g : Nat) : State :=
  match s.rt.revokes.find g with
  | none => s
  | some x => x.progs.foldl (fun t p => t.ctlOk p 0 0) { s with rt := { s.rt with revokes := s.rt.revokes.del g } }

/-- Whether a host may act as a region's owner (08 R340). -/
def State.owns (s : State) (h : HostId) (r : RegionId) : Bool := (s.ent r).owner == h || s.isOwnerFn h

/-- The state and rights checks of a host grant (06 R242; 08 R341, R345); `but` leaves one offer out of the grants that count. -/
def State.grantErr (s : State) (by1 host : HostId) (r : RegionId) (rw : Bool) (but : Option Nat) : Option Err1 :=
  let e := s.ent r
  let other (g : Grant) : Bool := g.region == r && g.host != host
  let stateE (d : W16) : Option Err1 := some { status := eState, detail := d, region := some r }
  if e.dlost then stateE 0x25
  else if e.st = .freed then stateE 0x10
  else if e.st = .evacuating then stateE 0x13
  else if e.st = .seald ∧ rw = true then stateE 0x12
  else if e.shared = false ∧ e.st ≠ .seald ∧
      (s.rt.grants.any (fun p => other p.2) || s.rt.offers.any (fun p => some p.1 != but && other p.2.grant)) = true then stateE 0x23
  else if s.owns by1 r then none
  else some { status := ePerm, detail := 3, region := some r }

/-- After a change of entries: offers are checked again (R240), and revokes whose grant has ended complete. -/
def State.fixOffers (s : State) : State :=
  let s1 := s.rt.offers.foldl (fun t o => match t.prog o.2.prog with
    | some x => (match t.grantErr x.host o.2.grant.host o.2.grant.region o.2.grant.rw (some o.1) with
      | some e => t.withdraw o.1 e.status e.detail
      | none => t)
    | none => { t with rt := { t.rt with offers := t.rt.offers.del o.1 } }) s
  (s1.rt.revokes.filter (fun p => !s1.rt.grants.has p.1)).foldl (fun t p => t.endRevoke p.1) s1

/-- Step 4 of a host-scoped reset (07 R300): the grants of the host end, its offers are withdrawn, revokes of its grants
complete, its windows are lost. -/
def State.endGrants (s : State) (h : HostId) (c : Chk) (pick : W32) : State :=
  let gs := (s.grantsOfHost h).map (fun p => p.1)
  let offers := (s.rt.offers.filter (fun p => p.2.grant.host == h)).map (fun p => p.1)
  let s1 := s.endHostGrants h
  let s2 := offers.foldl (fun t o => t.withdraw o eRefused 2) s1
  let s3 := gs.foldl State.endRevoke s2
  let s4 := s3.loseWindows h c pick
  (((s4.freeLines c pick).lampGrantsGone h).fixOffers).serveUpdate

/-! ### The reset itself -/

/-- Steps 1 to 5 (07 R300). `row` is the row of R299. -/
def State.resetHost (s : State) (h : HostId) (row : Nat) : State :=
  let s1 := (s.post { ev := .hostReset, okind := 2, obj := h.toNat, p0 := BitVec.ofNat 64 row }).traceReset 6
  let s2 := { s1 with
    dir := { s1.dir with held := s1.dir.held.filter (fun x => x.host != h || x.kind == ReqKind.wback) }
    ports := { s1.ports with
      streams := s1.ports.streams.filter (fun x => x.host != h)
      runs := s1.ports.runs.filter (fun x => x.host != h) } }
  let s3 := ((s2.q.progs.filter (fun p => p.2.host == h)).map (fun p => p.1)).foldl State.mutedCancel s2
  let s4 := ((s3.lamp.sch.filter (fun p => schHost p.1 == h)).map (fun p => p.1)).foldl (fun t k => t.dropSched k 0) s3
  let s5 := s4.endGrants h .ok 0
  { s5 with mgt := { s5.mgt with sess := s5.mgt.sess.filter (fun p => decide (p.2.carrier ≠ Carrier.doe h)) } }

/-- Step 6 (07 R300): the function, its queues, its signal counters and its reader hold their reset values; its binding stays. -/
def State.returnHost (s : State) (h : HostId) : State :=
  { s with
    ports := { s.ports with fn := s.ports.fn.del h.toNat, dcLog := s.ports.dcLog.del h.toNat, resets := s.ports.resets.filter (fun x => x.host != h) }
    q := { s.q with qs := s.q.qs.filter (fun p => p.1 / 64 != h.toNat), sig := s.q.sig.filter (fun p => p.1 / 16 != h.toNat) }
    evt := { s.evt with rd := s.evt.rd.put h.toNat (Reader.at s.evt.prod) } }

/-- Writes a binding. -/
def State.setBind (s : State) (h : HostId) (b : Bind) : State :=
  { s with ports := { s.ports with bind := s.ports.bind.set h.toNat .none b } }

/-- An event of R299 for one host ID, and what step 6 waits for; a second event joins the first (R309). -/
def State.hostEvent (s : State) (h : HostId) (row : Nat) (link cold : Bool) : State :=
  if s.inReset h then
    { s with ports := { s.ports with resets := s.ports.resets.map (fun x => if x.host = h then { x with link := x.link || link, cold := x.cold || cold } else x) } }
  else
    let s1 := s.resetHost h row
    if link || cold then { s1 with ports := { s1.ports with resets := s1.ports.resets ++ [⟨h, link, cold, none⟩] } } else s1.returnHost h

/-- A binding write that resets its host ID before it applies (07 R308, R309). -/
def State.rebind (s : State) (h : HostId) (b : Bind) : State :=
  if s.inReset h then { s with ports := { s.ports with resets := s.ports.resets.map (fun x => if x.host = h then { x with bind := some b } else x) } }
  else ((s.resetHost h 4).returnHost h).setBind h b

/-- The link of a host ID's half, or its function, has returned: step 6 follows once nothing is left to wait for, then a binding write that
waited. -/
def State.hostBack (s : State) (h : HostId) (link cold : Bool) : State :=
  match s.ports.resets.find? (fun x => x.host == h) with
  | none => s
  | some x =>
    let y : HReset := { x with link := x.link && !link, cold := x.cold && !cold }
    if y.link || y.cold then { s with ports := { s.ports with resets := s.ports.resets.map (fun z => if z.host = h then y else z) } }
    else
      let s1 := s.returnHost h
      match x.bind with
      | some b => s1.rebind h b
      | none => s1

/-- Host IDs bound to a half. -/
def State.hostsOn (s : State) (half : Nat) : List HostId := s.boundHosts.filter (fun h => s.halfOf h == half)

/-- An event of R299 for every host ID of a half. -/
def State.halfEvent (s : State) (half row : Nat) : State :=
  (s.hostsOn half).foldl (fun t h => t.hostEvent h row true false) s

/-- Link down of a half: its IDE streams and RT streams end, and every host ID behind it is reset (07 R299, R310). -/
def State.dropLink (s : State) (half row : Nat) : State :=
  let h := s.halfReg half
  let s1 := s.setHalf half { h with link := 0, ide := false, linkdown := if row = 2 then satInc h.linkdown else h.linkdown }
  let s2 := { s1 with
    ports := { s1.ports with streams := s1.ports.streams.filter (fun x => x.half != half), runs := s1.ports.runs.filter (fun x => x.half != half) }
    pond := { s1.pond with panic := s1.pond.panic.del half } }
  s2.halfEvent half row

end Sys2Proof.Machine
end

