-- ==== Sys2Proof/Machine/Power.lean ====
section
/-! DEFINITION. The hold-up energy, the dirty-Keep budget, write-back, low-water reclaim and the Power Ledger (01 R33 to R36; 02 R82 to
R84; 13 R456 to R473, R482). -/

namespace Sys2Proof.Machine

/-! ### The dirty-Keep budget (13 R457 to R466) -/

/-- Hold-up energy E in J (13 R457, R490). Before the first measurement E follows E_NOW (R491). -/
def State.energy (s : State) : Nat :=
  if s.pwr.failed then 0
  else if s.pwr.eMeas = 0 then s.pwr.eNow
  else match s.pwr.measuring with
    | some e => min e s.pwr.eMeas
    | none => min s.pwr.eMeas s.pwr.eNow

/-- Populated Lake dies, and those in service. -/
def State.diesAll (s : State) : Nat := 32 * s.id.variant.dies
def State.diesIn (s : State) : Nat := s.diesAll - s.diesFenced

/-- Unused Dusk reserve in bytes (05 R213). -/
def State.duskLeft (s : State) : Nat := duskReserve - s.lake.duskUsed * 256

/-- `BUDGET_MAX`. -/
def State.budgetMax (s : State) : Nat := (s.pwr.cap.extractLsb' 12 7).toNat

/-- The budget B in GiB that R460 gives. -/
def State.budgetNow (s : State) : Nat :=
  if !s.hasLake || s.diesIn == 0 then 0
  else
    let byEnergy := (2000 * s.energy - 396000) * s.diesIn / (3 * 23488 * s.diesAll)
    let lim := min (min s.budgetMax 64) byEnergy
    if s.lake.wear = .spent ∨ s.lake.duskUsed ≠ 0 then min lim (s.duskLeft / 2 ^ 30 - 1) else lim

/-- Flush energy of B in J (13 R460). -/
def State.flushJ (s : State) : Nat :=
  if s.diesIn = 0 then 132 else 132 + s.pwr.budget * 23488 * s.diesAll / (1000 * s.diesIn)

/-- Recomputes B and A (13 R460, R465). -/
def State.rebudget (s : State) : State :=
  let b := s.budgetNow
  let old := s.pwr.budget
  let d := s.dirty
  let g := b * 2 ^ 30
  let a := if b < old ∧ g < d then d else if s.pwr.admission ≤ g then g else if d ≤ g then g else s.pwr.admission
  let s1 := { s with pwr := { s.pwr with budget := b, admission := a } }
  let s2 := if b < old then s1.post (pairPost .budgetLow 0 0 b (d / 2 ^ 20)) else s1
  if b = 0 ∧ old ≠ 0 then s2.post (pairPost .holdupFail 0 0 s2.energy 0) else s2

/-- The Keep commitment in bytes (13 R461). -/
def State.commitment (s : State) : Nat :=
  (s.regions.map (fun p =>
    if p.2.keep && !p.2.isSealed then
      (if p.2.ponly then p.2.bytes else 4096 * ((s.smes p.1).filter (fun q => q.2.f.pin)).length)
    else 0)).sum

/-- Whether a segment belongs to the Keep commitment. -/
def State.committed (s : State) (r : RegionId) (e : Sme) : Bool := s.reserved r e

/-- Whether a segment is dirty Keep data. -/
def State.isDirty (s : State) (r : RegionId) (e : Sme) : Bool :=
  let x := s.ent r
  x.keep && decide (e.nearSectors ≠ 0)

/-- Whether the store of a segment lies more than the pack delay in the past (13 R464). -/
def State.settled (s : State) (e : Sme) : Bool :=
  e.st != .opn || decide (s.pwr.packMs ≤ ((s.clk.store - e.f.aux.setWidth 31).toNat))

/-- Stored bytes of write-back moves in flight. -/
def State.wbFlight (s : State) : Nat := 256 * ((s.map.moves.map (fun p => if p.2.why = .wback then p.2.len else 0)).sum)

/-- Bytes down to which write-back runs: 80% of B (13 R464). -/
def State.wbFloor (s : State) : Nat := s.pwr.budget * 2 ^ 30 * 8 / 10

/-- Starts write-back moves, oldest `AGE` first, settled segments before others, skipping the commitment. -/
def State.wbRun (s : State) : State :=
  let cls := if s.pwr.wb = 2 then 1 else 3
  let ok (p : Nat × Sme) : Bool :=
    s.isDirty (keyRegion p.1) p.2 && !s.committed (keyRegion p.1) p.2 && p.2.st != .transit && !s.malformed p.2
  let l := s.oldestFirst (fun p => ok p && s.settled p.2) ++ s.oldestFirst (fun p => ok p && !s.settled p.2)
  l.foldl (fun t p => if t.wbFloor < t.dirty - t.wbFlight then t.demote (keyRegion p.1) (keySeg p.1) cls .wback else t) s

/-- Whether a store waits for admission. -/
def State.admitHeld (s : State) : Bool := s.dir.held.any (fun x => x.why == .admission)

/-- Starts, escalates, steps down and stops write-back (13 R463, R464), and runs it. -/
def State.writeback (s : State) : State :=
  let d := s.dirty
  let b := s.pwr.budget * 2 ^ 30
  let wb :=
    if b = 0 then (if d = 0 then 0 else 2)
    else if s.admitHeld then 2
    else if s.pwr.wb = 2 then (if d ≤ b then 1 else 2)
    else if s.pwr.wb = 1 then (if d * 10 ≤ b * 8 then 0 else 1)
    else if b * 9 ≤ d * 10 then 1 else 0
  let s1 := { s with pwr := { s.pwr with wb := wb } }
  if wb = 0 ∨ s.sled.flush.isSome then s1 else s1.wbRun

/-- A write-back has committed: A falls by half its size, down to B (13 R465). -/
def State.wbCommitted (s : State) (sectors : Nat) : State :=
  { s with pwr := { s.pwr with admission := max (s.pwr.budget * 2 ^ 30) (s.pwr.admission - sectors * 128) } }

/-! ### Low-water reclaim (02 R82 to R84, R101) -/

/-- Whether a stack's reclaim has reached its end: one point above the mark (02 R82). -/
def State.reclaimed (s : State) (k : Nat) (extra : Nat) : Bool :=
  decide ((s.lowPct + 1) * s.stackSectors k < 100 * (s.freeSectors k + extra))


/-- Reclaims space on one stack in the order of R82, at class C3 (R83), where the Lantern that runs its eviction is at work (01 R23, R47). -/
def State.reclaimStack (s : State) (k : Nat) : State :=
  if s.serves (.stack k) then s.freeStack k 3 (fun t => t.reclaimed k (t.leaving k)) else s

/-- Low-water on every stack: LOW_WATER posts as a stack falls below its mark, and reclaim runs until one point above it. -/
def State.reclaim (s : State) : State :=
  (List.range 12).foldl (fun t k =>
    if t.map.low.contains k then
      if t.reclaimed k 0 then { t with map := { t.map with low := t.map.low.filter (fun x => x != k) } } else t.reclaimStack k
    else if t.stackSectors k ≠ 0 ∧ t.belowMark k = true ∧ t.serves (.stack k) = true then
      let u := t.post (pairPost .lowWater 9 k (t.freeSectors k) (t.lowMark k))
      ({ u with map := { u.map with low := u.map.low ++ [k] } }).reclaimStack k
    else t) s

/-! ### The Ledger (01 R33 to R36; 13 R467 to R473) -/

/-- Maximum ceiling of an entry in 0.1 W (13 R467). -/
def maxCeil (i : Nat) : Nat := if i < 12 then 760 else if i < 16 then 220 else if i < 20 then 400 else 600

/-- Lit floor of an entry in 0.1 W. -/
def litFloor (i : Nat) : Nat := if i < 12 then 140 else if i < 16 then 60 else if i < 20 then 80 else 200

/-- Floor of an entry in force: the RT floor of a tile that serves RT (13 R470). -/
def Entry.floor (e : Entry) (i : Nat) : Nat := if e.rtf ∧ i < 12 then 380 else litFloor i

/-- What the Pilot counts for an entry (13 R470). -/
def Entry.count (e : Entry) (i : Nat) : Nat := max e.counted.toNat (e.floor i)

/-- What the Pilot counts against the cap, in 0.1 W. -/
def State.powerCount (s : State) : Nat :=
  ((List.range 21).map (fun i => (s.ledger i).count i)).sum + 100 + 10 * s.pwr.charge

/-- The cap in 0.1 W. -/
def State.capDw (s : State) : Nat := 10 * (s.pwr.cap.extractLsb' 0 11).toNat

/-- Writes a grant word (13 R468; 01 R35): a raise counts at once, a lowering keeps the old value counted until it is acknowledged. -/
def State.writeGrant (s : State) (i : Nat) (ceil : Nat) (perm : BitVec 2) : State :=
  let e := s.ledger i
  let c := BitVec.ofNat 16 ceil
  let lower := decide (ceil < e.ceil.toNat) || decide (e.perm < perm)
  let held := if lower ∧ c < e.ceil then e.ceil else c
  (s.trace 0 0x0A (i + perm.toNat * 256 + c.toNat * 65536)).setLedger i
    { e with ceil := c, perm := perm, seq := e.seq + 1, lowering := e.lowering || lower, counted := if e.counted < held then held else e.counted }

/-- Room under the cap, in 0.1 W. -/
def State.capRoom (s : State) : Nat := s.capDw - s.powerCount

/-- Whether a tile's stack holds a segment of a region with a grant and `RT` 1 (13 R477; 12 R443). -/
def State.servesRt (s : State) (k : Nat) : Bool :=
  s.regions.any (fun p => p.2.rt && decide (p.2.nhost ≠ 0) &&
    ((s.smes p.1).any (fun q => (q.2.home.bind Loc.pch).any (fun n => n / 32 == k) || (q.2.image.bind Loc.pch).any (fun n => n / 32 == k)) ||
     decide (0 < (((List.range 12).filter (fun j => s.anchor j == k)).map (pagesOn p.1.toNat (p.2.segs / 256))).sum)))

/-- Whether an entry is a tile that serves an RT-flagged region: its permission stays Lit (01 R36). -/
def State.rtTile (s : State) (i : Nat) : Bool := decide (i < 12) && ((s.ledger i).rtf || s.servesRt i)

/-- Whether the Pilot is stalled: in a restart, or paused by an activation (01 R46 to R48). -/
def State.pilotStalled (s : State) : Bool := s.wd.pilotRestart || s.inPause

/-- Whether the Pilot writes grants: not while it stalls, during an activation, or once a flush has set every grant (01 R46, R48; 13
R489). -/
def State.pilotGrants (s : State) : Bool :=
  !s.pilotStalled && s.sled.flush.isNone && (s.up || s.sled.st == .boot || s.sled.st == .train)

/-- Entries of one kind, in the order of R471. -/
def ledgerKinds : List (List Nat) := [[20], [12, 13, 14, 15], [0, 1, 2, 3, 4, 5, 6, 7, 8, 9, 10, 11], [16, 17, 18, 19]]

/-- Answers a pending request in full or with the largest value that fits (13 R471). -/
def State.answerEntry (s : State) (i share : Nat) : State :=
  let e := s.ledger i
  if e.asks = false then s
  else
    let perm := if s.rtTile i then 0 else e.rperm
    let want := min (max e.rceil.toNat (e.floor i)) (maxCeil i)
    let give := if want ≤ e.ceil.toNat then want else min want (max e.ceil.toNat (e.count i + share))
    let s1 := s.writeGrant i give perm
    s1.setLedger i { s1.ledger i with asks := decide (give < want) }

/-- Answers the pending requests of one kind: the room is divided in proportion to the amounts requested. -/
def State.answerKind (s : State) (l : List Nat) : State :=
  let asks := l.filter (fun i => (s.ledger i).asks)
  let need (i : Nat) : Nat := min (max (s.ledger i).rceil.toNat ((s.ledger i).floor i)) (maxCeil i) - (s.ledger i).count i
  let total := (asks.map need).sum
  let room := s.capRoom
  asks.foldl (fun t i => t.answerEntry i (if total ≤ room then need i else room * need i / total)) s

/-- The Pilot answers every pending request (13 R471). -/
def State.answerAll (s : State) : State := ledgerKinds.foldl State.answerKind s

/-- Lowers every ceiling above its floor by a tenth (13 R474). -/
def State.lowerTenth (s : State) : State :=
  (List.range 21).foldl (fun t i =>
    let e := t.ledger i
    if e.floor i < e.ceil.toNat then t.writeGrant i (max (e.floor i) (e.ceil.toNat * 9 / 10)) e.perm else t) s

/-- What the count comes to, with some watts more, once every lowering has been acknowledged, in 0.1 W. -/
def State.settledCount (s : State) (extra : Nat) : Nat :=
  ((List.range 21).map (fun i => max (s.ledger i).ceil.toNat ((s.ledger i).floor i))).sum + 100 + 10 * s.pwr.charge + extra

/-- Makes room under the cap (13 R474, R489): charging to 40 W, then ceilings above their floors in proportion, by lowerings that count in full
until they are acknowledged. -/
def State.makeRoom (s : State) (extra : Nat) : State :=
  if s.powerCount + extra ≤ s.capDw then s
  else
    let s1 := { s with pwr := { s.pwr with charge := min s.pwr.charge 40 } }
    let above := ((List.range 21).map (fun i => (s1.ledger i).ceil.toNat - (s1.ledger i).floor i)).sum
    let excess := s1.settledCount extra - s1.capDw
    if excess = 0 ∨ above = 0 then s1
    else (List.range 21).foldl (fun t i =>
      let e := t.ledger i
      let over1 := e.ceil.toNat - e.floor i
      if over1 = 0 then t else t.writeGrant i (e.ceil.toNat - min over1 ((over1 * excess + above - 1) / above)) e.perm) s1

/-- Brings the count under a lowered cap. -/
def State.underCap (s : State) : State := s.makeRoom 0

/-- Raises a tile that serves an RT-flagged region to Lit allowed with `RTF` 1 and the RT floor (13 R489), once the cap has room for it (01
R35); until then other ceilings are lowered. -/
def State.raiseRt (s : State) (k : Nat) : State :=
  let e := s.ledger k
  let c := max 380 e.ceil.toNat
  let extra := max c e.counted.toNat - e.count k
  if extra ≤ s.capRoom then (s.setLedger k { e with rtf := true }).writeGrant k c 0 else s.makeRoom extra

/-- Sets and clears `RTF` of every tile as the granted RT regions stand (01 R36; 13 R489); no grant rises while the Pilot is stalled (01
R48). -/
def State.rtFlags (s : State) : State :=
  if s.pilotGrants = false then s
  else (List.range 12).foldl (fun t k =>
    let e := t.ledger k
    let on := t.servesRt k
    if on = e.rtf then t
    else if on then t.raiseRt k
    else (t.setLedger k { e with rtf := false }).writeGrant k e.ceil.toNat e.perm) s

/-- Acknowledgements that arrived while the Pilot was stalled settle their lowerings when it is back (01 R48). -/
def State.settleAcks (s : State) : State :=
  if s.pilotStalled then s
  else { s with pwr := { s.pwr with entries := s.pwr.entries.map (fun p =>
      if p.2.ack = p.2.seq then (p.1, { p.2 with counted := p.2.ceil, lowering := false }) else p) } }

/-- Whether a half of a port group has left L1 (13 R477). -/
def State.pgActive (s : State) (i : Nat) : Bool :=
  (List.range 4).any (fun j => let l := (s.halfReg (4 * (i - 12) + j)).link.toNat; 2 ≤ l && l ≤ 4)

/-- A half of a port group leaves L1 (R477): a Banked group has Lit permission at its floor from the island (R472), a Trimmed one asks the
Pilot for it (R34); with the permission the group is Lit. -/
def State.pgLit (s : State) (half : Nat) : State :=
  let i := 12 + half / 4
  let s1 :=
    if (s.ledger i).perm = 2 then s.writeGrant i (litFloor i) 0
    else if (s.ledger i).perm = 0 then s
    else if s.pilotGrants then (s.askWake i).answerAll else s.askWake i
  if (s1.ledger i).perm = 0 then s1.setPst i .lit 0 2 else s1

/-- Every pseudo-channel of a stack enters or leaves self-refresh; its debt goes with the refresh mode (04 R156). One in a retrain enters at its
end (04 R174). -/
def State.selfRefresh (s : State) (k : Nat) (on : Bool) : State :=
  (List.range 32).foldl (fun t j =>
    let p := t.pch (32 * k + j)
    if on ∧ p.training = true then t else t.setPch (32 * k + j) { p with selfRef := on, debt := [], pd := [] }) s

/-- A channel group that takes no program or erase (R482); a stripe and a superblock reach over all four groups. -/
def State.nandStopped (s : State) : Bool := s.pwr.nandLim.any (fun p => p.2 == 2) && s.sled.st != .duskFlush

/-- Sled power state (13 R478): 0 Lit, 1 Trimmed, 2 Banked, 3 Dark. -/
def State.pstate (s : State) : Nat :=
  if s.sled.st = .off then 3
  else if (List.range 12).any (fun k => (s.ledger k).st == .lit) then 0
  else if (List.range 21).any (fun k => (s.ledger k).st != .banked) then 1
  else 2

end Sys2Proof.Machine
end

