-- ==== Sys2Proof/Machine/Fence.lean ====
section
/-! DEFINITION. Fencing a unit and recovering from it (01 R40 to R43, R52; 10 R404, R405; 14 R502 to R510, R515). -/

namespace Sys2Proof.Machine

/-- `OKIND` and `OBJ` of a unit (14 R496). -/
def FUnit.obj : FUnit → Nat × Nat
  | .wick n => (5, n)
  | .lantern n => (6, n)
  | .codec n => (7, n)
  | .pch n => (8, n)
  | .stack n => (9, n)
  | .half n => (10, n)
  | .die n => (11, n)

/-- The event of a unit's fence (14 R499). -/
def FUnit.ev (u : FUnit) (cause : Nat) : Ev :=
  match u with
  | .wick _ => .wickFence
  | .lantern _ => .lanternFence
  | .codec _ => .codecFence
  | .pch _ => if cause = 3 then .pchCeFence else if cause = 4 then .pchStall else .pchTrainFail
  | .stack _ => .stackFence
  | .half _ => .portFence
  | .die _ => .lakeDieFence

/-- Posts REPLACE_ADVISED for a reason, once per power-on (14 R515). -/
def State.advise (s : State) (reason : Nat) : State :=
  if s.evt.advised.contains reason then s
  else ({ s with evt := { s.evt with advised := reason :: s.evt.advised } }).post (pairPost .replaceAdvised 0 0 reason 0)

/-- Posts an event and the REPLACE_ADVISED records of the reasons it gives, in the order in which records of one moment enter the ring (01
R39). -/
def State.postAdvising (s : State) (p : Post) (reasons : List Nat) : State :=
  let fresh := reasons.filter (fun r => !s.evt.advised.contains r)
  ({ s with evt := { s.evt with advised := fresh.reverse ++ s.evt.advised } }).postAll (p :: fresh.map (fun r => pairPost .replaceAdvised 0 0 r 0))

/-- Units of a kind that are fenced. -/
def State.fencedIn (s : State) (lo hi : Nat) : Nat := (s.evt.fmap.filter (fun p => decide (lo ≤ p.1 ∧ p.1 < hi))).length

/-- The reasons of R515 that fences give. -/
def State.fenceReasons (s : State) : List Nat :=
  (if 0 < s.fencedIn 532 544 then [1] else []) ++ (if 8 < s.fencedIn 148 532 then [2] else []) ++ (if 4 < s.fencedIn 0 96 then [3] else []) ++
  (if 0 < s.fencedIn 96 100 then [4] else []) ++ (if 16 < s.fencedIn 560 1584 then [8] else [])

/-- A settings record with one Fence Map bit set. -/
def storeBit (t : Tbl W64) (b : Nat) : Tbl W64 :=
  let a := 0x10000 + 8 * (b / 64)
  t.put a (t.getD a 0 ||| ((1 : W64) <<< (b % 64)))

/-- The settings store keeps a copy of every bit but the port halves', written each time a bit is set, in each record that is kept (01 R51, R52;
17 R592, R593). -/
def FwS.keepBit (f : FwS) (b : Nat) : FwS :=
  if 544 ≤ b ∧ b < 560 then f
  else { f with store := storeBit f.store b, rseq := f.rseq + 1, prev := f.store, older := f.older.map (fun p => (p.1, storeBit p.2 b)) }

/-- Sets one Fence Map bit with its cause, if it is clear, and stores it. -/
def State.setBit (s : State) (u : FUnit) (cause : Byte) : State :=
  if s.fenced u then s else { s with evt := { s.evt with fmap := s.evt.fmap.put u.bit cause }, fw := s.fw.keepBit u.bit }

/-- The bits a fence implies (14 R504). -/
def State.implied (s : State) (u : FUnit) : List FUnit :=
  match u with
  | .stack k => ((List.range 32).map (fun y => FUnit.pch (32 * k + y))).filter (fun v => !s.fenced v)
  | .pch n =>
    let k := n / 32
    if (List.range 32).all (fun y => 32 * k + y == n || s.fenced (.pch (32 * k + y))) then [FUnit.stack k].filter (fun v => !s.fenced v) else []
  | _ => []

/-- Sets the bits of a fence and of those it implies (14 R504). -/
def State.setBits (s : State) (u : FUnit) (cause : Byte) : State :=
  (s.implied u).foldl (fun t v => t.setBit v 0x0E) (s.setBit u cause)


/-- Programs that run on a Wick core or a Lantern complete with a status (08 R352; 10 R405). -/
def State.endOn (s : State) (core : Nat) (status : Byte) (detail : W16) : State :=
  ((s.q.progs.filter (fun p => p.2.core == core)).map (fun p => p.1)).foldl (fun t p => t.endProg p status detail 0) s

/-- Starts a unit's recovery (14 R505); one recovery serves a stack and its pseudo-channels (R518). -/
def State.openRecov (s : State) (u : FUnit) (cause : Byte) : State :=
  let whole (v : Recov) : Bool := match u, v.unit with
    | .stack k, .pch n => n / 32 == k
    | _, _ => false
  { s with evt := { s.evt with recov := s.evt.recov.filter (fun v => !whole v) ++ [⟨u, cause, [], 0⟩] } }

/-- Whether units are in service: recovery has something to recover. -/
def State.inService (s : State) : Bool := s.up || s.sled.st == .duskFlush || s.sled.st == .vigil

/-- The stream whose stripe a move has entered. -/
def State.streamOf (s : State) (n : Nat) : Strm :=
  match s.lake.stripes.find? (fun x => x.2.moves.contains n) with
  | some x => x.2.strm
  | none => .host

/-- Runs of uncommitted moves on flash pages that pass a test are placed again, from the stripe buffers (05 R225, R228); a move for
which Lake has no page left ends with its source home. -/
def State.replaceRuns (s : State) (gone : Nat → Bool) : State :=
  (s.map.moves.filter (fun p => match p.2.dest with
    | .flash f _ => gone f
    | _ => false)).foldl (fun t p =>
      let n := p.1
      let m := p.2
      let strm := t.streamOf n
      let t1 : State := { t with lake := { t.lake with stripes := t.lake.stripes.map (fun x => (x.1, { x.2 with moves := x.2.moves.filter (fun y => y != n) })) } }
      match t1.lakePlace strm (t1.anchorOf m.region m.seg / 6) m.len n with
      | some q =>
        let u : State := if m.verified then q.1.writeRun q.2 (q.1.readRun m.dest m.len) else q.1
        { u with map := { u.map with moves := u.map.moves.put n { m with dest := q.2 } } }
      | none => t1.abortMove n) s

/-- What a newly fenced unit loses at once, and the start of its recovery (14 R505 to R508). DESIGN CHOICE (assumption log 33): the HOST_RESET of a fenced
half names row 2 of 07 R299, link down, and its `LINKDOWN` counts it; R310 says neither. -/
def State.fenceWork (s : State) (u : FUnit) (cause : Byte) : State :=
  let lanternOn (r : RegionId) : Bool := match u with
    | .lantern n => s.lanternOf r == n
    | _ => false
  let s2 : State := if s.inService then s.openRecov u cause else s
  match u with
  | .wick c =>
    let z : State := if cause = 6 then { s2 with q := { s2.q with progs := s2.q.progs.map (fun p => if p.2.core = c then (p.1, p.2.setG 1 0) else p) } } else s2
    z.endOn c eFenced 0
  | .lantern l =>
    let z := s2.endOn (256 + l) eFenced 0
    { z with lamp := { z.lamp with sch := z.lamp.sch.map (fun p => (p.1, if lanternOn p.2.lregion ∧ p.2.armed = true then { p.2 with orphan := true } else p.2)) } }
  | .half h => let z := s2.dropLink h 2; z.setHalf h { z.halfReg h with hold := true }
  | .die d => (s2.replaceRuns (fun f => f % 1024 == d / 32 + d % 32 * 32)).rebudget
  | .stack k => { s2 with
      pwr := { s2.pwr with thr := s2.pwr.thr.put k 3 }
      pond := { s2.pond with panic := s2.pond.panic.map (fun x => (x.1, x.2.filter (fun y => y / 32 != k))) } }
  | .pch p => { s2 with pond := { s2.pond with panic := s2.pond.panic.map (fun x => (x.1, x.2.filter (fun y => y != p))) } }
  | .codec n => s2.abandonTrials n

/-- A fence of units that fail together: the first one's bit with its cause, the other bits with cause 0x0E (R504), one event that counts
them, and what each unit loses. A pseudo-channel that takes its stack's bit with it leaves one recovery, the stack's (R518). -/
def State.fenceAll (s : State) (l : List FUnit) (cause : Byte) (setter : Nat) : State :=
  match l.filter (fun u => !s.fenced u) with
  | [] => s
  | u :: more =>
    let n := (s.implied u).length + more.length + 1
    let s0 : State := more.foldl (fun (t : State) v => t.setBit v 0x0E) (s.setBits u cause)
    let s1 := s0.postAdvising (fencePost (u.ev cause.toNat) u.obj.1 u.obj.2 cause.toNat setter n) s0.fenceReasons
    let along : List FUnit := (s.implied u).filter (fun v => match v with
      | .stack _ => true
      | _ => false)
    (along ++ more).foldl (fun (t : State) v => t.fenceWork v 0x0E) (s1.fenceWork u cause)

/-! ### Recovery (10 R405; 14 R508, R510; 05 R227) -/

/-- Homes that lie on a unit: segment keys. -/
def State.homesOn (s : State) (u : FUnit) : List Nat := (s.map.sme.filter (fun p => p.2.home.any u.holds)).map (fun p => p.1)

/-- Images that lie on a unit. -/
def State.imagesOn (s : State) (u : FUnit) : List Nat := (s.map.sme.filter (fun p => p.2.image.any u.holds)).map (fun p => p.1)

/-- Drops the images on a unit; pinned images and those of RT-flagged regions are placed again at C1 (14 R508 step 5). -/
def State.dropImagesOn (s : State) (u : FUnit) : State :=
  (s.imagesOn u).foldl (fun t k =>
    let r := keyRegion k
    let seg := keySeg k
    let again := (t.sme r seg).f.pin || (t.ent r).rt
    let v := t.dropImage r seg
    if again then v.placePond r seg 1 .ftl 0 else v) s

/-- The latest journalled state of a segment of the Lake metadata: the checkpoint and the journal after it (14 R510). -/
def State.journalled (s : State) (k : Nat) : Option Sme :=
  (s.lake.jour.drop s.lake.jmark).foldl (fun acc j => match j with
    | .seg r i e => if segKey r i = k then some e else acc
    | _ => acc) (s.lake.ckpt.sme.find k)

/-- Rebuilds a map page whose two copies are lost: restored and poisoned segments are counted (14 R510). -/
def State.rebuildPage (s : State) (page : Nat) : State × Nat × Nat :=
  let r : RegionId := BitVec.ofNat 14 (page / 2 ^ 26)
  let first := page % 2 ^ 26 * 256
  (List.range 256).foldl (fun (a : State × Nat × Nat) i =>
    let seg := first + i
    let old := a.1.sme r seg
    let keep := (a.1.ent r).keep
    let good : Option Sme :=
      if !a.1.hasLake then none
      else match a.1.journalled (segKey r seg) with
        | some e => if e.src = .lake ∨ (keep = true ∧ (e.st = .zero ∨ e.st = .pattern)) then
              some ((if e.st = .transit then e.edit (fun f => { f with st := e.src.code, prior := 0 }) else e).edit (fun f => { f with lend := false, spr := false, aux := 0 }))
            else none
        | none => if keep = true ∧ old.st = .zero then some old else none
    match good with
    | some e => ((a.1.cancelMove r seg).putSme r seg e, a.2.1 + 1, a.2.2)
    | none => (a.1.poisonSeg r seg 1, a.2.1, a.2.2 + 1)) (s, 0, 0)

/-- Rebuilds pages and posts MAP_LOST once per region (14 R510). -/
def State.rebuildPages (s : State) (pages : List Nat) : State :=
  let rs := (pages.map (fun p => p / 2 ^ 26)).dedup
  rs.foldl (fun t r =>
    let z := (pages.filter (fun p => p / 2 ^ 26 == r)).foldl (fun (a : State × Nat × Nat) p =>
      let y := a.1.rebuildPage p
      (y.1, a.2.1 + y.2.1, a.2.2 + y.2.2)) (t, 0, 0)
    z.1.post (pairPost .mapLost 1 r z.2.1 z.2.2)) s

/-- Map pages whose anchor stack is k, with something in them. -/
def State.pagesAt (s : State) (k : Nat) : List Nat :=
  ((s.map.sme.map (fun p => pageKey (keyRegion p.1) (keySeg p.1))).dedup).filter (fun p => (p / 2 ^ 26 + p % 2 ^ 26) % 12 == k)

/-- The recovery of a dead pseudo-channel or stack, steps 4 to 6 (14 R508). -/
def State.recoverPond (s : State) (v : Recov) (pages : List Nat) : State :=
  let u := v.unit
  let onUnit (p : Nat) : Bool := match u with
    | .pch n => p == n
    | .stack k => p / 32 == k
    | _ => false
  let lostDirs := ((s.dir.pres.filter (fun x => onUnit x.1)).map (fun x => x.2)).dedup
  let s1 := lostDirs.foldl (fun t r => if (t.ent (BitVec.ofNat 14 r)).tracked then t.loseDir (BitVec.ofNat 14 r) else t) s
  let s2 := { s1 with dir := { s1.dir with pres := s1.dir.pres.filter (fun x => !onUnit x.1) } }
  let homes := (s2.homesOn u).filter (fun k => !s2.rescued (keyRegion k) (keySeg k))
  let imgs := s2.imagesOn u
  let s3 := homes.foldl (fun t k => t.poisonSeg (keyRegion k) (keySeg k) 1) s2
  let counts := homes.foldl (fun (a : Tbl (Nat × Nat)) k =>
    let r := (keyRegion k).toNat
    let old := a.getD r (0, keySeg k)
    a.put r (old.1 + 1, min old.2 (keySeg k))) v.poisoned
  let s4 := s3.dropImagesOn u
  let s5 := counts.foldl (fun t p => t.post (pairPost .regionPoisoned 1 p.1 p.2.1 p.2.2)) s4
  let s6 := (s5.rebuildPages pages).fixOffers
  s6.post { ev := .fenceRecovered, okind := u.obj.1, obj := u.obj.2,
            p0 := BitVec.ofNat 64 ((counts.map (fun p => p.2.1)).sum + imgs.length * 2 ^ 32),
            p1 := BitVec.ofNat 64 (pages.length + lostDirs.length * 2 ^ 32) }

/-- Adds what a pass of a recovery has poisoned and dropped to what its end reports. -/
def State.noteRecov (s : State) (u : FUnit) (keys : List Nat) (imgs : Nat) : State :=
  { s with evt := { s.evt with recov := s.evt.recov.map (fun v =>
      if v.unit = u then
        { v with
          dropped := v.dropped + imgs
          poisoned := keys.foldl (fun a k =>
            let old := a.getD (keyRegion k).toNat (0, keySeg k)
            a.put (keyRegion k).toNat (old.1 + 1, min old.2 (keySeg k))) v.poisoned }
      else v) } }

/-- Ends a recovery that has emptied its unit: FENCE_RECOVERED with the counts of its passes (14 R508). -/
def State.endRecov (s : State) (v : Recov) : State :=
  ({ s with evt := { s.evt with recov := s.evt.recov.filter (fun x => x.unit != v.unit) } }).post
    { ev := .fenceRecovered, okind := v.unit.obj.1, obj := v.unit.obj.2,
      p0 := BitVec.ofNat 64 ((v.poisoned.map (fun (p : Nat × Nat × Nat) => p.2.1)).sum + v.dropped * 2 ^ 32) }

/-- One pass of a recovery that moves homes off its unit: those in `lost` are poisoned with a cause, every other home that no move holds starts on
its way; the recovery ends once no home is left. -/
def State.recoverMoves (s : State) (u : FUnit) (lost : List Nat) (imgs : Nat) (lose move : State → Nat → State) : State :=
  let gone := (s.homesOn u).filter (fun k => lost.contains k && !s.rescued (keyRegion k) (keySeg k))
  let s1 := (gone.foldl lose s).noteRecov u gone imgs
  let s2 := (s1.homesOn u).foldl (fun t k => if (t.moveOf (keyRegion k) (keySeg k)).isSome then t else move t k) s1
  match s2.evt.recov.find? (fun v => v.unit == u) with
  | some v => if s2.homesOn u = [] then s2.endRecov v else s2
  | none => s2

/-- The recovery of a Wick core (10 R405 step 5): images dropped, homes moved to Pond on the same tile in class C1; the keys in `lost` name homes
that cannot be read, and a home for which Pond has no room is lost too. -/
def State.recoverWick (s : State) (c : Nat) (lost : List Nat) : State :=
  let imgs := s.imagesOn (.wick c)
  let s1 := imgs.foldl (fun t k => t.dropImage (keyRegion k) (keySeg k)) s
  s1.recoverMoves (.wick c) lost imgs.length (fun t k => t.poisonSeg (keyRegion k) (keySeg k) 9) (fun t k => (t.springOut c k 1).getD t)

/-- A run written in Lake at once, in the next stripe of a stream: the number its stripe notes is used up. -/
def State.lakeRun (s : State) (st : Strm) (r : RegionId) (seg len : Nat) : Option (State × Loc) :=
  (s.lakePlace st (s.anchorOf r seg / 6) len s.map.moveNo).map (fun p =>
    ({ p.1 with map := { p.1.map with moveNo := p.1.map.moveNo + 1 } }, p.2))

/-- The summary entry of a run that the FTL has written for a segment (05 R195). -/
def State.noteRun (s : State) (r : RegionId) (seg : Nat) (e : Sme) : State :=
  match e.home with
  | some (.flash f x) => { s with lake := { s.lake with summ := s.lake.summ.put (f * 64 + x) ⟨r, seg, e.cs, e.f.codec⟩ } }
  | _ => s

/-! ### Map storage (05 R192, R196) -/

/-- The 16 sectors of a stored map page: its 256 SMEs, in OPEN form. -/
def State.pageBytes (s : State) (page : Nat) : List Byte :=
  (List.range 256).flatMap (fun i =>
    let e := s.sme (BitVec.ofNat 14 (page / 2 ^ 26)) (page % 2 ^ 26 * 256 + i)
    toBytes 8 e.w0.toNat ++ toBytes 8 e.w1.toNat)

/-- Whether every SME of a map page is ZERO. -/
def State.pageZero (s : State) (page : Nat) : Bool :=
  s.map.sme.all (fun p => pageKey (keyRegion p.1) (keySeg p.1) != page || p.2.st == .zero)

/-- Writes 16 sectors through the meta stream: where they lie, in the LAKE form of SME word 1. -/
def State.metaWrite (s : State) (chip : Nat) (b : List Byte) : Option (State × Nat) :=
  match s.lakePlace .metaS chip 16 s.map.moveNo with
  | some (t, .flash f x) => some (({ t with map := { t.map with moveNo := t.map.moveNo + 1 } }).writeRun (.flash f x) b, f * 64 + x)
  | _ => none

/-- Stores a map page, and notes its entry in its index page; a page that is all ZERO is `ABSENT` and takes no space (R196). -/
def State.storePage? (s : State) (page : Nat) : Option State :=
  let put (t : State) (w : Nat) : State :=
    { t with lake := { t.lake with
        mapAt := t.lake.mapAt.put page w
        idxDirty := if t.lake.idxDirty.contains (page / 512) then t.lake.idxDirty else t.lake.idxDirty ++ [page / 512] } }
  if s.pageZero page then some (put s (2 ^ 46))
  else (s.metaWrite (s.anchor ((page / 2 ^ 26 + page % 2 ^ 26) % 12) / 6) (s.pageBytes page)).map (fun p => put p.1 p.2)

/-- Stores a map page where the metadata area has room. -/
def State.storePage (s : State) (page : Nat) : State := (s.storePage? page).getD s

/-- The 512 entries of an index page (R196). -/
def State.indexBytes (s : State) (i : Nat) : List Byte := (List.range 512).flatMap (fun j => toBytes 8 (s.lake.mapAt.getD (512 * i + j) (2 ^ 46)))

/-- Stores every index page that has changed; the root lists name where (R196, R199). -/
def State.storeIndex (s : State) : State :=
  s.lake.idxDirty.foldl (fun t i => match t.metaWrite (t.anchor ((i / 2 ^ 17 + i % 2 ^ 17 * 512) % 12) / 6) (t.indexBytes i) with
    | some (u, w) => { u with lake := { u.lake with idxAt := u.lake.idxAt.put i w, idxDirty := u.lake.idxDirty.filter (fun x => x != i) } }
    | none => t) s

/-- The cold stream starts to move one segment's Lake home elsewhere (05 R192, R201 to R206, R227): a lateral move (02 R68, R77). Nothing is
relocated in Spent (R211), nor while a flush runs (R214). -/
def State.relocateLake (s : State) (r : RegionId) (seg cls : Nat) : State :=
  let e := s.sme r seg
  if (s.moveOf r seg).isSome ∨ s.lake.wear = .spent ∨ s.sled.flush.isSome = true then s
  else match s.lakePlace .cold (s.anchorOf r seg / 6) e.cs s.map.moveNo with
    | some p => (p.1.startMove (mkMove r seg p.2 e.cs false cls .ftl)).1
    | none => s

/-- The recovery of a Lake die: every valid run moves elsewhere; the keys in `lost` name runs whose stripes cannot be rebuilt (05
R226, R227). -/
def State.recoverDie (s : State) (d : Nat) (lost : List Nat) : State :=
  s.recoverMoves (.die d) lost 0
    (fun t k => (t.poisonSeg (keyRegion k) (keySeg k) 3).post (segPost .segPoison (keyRegion k) (keySeg k) 3 (t.sme (keyRegion k) (keySeg k)).w1))
    (fun t k => t.relocateLake (keyRegion k) (keySeg k) 2)

/-- FENCE_RECOVERY: the recovery of a fenced unit goes as far as it can, and ends (14 R505); homes that move off a core or a die are on their way
first, and a later call ends it. -/
def State.recover (s : State) (u : FUnit) (lost : List Nat) : State :=
  match s.evt.recov.find? (fun v => v.unit == u) with
  | none => s
  | some v =>
    let s1 := { s with evt := { s.evt with recov := s.evt.recov.filter (fun x => x.unit != u) } }
    match u with
    | .pch _ => s1.recoverPond v lost
    | .stack k => s1.recoverPond v (s1.pagesAt k)
    | .wick c => s.recoverWick c lost
    | .die d => s.recoverDie d lost
    | _ => s1.post { ev := .fenceRecovered, okind := u.obj.1, obj := u.obj.2 }

end Sys2Proof.Machine
end

