-- ==== Sys2Proof/Machine/Life.lean ====
section
/-! DEFINITION. Dusk flush and Keep flush, power-down, VIGIL, warm restart, the Lake mount and firmware slots (05 R199, R213 to R217;
13 R453, R454, R492; 14 R517; 15 R537 to R541; 16 R556 to R570; 17 R589, R590). -/

namespace Sys2Proof.Machine

/-! ### Stripes and checkpoints (05 R193, R199, R224) -/

/-- Whether a sector of Lake is a free one of a stripe (05 R193). -/
def Stripe.freeSector (x : Stripe) (sec : Nat) : Bool :=
  let f := sec / 64
  sbOf f == x.sb && f / 1024 % 4 + f / 2 ^ 23 * 4 == x.idx && decide (x.fill.getD (f % 32) 0 ≤ sec % 64)

/-- Programs a stripe and takes it off the open list: its free sectors hold zeros, its parity page comes last, and every page gets the next `WSEQ`
(05 R187, R193). The read-back reads each data page once (R194, R204). -/
def State.programStripe (s : State) (n : Nat) : State :=
  match s.lake.stripes.find n with
  | none => s
  | some x =>
    let ms := s.members x.sb (x.idx % 4)
    let par := s.parityCh x.sb x.idx
    let m := ms.length
    let b := s.sb x.sb
    let s1 := s.setSb x.sb { b with
      progAt := s.clk.ms
      reads := x.fill.foldl (fun t p => t.put (p.1 * 4 + x.idx % 4) (t.getD (p.1 * 4 + x.idx % 4) 0 + 1)) b.reads }
    { s1 with
      mem := { s1.mem with bytes := s1.mem.bytes.filter (fun c => !(decide (3 * 2 ^ 68 ≤ c.1 ∧ c.1 < 4 * 2 ^ 68) && x.freeSector (c.1 / 256 - 3 * 2 ^ 60))) }
      lake := { s1.lake with
        stripes := s1.lake.stripes.del n
        written := s1.lake.written.put (x.sb * 9216 + x.idx) ⟨s1.lake.wseq, ms.filter (fun c => c != par) ++ [par], par, x.fill, x.strm == .metaS⟩
        nandPg := s1.lake.nandPg + BitVec.ofNat 64 m
        wseq := s1.lake.wseq + m
        hostPg := if x.strm = .host then s1.lake.hostPg + BitVec.ofNat 64 (m - 1) else s1.lake.hostPg } }

/-- Closes every open stripe (05 R214 step 5). -/
def State.closeStripes (s : State) : State := (s.lake.stripes.map (fun p => p.1)).foldl State.programStripe s

/-- The block table (05 R199). -/
def State.blockTable (s : State) : Tbl BlockRow := s.lake.sb.map (fun p => (p.1, ⟨p.2.erase, p.2.reads⟩))

/-- Whether a region is Keep. -/
def State.keeps (s : State) (r : RegionId) : Bool := (s.ent r).keep && (s.ent r).st != .freed

/-- The entry of a region without its evacuation (06 R269). DESIGN CHOICE (assumption log 71): a checkpoint holds an evacuating region in its state
before. -/
def REnt.settled (e : REnt) (v : Option EvacRec) : REnt :=
  match v with
  | some x => { e with st := if e.st = .evacuating then x.before else e.st }
  | none => e

/-- What a checkpoint holds: entries, SMEs and root lists of the Keep regions, and the block table. -/
def State.snapshot (s : State) : Ckpt :=
  { ent := (s.rt.ent.filter (fun p => s.keeps (BitVec.ofNat 14 p.1))).map (fun p => (p.1, p.2.settled (s.rt.evac.find p.1)))
    sme := s.map.sme.filter (fun p => s.keeps (keyRegion p.1))
    roots := s.lake.idxAt.filter (fun p => s.keeps (BitVec.ofNat 14 (p.1 / 2 ^ 17)))
    blocks := s.blockTable }

/-- Map pages of the Keep regions that a checkpoint writes. -/
def State.keepPages (s : State) : List Nat :=
  ((s.map.sme.filter (fun p => s.keeps (keyRegion p.1))).map (fun p => pageKey (keyRegion p.1) (keySeg p.1))).dedup

/-- A checkpoint (05 R199): map and index pages go to the meta stream, root lists, entries and the block table are written twice, and the ring keeps
every record since the checkpoint before (assumption log 68). -/
def State.checkpoint (s : State) : State :=
  if !s.hasLake then s
  else
    let w := s.lake.wseq
    let s1 := (s.keepPages.foldl State.storePage s).storeIndex
    let toc := (s1.lake.idxAt.map (fun p => p.2)).foldl max 0
    let j := s1.lake.jour.drop s1.lake.jmark ++ [.checkpoint toc w]
    { s1 with lake := { s1.lake with ckptOld := s1.lake.ckpt, ckpt := s1.snapshot, btab := s1.blockTable, jour := j, jmark := j.length,
                                     jseq := s1.lake.jseq + 1, wseq := s1.lake.wseq + 2, nandPg := s1.lake.nandPg + 2 } }

/-! ### Where a flush writes (05 R213, R653) -/

/-- Whether the host stream writes into the Dusk reserve: its open superblock is one of the 15 below the data area (assumption log 18). -/
def State.inReserve (s : State) : Bool :=
  s.lake.hostOpen.any (fun p => decide (s.id.variant.dataFrom - 15 ≤ p.1 ∧ p.1 < s.id.variant.dataFrom))

/-- Turns the host stream to the Dusk reserve (05 R653). -/
def State.duskOpen (s : State) : State :=
  if s.inReserve && s.lake.hostOpen.any (fun p => decide (p.2 < 9216)) then s
  else
    let free := (List.range 15).map (fun i => s.id.variant.dataFrom - 15 + i)
    match free.find? (fun n => (s.sb n).isFree) with
    | none => s
    | some n =>
      let s1 : State := match s.lake.hostOpen with
        | some p => s.setSb p.1 { s.sb p.1 with st := .closed }
        | none => s
      let s2 : State := s1.setSb n { s1.sb n with st := .opened }
      { (s2.stripeFull .host) with lake := { (s2.stripeFull .host).lake with hostOpen := some (n, 0) } }

/-- A run that a flush writes: in the data area while Lake admits it there, else in the Dusk reserve (05 R653; R211). -/
def State.flushPlace (s : State) (r : RegionId) (seg cs : Nat) : Option (State × Loc) :=
  let reserve := s.lake.wear == .spent || !s.lakeAdmits cs || s.freeSb == 0 || s.inReserve
  if reserve ∧ s.duskLeft < cs * 256 then none
  else ((if reserve then s.duskOpen else s).lakeRun .host r seg cs).map (fun p =>
    if reserve then ({ p.1 with lake := { p.1.lake with duskUsed := p.1.lake.duskUsed + cs } }, p.2) else p)

/-! ### Replay (05 R215 to R217; 06 R269; 16 R566) -/

/-- An entry that a record brings: one in EVACUATING stands in the state the region held before the evacuation (06 R269). -/
def REnt.over (e : REnt) (old : Option REnt) : REnt :=
  if e.st = .evacuating then { e with st := (old.map (fun x => x.st)).getD .new } else e

/-- Applies one journal record. -/
def Ckpt.apply (c : Ckpt) (j : JRec) : Ckpt :=
  match j with
  | .seg r i e => { c with sme := c.sme.put (segKey r i) e }
  | .region r e => { c with ent := c.ent.put r.toNat (e.over (c.ent.find r.toNat)) }
  | .regionDrop r => { c with ent := c.ent.del r.toNat, sme := c.sme.filter (fun p => p.1 / 2 ^ 34 != r.toNat), roots := c.roots.filter (fun p => p.1 / 2 ^ 17 != r.toNat) }
  | _ => c

/-- The Region Table entry after replay (06 R269). -/
def REnt.replayed (e : REnt) : REnt :=
  { e with st := if e.st = .active then .new else e.st, nhost := 0, coarse := false, dlost := false, gen := if e.gen.getLsbD 0 then e.gen + 1 else e.gen }

/-- An SME after replay: TRANSIT resolved, LEND clear, AGE now; a near home is lost unless the deferred flush saves it. -/
def Sme.replayed (e : Sme) (age : W16) : Sme :=
  let e1 := if e.st = .transit then e.edit (fun f => { f with st := e.src.code, prior := 0 }) else e
  let e2 := if e1.f.lend then e1.edit (fun f => { f with lend := false, spr := false, aux := 0 }) else e1
  let e3 := e2.edit (fun f => { f with age := age })
  match e3.home with
  | some (.near _ _) => e3.poison 7
  | _ => e3

/-- The deferred Keep flush of one preserved segment, placed as Dusk flush places (16 R566 steps 3 to 5). -/
def State.saveKept (s : State) (key : Nat) (e : Sme) : State :=
  let r := keyRegion key
  let seg := keySeg key
  match e.home with
  | some (.near false a) =>
    if s.pchFenced (a / 2 ^ 23) ∨ s.malformed e = true then s
    else match s.flushPlace r seg e.cs with
      | none => s
      | some p =>
        let b := s.readRun (.near false a) e.cs
        let e1 := (e.at p.2).edit (fun f => { f with age := s.clk.age })
        (((p.1.writeRun p.2 b).putSme r seg e1).noteRun r seg e1).journal (.seg r seg e1)
  | _ => s

/-- The journal's records of reserved type are skipped; JOURNAL_FAULT posts once for them (05 R215). -/
def State.journalFault (s : State) (recs : List JRec) : State :=
  if recs.any (fun j => match j with
    | .other _ => true
    | _ => false) then s.post { ev := .journalFault, okind := 0, obj := 0 } else s

/-- A superblock with the counts of a block table (05 R199). -/
def Sb.counted (b : Sb) (row : Option BlockRow) : Sb :=
  match row with
  | some x => { b with erase := x.erase, reads := x.reads }
  | none => { b with erase := 0, reads := [] }

/-- Volatile regions are absent and Keep regions stand as the checkpoint and the journal give them. `old` starts from the
checkpoint before the latest. -/
def State.replay (s : State) (old : Bool) : State :=
  let base : Ckpt := if old then s.lake.ckptOld else s.lake.ckpt
  let recs := if old then s.lake.jour else s.lake.jour.drop s.lake.jmark
  let c : Ckpt := recs.foldl Ckpt.apply base
  let age := s.clk.age
  let kept (k : Nat) : Bool := c.ent.has (k / 2 ^ 34)
  let s1 : State := { s with
    rt := { s.rt with
      ent := c.ent.foldl (fun t p => t.put p.1 p.2.replayed) s.rt.ent
      born := c.ent.map (fun p => (p.1, age)) }
    map := { s.map with sme := (c.sme.filter (fun p => kept p.1)).map (fun p => (p.1, p.2.replayed age)) }
    lake := { s.lake with
      mounted := true, wp := false, stripes := [], hostOpen := none, coldOpen := none, metaOpen := none, resv := 0, misses := [], mark := s.lake.wseq
      sb := s.lake.sb.map (fun (p : Nat × Sb) => (p.1, p.2.counted ((if old then base.blocks else s.lake.btab).find p.1)))
      idxAt := c.roots, idxDirty := [], mapAt := s.lake.mapAt.filter (fun p => c.ent.has (p.1 / 2 ^ 26)) } }
  let s2 : State := if s.sled.preserved then
      (s.sled.kept.filter (fun p => kept p.1 && (match c.sme.find p.1 with
        | some e => (e.home.any Loc.isNear)
        | none => false))).foldl (fun t p => t.saveKept p.1 p.2) s1
    else s1
  let s3 : State := s2.closeStripes.journalFault recs
  ({ s3 with sled := { s3.sled with preserved := false, kept := [] }, mem := { s3.mem with bytes := s3.mem.bytes.filter (fun x =>
      decide (3 * 2 ^ 68 ≤ x.1 ∧ x.1 < 4 * 2 ^ 68)) } }).checkpoint

/-! ### Power-down -/

/-- Stored bytes of flash: the only segment bytes that outlive the rails. -/
def flashBytes (m : List Host.Cell) : List Host.Cell := m.filter (fun x => decide (3 * 2 ^ 68 ≤ x.1 ∧ x.1 < 4 * 2 ^ 68))

/-- Lake with its power gone: what is in flash stays. -/
def LakeS.down (l : LakeS) : LakeS :=
  { l with sb := l.sb.map (fun p => if p.2.st = .opened then (p.1, { p.2 with st := .closed }) else p), mounted := false, wp := false, bbt := false, stripes := [], hostOpen := none, coldOpen := none, metaOpen := none, resv := 0, misses := [], urgent := false, bgc := false,
           ctl := LakeS.reset.ctl }

/-- The Region Table of a start: every ID FREED at the generation it had, which never resets (06 R233). -/
def State.emptyRt (s : State) : RtS :=
  { State.reset.rt with ent := (s.rt.ent.map (fun p => (p.1, { REnt.freed with gen := if p.2.gen.getLsbD 0 then p.2.gen + 1 else p.2.gen }))).filter (fun p => p.2 != REnt.freed) }

/-- The settings record with every Fence Map bit but the port halves' (01 R51, R52): a copy is made each time a bit is set, and no bit of it is
ever cleared. -/
def State.storedFences (s : State) : Tbl W64 :=
  ((s.evt.fmap.map (fun p => p.1)).filter (fun b => !decide (544 ≤ b ∧ b < 560))).foldl (fun t b =>
    let a := 0x10000 + 8 * (b / 64)
    t.put a (t.getD a 0 ||| ((1 : W64) <<< (b % 64)))) s.fw.store

/-- The rails have fallen and the sled is OFF (16 R556): what the next power-on reset finds. `input` says that the input is present:
the sled is then Dark (13 R478). -/
def State.powerDown (s : State) (input : Bool) (fault : Byte) : State :=
  { State.reset with
    id := s.id
    clk := { s.clk with age := 0, store := 0, rcFactor := 0 }
    sled := { State.reset.sled with dark := input, startFault := fault, latchOpen := s.sled.latchOpen, stayOff := fault == 1 || fault == 3 || fault == 4 }
    rt := s.emptyRt
    map := { State.reset.map with forms := s.map.forms }
    mem := { bytes := flashBytes s.mem.bytes, tarnEp := [] }
    pond := { State.reset.pond with odeFrom := s.clk.ms }
    lake := s.lake.down
    ports := { State.reset.ports with perst := s.ports.perst }
    pwr := { State.reset.pwr with vin := s.pwr.vin, band := s.pwr.band, switchOpen := s.pwr.switchOpen }
    wd := { State.reset.wd with btn := if s.wd.btn = 1 then 1 else 0, pressAt := s.wd.pressAt }
    fw := { s.fw with stage := none, wait := none, act := none, booted := 2, tried := [], dirty := false, lastRef := 0, lastFb := 0, probH := 24,
                      store := s.storedFences }
    mgt := { s.mgt with sess := [], formatting := false, eid := 0, held := [] }
    out := s.out
    pending := s.pending }

/-! ### What every restart ends -/

/-- Every port half is held in Detect: a link down for every host ID (07 R312, R314; 16 R563 step 1). -/
def State.holdPorts (s : State) : State :=
  (List.range 16).foldl (fun t h =>
    let x := t.halfReg h
    let u := if (t.hostsOn h) ≠ [] ∧ x.hold = false then t.dropLink h 2 else t
    let y := u.halfReg h
    u.setHalf h { y with link := 9, hold := true, ide := false }) s

/-- A pseudo-channel controller that is reset with its settings and counters kept (15 R542), its SIDs in self-refresh until the restarted firmware
runs (04 R179). -/
def Pch.restart (p : Pch) : Pch :=
  { p with steady := false, svc := false, debt := [], pd := [], selfRef := true, due := none, parity := false, window := 0, errRuns := 0 }

/-- What no restart and no VIGIL keeps: programs, queues, schedules, reads and requests in progress (15 R539; 16 R561, R564). -/
def State.dropWork (s : State) : State :=
  { s with
    q := State.reset.q
    lamp := State.reset.lamp
    dir := { State.reset.dir with recalls := s.dir.recalls }
    mgt := { s.mgt with held := [] }
    lake := { s.lake with misses := [], resv := 0 }
    ports := { s.ports with streams := [], runs := [], dcLog := [], pmoves := [], pwait := [], resets := [], np := [], fn := [] }
    pond := { s.pond with panic := [], bq := [] } }

/-! ### The flush (13 R453, R454; 05 R214) -/

/-- Chain frame words: `ISEQ`, `CHUNK`, `ARG`, then what the payload says (17 R572). -/
def State.chainSend (s : State) (link : Nat) (kind : ChainKind) (iseq : W64) (chunk arg : Nat) (more : List Nat) : State :=
  s.send (.chain link kind ([iseq.toNat, chunk, arg] ++ more))

/-- What stops at a Dusk flush (17 R599, R602): a staging, whose slot stays WRITING; the transfers, the one on DOWN with ABORT 2; an activation
that still waits for PANIC. -/
def State.chainStop (s : State) : State :=
  let s1 : State := match s.chn.tx with
    | some x => s.chainSend 1 .abort x.image.iseq 0 2 []
    | none => s
  { s1 with
    fw := { s1.fw with stage := none, wait := none, act := if s1.fw.act.any (fun a => a.paused) then s1.fw.act else none }
    chn := { s1.chn with rx := none, tx := none, xstate := if s1.chn.rx.isSome ∨ s1.chn.tx.isSome = true then 3 else s1.chn.xstate } }

/-- Step 2 of Dusk flush for a flush that has its own state (13 R453; 08 R350; 11 R428, R433). -/
def State.commandFlush (s : State) (trigger : Nat) : State :=
  let s1 : State := (s.setSled .duskFlush).post (pairPost .dusk 0 0 trigger s.pwr.budget)
  let s2 : State := (s1.q.progs.map (fun p => p.1)).foldl (fun t p => t.cancelProg p eState 1) s1
  let s3 : State := s2.lampStop
  let s4 : State := ((s3.lamp.sch.filter (fun p => p.2.armed)).map (fun p => p.1)).foldl (fun t k =>
    ((t.updSched k (fun y => { y with armed := false, prog := none, insts := [] })).writeBlock k).post
      { ev := .schedDisarmed, okind := 4, obj := schObj k, shost := schHost k, p0 := 4 }) s3
  let s5 : State := (s4.map.moves.map (fun p => p.1)).foldl State.abortMove s4
  let s6 : State := { s5 with
    ports := { s5.ports with stopStores := true }
    map := { s5.map with trials := [] }
    q := { s5.q with dispatching := false }
    sled := { s5.sled with flushCmd := true }
    pwr := { s5.pwr with wb := 0, switching := none, measuring := none, dusks := satInc s5.pwr.dusks,
                         entries := s5.pwr.entries.map (fun p => (p.1, { p.2 with ceil := BitVec.ofNat 16 (if 16 ≤ p.1 ∧ p.1 < 20 then 400 else litFloor p.1),
                                                                                  counted := BitVec.ofNat 16 (if 16 ≤ p.1 ∧ p.1 < 20 then 400 else litFloor p.1),
                                                                                  perm := 0, seq := p.2.seq + 1 })) } }
  let s7 : State := (List.range 21).foldl (fun t i =>
    let u := if i < 12 ∧ (t.ledger i).st = .banked then t.selfRefresh i false else t
    (u.setPst i .lit 0 4).trace 0 0x0A (i + (t.ledger i).ceil.toNat * 65536)) s6
  s7.chainStop.journal .flushBegin

/-- A flush begins. One whose Pilot is in a restart waits for the island (01 R49); one during an activation waits for the new firmware
(01 R46). -/
def State.startFlush (s : State) (f : Flush) : State :=
  let s1 : State := { s with sled := { s.sled with flush := some f } }
  match f with
  | .vigil => { s1 with sled := { s1.sled with flushCmd := true } }.journal .flushBegin
  | .dusk t => if s.wd.pilotRestart ∨ (s.fw.act.any (fun a => a.paused)) then s1 else s1.commandFlush t
  | .restart _ => s1.commandFlush 4

/-- Flushes one dirty Keep segment in its stored form (05 R214 step 3, R653). -/
def State.flushSeg (s0 : State) (key : Nat) : State :=
  let r := keyRegion key
  let seg := keySeg key
  let s := s0.checkSme r seg
  let e := s.sme r seg
  if e.nearSectors = 0 then s
  else match s.flushPlace r seg e.cs with
    | none => s
    | some p =>
      let t := p.1.relocate r seg p.2
      t.noteRun r seg (t.sme r seg)

/-- Dirty Keep segments in the order of the flush: the commitment first, then ascending (13 R454). -/
def State.flushOrder (s : State) : List Nat :=
  let dirty := s.map.sme.filter (fun p => s.isDirty (keyRegion p.1) p.2)
  (dirty.filter (fun p => s.committed (keyRegion p.1) p.2) ++ dirty.filter (fun p => !s.committed (keyRegion p.1) p.2)).map (fun p => p.1)

/-- Step 3 of a flush that the energy ends after some segments. -/
def State.flushSome (s : State) (n : Nat) : State :=
  if !s.hasLake ∨ s.lake.mounted = false then s else (s.flushOrder.take n).foldl State.flushSeg s

/-- SEG records among records. -/
def segRecords (l : List JRec) : Nat :=
  (l.filter (fun j => match j with
    | .seg _ _ _ => true
    | _ => false)).length

/-- Steps 3 to 5 of Dusk flush: the dirty segments, the entries, the open stripes, the block table and the closing record with the number of SEG
records the flush wrote (13 R454; 05 R214). -/
def State.flushKeep (s : State) : State :=
  if !s.hasLake ∨ s.lake.mounted = false then s
  else
    let s1 : State := s.flushSome s.flushOrder.length
    let s2 : State := ((s1.regions.filter (fun p => p.2.keep)).foldl (fun t p => t.journal (.region p.1 p.2)) s1).closeStripes
    ({ s2 with lake := { s2.lake with btab := s2.blockTable } }).journal (.flushEnd (segRecords (s1.lake.jour.drop s.lake.jour.length)))

/-! ### Warm restart (16 R563, R564) -/

/-- Steps 1 and 2 of a warm restart: the sled is in BOOT. Pond is in self-refresh and its bytes survive (04 R179); only the deferred flush uses
them (16 R566). -/
def State.restart (s : State) (rcause : Nat) : State :=
  let s1 : State := s.holdPorts.dropWork
  let s2 : State := { s1 with
    rt := s1.emptyRt
    map := { State.reset.map with forms := s1.map.forms }
    mem := { bytes := s1.mem.bytes, tarnEp := [] }
    pond := { s1.pond with pch := s1.pond.pch.map (fun p => (p.1, p.2.restart)), stk := s1.pond.stk, lat := PondS.reset.lat }
    lake := { s1.lake.down with ctl := s1.lake.ctl }
    clk := { s1.clk with age := 0, store := 0 }
    ports := { s1.ports with stopStores := false }
    pwr := { s1.pwr with profile := .serving, switching := none, packMs := 50, trimUs := 200, bankMs := 10000, w1 := 8, w2 := 4, w3 := 1, wb := 0 }
    fw := { s1.fw with stage := none, wait := none, act := none, tried := [] }
    chn := { s1.chn with rx := s1.chn.rx.map (fun (x : Rx) => { x with storing := false }) }
    mgt := { s1.mgt with formatting := false, sess := [] }
    evt := { s1.evt with recov := [] }
    wd := { s1.wd with rcause := BitVec.ofNat 4 rcause, pilotRestart := false, held := false, elapsed := 0, half := false,
                       wde := s1.wd.wde.map (fun p => (p.1, { p.2 with elapsed := 0, restart := false })) }
    sled := { s1.sled with boot := .verify, warm := true, flush := none, flushCmd := false, vigilNext := none, offNext := false, vigilDone := false } }
  (s2.setSled .boot).traceReset 1

/-- The SMEs of Keep segments with a Pond home, as the preserved map cache holds them (16 R566). -/
def State.keptSmes (s : State) : Tbl Sme := s.map.sme.filter (fun p => s.isDirty (keyRegion p.1) p.2 && p.2.home.any (fun l => !l.isSpring))

/-! ### VIGIL (15 R538 to R541) -/

/-- Whether a VIGIL cause skips the Keep flush (15 R539 step 2). -/
def skipsFlush (cause : Nat) : Bool := cause == 6 || cause == 8 || cause == 9 || cause == 0x0A

/-- Steps 3 and 4 of VIGIL entry: Lake write-protected, stacks in self-refresh, every unit Banked (15 R539). -/
def State.vigilSettle (s0 : State) : State :=
  let s : State := (List.range 20).foldl (fun t i => t.setPst i .banked 2 0) s0
  { s with
    lake := { s.lake with wp := s.hasLake }
    pond := { s.pond with pch := s.pond.pch.map (fun p => (p.1, { p.2 with selfRef := true })) }
    pwr := { s.pwr with entries := s.pwr.entries.map (fun p => if p.1 < 20 then (p.1, { p.2 with perm := 2 }) else p) }
    sled := { s.sled with flush := none, flushCmd := false, vigilNext := none, vigilDone := true } }

/-- Whether no Lantern can run a Keep flush: each is fenced or restarts (15 R554). -/
def State.noLantern (s : State) : Bool := (List.range 4).all (fun n => s.fenced (.lantern n) || (s.wd.wde.find n).any (fun x => x.restart))

/-- VIGIL entry (15 R539, R540; 16 R566; 17 R589: a ladder stage 3 during probation sets FALLBACK in WdC). It skips the flush too where no Lantern can
run it (R554). -/
def State.enterVigil (s : State) (cause : Nat) : State :=
  let served := s.up || s.sled.st == .duskFlush
  let skips := skipsFlush cause || s.noLantern
  let s1 : State := (s.post (pairPost .vigilEnter 0 0 cause 0)).setSled .vigil
  let s2 : State := { s1.holdPorts.dropWork with wd := { s1.wd with vcause := BitVec.ofNat 8 cause } }
  let s3 : State := { s2 with
    sled := { s2.sled with boot := .none, vigilDone := false }
    fw := { s2.fw with stage := none, wait := none, act := none }
    chn := { s2.chn with rx := s2.chn.rx.map (fun (x : Rx) => { x with storing := false }) } }
  if served ∧ skips = false ∧ s.sled.flush.isNone then s3.startFlush .vigil
  else
    let s4 : State := if served ∧ skips then { s3 with sled := { s3.sled with preserved := true, kept := s3.keptSmes } } else s3
    s4.vigilSettle

/-- A cause of VIGIL (15 R538, R552): entry at once while the sled starts or serves; it waits for a warm restart's Keep flush; a Dusk
flush ends in OFF whatever happens. -/
def State.askVigil (s : State) (cause : Nat) : State :=
  match s.sled.st with
  | .boot | .train | .ready | .serve => s.enterVigil cause
  | .duskFlush => match s.sled.flush, s.sled.vigilNext with
    | some (.restart _), none => { s with sled := { s.sled with vigilNext := some cause } }
    | _, _ => s
  | _ => s

/-- A fence; one that takes the last Lantern calls for VIGIL (01 R24; 15 R538). -/
def State.fenceUnits (s : State) (l : List FUnit) (cause : Byte) (setter : Nat) : State :=
  let s1 : State := s.fenceAll l cause setter
  if s1.fencedIn 96 100 = 4 ∧ s.fencedIn 96 100 ≠ 4 then s1.askVigil 6 else s1

/-- A fence of one unit. -/
def State.fenceUnit (s : State) (u : FUnit) (cause : Byte) (setter : Nat) : State := s.fenceUnits [u] cause setter

/-! ### Dusk triggers and restarts by state (13 R453; 14 R517; 16 R556, R568) -/

/-- A Dusk trigger: flush from READY or SERVE, OFF from BOOT or TRAIN, after a Keep flush OFF follows it (16 R568). -/
def State.duskTrigger (s : State) (trigger : Nat) (input : Bool) : State :=
  match s.sled.st with
  | .ready | .serve => s.startFlush (.dusk trigger)
  | .boot | .train => s.powerDown input (if trigger < 3 then 2 else if trigger = 6 then 3 else s.sled.startFault)
  | .duskFlush => match s.sled.flush with
    | some (.restart _) => { s with sled := { s.sled with offNext := true } }
    | _ => s
  | .vigil => if s.sled.flush.isSome then { s with sled := { s.sled with offNext := true } } else if input then s else s.powerDown false s.sled.startFault
  | .dead => if input then s else s.powerDown false s.sled.startFault
  | .off => s

/-- A warm restart is asked for (16 R563): with the Keep flush from READY and SERVE, at once from BOOT and TRAIN, from VIGIL once its
entry has ended. -/
def State.askRestart (s : State) (rcause : Nat) : State :=
  match s.sled.st with
  | .ready | .serve => s.startFlush (.restart rcause)
  | .boot | .train => s.restart rcause
  | .vigil => if s.sled.vigilDone then s.restart rcause else s
  | _ => s

/-! ### Firmware slots (17 R589, R590) -/

/-- A slot. -/
def FwS.slot (f : FwS) (n : Nat) : Slot := if n = 0 then f.slot0 else f.slot1

/-- Writes a slot. -/
def FwS.setSlot (f : FwS) (n : Nat) (x : Slot) : FwS := { (if n = 0 then { f with slot0 := x } else { f with slot1 := x }) with dseq := f.dseq + 1 }

/-- Changes a slot's state. -/
def FwS.mark (f : FwS) (n : Nat) (st : SlotSt) : FwS := f.setSlot n { f.slot n with st := st }

/-- Changes the states of both slots in one record of the directory (17 R577). -/
def FwS.mark2 (f : FwS) (n : Nat) (a b : SlotSt) : FwS := { (f.mark n a).mark (1 - n) b with dseq := f.dseq + 1 }

/-- The slot in a state, if one is. -/
def FwS.inState (f : FwS) (st : SlotSt) : Option Nat := if f.slot0.st = st then some 0 else if f.slot1.st = st then some 1 else none

/-- Whether a slot holds a complete image (17 R577, R590). -/
def Slot.complete (x : Slot) : Bool := x.st != .empty && x.st != .writing

/-- Whether probation has ended unconfirmed (17 R587). -/
def FwS.expired (f : FwS) : Bool := (f.inState .probation).isSome && decide (f.probH.toNat * 6 ≤ f.probEl.toNat)

/-- The slot that the boot ROM tries first (17 R590 steps 1 and 2). -/
def FwS.select (f : FwS) : Nat :=
  if f.fallback ∨ f.expired = true then (f.inState .previous).getD f.boot else f.boot

end Sys2Proof.Machine
end

