-- ==== Sys2Proof/Machine/LakeOps.lean ====
section
/-! DEFINITION. The map cache (02 R63 to R66), blocks that retire, relocation, read disturb, endurance phases and garbage collection (05 R201 to R208). -/

namespace Sys2Proof.Machine

/-! ### The map cache (02 R63 to R66) -/

/-- Map pages that the cache of one stack holds (14 R506; assumption log 20). -/
def mapCachePages : Nat := 196608

/-- Segments of a map page that keep it in the cache (R64). -/
def State.pageHolds (s : State) (page : Nat) : List (Nat × Sme) :=
  s.map.sme.filter (fun p => pageKey (keyRegion p.1) (keySeg p.1) == page && (p.2.home.any Loc.isNear || p.2.image.isSome || p.2.st == .transit))

/-- How long ago a page was last used: the least age of its segments, in ticks. -/
def State.pageAge (s : State) (page : Nat) : Nat :=
  ((s.map.sme.filter (fun p => pageKey (keyRegion p.1) (keySeg p.1) == page)).map (fun p => (s.clk.age - p.2.f.age).toNat)).foldl min 65536

/-- Whether everything that keeps a page in the cache may leave Pond: it holds no pinned segment, and no home of a POND-ONLY or RT-flagged region
(R71, R83, R85). -/
def State.pageMay (s : State) (page : Nat) : Bool := (s.pageHolds page).all (fun p => s.demotable (keyRegion p.1) p.2)

/-- The page of a stack that leaves a full map cache (R66): the one with the oldest maximum `AGE`, the lowest on a tie. -/
def State.pageVictim (s : State) (l : List Nat) : Option Nat :=
  ((l.filter s.pageMay).foldl (fun (a : Option (Nat × Nat)) p =>
    let n := s.pageAge p
    match a with
    | none => some (p, n)
    | some x => if x.2 < n then some (p, n) else a) none).map (fun x => x.1)

/-- A page that leaves the cache: its images are dropped, then its near homes are demoted, in the order of R82; once nothing keeps it, it is
written to Lake. -/
def State.evictPage (s : State) (page : Nat) : State :=
  let here (p : Nat × Sme) : Bool := pageKey (keyRegion p.1) (keySeg p.1) == page
  let s1 := (s.oldestFirst (fun p => here p && p.2.image.isSome)).foldl (fun t p => t.dropImage (keyRegion p.1) (keySeg p.1)) s
  let s2 := (s1.oldestFirst (fun p => here p && p.2.home.any Loc.isNear)).foldl (fun t p => t.demote (keyRegion p.1) (keySeg p.1) 3 .evict) s1
  if s2.pageHolds page ≠ [] then s2
  else match s2.storePage? page with
    | some t => { t with map := { t.map with away := t.map.away ++ [page] } }
    | none => s2

/-- A full map cache sends its victim to Lake (R66). -/
def State.trimMap (s : State) : State :=
  if s.hasLake = false ∨ s.map.sme.length ≤ mapCachePages then s
  else (List.range 12).foldl (fun t k =>
    let l := (t.pagesAt k).filter (fun p => !t.map.away.contains p)
    if l.length ≤ mapCachePages then t else (t.pageVictim l).elim t t.evictPage) s

/-! ### Relocation -/

/-- Starts to move every valid run on flash pages that pass a test elsewhere through the cold stream, in a class; a run that is on its way already
goes on in that class where it is the higher one. -/
def State.relocatePages (s : State) (test : Nat → Bool) (cls : Nat) : State :=
  (s.map.sme.filter (fun p => match p.2.home with
    | some (.flash f _) => test f
    | _ => false)).foldl (fun t p =>
      let r := keyRegion p.1
      let seg := keySeg p.1
      match t.moveOf r seg with
      | some m => if m.2.why = .ftl then { t with map := { t.map with moves := t.map.moves.put m.1 { m.2 with cls := min m.2.cls cls } } } else t
      | none => t.relocateLake r seg cls) s

/-- Whether a flash page lies in a block: superblock and member number. -/
def inBlock (sb member f : Nat) : Bool := sbOf f == sb && f % 32 * 4 + f / 1024 % 4 == member

/-! ### Endurance phases (R200, R207 to R211) -/

/-- Good blocks of a superblock. -/
def Sb.good (b : Sb) : Nat := 128 - b.retired.length

/-- Mean erase count over good blocks of the data area. -/
def State.peMean (s : State) : Nat :=
  let from0 := s.id.variant.dataFrom
  let l := s.lake.sb.filter (fun p => decide (from0 ≤ p.1))
  let blocks := (s.id.variant.sbs - from0) * 128 - (l.map (fun p => p.2.retired.length)).sum
  if blocks = 0 then 0 else (l.map (fun p => p.2.erase * p.2.good)).sum / blocks

/-- `SPARE_PM` and `LAST_PM` (R221). -/
def State.sparePm (s : State) : Nat := if s.hasLake then (s.spareBytes.toNat * 1000) / s.id.variant.raw else 0
def State.lastPm (s : State) : Nat := if s.hasLake then s.lastReserve * 1000 / s.id.variant.raw else 0

/-- Number of a phase. -/
def Wear.code : Wear → Nat
  | .bright => 0 | .dim => 1 | .guttering => 2 | .spent => 3

/-- The phase that spare and erase counts give. -/
def State.wearNow (s : State) : Wear :=
  let raw : Int := s.id.variant.raw
  if s.lastReserve = 0 then .spent
  else if s.spareBytes * 100 < 3 * raw then .guttering
  else if s.spareBytes * 100 < 8 * raw ∨ 2700 ≤ s.peMean then .dim
  else .bright

/-- Evaluates the phase: it only advances, and posts the event of every phase entered or skipped (R208). -/
def State.evalWear (s : State) : State :=
  let old := s.lake.wear.code
  let now := s.wearNow
  if s.hasLake = false ∨ now.code ≤ old then s
  else
    let s1 : State := { s with lake := { s.lake with wear := now } }
    let ev (t : State) (n : Nat) (e : Ev) : State := if old < n ∧ n ≤ now.code then t.post (pairPost e 0 0 t.sparePm t.peMean) else t
    let s2 := ev (ev (ev s1 1 .lakeDim) 2 .lakeGutter) 3 .lakeSpent
    (if 2 ≤ now.code then s2.advise 7 else s2).rebudget

/-- A block retires (R206): its valid runs move, a RETIRE record is written, and it leaves its superblock. -/
def State.retireBlock (s : State) (n member : Nat) : State :=
  if (s.sb n).retired.contains member then s
  else
    let s1 : State := s.setSb n { s.sb n with retired := (s.sb n).retired ++ [member] }
    let s2 : State := { s1 with lake := { s1.lake with retired := s1.lake.retired + 1 } }
    ((s2.replaceRuns (inBlock n member)).relocatePages (inBlock n member) 3).journal (.retire n member) |>.evalWear

/-! ### Read disturb and reconstruction (R204, R206) -/

/-- Counts a page read and how it ended (05 R188, R204, R224). -/
def State.countRead (s : State) (h : Loc) (o : LakeOut) : State :=
  match h with
  | .flash f _ =>
    let n := sbOf f
    let member := f % 32 * 4 + f / 1024 % 4
    let b := s.sb n
    let s1 := s.setSb n { b with reads := b.reads.put member (b.reads.getD member 0 + 1) }
    match o with
    | .first _ | .unreadable => s1
    | .retried _ => { s1 with lake := { s1.lake with retry := satInc s1.lake.retry } }
    | .rebuilt _ =>
      let c := satInc s1.lake.recon
      let s2 := { s1 with lake := { s1.lake with recon := c } }
      let d := f % 32 * 32 + f / 32 % 32
      if s2.fenced (.die d) ∧ s2.lake.reconDies.contains d = false then
        ({ s2 with lake := { s2.lake with reconDies := s2.lake.reconDies ++ [d] } }).post (pairPost .lakeRecon (FUnit.die d).obj.1 (FUnit.die d).obj.2 c.toNat 0)
      else s2
  | _ => s

/-- The sector check that a read gave, none where no decode step gave the sectors. -/
def lakeChk : LakeOut → Option Chk
  | .first c => some c
  | .retried c => some c
  | .rebuilt c => some c
  | .unreadable => none

/-- Read disturb of a block: from the read that reaches 50,000 on, what is valid in it is on its way out (R204). -/
def State.disturbed (s : State) (n member : Nat) : State :=
  let c := (s.sb n).reads.getD member 0
  if c < 50000 ∨ s.lake.wear = .spent then s
  else
    let u := s.relocatePages (inBlock n member) (if 60000 ≤ c then 1 else 3)
    if c = 50000 then { u with lake := { u.lake with rdReloc := satInc u.lake.rdReloc } } else u

/-- What a page read leaves to do: a block read 50,000 times is relocated at C3, and from 60,000 on at C1; a block with a page that needed
reconstruction retires, unless its die is fenced. -/
def State.afterRead (s : State) (h : Loc) (o : LakeOut) : State :=
  match h with
  | .flash f _ =>
    let n := sbOf f
    let member := f % 32 * 4 + f / 1024 % 4
    let die := f % 32 * 32 + f / 32 % 32
    let s1 := s.disturbed n member
    match o with
    | .rebuilt _ | .unreadable => if s1.fenced (.die die) then s1 else s1.retireBlock n member
    | _ => s1
  | _ => s

/-! ### Garbage collection (R201 to R203, R213) -/

/-- Sectors of valid runs on a superblock: a run is valid while its owner's SME names its location (R195). -/
def State.validOn (s : State) (n : Nat) : Nat :=
  (s.map.sme.map (fun p => match p.2.home with
    | some (.flash f _) => if sbOf f = n then p.2.cs else 0
    | _ => 0)).sum

/-- Runs of a superblock whose summary entries name their owner rightly: what garbage collection finds to move (R195). -/
def State.ownedRuns (s : State) (n : Nat) : List Nat :=
  (s.lake.summ.filter (fun p => sbOf (p.1 / 64) == n &&
    decide ((s.sme p.2.region p.2.seg).home = some (.flash (p.1 / 64) (p.1 % 64))))).map (fun p => segKey p.2.region p.2.seg)

/-- Starts and stops background and urgent collection by the count of free superblocks. -/
def State.gcFlags (s : State) : State :=
  if s.hasLake = false then s
  else
    let n := s.freeSb
    let lim := if s.pwr.profile = .training then (256, 320) else (48, 64)
    { s with lake := { s.lake with
        urgent := if n < 16 then true else if 24 ≤ n then false else s.lake.urgent
        bgc := if n < lim.1 then true else if lim.2 ≤ n then false else s.lake.bgc } }

/-- Closed superblocks of the data area. -/
def State.closedSbs (s : State) : List (Nat × Sb) := s.lake.sb.filter (fun p => p.2.st == .closed && decide (s.id.variant.dataFrom ≤ p.1))

/-- Whether open stripes or uncommitted moves still lie on a superblock (05 R194). -/
def State.sbBusy (s : State) (n : Nat) : Bool :=
  s.lake.stripes.any (fun p => p.2.sb == n) || s.map.moves.any (fun p => match p.2.dest with
    | .flash f _ => sbOf f == n
    | _ => false)

/-- Whether garbage collection may take a superblock: the one with the fewest valid sectors, the oldest on a tie, while collection
runs; one at most half valid, under Training; the least erased, when the spread of erase counts asks for wear levelling; one of
the Dusk reserve, while the reserve is not whole. -/
def State.gcMay (s : State) (n : Nat) : Bool :=
  let b := s.sb n
  let from0 := s.id.variant.dataFrom
  let training := s.pwr.profile == .training
  let listed := s.lake.sb.filter (fun p => decide (from0 ≤ p.1))
  let lo := if listed.length < s.id.variant.sbs - from0 then 0 else (listed.map (fun p => p.2.erase)).foldl min s.lake.peMax
  let hi := (listed.map (fun p => p.2.erase)).foldl max 0
  s.hasLake && s.lake.mounted && !s.lake.wp && s.lake.wear != .spent && s.sled.flush.isNone && !s.nandStopped && b.st == .closed &&
  s.serves (.ftl 0) && s.serves (.ftl 1) &&
  ((decide (s.lake.duskUsed ≠ 0 ∧ from0 - 15 ≤ n ∧ n < from0) && !s.lake.urgent) ||
   ((s.lake.duskUsed == 0 || s.lake.urgent) && decide (from0 ≤ n) &&
    (((s.lake.urgent || s.lake.bgc) && s.closedSbs.all (fun p => decide (s.validOn n < s.validOn p.1 ∨ (s.validOn n = s.validOn p.1 ∧ b.progAt ≤ p.2.progAt)))) ||
     (training && decide (2 * s.validOn n ≤ 128 * 2304 * 64)) ||
     (decide ((if training then 300 else 600) ≤ hi - lo) && s.closedSbs.all (fun p => decide (b.erase ≤ p.2.erase))))))

/-- Sectors that the runs of one superblock can hold: 31 of its 32 pages per stripe. -/
def sbSectors : Nat := 31 * 9216 * 64

/-- What the Dusk reserve lacks once some of its 15 superblocks are erased, in sectors (R213; assumption log 18). -/
def State.duskLack (s : State) : Nat :=
  duskReserve / 256 - ((List.range 15).filter (fun i => (s.sb (s.id.variant.dataFrom - 15 + i)).isFree)).length * sbSectors

/-- A superblock has been erased: it is free and holds no page, its erase count has grown, and blocks at 4,500 erasures retire (R206). -/
def State.erased (s : State) (n : Nat) : State :=
  let b := s.sb n
  let c := b.erase + 1
  let s1 : State := s.setSb n { b with st := .free, erase := c, reads := [] }
  let s2 : State := { s1 with lake := { s1.lake with
    peMax := max s1.lake.peMax c
    written := s1.lake.written.filter (fun p => p.1 / 9216 != n)
    summ := s1.lake.summ.filter (fun p => sbOf (p.1 / 64) != n)
    duskUsed := if s.id.variant.dataFrom ≤ n then s1.lake.duskUsed else min s1.lake.duskUsed s1.duskLack } }
  let s3 := if 4500 ≤ c then (List.range 128).foldl (fun t m => t.retireBlock n m) s2 else s2
  s3.gcFlags.rebudget

end Sys2Proof.Machine
end

