-- ==== Sys2Proof/Machine/Float.lean ====
section
/-! DEFINITION. Element types, exact arithmetic and rounding (09 R357 to R362). A finite value is a sign, a natural mantissa
and a power of two, so that every operation is computed exactly and rounded once. -/

namespace Sys2Proof.Machine

/-- A binary format: exponent bits, mantissa bits, bias, bits of the largest finite value, whether it has infinities, its
canonical NaN (09 R357). -/
structure Fmt where
  eb : Nat
  mb : Nat
  bias : Nat
  maxFin : Nat
  hasInf : Bool
  nan : Nat
deriving DecidableEq, Repr

/-- BF16. -/
def Fmt.bf16 : Fmt := ⟨8, 7, 127, 0x7F7F, true, 0x7FC0⟩
/-- FP16. -/
def Fmt.fp16 : Fmt := ⟨5, 10, 15, 0x7BFF, true, 0x7E00⟩
/-- FP32. -/
def Fmt.fp32 : Fmt := ⟨8, 23, 127, 0x7F7FFFFF, true, 0x7FC00000⟩
/-- FP8 E4M3: no infinity, S.1111.111 is NaN. -/
def Fmt.e4m3 : Fmt := ⟨4, 3, 7, 0x7E, false, 0x7F⟩
/-- FP8 E5M2. -/
def Fmt.e5m2 : Fmt := ⟨5, 2, 15, 0x7B, true, 0x7E⟩

/-- Bits of a format. -/
def Fmt.width (f : Fmt) : Nat := 1 + f.eb + f.mb

/-- The float formats by type code 0x0 to 0x4 (09 R357). -/
def fmtOf : Nat → Option Fmt
  | 0 => some .bf16
  | 1 => some .fp16
  | 2 => some .fp32
  | 3 => some .e4m3
  | 4 => some .e5m2
  | _ => none

/-- Element bits by type code (09 R357). -/
def elemBits : Nat → Nat
  | 0 => 16
  | 1 => 16
  | 2 => 32
  | 3 => 8
  | 4 => 8
  | 5 => 8
  | 6 => 4
  | _ => 32

/-- A float value, exactly: (-1)^neg x m x 2^e when finite. -/
inductive FV
  | nan
  | inf (neg : Bool)
  | fin (neg : Bool) (m : Nat) (e : Int)
deriving DecidableEq, Repr

/-- The value of a bit pattern; subnormals are kept (09 R358). -/
def Fmt.decode (f : Fmt) (b : Nat) : FV :=
  let neg := decide (1 ≤ b / 2 ^ (f.eb + f.mb) % 2)
  let mag := b % 2 ^ (f.eb + f.mb)
  let e := mag / 2 ^ f.mb
  let m := mag % 2 ^ f.mb
  if f.maxFin < mag then (if f.hasInf ∧ m = 0 then .inf neg else .nan)
  else if e = 0 then .fin neg m (1 - f.bias - f.mb : Int)
  else .fin neg (m + 2 ^ f.mb) ((e : Int) - f.bias - f.mb)

/-- Whether rounding by `mode` (09 R359) takes a magnitude up, from the kept low bit, the remainder and the half. -/
def roundUp (mode : Nat) (neg odd : Bool) (rem half : Nat) : Bool :=
  match mode with
  | 0 => decide (half < rem) || (rem == half && rem != 0 && odd)
  | 1 => false
  | 2 => neg && rem != 0
  | _ => !neg && rem != 0

/-- What a finite overflow gives: IEEE 754 for BF16, FP16 and FP32; saturation for the 8-bit types (09 R360). -/
def Fmt.overflow (f : Fmt) (mode : Nat) (neg : Bool) : Nat :=
  let toInf : Bool := match mode with
    | 0 => true
    | 1 => false
    | 2 => neg
    | _ => !neg
  if 8 < f.width ∧ toInf = true then f.maxFin + 1 else f.maxFin

/-- The sign bit of a format. -/
def Fmt.signBit (f : Fmt) (neg : Bool) : Nat := if neg then 2 ^ (f.eb + f.mb) else 0

/-- Rounds an exact magnitude m x 2^e to a format (09 R358 to R360). -/
def Fmt.round (f : Fmt) (mode : Nat) (neg : Bool) (m : Nat) (e : Int) : Nat :=
  if m = 0 then f.signBit neg
  else
    let top : Int := e + m.log2
    let emin : Int := 1 - f.bias
    let q : Int := max top emin - f.mb
    let k : Nat := if q ≤ e then m * 2 ^ (e - q).toNat
      else
        let sh := (q - e).toNat
        let kept := m / 2 ^ sh
        if roundUp mode neg (kept % 2 == 1) (m % 2 ^ sh) (2 ^ (sh - 1)) then kept + 1 else kept
    let bits : Nat := (q + f.mb + f.bias - 1).toNat * 2 ^ f.mb + k
    f.signBit neg + (if f.maxFin < bits then f.overflow mode neg else bits)

/-- An infinity in a format: E4M3 saturates it (09 R360). -/
def Fmt.infBits (f : Fmt) (neg : Bool) : Nat := f.signBit neg + (if f.hasInf then f.maxFin + 1 else f.maxFin)

/-- The bits of a value, rounded. -/
def Fmt.encode (f : Fmt) (mode : Nat) : FV → Nat
  | .nan => f.nan
  | .inf n => f.infBits n
  | .fin n m e => f.round mode n m e

/-- Exact product (09 R358). -/
def FV.mul : FV → FV → FV
  | .nan, _ => .nan
  | _, .nan => .nan
  | .inf a, .inf b => .inf (a != b)
  | .inf a, .fin b m _ => if m = 0 then .nan else .inf (a != b)
  | .fin a m _, .inf b => if m = 0 then .nan else .inf (a != b)
  | .fin a m e, .fin b n g => .fin (a != b) (m * n) (e + g)

/-- Negation. -/
def FV.neg : FV → FV
  | .nan => .nan
  | .inf a => .inf (!a)
  | .fin a m e => .fin (!a) m e

/-- Whether a value is an infinity of a sign. -/
def FV.isInf (neg : Bool) : FV → Bool
  | .inf n => n == neg
  | _ => false

/-- The lowest exponent among finite terms. -/
def minExp : List FV → Int → Int
  | [], acc => acc
  | .fin _ _ e :: t, acc => minExp t (min e acc)
  | _ :: t, acc => minExp t acc

/-- The exact integer sum of finite terms at a common exponent. -/
def sumAt (e0 : Int) : List FV → Int
  | [] => 0
  | .fin n m e :: t => (if n then -((m * 2 ^ (e - e0).toNat : Nat) : Int) else ((m * 2 ^ (e - e0).toNat : Nat) : Int)) + sumAt e0 t
  | _ :: t => sumAt e0 t

/-- Whether every term is a zero of one sign. -/
def allZeroOf (neg : Bool) (l : List FV) : Bool :=
  l.all (fun v => match v with
    | .fin n m _ => n == neg && m == 0
    | _ => false)

/-- Exact sum of terms, whose rounding mode decides only the sign of an exact zero (09 R358, IEEE 754). -/
def sumFV (mode : Nat) (l : List FV) : FV :=
  if l.any (· == .nan) then .nan
  else if l.any (FV.isInf true) ∧ l.any (FV.isInf false) then .nan
  else if l.any (FV.isInf true) then .inf true
  else if l.any (FV.isInf false) then .inf false
  else
    let e0 := minExp l 0
    let s := sumAt e0 l
    if s = 0 then
      (if allZeroOf true l then .fin true 0 0 else if allZeroOf false l then .fin false 0 0 else .fin (mode == 2) 0 0)
    else .fin (decide (s < 0)) s.natAbs e0

/-- Compares two values: -1, 0 or 1, none with a NaN; +0 equals -0. -/
def cmpFV (a b : FV) : Option Int :=
  match sumFV 0 [a, b.neg] with
  | .fin n m _ => some (if m = 0 then 0 else if n then -1 else 1)
  | .inf n => some (if n then -1 else 1)
  | .nan => match a, b with
    | .inf x, .inf y => some (if x == y then 0 else if x then -1 else 1)
    | _, _ => none

/-- The larger of two bit patterns of a format: +0 above -0, NaN if either is NaN (09 R379). -/
def Fmt.maxBits (f : Fmt) (a b : Nat) : Nat :=
  match cmpFV (f.decode a) (f.decode b) with
  | none => f.nan
  | some c => if c = 0 then (if f.signBit true ≤ a then b else a) else if c < 0 then b else a

/-- The smaller, -0 below +0, NaN if either is NaN. -/
def Fmt.minBits (f : Fmt) (a b : Nat) : Nat :=
  match cmpFV (f.decode a) (f.decode b) with
  | none => f.nan
  | some c => if c = 0 then (if f.signBit true ≤ a then a else b) else if c < 0 then a else b

/-- Sum of two FP32 patterns, rounded (09 R361). -/
def addF32 (mode a b : Nat) : Nat := Fmt.fp32.encode mode (sumFV mode [Fmt.fp32.decode a, Fmt.fp32.decode b])

/-- Difference of two FP32 patterns. -/
def subF32 (mode a b : Nat) : Nat := Fmt.fp32.encode mode (sumFV mode [Fmt.fp32.decode a, (Fmt.fp32.decode b).neg])

/-- Product of two FP32 patterns. -/
def mulF32 (mode a b : Nat) : Nat := Fmt.fp32.encode mode ((Fmt.fp32.decode a).mul (Fmt.fp32.decode b))

/-! ### The approximate functions (09 R362) -/

/-- The unit in the last place at a positive FP32 value of top exponent t: exponent of the ulp. -/
def ulpExp (t : Int) : Int := max t (-126) - 23

/-- A dyadic m x 2^e as an integer scaled by 2^1200. -/
def scaled (m : Nat) (e : Int) : Nat := m * 2 ^ (e + 1200).toNat

/-- Whether positive c lies within 1 ulp of 1/√x, for positive x: (c - u)² x ≤ 1 ≤ (c + u)² x, exactly. `u` is the ulp at c. -/
def rsqWithin (x c : Nat) : Bool :=
  match Fmt.fp32.decode x, Fmt.fp32.decode c with
  | .fin false mx ex, .fin false mc ec =>
    if mc = 0 then false
    else
      let u := ulpExp (ec + mc.log2)
      let e0 := min ec u
      let cc := mc * 2 ^ (ec - e0).toNat
      let uu := 2 ^ (u - e0).toNat
      let k := 2 * e0 + ex
      let le1 := fun (v : Nat) => if 0 ≤ k then decide (v * 2 ^ k.toNat ≤ 1) else decide (v ≤ 2 ^ (-k).toNat)
      let ge1 := fun (v : Nat) => if 0 ≤ k then decide (1 ≤ v * 2 ^ k.toNat) else decide (2 ^ (-k).toNat ≤ v)
      le1 ((cc - uu) ^ 2 * mx) && ge1 ((cc + uu) ^ 2 * mx)
  | _, _ => false

/-- 1/√x rounded toward zero to 24 bits, for positive finite x. -/
def rsqFloor (mx : Nat) (ex : Int) : Nat :=
  let sh : Int := if ex % 2 = 0 then 0 else 1
  -- 1/√(m 2^e) = √(2^(200+s) / m) x 2^(-100 - (e+s)/2)
  let r := (2 ^ (200 + sh.toNat) / mx).sqrt
  Fmt.fp32.round 1 false r (-100 - (ex + sh) / 2)

/-- The reciprocal square root of an FP32 pattern: special cases exact, otherwise the unit's value where it lies within 1 ulp
(09 R362). -/
def rsqF32 (x : Nat) : Nat :=
  match Fmt.fp32.decode x with
  | .nan => Fmt.fp32.nan
  | .inf true => Fmt.fp32.nan
  | .inf false => 0
  | .fin neg m e =>
    if m = 0 then Fmt.fp32.infBits neg
    else if neg then Fmt.fp32.nan
    else
      let c := (Config.rsqrt (BitVec.ofNat 32 x)).toNat
      if rsqWithin x c then c else rsqFloor m e

/-- Fixed point with 400 fraction bits. -/
def fxOne : Nat := 2 ^ 400

/-- Σ y^i / i! for i up to 60, y fixed point with sign: an alternating sum for negative y. -/
def expSeries (y : Nat) : Nat :=
  let r := (List.range 60).foldl
    (fun (acc : Int × Nat) i =>
      let t := acc.2 * y / fxOne / (i + 1)
      (acc.1 + (if i % 2 = 0 then -(t : Int) else (t : Int)), t)) ((fxOne : Int), fxOne)
  r.1.toNat

/-- e^(-a) in fixed point, for 0 ≤ a < 256 given in fixed point: the series at a/2^12, squared 12 times. -/
def expNegFx (a : Nat) : Nat := (List.range 12).foldl (fun v _ => v * v / fxOne) (expSeries (a / 2 ^ 12))

/-- Whether c lies within 2 ulp of e^(-a), for positive a below 256, with a slack of 2^-300 for the enclosure's own error. -/
def expWithin (ma : Nat) (ea : Int) (c : Nat) : Bool :=
  match Fmt.fp32.decode c with
  | .fin false mc ec =>
    let a := if 0 ≤ ea + 400 then ma * 2 ^ (ea + 400).toNat else ma / 2 ^ (-(ea + 400)).toNat
    let v := expNegFx a
    let cc := mc * 2 ^ (ec + 400).toNat
    let u := 2 ^ (ulpExp (if v = 0 then -126 else (v.log2 : Int) - 400) + 400).toNat
    decide (cc ≤ v + 2 * u + 2 ^ 100) && decide (v ≤ cc + 2 * u + 2 ^ 100)
  | _ => false

/-- The exponential of an FP32 pattern that is not above 0: special cases exact, otherwise the unit's value where it lies
within 2 ulp (09 R362). A positive argument never arises in SMAXP; its value is the unit's. -/
def expF32 (x : Nat) : Nat :=
  match Fmt.fp32.decode x with
  | .nan => Fmt.fp32.nan
  | .inf true => 0
  | .inf false => Fmt.fp32.infBits false
  | .fin neg m e =>
    if m = 0 then 0x3F800000
    else
      let c := (Config.expf (BitVec.ofNat 32 x)).toNat
      if !neg then c
      else if 8 ≤ e + m.log2 then (if c ≤ 2 then c else 0)
      else if expWithin m e c then c
      else
        let a := if 0 ≤ e + 400 then m * 2 ^ (e + 400).toNat else m / 2 ^ (-(e + 400)).toNat
        Fmt.fp32.round 1 false (expNegFx a) (-400)

/-! ### Conversions (09 R360) -/

/-- Integer value of a value rounded by mode. -/
def FV.toInt (mode : Nat) : FV → Int
  | .nan => 0
  | .inf n => if n then -(2 ^ 200) else 2 ^ 200
  | .fin n m e =>
    let k : Nat := if 0 ≤ e then m * 2 ^ e.toNat
      else
        let sh := (-e).toNat
        let kept := m / 2 ^ sh
        if roundUp mode n (kept % 2 == 1) (m % 2 ^ sh) (2 ^ (sh - 1)) then kept + 1 else kept
    if n then -(k : Int) else k

/-- A signed integer as an exact value. -/
def FV.ofInt (i : Int) : FV := .fin (decide (i < 0)) i.natAbs 0

/-- Saturates an integer to b bits, two's complement. -/
def satInt (b : Nat) (i : Int) : Nat :=
  let lo : Int := -(2 ^ (b - 1))
  let hi : Int := 2 ^ (b - 1) - 1
  ((min hi (max lo i)) % (2 ^ b)).toNat

/-- The signed value of b bits. -/
def signedOf (b v : Nat) : Int := if 2 ^ (b - 1) ≤ v then (v : Int) - 2 ^ b else v

/-- The value of an element of a type code: floats, INT8, INT4, INT32 (09 R357). -/
def elemVal (ty v : Nat) : FV :=
  match fmtOf ty with
  | some f => f.decode v
  | none => FV.ofInt (signedOf (elemBits ty) v)

/-- Converts an exact value to a type code (09 R360). -/
def toElem (mode ty : Nat) (v : FV) : Nat :=
  match fmtOf ty with
  | some f => f.encode mode v
  | none => satInt (elemBits ty) (v.toInt mode)

end Sys2Proof.Machine
end

