-- ==== Sys2Proof/Machine/Tallow.lean ====
section
/-! DEFINITION. What every Tallow instruction shares: word fields, the checks of 08 R333 and R342, addresses, loads through the
directory, pending stores and commit points (08 R327 to R345; 09 R354 to R377; 10 R391 to R399). A command names the program whose
current word it executes; a word that is another instruction leaves the state as it is (assumption log 3). -/

namespace Sys2Proof.Machine

/-! ### Detail codes (08 R336, R344) -/

def dBadOpcode : W16 := 1
def dReserved : W16 := 2
def dRange : W16 := 3
def dClass : W16 := 4
def dNoHalt : W16 := 5
def dBadTarget : W16 := 6
def dNoExt : W16 := 7
def dNull : W16 := 8
def dAlign : W16 := 9
def dBadDesc : W16 := 10

/-- An E_ARG failure. -/
def argErr (d : W16) : Err1 := { status := eArg, detail := d }

/-- An E_STATE failure that names a region. -/
def stateErr (d : W16) (r : Option RegionId) : Err1 := { status := eState, detail := d, region := r }

/-- An E_PERM failure. -/
def permErr (d : W16) (r : Option RegionId) : Err1 := { status := ePerm, detail := d, region := r }

/-- An E_CAPACITY failure. -/
def capErr (d : W16) : Err1 := { status := eCapacity, detail := d }

/-! ### Word fields (08 R330) -/

def fOp (w : W64) : Nat := (w.extractLsb' 0 8).toNat
def fPred (w : W64) : Nat := (w.extractLsb' 9 3).toNat
def fPneg (w : W64) : Bool := w.getLsbD 12
def fFmt (w : W64) : Nat := (w.extractLsb' 13 3).toNat
def fD (w : W64) : Nat := (w.extractLsb' 16 5).toNat
def fA (w : W64) : Nat := (w.extractLsb' 21 5).toNat
/-- `B` of format R. -/
def fB (w : W64) : Nat := (w.extractLsb' 26 5).toNat
/-- `C` of format R. -/
def fC (w : W64) : Nat := (w.extractLsb' 31 5).toNat
/-- `MOD` of format R. -/
def fModR (w : W64) : Nat := (w.extractLsb' 36 8).toNat
/-- `MOD` of formats I and J. -/
def fModI (w : W64) : Nat := (w.extractLsb' 26 6).toNat
/-- `IMM` or `TGT`. -/
def fImm (w : W64) : W32 := w.extractLsb' 32 32
/-- `H` of format M. -/
def fH (w : W64) : Nat := (w.extractLsb' 26 3).toNat
/-- `B` of format M. -/
def fBM (w : W64) : Nat := (w.extractLsb' 29 5).toNat
/-- `MOD` of format M. -/
def fModM (w : W64) : Nat := (w.extractLsb' 34 4).toNat
/-- `OFF`. -/
def fOff (w : W64) : Int := (w.extractLsb' 38 26).toInt

/-- Format of an opcode, and whether it takes an extension word (09 R363); none for a reserved opcode. -/
def opForm (op : Nat) : Option (Nat × Bool) :=
  if op = 1 ∨ op = 2 then some (3, false)
  else if 3 ≤ op ∧ op ≤ 8 then some (1, false)
  else if op = 0x20 ∨ op = 0x28 ∨ op = 0x42 ∨ op = 0x43 then some (0, true)
  else if op = 0x21 ∨ op = 0x26 ∨ op = 0x27 ∨ op = 0x29 ∨ op = 0x2B then some (0, false)
  else if (0x22 ≤ op ∧ op ≤ 0x25) ∨ op = 0x2A ∨ op = 0x2C ∨ op = 0x2D then some (1, false)
  else if op = 0x40 ∨ op = 0x41 ∨ op = 0x44 then some (2, false)
  else if 0x60 ≤ op ∧ op ≤ 0x66 then some (0, false)
  else if op = 0xA1 then some (1, false)
  else if op = 0xA0 ∨ op = 0xA2 ∨ op = 0xA3 then some (0, false)
  else none

/-- Whether an instruction is legal in a queue class (08 R332); the forms of `LD` and `ST` are checked with their operands. -/
def opLegal (k : QKind) (op : Nat) : Bool :=
  if op < 0x20 then true
  else if op < 0x40 then k == .control
  else if op = 0x40 ∨ op = 0x41 then k != .schedule
  else if op = 0x44 then true
  else if op < 0xA0 then k == .compute
  else if op = 0xA3 then k != .control
  else k == .schedule

/-- Bits n from lo. -/
def bitsAt (lo n : Nat) : W64 := BitVec.ofNat 64 ((2 ^ n - 1) * 2 ^ lo)

/-- Whether every bit of a word outside the common fields and the named ones is zero (09 R354). -/
def onlyBits (w : W64) (used : List (Nat × Nat)) : Bool :=
  w &&& ~~~(used.foldl (fun m u => m ||| bitsAt u.1 u.2) (bitsAt 0 16)) == 0

/-- Bit positions of the fields, for onlyBits. -/
def uD : Nat × Nat := (16, 5)
def uA : Nat × Nat := (21, 5)
def uB : Nat × Nat := (26, 5)
def uC : Nat × Nat := (31, 5)
def uModR : Nat × Nat := (36, 8)
def uModI : Nat × Nat := (26, 6)
def uImm : Nat × Nat := (32, 32)
def uM : Nat × Nat := (26, 38)

/-- Which words of a program start an instruction: none follows a word with `X` as its extension (08 R330, R333). -/
def starts : List W64 → List Bool
  | [] => []
  | [_] => [true]
  | a :: b :: t => if hasExt a then true :: false :: starts t else true :: starts (b :: t)

/-! ### The control plane and the core (08 R350; 10 R403) -/


/-- Whether a program may execute an instruction now: a Wick group stops below Lit permission (10 R403) and at throttle level 2
(13 R482). -/
def State.mayRun (s : State) (x : Prog) : Bool :=
  s.up && (x.wait == .run) && !(s.inPause && x.kind != .compute) &&
  !(decide (x.core < 96) && ((s.ledger (x.core / 8)).perm != 0 || (s.ledger (x.core / 8)).st != .lit || s.pwr.thr.getD (x.core / 8) 0 == 2))

/-- A predicate register: p0 reads as all ones (08 R327). -/
def Prog.pr (x : Prog) (i : Nat) : W128 := if i = 0 then BitVec.allOnes 128 else x.p.getD i 0

/-- The governing predicate of a word. -/
def Prog.pred (x : Prog) (w : W64) : W128 := if fPneg w then ~~~(x.pr (fPred w)) else x.pr (fPred w)

/-- A handle register. -/
def Prog.hr (x : Prog) (i : Nat) : W64 := x.h.getD i 0

/-- A vector register. -/
def Prog.vr (x : Prog) (i : Nat) : VReg := x.v.getD i 0

/-- Writes a vector register. -/
def Prog.setV (x : Prog) (i : Nat) (v : VReg) : Prog := { x with v := x.v.set i v }

def hRegion (h : W64) : RegionId := h.extractLsb' 0 14
def hBase (h : W64) : Nat := (h.extractLsb' 16 46).toNat
def hValid (h : W64) : Bool := h.getLsbD 63

/-- The current word of a program if it is an instruction that a test selects; a malformed word is an error of whatever instruction
is tried (08 R333). -/
inductive Cur
  | other
  | bad (e : Err1)
  | word (w ext : W64)
deriving DecidableEq, Repr

/-- Decodes the current word: opcode, format, extension, class. `sel` tells the instruction. -/
def Prog.cur (x : Prog) (sel : W64 → Bool) : Cur :=
  match x.words[x.pc]? with
  | none => .bad (argErr dNoHalt)
  | some w =>
    match opForm (fOp w) with
    | none => .bad (argErr dBadOpcode)
    | some (fmt, ext) =>
      if fmt ≠ fFmt w then .bad (argErr dBadOpcode)
      else if !sel w then .other
      else if ext ≠ hasExt w then .bad (argErr dNoExt)
      else match ext, x.words[x.pc + 1]? with
        | true, none => .bad (argErr dNoExt)
        | true, some e => if opLegal x.kind (fOp w) then .word w e else .bad (argErr dClass)
        | false, _ => if opLegal x.kind (fOp w) then .word w 0 else .bad (argErr dClass)

/-- Runs an instruction of a program: `check` gives the first malformed field, `f` is the effect under a true predicate. -/
def State.instr (s : State) (p : Nat) (sel : W64 → Bool) (check : Prog → W64 → W64 → Option W16) (f : Prog → W64 → W64 → State) : State :=
  match s.prog p with
  | none => s
  | some x =>
    if s.mayRun x = false then s
    else match x.cur sel with
      | .other => s
      | .bad e => s.failProg p e
      | .word w ext =>
        match check x w ext with
        | some d => s.failProg p (argErr d)
        | none => if (x.pred w).getLsbD 0 then f x w ext else s.goOn p (fun y => y)

/-- The same for a compute instruction, whose predicate acts per element (09 R378). -/
def State.vinstr (s : State) (p : Nat) (sel : W64 → Bool) (check : Prog → W64 → Option W16) (f : Prog → W64 → Prog) : State :=
  match s.prog p with
  | none => s
  | some x =>
    if s.mayRun x = false then s
    else match x.cur sel with
      | .other => s
      | .bad e => s.failProg p e
      | .word w _ =>
        match check x w with
        | some d => s.failProg p (argErr d)
        | none => s.goOn p (fun y => f y w)

/-- Goes on at a word of the program (08 R333, BAD_TARGET). -/
def State.jump (s : State) (p : Nat) (x : Prog) (target : Int) (f : Prog → Prog) : State :=
  if target < 0 ∨ (starts x.words).getD target.toNat false = false then s.failProg p (argErr dBadTarget)
  else s.setProg p { f x with pc := target.toNat, served := [] }

/-- Goes on after an instruction that returned OK. -/
def State.okOn (s : State) (p : Nat) (f : Prog → Prog) : State := s.goOn p (fun x => { f x with lastSt := 0 })

/-! ### Grants and states of a data access (08 R339, R345) -/

/-- What a host lacks for an access to a range: none, NO_GRANT or READ_ONLY (08 R339). -/
def State.lacks (s : State) (h : HostId) (r : RegionId) (off len : Nat) (rw : Bool) : Option W16 :=
  if s.covered h r off len false = false then some 1 else if rw ∧ s.covered h r off len true = false then some 2 else none

/-- The state check of a load (08 R345). -/
def State.loadState (s : State) (r : RegionId) : Option W16 :=
  if (s.ent r).dlost then some 0x25 else if (s.ent r).st = .freed then some 0x10 else none

/-- The state check of a store. -/
def State.storeState (s : State) (r : RegionId) : Option W16 :=
  if (s.ent r).dlost then some 0x25
  else match (s.ent r).st with
    | .freed => some 0x10
    | .seald => some 0x12
    | .evacuating => some 0x13
    | _ => none

/-- Checks 1, 3 and 4 of an access to bytes of a region (08 R342). -/
def State.access (s : State) (h : HostId) (r : RegionId) (off : Int) (len : Nat) (rw : Bool) : Option Err1 :=
  if off < 0 ∨ (s.ent r).bytes < off.toNat + len then some (argErr dRange)
  else match (if rw then s.storeState r else s.loadState r) with
    | some d => some (stateErr d (some r))
    | none =>
      match s.lacks h r off.toNat len rw with
      | some d => some (permErr d (some r))
      | none => none

/-! ### Pending stores (08 R334; 09 R377; 10 R394) -/

/-- Adds a row to bytes, element by element in FP32 (09 R377). -/
def addRow (ty mode : Nat) (old row : List Byte) : List Byte :=
  let n := elemBits ty / 8
  (List.range (old.length / n)).flatMap (fun i =>
    let a := toElem mode 2 (elemVal ty (fromBytes ((old.drop (i * n)).take n)))
    let b := toElem mode 2 (elemVal ty (fromBytes ((row.drop (i * n)).take n)))
    toBytes n (toElem mode ty (Fmt.fp32.decode (addF32 mode a b))))

/-- The bytes of a store within a window of bytes: its own offset there, with its first byte to use. -/
def PStore.within (t : PStore) (off len : Nat) : Nat × List Byte :=
  let lo := max off t.off
  let hi := min (off + len) (t.off + t.bytes.length)
  (lo - off, (t.bytes.drop (lo - t.off)).take (hi - lo))

/-- Bytes of a region from an offset, with a pending store laid over them. -/
def PStore.over (t : PStore) (off : Nat) (b : List Byte) : List Byte :=
  let w := t.within off b.length
  if w.2 = [] then b
  else
    let mid := (b.drop w.1).take w.2.length
    let new := match t.add with
      | some ty => addRow ty.toNat t.round.toNat mid w.2
      | none => w.2
    b.take w.1 ++ new ++ b.drop (w.1 + w.2.length)

/-- Bytes as the program sees them: its own pending stores laid over them in order. -/
def Prog.sees (x : Prog) (r : RegionId) (off : Nat) (b : List Byte) : List Byte :=
  (x.stores.filter (fun t => t.region == r)).foldl (fun acc t => t.over off acc) b

/-- Lines that pending stores touch. -/
def PStore.lines (t : PStore) : List (RegionId × Nat) :=
  if t.bytes = [] then [] else (List.range ((t.off + t.bytes.length - 1) / 64 - t.off / 64 + 1)).map (fun i => (t.region, t.off / 64 + i))

/-- Distinct lines of a list of stores. -/
def storeLines (l : List PStore) : List (RegionId × Nat) := (l.flatMap PStore.lines).dedup

/-- How the request for log space ended. -/
inductive PendEnd
  | ok (s : State)
  | wait (s : State)   -- Spring is making room: the instruction runs again
  | full

/-- Allocates commit-log runs until there are n, freeing Spring under 02 R81 (10 R394). -/
def State.growLog (s : State) (p n : Nat) : Nat → PendEnd
  | 0 => .full
  | f + 1 =>
    match s.prog p with
    | none => .full
    | some x =>
      if n ≤ x.log.length then .ok s
      else match s.roomSpring x.core 16 8192 with
        | (t, .run a) => State.growLog (t.setProg p { x with log := x.log ++ [a] }) p n f
        | (t, .wait) => .wait t
        | (_, .none) => .full

/-- Adds pending stores to a program, within its limit (08 R334). -/
def State.pend (s : State) (p : Nat) (l : List PStore) : PendEnd :=
  match s.prog p with
  | none => .full
  | some x =>
    let all := x.stores ++ l
    let n := (storeLines all).length
    let put (t : State) : PendEnd := .ok { t with q := { t.q with progs := t.q.progs.upd p (fun y => { y with stores := all }) } }
    if x.core < 96 then
      (if 8192 < n then .full
       else match s.growLog p ((n + 63) / 64) 130 with
         | .ok t => put t
         | e => e)
    else if 1024 < n then .full else put s

/-! ### Loads (06 R255; 08 R334, R337) -/

/-- What a load of a program gives. -/
inductive Ld
  | bytes (b : List Byte)
  | poison (off : Nat)
  | wait
deriving DecidableEq, Repr

/-- Reads a line from a home in Lake or Tarn whose read has been served. -/
def State.readFar (s : State) (r : RegionId) (seg j : Nat) : State × Rd :=
  let e := s.sme r seg
  match e.home with
  | some h =>
    match s.lineBytes e (some h) j with
    | some b => (s.touch r seg, .line b)
    | none => (s.homeFault r seg h false true, .poison)
  | none => (s, .miss)

/-- Asks a host that holds a line EXCL for its value (06 R249): whether the load must wait for it. -/
def State.curSnoop (s : State) (r : RegionId) (line : BitVec 40) : State × Bool :=
  if (s.ent r).tracked = false then (s, false)
  else match s.dirEnt r line with
    | some e => if e.busy then (s, true) else if e.st = .excl then (s.snoop e .cur (s.listed e), true) else (s, false)
    | none => (s, false)

/-- Loads one line for a program. `served` names reads that have been served for this instruction. -/
def State.loadLine (s : State) (p : Option Nat) (served : List Nat) (r : RegionId) (line : Nat) (c : Chk) : State × Ld :=
  let l := BitVec.ofNat 40 line
  let seg := line / 64
  if s.isLost r l then (s.poisonRead r, .poison (line * 64))
  else
    let sn := if served.contains (lineKey r l) then (s, false) else s.curSnoop r l
    if sn.2 then
      let k := lineKey r l
      ({ sn.1 with lake := { sn.1.lake with misses := if sn.1.lake.misses.contains (k, p) then sn.1.lake.misses else sn.1.lake.misses ++ [(k, p)] } }, .wait)
    else match sn.1.readLine r seg (line % 64) c with
      | (t, .line b) => (t, .bytes b)
      | (t, .poison) => (t.poisonRead r, .poison (line * 64))
      | (t, .miss) =>
        if served.contains (segKey r seg) ∧ t.pageAway r seg = false then
          match t.readFar r seg (line % 64) with
          | (u, .line b) => (u, .bytes b)
          | (u, .poison) => (u.poisonRead r, .poison (line * 64))
          | (u, .miss) => (u, .wait)
        else (t.startMiss r seg p, .wait)

/-- Loads n bytes from an offset, line by line; the sector check's outcome counts for the first line. -/
def State.loadBytes (s : State) (p : Option Nat) (served : List Nat) (r : RegionId) (off n : Nat) (c : Chk) : State × Ld :=
  let first := off / 64
  let lines := (off + n - 1) / 64 - first + 1
  let a := (List.range lines).foldl (fun (a : State × Ld × Chk) i =>
    match a.2.1 with
    | .bytes b =>
      match a.1.loadLine p served r (first + i) a.2.2 with
      | (t, .bytes y) => (t, .bytes (b ++ y), .ok)
      | (t, other) => (t, other, .ok)
    | _ => a) (s, Ld.bytes [], c)
  match a.2.1 with
  | .bytes b => (a.1, .bytes ((b.drop (off % 64)).take n))
  | other => (a.1, other)

/-- A load of a program, with its own pending stores: the state and the bytes, or the state in which the program waits or has
failed. -/
def State.progLoad (s : State) (p : Nat) (x : Prog) (r : RegionId) (off n : Nat) (c : Chk) : State × Option (List Byte) :=
  match s.loadBytes (some p) x.served r off n c with
  | (t, .bytes b) => (t, some (x.sees r off b))
  | (t, .poison o) => (t.failProg p { status := ePoison, detail := 0, info := poisonInfo r o }, none)
  | (t, .wait) => ({ t with q := { t.q with progs := t.q.progs.upd p (fun y => { y with wait := .miss }) } }, none)

/-! ### Feeder (10 R395, R397) -/

/-- The read-ahead of an open stream up to 16 KiB beyond the line read last: it reaches each further segment within the host's grants exactly as a load
would, and what it meets returns nothing (10 R395, R396). -/
def State.feedAhead (s : State) (h : HostId) (r : RegionId) (last : Nat) : State :=
  (List.range 4).foldl (fun t i =>
    let seg := last / 64 + 1 + i
    if last + 256 < seg * 64 ∨ (t.ent r).segs ≤ seg ∨ t.covered h r (seg * 4096) 64 false = false then t
    else if t.dataReady r [(seg * 4096, 64)] = false then t.wakeFor r [(seg * 4096, 64)]
    else match t.readLine r seg 0 .ok with
      | (u, .miss) => u.startMiss r seg none
      | (u, _) => u) s

/-- Notes n loads of a program from a line on: a run of 4 consecutive ascending lines opens a stream, at most 4 stay open, and a read
outside the read-ahead of 16 KiB closes it. An open stream reads ahead. -/
def State.feed (s : State) (p : Nat) (r : RegionId) (line n : Nat) : State :=
  match s.prog p with
  | none => s
  | some x =>
    if 96 ≤ x.core ∨ (s.ent r).tracked = true then s
    else
      let others := x.feed.filter (fun f => f.region != r)
      let run := match x.feed.find? (fun f => f.region == r) with
        | some f =>
          if 4 ≤ f.run ∧ f.last < line ∧ line ≤ f.last + 256 then 4
          else if line = f.last + 1 then min 4 (f.run + n) else min 4 n
        | none => min 4 n
      let kept := others ++ [⟨r, line + n - 1, run⟩]
      let opened := kept.filter (fun f => f.run == 4)
      let gone := (opened.take (opened.length - 4)).map (fun f => f.region)
      let s1 := s.setProg p { x with feed := kept.filter (fun f => !gone.contains f.region) }
      if run = 4 then s1.feedAhead x.host r (line + n - 1) else s1

/-! ### Commit points (06 R255; 08 R334; 10 R398) -/

/-- BISnpInv for every line that pending stores touch in a writable shared region and that hosts hold (06 R255). -/
def State.commitSnoops (s : State) (l : List PStore) : State :=
  (storeLines l).foldl (fun t x =>
    let line := BitVec.ofNat 40 x.2
    if (t.ent x.1).tracked = false then t
    else match t.dirEnt x.1 line with
      | some e => if e.busy then t else if t.listed e = [] then t.dirDel x.1 line else t.snoop e .inv (t.listed e)
      | none => t) s

/-- Whether a prefetch of a program has neither been placed nor abandoned (09 R364). -/
def State.prefetching (s : State) (x : Prog) : Bool := x.pf.any s.map.moves.has

/-- What follows a completed commit point. -/
def State.afterCommit (s : State) (p : Nat) (a : AfterCommit) : State :=
  match s.prog p with
  | none => s
  | some x =>
    let s1 := s.setProg p { x with stores := [], log := [], wait := .run, holdAt := none }
    match a with
    | .next => s1.okOn p (fun y => y)
    | .nextPf =>
      if s1.prefetching x then s1.setProg p { x with stores := [], log := [], wait := .prefetch, holdAt := none } else s1.okOn p (fun y => { y with pf := [] })
    | .ends => s1.endProg p (if x.fbcnt = 0 then stOk else eFallback) 0 0
    | .again => match x.cancel with
      | some c => s1.endProg p c.1 c.2 (s1.stateInfo none)
      | none => s1

/-- A commit point of a program: at once when nothing is pending. -/
def State.commitPoint (s : State) (p : Nat) (a : AfterCommit) : State :=
  match s.prog p with
  | none => s
  | some x =>
    if x.stores = [] then s.afterCommit p a
    else (s.commitSnoops x.stores).setProg p { x with wait := .commit a }

/-- Runs a control instruction: its start is a commit point (08 R334), so pending stores are committed first. -/
def State.control (s : State) (p : Nat) (sel : W64 → Bool) (check : Prog → W64 → W64 → Option W16) (f : Prog → W64 → W64 → State) : State :=
  match s.prog p with
  | none => s
  | some x =>
    if s.mayRun x = false then s
    else match x.cur sel with
      | .word w _ => if x.stores ≠ [] ∧ (x.pred w).getLsbD 0 then s.commitPoint p .again else s.instr p sel check f
      | _ => s.instr p sel check f

/-- The bytes of a store in one line: byte offset in the line and bytes. -/
def PStore.inLine (t : PStore) (line : Nat) : Nat × List Byte := t.within (line * 64) 64

/-- Applies one store to one line: the read of an added row and its write are one step (09 R377). A segment that is POISONED discards
the store. -/
def State.commitLine (s : State) (t : PStore) (h : HostId) (line : Nat) (pick : W32) : State :=
  let r := t.region
  let seg := line / 64
  let l := BitVec.ofNat 40 line
  let w := t.inLine line
  let off := line % 64 * 64 + w.1
  let bytes : List Byte := match t.add with
    | none => w.2
    | some ty =>
      match s.segBytes (s.sme r seg) ((s.sme r seg).image <|> (s.sme r seg).home) with
      | some b => addRow ty.toNat t.round.toNat ((b.drop off).take w.2.length) w.2
      | none => w.2
  match s.storeSeg r seg off (bytes.map some) .ok pick true true with
  | (s1, .drop) => if (s1.sme r seg).w1 ≠ 6 then s1.poisonWrite r line h else s1
  | (s1, _) => (if (s1.ent r).tracked then s1.dirDel r l else s1).endLoss r l

/-- Whether a store into a segment must wait for its promotion: a home in Lake or Tarn, a map page in Lake, or a promotion under way. -/
def State.mustWait (s : State) (r : RegionId) (seg : Nat) : Bool :=
  s.pageAway r seg || s.promoting r seg || (match (s.sme r seg).home with
    | some l => !l.isNear && (s.sme r seg).st != .poisoned
    | none => false)

/-- Starts the reads that a commit's segments need. -/
def State.commitMisses (s : State) (p : Nat) (l : List PStore) : State × Bool :=
  (((storeLines l).map (fun x => (x.1, x.2 / 64))).dedup).foldl (fun a x =>
    if a.1.mustWait x.1 x.2 then (if a.1.promoting x.1 x.2 then a.1 else a.1.startMiss x.1 x.2 (some p), true) else a) (s, false)

/-- Why a commit point fails before it writes: rights and states are checked again, and a row to be added to must not be poisoned
(08 R334, R339; 09 R389). -/
def State.commitErr (s : State) (x : Prog) : Option Err1 :=
  x.stores.findSome? (fun t =>
    match s.access x.host t.region t.off t.bytes.length true with
    | some e => some e
    | none =>
      if t.add.isSome then
        (t.lines.find? (fun l => (s.sme l.1 (l.2 / 64)).st == .poisoned || s.isLost l.1 (BitVec.ofNat 40 l.2))).map (fun l =>
          { status := ePoison, detail := 0, info := poisonInfo l.1 (l.2 * 64) })
      else none)

/-- Whether a snoop on a line that a commit writes is outstanding. -/
def State.commitBusy (s : State) (x : Prog) : Bool :=
  (storeLines x.stores).any (fun l => s.snoopsOf l.1 (BitVec.ofNat 40 l.2) != [])

/-- Segments that a commit writes and that have no OPEN home yet. -/
def State.unopened (s : State) (x : Prog) : List (RegionId × Nat) :=
  (((storeLines x.stores).map (fun l => (l.1, l.2 / 64))).dedup).filter (fun k => (s.sme k.1 k.2).st != .opn && (s.sme k.1 k.2).st != .poisoned)

/-- Gives every segment that a commit writes its OPEN home (02 R72), before a store of it is applied: the state, and whether a segment still waits.
One that has waited 10 ms waits no longer (02 R87). -/
def State.commitOpens (s : State) (x : Prog) (pick : W32) : State × Bool :=
  let last := x.holdAt.any (fun t => decide (t + 10 ≤ s.clk.ms))
  let a := (s.unopened x).foldl (fun (a : State × Bool × W32) k =>
    match a.1.storeSeg k.1 k.2 0 [] .ok a.2.2 true (last && a.1.reserved k.1 (a.1.sme k.1 k.2)) with
    | (t, .wait _) => (t, true, 0)
    | (t, _) => (t, a.2.1, 0)) (s, false, pick)
  (a.1, a.2.1)

/-- Writes the pending stores in order, line by line. The pick counts for the first. -/
def State.commitStores (s : State) (x : Prog) (pick : W32) : State :=
  (x.stores.foldl (fun (a : State × W32) t => t.lines.foldl (fun (b : State × W32) l => (b.1.commitLine t x.host l.2 b.2, 0)) a) (s, pick)).1

/-- Whether a commit must wait before it looks anything up: an odd entry, a retrain, or a Banked tile (01 R29; 04 R159; 13 R477). -/
def State.commitHeld (s : State) (x : Prog) : Bool := x.stores.any (fun t => !s.dataReady t.region [(t.off, t.bytes.length)])

/-- The commit unit finishes (10 R398): checks, then writes; the program then goes on. -/
def State.finishCommit (s : State) (p : Nat) (c : Chk) (pick : W32) : State :=
  match s.prog p with
  | none => s
  | some x =>
    match x.wait with
    | .commit a =>
      if s.commitHeld x then x.stores.foldl (fun t y => t.wakeFor y.region [(y.off, y.bytes.length)]) s
      else match s.commitErr x with
      | some e => s.failProg p e
      | none =>
        if s.commitBusy x then s
        else if chkFails c ∧ x.core < 96 then s.fenceUnit (.wick x.core) 5 1
        else
          let s1 := s.commitSnoops x.stores
          if s1.commitBusy x then s1
          else
            let s2 := s1.commitMisses p x.stores
            if s2.2 then s2.1
            else
              let s3 := s2.1.commitOpens x pick
              if s3.2 then { s3.1 with q := { s3.1.q with progs := s3.1.q.progs.upd p (fun y => { y with holdAt := some (y.holdAt.getD s.clk.ms) }) } }
              else (s3.1.commitStores x 0).afterCommit p a
    | _ => s

end Sys2Proof.Machine
end

