-- ==== Sys2Proof/Machine/QueueC.lean ====
section
/-! DEFINITION. Queues: doorbells, enabling, descriptor reads, dispatch and run limits (08 R315 to R326, R338, R346 to R353; 10 R391 to
R402; 15 R532). -/

namespace Sys2Proof.Machine

/-- Whether a host function's BARs answer: its half's link carries requests and no host-scoped reset is under way. -/
def State.reach (s : State) (h : HostId) : Bool := (s.bindOf h).valid && s.linkOpen (s.halfOf h) && !s.inReset h

/-- Whether a host function's BARs serve accesses: not in D3hot, where they end in Unsupported Request (19 R644). -/
def State.barOpen (s : State) (h : HostId) : Bool := s.reach h && !(s.fnOf h).d3

/-! ### Doorbells (08 R319 to R322) -/

/-- A tail write (R320, R322). -/
def State.tailWrite (s : State) (h : HostId) (q : QueueNo) (value : W32) : State :=
  let x := s.queue h q
  let i := value.toNat % 4096
  if x.st ≠ .running then s
  else if x.size ≤ i then s.queueError h q 1
  else s.setQueue h q { x with sqtail := i }

/-- A head write (R320 to R322): entries become free, and held completions are written. -/
def State.headWrite (s : State) (h : HostId) (q : QueueNo) (value : W32) : State :=
  let x := s.queue h q
  let i := value.toNat % 4096
  if x.st ≠ .running ∧ ¬(x.st = .draining ∧ x.heldBit) then s
  else if x.size ≤ i ∨ (x.cqtail + x.size - x.cqhead) % x.size < (i + x.size - x.cqhead) % x.size then s.queueError h q 2
  else (s.setQueue h q { x with cqhead := i }).flushCpl h q (x.heldCpl.length + 1)

/-- A write of `KQ_SQTAIL`; during an activation it is kept (R350). -/
def State.tailBell (s : State) (h : HostId) (q : QueueNo) (value : W32) : State :=
  if s.barOpen h = false then s
  else if s.inPause then s.setQueue h q { s.queue h q with keptTail := some value }
  else s.tailWrite h q value

/-- A write of `KQ_CQHEAD`; during an activation it is kept (R350). -/
def State.headBell (s : State) (h : HostId) (q : QueueNo) (value : W32) : State :=
  if s.barOpen h = false then s
  else if s.inPause then s.setQueue h q { s.queue h q with keptHead := some value }
  else s.headWrite h q value

/-- SQ_TAIL_WRITE. -/
def execSqTailWrite (host : HostId) (q : QueueNo) (value : W32) (s : State) : R := .next (s.tailBell host q value)

/-- CQ_HEAD_WRITE. -/
def execCqHeadWrite (host : HostId) (q : QueueNo) (value : W32) (s : State) : R := .next (s.headBell host q value)

/-- Doorbell writes kept during an activation take effect (R350). -/
def State.applyKept (s : State) : State :=
  (s.q.qs.map (fun p => p.1)).foldl (fun t k =>
    let h : HostId := BitVec.ofNat 10 (k / 64)
    let q : QueueNo := BitVec.ofNat 6 k
    let x := t.queue h q
    let t1 := t.setQueue h q { x with keptTail := none, keptHead := none }
    let t2 := match x.keptHead with
      | some v => t1.headWrite h q v
      | none => t1
    match x.keptTail with
    | some v => t2.tailWrite h q v
    | none => t2) s

/-! ### Enabling and disabling (08 R347, R348) -/

/-- Whether a `KQ_CFG` value carries no reserved value. -/
def cfgOk (c : W64) : Bool :=
  let kind := (c.extractLsb' 1 2).toNat
  let cls := (c.extractLsb' 3 2).toNat
  let grp := (c.extractLsb' 5 4).toNat
  let inf := (c.extractLsb' 40 7).toNat
  kind != 3 && (cls == 1 || cls == 2) && !(decide (12 ≤ grp ∧ grp ≤ 14)) && (kind != 1 || decide (1 ≤ inf ∧ inf ≤ 64))

/-- The RWL fields that a `KQ_CFG` write sets; a reserved value leaves its field (00 R16). -/
def Queue.configure (x : Queue) (c : W64) : Queue :=
  let kind := c.extractLsb' 1 2
  let cls := c.extractLsb' 3 2
  let grp := c.extractLsb' 5 4
  let inf := c.extractLsb' 40 7
  { x with
    kind := if kind = 3 then x.kind else kind
    bwclass := if cls = 1 ∨ cls = 2 then cls else x.bwclass
    group := if 12 ≤ grp.toNat ∧ grp.toNat ≤ 14 then x.group else grp
    sizeM1 := c.extractLsb' 9 12
    irqEn := c.getLsbD 21
    runlim := c.extractLsb' 24 16
    inflight := if 1 ≤ inf.toNat ∧ inf.toNat ≤ 64 then inf else x.inflight }

/-- Enabled queues of the sled. -/
def State.enabledQueues (s : State) : Nat := (s.q.qs.filter (fun p => p.2.enable)).length

/-- A `KQ_CFG` write with `ENABLE` 1 (R319, R345, R353). Nothing changes while the queue is enabled (RWL) or drains. -/
def State.enableQueue (s : State) (h : HostId) (q : QueueNo) (cfg : W64) : State :=
  let x := s.queue h q
  if s.barOpen h = false ∨ s.up = false ∨ x.enable = true ∨ x.st ≠ .disabled then s
  else
    let y := x.configure cfg
    if cfgOk cfg = false ∨ x.sqbase = 0 ∨ x.cqbase = 0 then s.setQueue h q { y with err := 3 }
    else if 8192 ≤ s.enabledQueues then s.setQueue h q { y with err := 4 }
    else (s.setQueue h q { y with enable := true, st := .running, sqhead := 0, sqtail := 0, cqtail := 0, cqhead := 0, phase := true,
                                  heldBit := false, err := 0, ready := [], fetched := [] }).flushCpl h q (x.heldCpl.length + 1)

/-- A `KQ_CFG` write with `ENABLE` 0 to an enabled queue. -/
def State.disableQueue (s : State) (h : HostId) (q : QueueNo) : State :=
  let x := s.queue h q
  if s.barOpen h = false ∨ x.enable = false then s else s.setQueue h q { x with enable := false, st := .draining }

/-- QUEUE_ENABLE. -/
def execQueueEnable (host : HostId) (q : QueueNo) (cfg : W64) (s : State) : R := .next (s.enableQueue host q cfg)

/-- QUEUE_DISABLE. -/
def execQueueDisable (host : HostId) (q : QueueNo) (s : State) : R := .next (s.disableQueue host q)

/-- Schedules of a queue that becomes DISABLED are disarmed and discarded (11 R428, second row). -/
def State.dropScheds (s : State) (h : HostId) (q : QueueNo) : State :=
  ((s.lamp.sch.filter (fun p => p.1 / 32 == h.toNat * 64 + q.toNat)).map (fun p => p.1)).foldl (fun t k => t.dropSched k 1) s

/-- QUEUE_DRAINED. Descriptors read and not yet started are dropped (assumption log 22). -/
def execQueueDrained (host : HostId) (q : QueueNo) (s : State) : R :=
  let x := s.queue host q
  .next (if x.st = .draining ∧ s.progsOf host q = [] ∧ (x.heldCpl = [] ∨ x.err = 6) then
      (s.setQueue host q { x with st := .disabled, ready := [], fetched := [], heldBit := false }).dropScheds host q
    else s)

/-! ### Descriptors (08 R320, R323, R324, R351) -/

/-- A completion of a descriptor that never ran. -/
def descCpl (cid : W16) (irq : Bool) (e : Err1) (info : W64) : Cpl :=
  { cid := cid, irq := irq, status := e.status, detail := e.detail, result := 0, word := 0, fbcnt := 0, info := info }

/-- The sled has read a descriptor: its head moves on (R320). -/
def State.passDesc (s : State) (h : HostId) (q : QueueNo) : State :=
  let x := s.queue h q
  s.setQueue h q { x with sqhead := (x.sqhead + 1) % x.size, fetched := [] }

/-- A descriptor completes at once with an error. -/
def State.rejectDesc (s : State) (h : HostId) (q : QueueNo) (cid : W16) (irq : Bool) (e : Err1) : State :=
  let s1 := s.passDesc h q
  (s1.setQueue h q ((s1.queue h q).count e.status)).deliver h q (descCpl cid irq e (s1.infoOf e))

/-- A descriptor is ready to start. -/
def State.readyDesc (s : State) (h : HostId) (q : QueueNo) (r : Ready) : State :=
  let s1 := s.passDesc h q
  s1.setQueue h q { s1.queue h q with ready := (s1.queue h q).ready ++ [r] }

/-- Words from bytes. -/
def wordsOf (n : Nat) (b : List Byte) : List W64 := (List.range n).map (fun i => BitVec.ofNat 64 (fromBytes ((b.drop (8 * i)).take 8)))

/-- Reads in progress that a fetch from Lake or Tarn needs are part of the fetch: the words as their homes hold them. -/
def State.fetchLine (s : State) (served : List Nat) (r : RegionId) (line : Nat) (c : Chk) : State × Ld :=
  match s.loadLine none served r line c with
  | (t, .wait) =>
    if (s.curSnoop r (BitVec.ofNat 40 line)).2 ∧ served.contains (lineKey r (BitVec.ofNat 40 line)) = false then (t, .wait)
    else
      let seg := line / 64
      let u : State := { t with lake := { t.lake with misses := s.lake.misses }, ports := { t.ports with np := s.ports.np },
                                map := { t.map with away := t.map.away.filter (fun k => k != pageKey r seg) } }
      match (u.sme r seg).home with
      | some h =>
        if h.isNear then (u.loadLine none served r line .ok)
        else if chkFails c then (u.homeFault r seg h (c == Chk.tag) false, .poison (line * 64))
        else match u.readFar r seg (line % 64) with
          | (v, .line b) => (v.promote r seg 1 .demand 0, .bytes b)
          | (v, _) => (v, .poison (line * 64))
      | none => u.loadLine none served r line .ok
  | other => other

/-- The program words of a `REGIONPTR` descriptor (R324). -/
def State.fetchWords (s : State) (served : List Nat) (r : RegionId) (off n : Nat) (c : Chk) : State × Ld :=
  let first := off / 64
  let a := (List.range ((off + 8 * n - 1) / 64 - first + 1)).foldl (fun (a : State × Ld × Chk) i =>
    match a.2.1 with
    | .bytes b =>
      match a.1.fetchLine served r (first + i) a.2.2 with
      | (t, .bytes y) => (t, .bytes (b ++ y), .ok)
      | (t, other) => (t, other, .ok)
    | _ => a) (s, Ld.bytes [], c)
  match a.2.1 with
  | .bytes b => (a.1, .bytes ((b.drop (off % 64)).take (8 * n)))
  | other => (a.1, other)

/-- A word of a descriptor. -/
def descWord (d : Line) (i : Nat) : W64 := d.extractLsb' (64 * i) 64

/-- Whether a descriptor is well formed (R323, R324). -/
def descOk (d : Line) : Bool :=
  let w0 := descWord d 0
  let form := (w0.extractLsb' 16 2).toNat
  let n := (w0.extractLsb' 32 16).toNat
  let head := w0.extractLsb' 18 6 == 0 && w0.extractLsb' 26 6 == 0 && w0.extractLsb' 48 16 == 0 && n != 0
  let ptr := descWord d 1
  match form with
  | 0 => head && decide (n ≤ 7) && (List.range 7).all (fun i => decide (i < n) || descWord d (i + 1) == 0)
  | 1 => head && ptr.extractLsb' 0 3 == 0 && descWord d 7 == 0
  | 2 => head && ptr.extractLsb' 0 3 == 0 && ptr.extractLsb' 60 4 == 0 && descWord d 7 == 0
  | _ => false

/-- DESCRIPTOR_FETCH_DONE: the descriptor at the submission head, with the words of a `HOSTPTR` program, and the outcome of the sector
check for a `REGIONPTR` one. A line that a host holds EXCL is asked for first (06 R255); the read ends with a later command. -/
def execDescriptorFetchDone (host : HostId) (q : QueueNo) (desc : Line) (words : List W64) (chk : Chk) (s : State) : R :=
  let x := s.queue host q
  let w0 := descWord desc 0
  let cid := w0.extractLsb' 0 16
  let irq := w0.getLsbD 24
  let n := (w0.extractLsb' 32 16).toNat
  let args := [descWord desc 2, descWord desc 3, descWord desc 4, descWord desc 5]
  let base : Ready := { cid := cid, irq := irq, order := w0.getLsbD 25, words := [], args := args, h0 := descWord desc 6 }
  .next (if s.up = false ∨ x.st ≠ .running ∨ x.sqhead = x.sqtail then s
    else if descOk desc = false then s.rejectDesc host q cid irq (argErr dBadDesc)
    else match (w0.extractLsb' 16 2).toNat with
      | 0 => s.readyDesc host q { base with words := (List.range n).map (fun i => descWord desc (i + 1)), args := [], h0 := 0 }
      | 1 => s.readyDesc host q { base with words := (List.range n).map (fun i => words.getD i 0) }
      | _ =>
        let ptr := descWord desc 1
        let r : RegionId := ptr.extractLsb' 46 14
        let off := (ptr.extractLsb' 0 46).toNat
        if s.dataReady r [(off, 8 * n)] = false then s.wakeFor r [(off, 8 * n)]
        else match s.access host r off (8 * n) false with
        | some e => s.rejectDesc host q cid irq e
        | none =>
          match s.fetchWords x.fetched r off n chk with
          | (t, .bytes b) => t.readyDesc host q { base with words := wordsOf n b }
          | (t, .poison o) => t.rejectDesc host q cid irq { status := ePoison, detail := 0, info := poisonInfo r o }
          | (t, .wait) =>
            let keys := (List.range ((off + 8 * n - 1) / 64 - off / 64 + 1)).map (fun i => lineKey r (BitVec.ofNat 40 (off / 64 + i)))
            t.setQueue host q { t.queue host q with fetched := ((t.queue host q).fetched ++ keys.filter (fun k =>
              t.dir.snoops.any (fun z => lineKey z.region z.line == k))).dedup })

/-- DESCRIPTOR_FETCH_FAIL. -/
def execDescriptorFetchFail (host : HostId) (q : QueueNo) (s : State) : R :=
  let x := s.queue host q
  .next (if s.up = false ∨ x.st ≠ .running ∨ x.sqhead = x.sqtail then s else s.queueError host q 5)

/-- COMPLETION_POST_FAIL: later completions are held until the queue is enabled again. -/
def execCompletionPostFail (host : HostId) (q : QueueNo) (s : State) : R :=
  let x := s.queue host q
  .next (if x.st = .disabled ∨ x.err = 6 then s else s.queueError host q 6)

/-! ### Dispatch (08 R316, R318, R321; 10 R400 to R402) -/


/-- Whether a tile's cores restart (15 R536). -/
def State.groupStops (s : State) (tile : Nat) : Bool := (s.wd.wde.find (4 + tile)).any (fun w => w.restart)

/-- Cores of a tile in service. -/
def State.coresIn (s : State) (tile : Nat) : List Nat :=
  ((List.range 8).map (fun i => 8 * tile + i)).filter (fun c => !s.fenced (.wick c))

/-- The eligible cores of a compute queue that are in service (R400, R402). -/
def State.eligible (s : State) (h : HostId) (grp : Nat) : List Nat :=
  let chip (c : Nat) : List Nat := ((List.range 6).map (fun i => 6 * c + i)).flatMap s.coresIn
  let c := chipletOfHalf (s.halfOf h)
  let own := if grp = 15 then [chip c, chip (1 - c)]
    else [s.coresIn grp, s.coresIn (grp ^^^ 1), chip (grp / 6), chip (1 - grp / 6)]
  (own.find? (fun l => l != [])).getD []

/-- How long ago a core fell idle: place in the order of last ends; a core that has run nothing is first. -/
def State.idleRank (s : State) (c : Nat) : Nat := match s.q.idle.findIdx? (fun x => x == c) with
  | some i => i + 1
  | none => 0

/-- The idle core that dispatch takes: the tile with the most idle eligible cores, then the core idle longest (R400). The pick decides
among cores that have run nothing. -/
def State.chooseCore (s : State) (l : List Nat) (pick : W32) : Option Nat :=
  let idle := l.filter (fun c => !s.coreBusy c && (s.ledger (c / 8)).perm == 0 && !s.groupStops (c / 8))
  let best := (List.range 12).foldl (fun (a : Nat × Nat) k =>
    let n := (idle.filter (fun c => c / 8 == k)).length
    if a.2 < n then (k, n) else a) (0, 0)
  let here := idle.filter (fun c => c / 8 == best.1)
  let longest := (here.map s.idleRank).foldl min 1000
  let ties := here.filter (fun c => s.idleRank c == longest)
  if ties.contains pick.toNat then some pick.toNat else ties.head?

/-- Whether a location lies in sectors 0x000 to 0x4FF of a core's Spring (10 R391). -/
def inScratch (c : Nat) (l : Option Loc) : Bool :=
  match l with
  | some (.near true a) => a / 4096 == c && decide (a % 4096 < 0x500)
  | _ => false

/-- Frees sectors 0x000 to 0x4FF of a core for a program (10 R392; 02 R81): moves into them end, images there are dropped, and homes start on their
way to Pond on the same tile, the oldest first. The flag says that the range is free; it then holds zeros. -/
def State.clearScratch (s : State) (c : Nat) : State × Bool :=
  let s1 := (s.map.moves.filter (fun p => inScratch c (some p.2.dest))).foldl (fun t p => t.abortMove p.1) s
  let s2 := (s1.oldestFirst (fun p => inScratch c p.2.image)).foldl (fun t p => t.dropImage (keyRegion p.1) (keySeg p.1)) s1
  let s3 := (s2.oldestFirst (fun p => inScratch c p.2.home)).foldl (fun t p =>
    if (t.moveOf (keyRegion p.1) (keySeg p.1)).isSome then t else (t.springOut c p.1 3).getD t) s2
  if s3.map.sme.any (fun p => inScratch c p.2.home) || s3.map.rel.any (fun p => inScratch c (some p.2.loc)) then (s3, false)
  else
    let a := (Loc.near true (c * 4096)).sector * 256
    ({ s3 with mem := { s3.mem with bytes := s3.mem.bytes.filter (fun z => decide (z.1 < a) || decide (a + 0x50000 ≤ z.1)) } }, true)

/-- The registers a program starts with (08 R327). -/
def startProg (h : HostId) (q : QueueNo) (k : QKind) (r : Ready) (core : Nat) : Prog :=
  { host := h, q := q, kind := k, cid := r.cid, irq := r.irq, words := r.words, pc := 0, core := core,
    g := ((0 : W64) :: r.args) ++ List.replicate (31 - r.args.length) 0
    v := if k = .compute then List.replicate 32 0 else []
    p := BitVec.allOnes 128 :: List.replicate 7 0
    h := r.h0 :: List.replicate 7 0
    round := 0, lastSt := 0, fbcnt := 0, stores := [], log := [], stepBuf := []
    scrBase := if core < 96 then core * 4096 else 0
    scrSize := if core < 96 then 262144 else 0
    wait := .run, served := [], pf := [], feed := [], cancel := none, mute := false, holdAt := none }

/-- A ready program starts: it leaves the ready list and enters the machine. -/
def State.start (s : State) (h : HostId) (q : QueueNo) (k : QKind) (r : Ready) (core : Nat) : State :=
  let x := s.queue h q
  let s1 := s.setQueue h q { x with ready := x.ready.drop 1 }
  { s1 with q := { s1.q with progs := s1.q.progs.put s1.q.progNo (startProg h q k r core), progNo := s1.q.progNo + 1, lastStart := s1.clk.ms } }

/-- The firmware work that a control or schedule program is (01 R23; 08 R316). DESIGN CHOICE (assumption log 74): the region of a schedule program is the
one its first handle names at the start. -/
def State.progWork (s : State) (h : HostId) (kind : Nat) (r : Ready) : Work :=
  if kind = 2 then .region (hRegion r.h0) else .control (chipletOfHalf (s.halfOf h))

/-- Whether a queue may start its next ready program (R316, R318, R321; 07 R297): one for a Lantern waits while that Lantern restarts (01
R47). -/
def State.mayStart (s : State) (h : HostId) (q : QueueNo) (r : Ready) : Bool :=
  let x := s.queue h q
  let n := (s.progsOf h q).length
  s.up && s.q.dispatching && x.st == .running && !x.heldBit && !(s.fnOf h).d3 && (!r.order || n == 0) &&
  decide (n < (if x.kind = 1 then x.inflight.toNat else 1)) && (x.kind == 1 || s.serves (s.progWork h x.kind.toNat r))

/-- PROGRAM_DISPATCH: the oldest ready program of a queue starts; on a Wick core, once its scratch is free (10 R392). Which queue is served first,
the sender says (R401). -/
def execProgramDispatch (host : HostId) (q : QueueNo) (pick : W32) (s : State) : R :=
  let x := s.queue host q
  .next (match x.ready with
    | [] => s
    | r :: _ =>
      if s.mayStart host q r = false then s
      else if x.kind = 1 then
        match s.eligible host x.group.toNat with
        | [] =>
          let s1 := s.setQueue host q ((({ x with ready := x.ready.drop 1 } : Queue)).count eFenced)
          s1.deliver host q (descCpl r.cid r.irq { status := eFenced, detail := 0 } 0)
        | l =>
          match s.chooseCore l pick with
          | none =>
            match l.find? (fun c => !s.coreBusy c && (s.ledger (c / 8)).perm != 0) with
            | some c => s.askWake (c / 8)
            | none => s
          | some c =>
            match s.clearScratch c with
            | (t, true) => t.start host q .compute r c
            | (t, false) => t
      else if x.kind = 2 then s.start host q .schedule r (256 + s.lanternOf (hRegion r.h0))
      else s.start host q .control r (256 + s.controlLantern (chipletOfHalf (s.halfOf host))))

/-- RUN_LIMIT_EXPIRY: the running time leaves out WAIT, control instructions and a commit in progress (R338; 10 R399). -/
def execRunLimitExpiry (prog : Nat) (s : State) : R :=
  .next (match s.prog prog with
    | none => s
    | some x =>
      if (s.queue x.host x.q).runlim = 0 then s
      else match x.wait with
        | .run | .miss => s.endProg prog eTimeout 4 0
        | _ => s)

/-- COMMIT_WRITE_DONE: the commit unit of the tile, or the Lantern, finishes; `chk` is the check phase's outcome for the log. -/
def execCommitWriteDone (prog : Nat) (chk : Chk) (pick : W32) (s : State) : R := .next (s.finishCommit prog chk pick)

/-- FEEDER_STREAM_IDLE (10 R395). -/
def execFeederStreamIdle (prog : Nat) (region : RegionId) (s : State) : R :=
  .next { s with q := { s.q with progs := s.q.progs.upd prog (fun x => { x with feed := x.feed.filter (fun f => f.region != region) }) } }

end Sys2Proof.Machine
end

