-- ==== Sys2Proof/Machine/TallowCtl.lean ====
section
/-! DEFINITION. Flow and scalar instructions (09 R364 to R367; 08 R327 to R329, R334, R335; 15 R527). -/

namespace Sys2Proof.Machine

/-- Whether a word is an opcode. -/
def isOp (op : Nat) (w : W64) : Bool := fOp w == op

/-- A check that only the named fields are used. -/
def only (used : List (Nat × Nat)) (w : W64) : Option W16 := if onlyBits w used then none else some dReserved

/-- BR. With `IND` 1 the target is word g[A] and `TGT` is reserved; with 0, A is. -/
def execBr (prog : Nat) (s : State) : R :=
  .next (s.instr prog (isOp 1)
    (fun _ w _ => only (if (fModI w / 32) % 2 = 1 then [uA, uModI] else [uModI, uImm]) w)
    (fun x w _ =>
      let link := fModI w % 32
      let ind := (fModI w / 32) % 2 == 1
      let target : Int := if ind then ((x.gr (fA w)).toNat : Int) else (x.pc : Int) + (fImm w).toInt
      s.jump prog x target (fun y => y.setG link (BitVec.ofNat 64 x.nextPc))))

/-- LOOP. -/
def execLoop (prog : Nat) (s : State) : R :=
  .next (s.instr prog (isOp 2) (fun _ w _ => only [uD, uImm] w)
    (fun x w _ =>
      let n := x.gr (fD w)
      if n = 0 then s.goOn prog (fun y => y)
      else if n = 1 then s.goOn prog (fun y => y.setG (fD w) 0)
      else s.jump prog x ((x.pc : Int) + (fImm w).toInt) (fun y => y.setG (fD w) (n - 1))))

/-- A form of WAIT, by `MOD` [1:0]; the reserved value 3 is tried as any form. -/
def isWait (form : Nat) (w : W64) : Bool := fOp w == 3 && (fModI w % 4 == form || fModI w % 4 == 3)

/-- The checks that every form of WAIT shares: the form and a positive bound. -/
def waitCheck (used : List (Nat × Nat)) (w : W64) : Option W16 :=
  if fModI w % 4 = 3 ∨ onlyBits w ((32, 32) :: used) = false ∨ (fImm w).toInt ≤ 0 then some dReserved else none

/-- A program waits. -/
def State.waitFor (s : State) (p : Nat) (wt : PWait) : State :=
  { s with q := { s.q with progs := s.q.progs.upd p (fun x => { x with wait := wt }) } }

/-- WAIT TIME. -/
def execWaitTime (prog : Nat) (s : State) : R :=
  .next (s.instr prog (isWait 0) (fun _ w _ => waitCheck [(26, 2)] w) (fun _ _ _ => s.waitFor prog .time))

/-- Whether a queue pair is a schedule-class queue. -/
def State.schedQueue (s : State) (h : HostId) (q : Nat) : Bool :=
  let x := s.queue h (BitVec.ofNat 6 q)
  x.kind == 2 && x.st != .disabled

/-- WAIT BEAT: g[A] names schedule [4:0] of queue pair [13:8]. -/
def execWaitBeat (prog : Nat) (s : State) : R :=
  .next (s.instr prog (isWait 1)
    (fun x w _ =>
      match waitCheck [uD, uA, (26, 2)] w with
      | some d => some d
      | none =>
        let a := x.gr (fA w)
        if a.extractLsb' 5 3 ≠ 0 ∨ a.extractLsb' 14 50 ≠ 0 then some dReserved
        else if s.schedQueue x.host (a.extractLsb' 8 6).toNat = false then some dRange else none)
    (fun x w _ =>
      let a := x.gr (fA w)
      let q := (a.extractLsb' 8 6).toNat
      let n := (a.extractLsb' 0 5).toNat
      let want := x.gr (fD w)
      match s.sched (schKey x.host (BitVec.ofNat 6 q) n) with
      | some y => if y.armed ∧ want.toNat ≤ y.beats then s.okOn prog (fun z => z) else s.waitFor prog (.beat q n want)
      | none => s.waitFor prog (.beat q n want)))

/-- A signal counter of a host function. -/
def State.sigOf (s : State) (h : HostId) (n : Nat) : W64 := s.q.sig.getD (h.toNat * 16 + n) 0

/-- WAIT SIGNAL. -/
def execWaitSignal (prog : Nat) (s : State) : R :=
  .next (s.instr prog (isWait 2) (fun _ w _ => waitCheck [uD, uModI] w)
    (fun x w _ =>
      let c := fModI w / 4
      let n := x.gr (fD w)
      if n.toInt ≤ (s.sigOf x.host c).toInt then s.okOn prog (fun y => y) else s.waitFor prog (.signal c n)))

/-- WAIT_TIMEOUT: the bound of a wait runs out; the TIME form completes with OK. -/
def execWaitTimeout (prog : Nat) (s : State) : R :=
  .next (match s.prog prog with
    | none => s
    | some x => match x.wait with
      | .time => s.okOn prog (fun y => y)
      | .beat _ _ _ | .signal _ _ => s.endProg prog eTimeout 3 0
      | _ => s)

/-- Programs that wait for a signal counter go on when it has reached their value (R365, R366). -/
def State.wakeSignals (s : State) (h : HostId) (c : Nat) : State :=
  let v := s.sigOf h c
  (s.q.progs.filter (fun p => p.2.host == h && (match p.2.wait with
    | .signal k n => k == c && decide (n.toInt ≤ v.toInt)
    | _ => false))).foldl (fun t p => t.okOn p.1 (fun y => y)) s

/-- SIGNAL: adds `IMM`, sign-extended, to a counter of the host function. -/
def execSignal (prog : Nat) (s : State) : R :=
  .next (s.instr prog (isOp 4) (fun _ w _ => only [(26, 4), uImm] w)
    (fun x w _ =>
      let c := fModI w
      let k := x.host.toNat * 16 + c
      let s1 := s.goOn prog (fun y => y)
      ({ s1 with q := { s1.q with sig := s1.q.sig.set k 0 (s1.sigOf x.host c + (fImm w).signExtend 64) } }).wakeSignals x.host c))

/-- KICK: serves the watchdog of the executing group or Lantern (15 R527). -/
def execKick (prog : Nat) (s : State) : R :=
  .next (s.instr prog (isOp 5) (fun _ w _ => only [] w)
    (fun x _ _ =>
      let n := if x.core < 96 then 4 + x.core / 8 else x.core - 256
      let s1 := s.goOn prog (fun y => y)
      { s1 with wd := { s1.wd with wde := s1.wd.wde.upd n (fun w => { w with elapsed := 0 }) } }))

/-- FENCE. -/
def execFence (prog : Nat) (s : State) : R :=
  .next (s.instr prog (isOp 6) (fun _ w _ => only [(26, 1)] w)
    (fun _ w _ => s.commitPoint prog (if fModI w = 1 then .nextPf else .next)))

/-- HALT. -/
def execHalt (prog : Nat) (s : State) : R :=
  .next (s.instr prog (isOp 7) (fun _ w _ => only [] w) (fun _ _ _ => s.commitPoint prog .ends))

/-! ### MOVS (R367) -/

/-- The fields that each form of MOVS uses; none for a reserved form. -/
def movsFields (form : Nat) : Option (List (Nat × Nat)) :=
  let r : Nat × Nat := (32, 5)
  if form = 0 ∨ form = 4 ∨ form = 5 then some [uD, uModI, uImm]
  else if form = 1 then some [uA, uModI, uImm]
  else if form = 2 ∨ form = 3 then some [uD, uA, uModI]
  else if form = 6 ∨ form = 0xC ∨ form = 0xE ∨ form = 0xF then some [uD, uA, uModI, uImm]
  else if form = 7 ∨ form = 8 ∨ form = 9 ∨ form = 0xD ∨ form = 0x10 then some [uD, uA, uModI, r]
  else if form = 0xA ∨ form = 0xB then some [uD, uA, uModI, (32, 6)]
  else none

/-- A special register (08 R329). CYCLE is a free value (assumption log 10). -/
def State.special (s : State) (x : Prog) (n : Nat) : Option W64 :=
  match n with
  | 0 => some (BitVec.ofNat 64 x.core)
  | 1 => some (x.host.setWidth 64)
  | 2 => some (x.q.setWidth 64)
  | 3 => some (x.cid.setWidth 64)
  | 4 => some (Config.cycle s.q.freeNo)
  | 5 => some (s.clk.store.setWidth 64)
  | 6 => some (x.lastSt.setWidth 64)
  | 7 => some (x.fbcnt.setWidth 64)
  | 8 => some (BitVec.ofNat 64 x.scrBase)
  | 9 => some (BitVec.ofNat 64 x.scrSize)
  | 10 => some (x.round.setWidth 64)
  | 11 => some (s.id.sledId.setWidth 64)
  | _ => none

/-- Writes a predicate register; p0 ignores writes. -/
def Prog.setP (x : Prog) (i : Nat) (b : Bool) : Prog :=
  if i = 0 then x else { x with p := x.p.set i (if b then BitVec.allOnes 128 else 0) }

/-- Writes a handle register. -/
def Prog.setH (x : Prog) (i : Nat) (v : W64) : Prog := { x with h := x.h.set i v }

/-- The first malformed field or operand of MOVS. -/
def movsCheck (s : State) (x : Prog) (w : W64) : Option W16 :=
  let form := fModI w
  let imm := (fImm w).toNat
  match movsFields form with
  | none => some dReserved
  | some used =>
    if onlyBits w used = false then some dReserved
    else if ((form = 2 ∨ form = 0xD ∨ form = 0xE ∨ form = 0xF ∨ form = 0x10) ∧ 8 ≤ fD w) ∨ ((form = 3 ∨ form = 0xD) ∧ 8 ≤ fA w) then some dReserved
    else if form = 0 then (if (s.special x imm).isNone then some dReserved else none)
    else if form = 1 then (if imm ≠ 10 ∨ 4 ≤ (x.gr (fA w)).toNat then some dReserved else none)
    else if form = 2 then
      let v := x.gr (fA w)
      if hValid v ∧ (v.extractLsb' 14 2 ≠ 0 ∨ v.getLsbD 62) then some dReserved else none
    else if form = 0xD then (if 2 ^ 46 ≤ hBase (x.hr (fA w)) + (x.gr (imm % 32)).toNat then some dRange else none)
    else none

/-- The effect of MOVS on the registers. -/
def movsEffect (s : State) (x : Prog) (w : W64) : Prog :=
  let d := fD w
  let a := x.gr (fA w)
  let imm := (fImm w).signExtend 64
  let r := x.gr ((fImm w).toNat % 32)
  match fModI w with
  | 0 => x.setG d ((s.special x (fImm w).toNat).getD 0)
  | 1 => { x with round := a.setWidth 2 }
  | 2 => x.setH d a
  | 3 => x.setG d (x.hr (fA w))
  | 4 => x.setG d imm
  | 5 => x.setG d (fImm w ++ (x.gr d).setWidth 32)
  | 6 => x.setG d (a + imm)
  | 7 => x.setG d (a + r)
  | 8 => x.setG d (a - r)
  | 9 => x.setG d (a * r)
  | 0xA => x.setG d (a <<< ((fImm w).toNat % 64))
  | 0xB => x.setG d (a >>> ((fImm w).toNat % 64))
  | 0xC => x.setG d (a &&& imm)
  | 0xD =>
    let h := x.hr (fA w)
    x.setH d (h.extractLsb' 62 2 ++ BitVec.ofNat 46 (hBase h + r.toNat) ++ h.extractLsb' 0 16)
  | 0xE => x.setP d (decide (a.toInt < imm.toInt))
  | 0xF => x.setP d (a == imm)
  | _ => x.setP d (decide (a.toInt < r.toInt))

/-- MOVS. -/
def execMovs (prog : Nat) (s : State) : R :=
  .next (s.instr prog (isOp 8) (fun x w _ => movsCheck s x w)
    (fun x w _ =>
      let s1 := s.goOn prog (fun _ => movsEffect s x w)
      if fModI w = 0 ∧ fImm w = 4 then { s1 with q := { s1.q with freeNo := s1.q.freeNo + 1 } } else s1))

end Sys2Proof.Machine
end

