-- ==== Sys2Proof/Machine/TallowData.lean ====
section
/-! DEFINITION. Data instructions: LD, ST, GATHER, SCATTER, PREFETCH (09 R355, R356, R374 to R377, R389; 10 R393). -/

namespace Sys2Proof.Machine

/-! ### Scratch (10 R391 to R393) -/

/-- Byte address of a program's scratch in memory. -/
def Prog.scratchAt (x : Prog) (off : Nat) : Nat := (Loc.near true x.scrBase).sector * 256 + off

/-- Reads scratch. -/
def State.scratchRead (s : State) (x : Prog) (off n : Nat) : List Byte := readBytes s.mem.bytes (x.scratchAt off) n

/-- Writes scratch at issue. -/
def State.scratchWrite (s : State) (x : Prog) (off : Nat) (b : List Byte) : State :=
  { s with mem := { s.mem with bytes := writeBytes s.mem.bytes (x.scratchAt off) b } }

/-! ### LD and ST (R374) -/

/-- Bytes of an access width; none for a reserved one. -/
def accSize (w : Nat) : Option Nat :=
  match w with
  | 0 => some 1
  | 1 => some 2
  | 2 => some 4
  | 3 => some 8
  | 4 => some 128
  | 5 => some 1024
  | _ => none

/-- `S` and `W` of LD and ST. -/
def isScratch (w : W64) : Bool := fModM w % 2 == 1
def accWidth (w : W64) : Nat := fModM w / 2

/-- Byte offset that a format M access reaches within the region or the scratch (R355). -/
def Prog.effAddr (x : Prog) (w : W64) (size : Nat) : Int :=
  (if isScratch w then 0 else (hBase (x.hr (fH w)) : Int)) + (x.gr (fBM w)).toNat * size + fOff w

/-- The malformed fields and operands of LD and ST. -/
def ldstCheck (s : State) (x : Prog) (w : W64) : Option W16 :=
  if onlyBits w [uD, uM] = false ∨ (isScratch w ∧ fH w ≠ 0) then some dReserved
  else match accSize (accWidth w) with
    | none => some dReserved
    | some n =>
      let a := x.effAddr w n
      let size : Nat := if isScratch w then x.scrSize else (s.ent (hRegion (x.hr (fH w)))).bytes
      if x.kind = .control ∧ (isScratch w ∨ 4 ≤ accWidth w) then some dClass
      else if accWidth w = 5 ∧ fD w % 8 ≠ 0 then some dAlign
      else if isScratch w = false ∧ hValid (x.hr (fH w)) = false then some dNull
      else if a < 0 ∨ (size : Int) < a + n then
        -- a FREED region has no size: the state check refuses it (08 R342, R345)
        (if isScratch w = false ∧ (s.ent (hRegion (x.hr (fH w)))).st = .freed ∧ 0 ≤ a then none else some dRange)
      else if a % n ≠ 0 then some dAlign else none

/-- Puts loaded bytes into the destination. -/
def Prog.loadInto (x : Prog) (w : W64) (b : List Byte) : Prog :=
  match accWidth w with
  | 4 => x.setV (fD w) (BitVec.ofNat 1024 (fromBytes b))
  | 5 => (List.range 8).foldl (fun y i => y.setV (fD w + i) (BitVec.ofNat 1024 (fromBytes ((b.drop (128 * i)).take 128)))) x
  | _ => x.setG (fD w) (BitVec.ofNat 64 (fromBytes b))

/-- The bytes that ST takes from its source. -/
def Prog.storeFrom (x : Prog) (w : W64) : List Byte :=
  match accWidth w with
  | 4 => toBytes 128 (x.vr (fD w)).toNat
  | 5 => (List.range 8).flatMap (fun i => toBytes 128 (x.vr (fD w + i)).toNat)
  | k => toBytes ((accSize k).getD 8) (x.gr (fD w)).toNat

/-- The state and rights of an access; a FREED region is refused before its size is looked at. -/
def State.dataAccess (s : State) (h : HostId) (r : RegionId) (off : Int) (len : Nat) (rw : Bool) : Option Err1 :=
  match (if rw then s.storeState r else s.loadState r) with
  | some d => some (stateErr d (some r))
  | none => s.access h r off len rw

/-- LD. A scratch sector that cannot be corrected fences the core (10 R404). -/
def execLd (prog : Nat) (chk : Chk) (s : State) : R :=
  .next (s.instr prog (isOp 0x40) (fun x w _ => ldstCheck s x w)
    (fun x w _ =>
      let n := (accSize (accWidth w)).getD 8
      let a := x.effAddr w n
      if isScratch w then
        if chkFails chk then s.fenceUnit (.wick x.core) 5 1
        else s.okOn prog (fun y => y.loadInto w (s.scratchRead x a.toNat n))
      else
        let r := hRegion (x.hr (fH w))
        if s.dataReady r [(a.toNat, n)] = false then s.wakeFor r [(a.toNat, n)]
        else match s.dataAccess x.host r a n false with
        | some e => s.failProg prog e
        | none =>
          match s.progLoad prog x r a.toNat n chk with
          | (t, some b) => (t.feed prog r (a.toNat / 64) ((a.toNat + n - 1) / 64 - a.toNat / 64 + 1)).okOn prog (fun y => y.loadInto w b)
          | (t, none) => t))

/-- ST. -/
def execSt (prog : Nat) (s : State) : R :=
  .next (s.instr prog (isOp 0x41) (fun x w _ => ldstCheck s x w)
    (fun x w _ =>
      let n := (accSize (accWidth w)).getD 8
      let a := x.effAddr w n
      if isScratch w then (s.scratchWrite x a.toNat (x.storeFrom w)).okOn prog (fun y => y)
      else
        let r := hRegion (x.hr (fH w))
        if (s.ent r).odd then s
        else match s.dataAccess x.host r a n true with
        | some e => s.failProg prog e
        | none =>
          match s.pend prog [⟨r, a.toNat, x.storeFrom w, none, x.round⟩] with
          | .ok t => t.okOn prog (fun y => y)
          | .wait t => t
          | .full => s.failProg prog (capErr 6)))

/-! ### GATHER and SCATTER (R376, R377) -/

/-- The operands of GATHER and SCATTER. -/
structure Rows where
  out : Nat
  list : Nat
  count : Nat
  bag : Nat
  handle : W64
  wide : Bool
  skip : Bool
  add : Bool
  rowb : Nat
  stride : Nat
  ety : Nat
deriving DecidableEq, Repr

/-- Reads the operands. -/
def Prog.rows (x : Prog) (w ext : W64) : Rows :=
  { out := (x.gr (fD w)).toNat, list := (x.gr (fA w)).toNat, count := (x.gr (fB w)).toNat, bag := (x.gr (fC w)).toNat
    handle := x.hr (fModR w % 8), wide := (fModR w / 8) % 2 == 1, skip := (fModR w / 16) % 2 == 1, add := (fModR w / 32) % 2 == 1
    rowb := (ext.extractLsb' 0 16).toNat, stride := (ext.extractLsb' 16 32).toNat, ety := (ext.extractLsb' 48 4).toNat }

/-- Bytes of scratch that the output or the source rows take. -/
def Rows.span (y : Rows) : Nat :=
  if y.bag = 0 then y.count * y.rowb else y.count / y.bag * (4 * (y.rowb / (elemBits y.ety / 8)))

/-- The malformed fields and operands of GATHER and SCATTER. -/
def rowsCheck (x : Prog) (w ext : W64) (scatter : Bool) : Option W16 :=
  let y := x.rows w ext
  let sums := if scatter then y.add else y.bag != 0
  if onlyBits w ([uD, uA, uB, (36, 5)] ++ (if scatter then [(41, 1)] else [uC])) = false ∨ ext.extractLsb' 52 12 ≠ 0 then some dReserved
  else if 7 < y.ety ∨ (sums = true ∧ 4 < y.ety) then some dReserved
  else if hValid y.handle = false then some dNull
  else if y.rowb = 0 ∨ y.rowb % 64 ≠ 0 ∨ y.stride % 64 ≠ 0 then some dRange
  else if y.count = 0 ∨ 65536 < y.count then some dRange
  else if scatter = false ∧ y.bag ≠ 0 ∧ y.count % y.bag ≠ 0 then some dRange
  else if x.scrSize < y.list + y.count * (if y.wide then 8 else 4) ∨ x.scrSize < y.out + (if scatter then y.count * y.rowb else y.span) then some dRange
  else none

/-- The indices, signed. -/
def State.indices (s : State) (x : Prog) (y : Rows) : List Int :=
  let n := if y.wide then 8 else 4
  let b := s.scratchRead x y.list (y.count * n)
  (List.range y.count).map (fun i => signedOf (8 * n) (fromBytes ((b.drop (i * n)).take n)))

/-- The first failure among the rows that the indices name. -/
def State.rowsErr (s : State) (x : Prog) (y : Rows) (l : List Int) (rw : Bool) : Option Err1 :=
  let r := hRegion y.handle
  match (if rw then s.storeState r else s.loadState r) with
  | some d => some (stateErr d (some r))
  | none =>
    match l.findSome? (fun (k : Int) =>
      if k < 0 then (if y.skip then none else some (argErr dRange))
      else if (s.ent r).bytes < hBase y.handle + k.toNat * y.stride + y.rowb then some (argErr dRange) else none) with
    | some e => some e
    | none => l.findSome? (fun (k : Int) => if k < 0 then none else s.access x.host r (hBase y.handle + k.toNat * y.stride) y.rowb rw)

/-- The byte ranges of the rows that the indices name. -/
def Rows.ranges (y : Rows) (l : List Int) : List (Nat × Nat) :=
  l.filterMap (fun (k : Int) => if k < 0 then none else some (hBase y.handle + k.toNat * y.stride, y.rowb))

/-- Loads the rows in order: a row per index, none where it is skipped; or the state in which the program waits or has failed. -/
def State.loadRows (s : State) (p : Nat) (x : Prog) (y : Rows) (l : List Int) (c : Chk) : State × Option (List (Option (List Byte))) :=
  let z := l.foldl (fun (a : State × Option (List (Option (List Byte))) × Chk) (k : Int) =>
    match a.2.1 with
    | none => a
    | some rows =>
      if k < 0 then (a.1, some (none :: rows), a.2.2)
      else match a.1.progLoad p x (hRegion y.handle) (hBase y.handle + k.toNat * y.stride) y.rowb a.2.2 with
        | (t, some b) =>
          let first := hBase y.handle + k.toNat * y.stride
          (t.feed p (hRegion y.handle) (first / 64) ((first + y.rowb - 1) / 64 - first / 64 + 1), some (some b :: rows), .ok)
        | (t, none) => (t, none, .ok)) (s, some [], c)
  (z.1, z.2.1.map List.reverse)

/-- FP32 values of a row's elements. -/
def rowF32 (ty mode : Nat) (b : List Byte) : List Nat :=
  let n := elemBits ty / 8
  (List.range (b.length / n)).map (fun i => toElem mode 2 (elemVal ty (fromBytes ((b.drop (i * n)).take n))))

/-- Sums the rows of one bag element by element from +0 (R361). -/
def bagSum (ty mode n : Nat) (rows : List (Option (List Byte))) : List Byte :=
  let z := rows.foldl (fun (acc : List Nat) r => match r with
    | some b => List.zipWith (fun a v => addF32 mode a v) acc (rowF32 ty mode b)
    | none => acc) (List.replicate n 0)
  z.flatMap (fun v => toBytes 4 v)

/-- What GATHER writes to scratch: offset and bytes. -/
def gatherOut (x : Prog) (y : Rows) (rows : List (Option (List Byte))) : List (Nat × List Byte) :=
  if y.bag = 0 then (rows.mapIdx (fun j r => r.map (fun b => (y.out + j * y.rowb, b)))).filterMap (fun z => z)
  else
    let n := y.rowb / (elemBits y.ety / 8)
    (List.range (y.count / y.bag)).map (fun b => (y.out + b * 4 * n, bagSum y.ety x.round.toNat n ((rows.drop (b * y.bag)).take y.bag)))

/-- GATHER. -/
def execGather (prog : Nat) (chk : Chk) (s : State) : R :=
  .next (s.instr prog (isOp 0x42) (fun x w e => rowsCheck x w e false)
    (fun x w e =>
      let y := x.rows w e
      let l := s.indices x y
      if s.dataReady (hRegion y.handle) (y.ranges l) = false then s.wakeFor (hRegion y.handle) (y.ranges l)
      else match s.rowsErr x y l false with
      | some er => s.failProg prog er
      | none =>
        match s.loadRows prog x y l chk with
        | (t, some rows) => ((gatherOut x y rows).foldl (fun u o => u.scratchWrite x o.1 o.2) t).okOn prog (fun z => z)
        | (t, none) => t))

/-- SCATTER. -/
def execScatter (prog : Nat) (s : State) : R :=
  .next (s.instr prog (isOp 0x43) (fun x w e => rowsCheck x w e true)
    (fun x w e =>
      let y := x.rows w e
      let l := s.indices x y
      if (s.ent (hRegion y.handle)).odd then s
      else match s.rowsErr x y l true with
      | some er => s.failProg prog er
      | none =>
        let stores := (l.mapIdx (fun j k => if k < 0 then none else
          some (⟨hRegion y.handle, hBase y.handle + k.toNat * y.stride, s.scratchRead x (y.out + j * y.rowb) y.rowb,
                 if y.add then some (BitVec.ofNat 4 y.ety) else none, x.round⟩ : PStore))).filterMap (fun z => z)
        match s.pend prog stores with
        | .ok t => t.okOn prog (fun z => z)
        | .wait t => t
        | .full => s.failProg prog (capErr 6)))

/-! ### PREFETCH (R375) -/

/-- Places the segments of a range in Pond, and notes the moves for FENCE PF. -/
def State.prefetch (s : State) (p : Nat) (x : Prog) (r : RegionId) (first count : Nat) : State :=
  let cls := (s.queue x.host x.q).bwclass.toNat
  let segs := ((s.smes r).filter (fun e => decide (first ≤ e.1 ∧ e.1 < first + count))).map (fun e => e.1)
  segs.foldl (fun t seg =>
    let t1 : State := { t with map := { t.map with away := t.map.away.filter (fun k => k != pageKey r seg) } }
    let t2 := (t1.checkSme r seg).placePond r seg cls .demand 0
    if t2.map.moveNo = t1.map.moveNo then t2
    else { t2 with q := { t2.q with progs := t2.q.progs.upd p (fun y => { y with pf := y.pf ++ [t1.map.moveNo] }) } }) s

/-- PREFETCH. -/
def execPrefetch (prog : Nat) (s : State) : R :=
  .next (s.instr prog (isOp 0x44)
    (fun x w _ =>
      let h := x.hr (fH w)
      let a : Int := (hBase h : Int) + (x.gr (fBM w)).toNat * 4096 + fOff w
      let len := (x.gr (fD w)).toNat
      if onlyBits w [uD, (26, 8), (38, 26)] = false then some dReserved
      else if hValid h = false then some dNull
      else if (s.ent (hRegion h)).st ≠ .freed ∧ (a < 0 ∨ ((s.ent (hRegion h)).bytes : Int) < a + len) then some dRange
      else if a < 0 then some dRange
      else if a % 4096 ≠ 0 then some dAlign else none)
    (fun x w _ =>
      let h := x.hr (fH w)
      let r := hRegion h
      let a := ((hBase h : Int) + (x.gr (fBM w)).toNat * 4096 + fOff w).toNat
      let len := (x.gr (fD w)).toNat
      if (s.ent r).odd then s
      else match s.dataAccess x.host r a len false with
      | some e => s.failProg prog e
      | none => (s.prefetch prog x r (a / 4096) ((len + 4095) / 4096)).okOn prog (fun y => y)))

end Sys2Proof.Machine
end

