-- ==== Sys2Proof/Machine/TallowVec.lean ====
section
/-! DEFINITION. Compute instructions (09 R356 to R362, R378 to R385). -/

namespace Sys2Proof.Machine

/-! ### Elements (R357) -/

/-- Element i of b bits of a register. -/
def elemAt (v : VReg) (b i : Nat) : Nat := (v.extractLsb' (i * b) b).toNat

/-- The elements of a register, lowest first. -/
def elems (v : VReg) (b : Nat) : List Nat := (List.range (1024 / b)).map (elemAt v b)

/-- A register from its elements of b bits. -/
def regOf (b : Nat) (l : List Nat) : VReg := BitVec.ofNat 1024 (l.foldr (fun x acc => x + acc * 2 ^ b) 0)

/-- Merges a result with the old elements under a predicate. -/
def masked (pr : W128) (old new : List Nat) : List Nat := (old.zip new).mapIdx (fun i p => if pr.getLsbD i then p.2 else p.1)

/-- Elements of n registers from a first one. -/
def Prog.span (x : Prog) (first n b : Nat) : List Nat := (List.range n).flatMap (fun k => elems (x.vr (first + k)) b)

/-- Writes elements over n registers from a first one. -/
def Prog.putSpan (x : Prog) (first n b : Nat) (l : List Nat) : Prog :=
  (List.range n).foldl (fun y k => y.setV (first + k) (regOf b ((l.drop (k * (1024 / b))).take (1024 / b)))) x

/-- Register numbers of a group or of one register. -/
def groupOf (g : Bool) (n : Nat) : List Nat := if g then (List.range 8).map (fun i => n + i) else [n]

/-- Whether a field may name a group. -/
def grpOk (g : Bool) (n : Nat) : Bool := !g || n % 8 == 0

/-- A value of an element type. -/
def ev (ty v : Nat) : FV := elemVal ty v

/-! ### VMAC (R379) -/

/-- One element of VMAC in a type. -/
def vmacElem (ty mode op a b d : Nat) : Nat :=
  let x := ev ty a
  let y := ev ty b
  let z := ev ty d
  match op with
  | 0 => toElem mode ty (sumFV mode [x.mul y, z])
  | 1 => toElem mode ty (sumFV mode [z, (x.mul y).neg])
  | 2 => toElem mode ty (x.mul y)
  | 3 => toElem mode ty (sumFV mode [x, y])
  | 4 =>
    let t := toElem mode ty (sumFV mode [x, y])
    toElem 0 ty (Fmt.fp32.decode (rsqF32 (toElem 0 2 (ev ty t))))
  | _ => match fmtOf ty with
    | some f => f.maxBits a b
    | none => a

/-- VMAC on one set of registers. -/
def vmacReg (x : Prog) (w : W64) (k : Nat) (pr : W128) (y : Prog) : Prog :=
  let m := fModR w
  let ty := m % 4
  let bits := elemBits ty
  let op := m / 16 % 8
  let bc := m / 8 % 2 == 1
  let d := elems (x.vr (fD w + k)) bits
  let a := elems (x.vr (fA w + k)) bits
  let b := if bc then List.replicate (1024 / bits) ((x.gr (fB w)).toNat % 2 ^ bits) else elems (x.vr (fB w + k)) bits
  let r := (d.zip (a.zip b)).map (fun t => vmacElem ty x.round.toNat op t.2.1 t.2.2 t.1)
  y.setV (fD w + k) (regOf bits (masked pr d r))

/-- VMAC. -/
def execVmac (prog : Nat) (s : State) : R :=
  .next (s.vinstr prog (isOp 0x60)
    (fun _ w =>
      let m := fModR w
      let g := m / 4 % 2 == 1
      if onlyBits w [uD, uA, uB, uModR] = false ∨ m % 4 = 3 ∨ 6 ≤ m / 16 % 8 ∨ 128 ≤ m then some dReserved
      else if grpOk g (fD w) = false ∨ grpOk g (fA w) = false ∨ (m / 8 % 2 = 0 ∧ grpOk g (fB w) = false) then some dAlign else none)
    (fun x w => (List.range (if fModR w / 4 % 2 = 1 then 8 else 1)).foldl (fun y k => vmacReg x w k (x.pred w) y) x))

/-! ### VDOT (R380) -/

/-- One accumulator of VDOT: source elements a and b, accumulator d. -/
def vdotElem (ty mode d : Nat) (a b : List Nat) : Nat :=
  if ty = 5 then
    satInt 32 (signedOf 32 d + ((a.zip b).map (fun t => signedOf 8 t.1 * signedOf 8 t.2)).sum)
  else Fmt.fp32.encode mode (sumFV mode (Fmt.fp32.decode d :: (a.zip b).map (fun t => (ev ty t.1).mul (ev ty t.2))))

/-- VDOT on one set of registers. -/
def vdotReg (x : Prog) (w : W64) (k : Nat) (pr : W128) (y : Prog) : Prog :=
  let m := fModR w
  let ty := m % 16
  let bits := elemBits ty
  let n := 32 / bits
  let a := elems (x.vr (fA w + k)) bits
  let b := elems (x.vr (fB w + k)) bits
  let d := elems (x.vr (fD w + k)) 32
  let r := d.mapIdx (fun i v => vdotElem ty x.round.toNat (if m / 32 % 2 = 1 then 0 else v) ((a.drop (i * n)).take n) ((b.drop (i * n)).take n))
  y.setV (fD w + k) (regOf 32 (masked pr d r))

/-- VDOT. -/
def execVdot (prog : Nat) (s : State) : R :=
  .next (s.vinstr prog (isOp 0x61)
    (fun _ w =>
      let m := fModR w
      let ty := m % 16
      let g := m / 16 % 2 == 1
      if onlyBits w [uD, uA, uB, uModR] = false ∨ 64 ≤ m ∨ ty = 2 ∨ 5 < ty then some dReserved
      else if grpOk g (fD w) = false ∨ grpOk g (fA w) = false ∨ grpOk g (fB w) = false then some dAlign else none)
    (fun x w => (List.range (if fModR w / 16 % 2 = 1 then 8 else 1)).foldl (fun y k => vdotReg x w k (x.pred w) y) x))

/-! ### DEQ (R381) -/

/-- Registers that the output of DEQ spans. -/
def deqSpan (m : Nat) : Nat := 1024 / elemBits (m % 16) * (if m / 16 % 2 = 1 then 32 else 16) / 1024

/-- Whether a type is a source of DEQ. -/
def deqType (ty : Nat) : Bool := ty == 3 || ty == 4 || ty == 5 || ty == 6

/-- DEQ. Its predicate is bit 0, for the whole instruction. -/
def execDeq (prog : Nat) (s : State) : R :=
  .next (s.vinstr prog (isOp 0x62)
    (fun _ w =>
      let m := fModR w
      if onlyBits w [uD, uA, uB, uC, uModR] = false ∨ 128 ≤ m ∨ deqType (m % 16) = false then some dReserved
      else if fD w % deqSpan m ≠ 0 then some dAlign else none)
    (fun x w =>
      let m := fModR w
      let ty := m % 16
      let out := if m / 16 % 2 = 1 then 2 else 0
      let blk := m / 32 % 4
      let base := (x.gr (fC w)).toNat
      let r := (elems (x.vr (fA w)) (elemBits ty)).mapIdx (fun i q =>
        let j := if blk = 3 then base % 64 else (base + i / (32 * 2 ^ blk)) % 64
        toElem x.round.toNat out ((ev ty q).mul (ev 0 (elemAt (x.vr (fB w)) 16 j))))
      if (x.pred w).getLsbD 0 then x.putSpan (fD w) (deqSpan m) (elemBits out) r else x))

/-! ### SMAXP (R382) -/

/-- The larger of two FP32 patterns for the running maximum. -/
def maxF32 (a b : Nat) : Nat := Fmt.fp32.maxBits a b

/-- -∞ in FP32. -/
def negInf : Nat := 0xFF800000

/-- One step of the online softmax: new state, alpha and the elements. -/
def smaxStep (a : List Nat) (m l : Nat) : Nat × Nat × Nat × List Nat :=
  let mn := a.foldl maxF32 m
  let alpha := if mn = negInf then 0x3F800000 else expF32 (subF32 0 m mn)
  let p := a.map (fun v => if v = negInf then 0 else expF32 (subF32 0 v mn))
  (mn, p.foldl (fun acc v => addF32 0 acc v) (mulF32 0 l alpha), alpha, p)

/-- SMAXP for one head. -/
def smaxHead (x : Prog) (w : W64) (k : Nat) (pr : W128) (y : Prog) : Prog :=
  let a := (elems (x.vr (fA w + k)) 32).mapIdx (fun i v => if pr.getLsbD i ∧ Fmt.fp32.decode v ≠ .nan then v else negInf)
  let st := (x.gr (fB w + k)).toNat
  let r := smaxStep a (st % 2 ^ 32) (st / 2 ^ 32)
  ((y.setV (fD w + k) (regOf 32 r.2.2.2)).setG (fC w + k) (BitVec.ofNat 64 r.2.2.1)).setG (fB w + k) (BitVec.ofNat 64 (r.1 + r.2.1 * 2 ^ 32))

/-- SMAXP. -/
def execSmaxp (prog : Nat) (s : State) : R :=
  .next (s.vinstr prog (isOp 0x63)
    (fun _ w =>
      let g := fModR w / 16 % 2 == 1
      let ok (n : Nat) : Bool := !g || (n % 8 == 0 && decide (8 ≤ n ∧ n ≤ 24))
      if onlyBits w [uD, uA, uB, uC, (40, 1)] = false then some dReserved
      else if grpOk g (fD w) = false ∨ grpOk g (fA w) = false ∨ ok (fB w) = false ∨ ok (fC w) = false then some dAlign else none)
    (fun x w => (List.range (if fModR w / 16 % 2 = 1 then 8 else 1)).foldl (fun y k => smaxHead x w k (x.pred w) y) x))

/-! ### TOPK (R383) -/

/-- Whether one FP32 value is strictly better than another. -/
def betterF32 (least : Bool) (a b : Nat) : Bool :=
  cmpFV (Fmt.fp32.decode a) (Fmt.fp32.decode b) == some (if least then -1 else 1)

/-- Whether two FP32 values are equal; +0 equals -0. -/
def sameF32 (a b : Nat) : Bool := cmpFV (Fmt.fp32.decode a) (Fmt.fp32.decode b) == some 0

/-- Inserts a candidate: best first, equal values by lower index. -/
def topInsert (least : Bool) (c : Nat × Nat) : List (Nat × Nat) → List (Nat × Nat)
  | [] => [c]
  | h :: t => if betterF32 least c.1 h.1 || (sameF32 c.1 h.1 && decide (c.2 < h.2)) then c :: h :: t else h :: topInsert least c t

/-- Merges one candidate into a list of at most k. -/
def topMerge (least : Bool) (k : Nat) (l : List (Nat × Nat)) (c : Nat × Nat) : List (Nat × Nat) :=
  if Fmt.fp32.decode c.1 = .nan then l
  else if l.length < k then topInsert least c l
  else match l.getLast? with
    | some last => if betterF32 least c.1 last.1 then (topInsert least c l).take k else l
    | none => l

/-- TOPK. Elements above the list's k places stay as they are (assumption log 23). -/
def execTopk (prog : Nat) (s : State) : R :=
  .next (s.vinstr prog (isOp 0x64)
    (fun _ w =>
      let g := fModR w / 32 % 2 == 1
      if onlyBits w [uD, uA, uB, uModR] = false then some dReserved
      else if fD w % 2 ≠ 0 ∨ grpOk g (fA w) = false then some dAlign else none)
    (fun x w =>
      let m := fModR w
      let k := m % 32 + 1
      let least := m / 64 % 2 == 1
      let vals := elems (x.vr (fD w)) 32
      let idxs := elems (x.vr (fD w + 1)) 32
      let held := if 128 ≤ m then [] else ((vals.zip idxs).take k).filter (fun p => p.2 != 0xFFFFFFFF)
      let cand := ((groupOf (m / 32 % 2 == 1) (fA w)).flatMap (fun r => elems (x.vr r) 32)).mapIdx (fun j v =>
        (j, v, ((x.gr (fB w)).toNat + j) % 2 ^ 32))
      let l := (cand.filter (fun c => (x.pred w).getLsbD (c.1 % 32))).foldl (fun acc c => topMerge least k acc c.2) held
      let full := l ++ List.replicate (k - l.length) (if least then 0x7F800000 else negInf, 0xFFFFFFFF)
      (x.setV (fD w) (regOf 32 (full.map (fun p => p.1) ++ vals.drop k))).setV (fD w + 1) (regOf 32 (full.map (fun p => p.2) ++ idxs.drop k))))

/-! ### RED (R384) -/

/-- Reduces FP32 patterns in ascending order. -/
def redFloat (mode op : Nat) (l : List FV) : Nat :=
  match op with
  | 0 => l.foldl (fun acc v => Fmt.fp32.encode mode (sumFV mode [Fmt.fp32.decode acc, v])) 0
  | 1 => l.foldl (fun acc v => Fmt.fp32.maxBits acc (Fmt.fp32.encode mode v)) negInf
  | 2 => l.foldl (fun acc v => Fmt.fp32.minBits acc (Fmt.fp32.encode mode v)) 0x7F800000
  | _ => l.foldl (fun acc v => Fmt.fp32.encode mode (sumFV mode [Fmt.fp32.decode acc, v.mul v])) 0

/-- Reduces integers exactly. -/
def redInt (op : Nat) (l : List Int) : Int :=
  match op with
  | 0 => l.sum
  | 1 => l.foldl max (-(2 ^ 63))
  | 2 => l.foldl min (2 ^ 63 - 1)
  | _ => (l.map (fun v => v * v)).sum

/-- RED. -/
def execRed (prog : Nat) (s : State) : R :=
  .next (s.vinstr prog (isOp 0x65)
    (fun _ w =>
      let m := fModR w
      let ty := m % 16
      if onlyBits w [uD, uA, uModR] = false ∨ 128 ≤ m ∨ ty = 6 ∨ 7 < ty then some dReserved
      else if grpOk (m / 16 % 2 == 1) (fA w) = false then some dAlign else none)
    (fun x w =>
      let m := fModR w
      let ty := m % 16
      let bits := elemBits ty
      let per := 1024 / bits
      let l := (((groupOf (m / 16 % 2 == 1) (fA w)).flatMap (fun r => elems (x.vr r) bits)).mapIdx (fun j v => (j, v))).filter (fun p =>
        (x.pred w).getLsbD (p.1 % per))
      let op := m / 32 % 4
      if ty = 5 ∨ ty = 7 then x.setG (fD w) (BitVec.ofInt 64 (redInt op (l.map (fun p => signedOf bits p.2))))
      else x.setG (fD w) (BitVec.ofNat 64 (redFloat x.round.toNat op (l.map (fun p => ev ty p.2))))))

/-! ### CVT (R385) -/

/-- Registers that one side of a conversion spans. -/
def cvtSpan (self other : Nat) : Nat := max 1 (elemBits self / elemBits other)

/-- Whether a type may be converted. -/
def cvtType (ty : Nat) : Bool := decide (ty ≤ 5) || ty == 7

/-- CVT. -/
def execCvt (prog : Nat) (s : State) : R :=
  .next (s.vinstr prog (isOp 0x66)
    (fun _ w =>
      let src := fModR w / 16
      let dst := fModR w % 16
      if onlyBits w [uD, uA, uModR] = false ∨ cvtType src = false ∨ cvtType dst = false then some dReserved
      else if fA w % cvtSpan src dst ≠ 0 ∨ fD w % cvtSpan dst src ≠ 0 then some dAlign else none)
    (fun x w =>
      let src := fModR w / 16
      let dst := fModR w % 16
      let n := cvtSpan dst src
      let old := x.span (fD w) n (elemBits dst)
      let from0 := x.span (fA w) (cvtSpan src dst) (elemBits src)
      let new := if src = dst then from0 else from0.map (fun v => toElem x.round.toNat dst (ev src v))
      x.putSpan (fD w) n (elemBits dst) (masked (x.pred w) old new)))

end Sys2Proof.Machine
end

