-- ==== Sys2Proof/Machine/LampC.lean ====
section
/-! DEFINITION. Schedule instructions and the events of Lamplighter (09 R386; 11 R408 to R431). -/

namespace Sys2Proof.Machine

/-! ### Records (R409) -/

/-- A field of a record: n bits from bit lo. -/
def rf (r : BitVec 256) (lo n : Nat) : Nat := (r.extractLsb' lo n).toNat

/-- The alternate fields of a step record, as one number. -/
def altBits (r : BitVec 256) : Nat := rf r 128 80

/-- Whether a step record carries no reserved value. -/
def stepOk (r : BitVec 256) : Bool :=
  let fb := rf r 120 2
  let spring := rf r 122 1 == 1
  let core := rf r 208 7
  rf r 14 2 == 0 && rf r 50 6 == 0 && rf r 116 4 == 0 && rf r 124 4 == 0 && fb != 3 &&
  (if fb = 2 then rf r 142 2 == 0 && rf r 178 6 == 0 else altBits r == 0) &&
  rf r 215 1 == 0 && (if spring then !(decide (96 ≤ core ∧ core ≤ 126)) else core == 0) &&
  rf r 228 4 == 0 && rf r 232 16 == 0 && rf r 248 8 == 1

/-- Whether a header record carries no reserved value. -/
def headerOk (r : BitVec 256) : Bool :=
  rf r 14 2 == 0 && rf r 62 2 == 0 && rf r 84 4 == 0 && rf r 88 160 == 0 && rf r 248 8 == 2

/-- A step from its record. -/
def stepOf (r : BitVec 256) : LStep :=
  { region := BitVec.ofNat 14 (rf r 0 14), seg := rf r 16 34, nseg := rf r 56 24 + 1, dbeat := rf r 80 16, dus := rf r 96 20
    fb := BitVec.ofNat 2 (rf r 120 2), spring := rf r 122 1 == 1, drop := rf r 123 1 == 1
    altreg := BitVec.ofNat 14 (rf r 128 14), altseg := rf r 144 34, altnseg := rf r 184 24 + 1
    core := rf r 208 7, lamp := rf r 216 12 }

/-- A schedule as loading leaves it. -/
def loadedSched (h : BitVec 256) (steps : List LStep) : Sched :=
  { lregion := BitVec.ofNat 14 (rf h 0 14), loff := rf h 16 46, period := rf h 64 16, window := if rf h 80 4 = 0 then 3 else rf h 80 4
    steps := steps, armed := false, prog := none, beats := 0, met := 0, miss := 0, altn := 0, directn := 0, coldn := 0, laten := 0, voidn := 0
    badbeat := 0, paused := 0, defer := 0, void := [], insts := [], kept := none, missAt := none, orphan := false }

/-- Whether a range lies within its region; a FREED region is the state check's. -/
def State.inRegion (s : State) (r : RegionId) (first n : Nat) : Bool := (s.ent r).st == .freed || decide (first + n ≤ (s.ent r).segs)

/-- The E_ARG checks of R410, in the order of its table. -/
def State.loadArg (s : State) (l : List (BitVec 256)) : Option W16 :=
  match l with
  | [] => some dRange
  | h :: t =>
    let x := loadedSched h (t.map stepOf)
    let le := s.ent x.lregion
    if headerOk h = false ∨ t.all stepOk = false then some dReserved
    else if t = [] ∨ 4095 < t.length ∨ x.period < 2 ∨ x.period ≤ x.window ∨
        x.steps.any (fun p => decide (x.period ≤ p.dbeat) || decide (1000000 < p.dus) || !s.inRegion p.region p.seg p.nseg ||
          (p.fb == 2 && !s.inRegion p.altreg p.altseg p.altnseg)) ∨
        (x.steps.map (fun p => p.lamp)).Nodup = false ∨
        (le.st ≠ .freed ∧ (le.bytes < x.loff + x.span ∨ le.ponly = false)) then some dRange
    else if x.loff % 64 ≠ 0 then some dAlign else none

/-- The state check of `SCHED.LOAD` for one region (08 R345). -/
def State.schedState (s : State) (r : RegionId) : Option W16 :=
  if (s.ent r).dlost then some 0x25
  else match (s.ent r).st with
    | .freed => some 0x10
    | .evacuating => some 0x13
    | _ => none

/-- Steps loaded in the sled, one schedule left out. -/
def State.loadedSteps (s : State) (but : Nat) : Nat := ((s.lamp.sch.filter (fun p => p.1 != but)).map (fun p => p.2.steps.length)).sum

/-- Every check of R410 on a list of records for schedule key k. -/
def State.loadErr (s : State) (h : HostId) (k : Nat) (l : List (BitVec 256)) : Option Err1 :=
  match s.loadArg l with
  | some d => some (argErr d)
  | none =>
    let x := loadedSched (l.headD 0) ((l.drop 1).map stepOf)
    let rs := x.lregion :: x.steps.flatMap (fun t => t.region :: (if t.fb = 2 then [t.altreg] else []))
    match rs.findSome? (fun r => (s.schedState r).map (fun d => stateErr d (some r))) with
    | some e => some e
    | none =>
      if (s.sched k).any (fun y => y.armed) then some (stateErr 0x30 none)
      else match x.steps.find? (fun t => !s.stepGranted h t) with
        | some t => some (permErr 1 (some t.region))
        | none =>
          if s.lampGranted k x = false then some (permErr 1 (some x.lregion))
          else if 524288 < s.loadedSteps k + x.steps.length then some (capErr 0) else none

/-- Records from bytes. -/
def recordsOf (n : Nat) (b : List Byte) : List (BitVec 256) := (List.range n).map (fun i => BitVec.ofNat 256 (fromBytes ((b.drop (32 * i)).take 32)))

/-! ### Schedule instructions (09 R386) -/

/-- SCHED.STEP. A full step buffer takes no record: E_CAPACITY (assumption log 24). -/
def execSchedStep (prog : Nat) (s : State) : R :=
  .next (s.instr prog (isOp 0xA2)
    (fun _ w _ =>
      if onlyBits w [uA] = false then some dReserved
      else if fA w % 4 ≠ 0 ∨ fA w < 4 ∨ 28 < fA w then some dAlign else none)
    (fun x w _ =>
      if 4096 ≤ x.stepBuf.length then s.failProg prog (capErr 0)
      else s.okOn prog (fun y => { y with stepBuf := y.stepBuf ++ [x.gr (fA w + 3) ++ x.gr (fA w + 2) ++ x.gr (fA w + 1) ++ x.gr (fA w)] })))

/-- The key of a schedule that a program's register names. -/
def Prog.schKeyOf (x : Prog) (w : W64) : Nat := schKey x.host x.q (x.gr (fA w)).toNat

/-- Loads checked records into a schedule. -/
def State.loadSched (s : State) (p k : Nat) (l : List (BitVec 256)) (empties : Bool) : State :=
  match s.prog p with
  | none => s
  | some x =>
    match s.loadErr x.host k l with
    | some e => s.failProg p e
    | none => (s.setSched k (loadedSched (l.headD 0) ((l.drop 1).map stepOf))).okOn p (fun y => if empties then { y with stepBuf := [] } else y)

/-- SCHED.LOAD, from the step buffer or from records at h[B]. -/
def execSchedLoad (prog : Nat) (chk : Chk) (s : State) : R :=
  .next (s.instr prog (isOp 0xA0)
    (fun x w _ =>
      let n := (x.gr (fC w)).toNat
      if onlyBits w [uA, uB, uC, (36, 1)] = false ∨ 8 ≤ fB w then some dReserved
      else if 32 ≤ (x.gr (fA w)).toNat then some dRange
      else if fModR w = 0 then none
      else if hValid (x.hr (fB w)) = false then some dNull
      else if n < 2 ∨ 4096 < n then some dRange else none)
    (fun x w _ =>
      let k := x.schKeyOf w
      if fModR w = 0 then s.loadSched prog k x.stepBuf true
      else
        let n := (x.gr (fC w)).toNat
        let h := x.hr (fB w)
        if s.dataReady (hRegion h) [(hBase h, 32 * n)] = false then s.wakeFor (hRegion h) [(hBase h, 32 * n)]
        else match s.dataAccess x.host (hRegion h) (hBase h) (32 * n) false with
        | some e => s.failProg prog e
        | none =>
          match s.progLoad prog x (hRegion h) (hBase h) (32 * n) chk with
          | (t, some b) => t.loadSched prog k (recordsOf n b) false
          | (t, none) => t))

/-- The sector check of the schedule block's segment fails: the segment is poisoned before the write is tried (03 R111). -/
def State.lampChk (s : State) (k : Nat) (c : Chk) : State :=
  match s.sched k with
  | some x =>
    if chkFails c then
      match (s.sme x.lregion (x.loff / 4096)).home with
      | some h => if h.isNear then s.homeFault x.lregion (x.loff / 4096) h (c == Chk.tag) false else s
      | none => s
    else s
  | none => s

/-- Armed schedules of the sled. -/
def State.armedCount (s : State) : Nat := (s.lamp.sch.filter (fun p => p.2.armed)).length

/-- Steps 1 to 4 of arming (R427). -/
def State.arm (s : State) (p k : Nat) (x : Sched) (pick : W32) : State :=
  let y := { x with armed := true, prog := some p, beats := 0, met := 0, miss := 0, altn := 0, directn := 0, coldn := 0, laten := 0, voidn := 0,
                    badbeat := 0, paused := 0, defer := 0, insts := [], kept := none, missAt := none, orphan := false }
  let s1 := s.setSched k y
  let s2 := y.steps.foldl (fun t st => (t.lampStore k y.lregion (y.loff + 64 + 8 * st.lamp) (lampWord .cold false false 0xFFFFFFFF)).1) s1
  let b := s2.lampStore k y.lregion y.loff y.block
  if b.2 then b.1.disarmFor k 3
  else (((List.range y.steps.length).filter (fun i => match y.steps[i]? with
    | some t => decide (t.dbeat + 1 ≤ y.window)
    | none => false)).foldl (fun t i => match y.steps[i]? with
      | some st => t.startInst k i st.dbeat pick
      | none => t) b.1).writeBlock k

/-- The checks of the words of `SCHED.ARM`. -/
def armCheck (x : Prog) (w : W64) : Option W16 :=
  if onlyBits w [uA, (26, 1)] = false then some dReserved else if 32 ≤ (x.gr (fA w)).toNat then some dRange else none

/-- SCHED.ARM, the arm form. -/
def execSchedArm (prog : Nat) (chk : Chk) (pick : W32) (s : State) : R :=
  .next (s.instr prog (fun w => isOp 0xA1 w && fModI w % 2 == 0) (fun x w _ => armCheck x w)
    (fun x w _ =>
      let k := x.schKeyOf w
      match s.sched k with
      | none => s.failProg prog (stateErr 0x31 none)
      | some y =>
        if y.armed then s.failProg prog (stateErr 0x30 none)
        else if y.steps = [] then s.failProg prog (stateErr 0x31 none)
        else if s.lampGranted k y = false then s.failProg prog (permErr 1 (some y.lregion))
        else if 1024 ≤ s.armedCount then s.failProg prog (capErr 0)
        else ((s.lampChk k chk).arm prog k y pick).okOn prog (fun z => z)))

/-- SCHED.ARM, the disarm form. -/
def execSchedDisarm (prog : Nat) (chk : Chk) (_pick : W32) (s : State) : R :=
  .next (s.instr prog (fun w => isOp 0xA1 w && fModI w % 2 == 1) (fun x w _ => armCheck x w)
    (fun x w _ => ((s.lampChk (x.schKeyOf w) chk).disarm (x.schKeyOf w)).okOn prog (fun z => z)))

/-! ### Beats (R411, R412) -/

/-- A beat doorbell write: ignored unless the queue runs (08 R319). -/
def State.beatWrite (s : State) (h : HostId) (q : QueueNo) (n : Nat) (value : W64) (pick : W32) : State :=
  if (s.queue h q).st = .running then s.lampBeat (schKey h q n) (value.toNat % 2 ^ 16) pick else s

/-- BEAT. -/
def execBeat (prog : Nat) (s : State) : R :=
  .next (s.instr prog (isOp 0xA3)
    (fun x w _ =>
      if onlyBits w [uA, uB, uC] = false then some dReserved
      else if 32 ≤ (x.gr (fA w)).toNat ∨ 64 ≤ (x.gr (fB w)).toNat ∨ s.schedQueue x.host (x.gr (fB w)).toNat = false then some dRange else none)
    (fun x w _ =>
      let s1 := s.okOn prog (fun y => y)
      s1.beatWrite x.host (BitVec.ofNat 6 (x.gr (fB w)).toNat) (x.gr (fA w)).toNat (x.gr (fC w)) 0))

/-- BEAT_DOORBELL. -/
def execBeatDoorbell (host : HostId) (q : QueueNo) (sch : Fin 32) (value : W64) (chk : Chk) (pick : W32) (s : State) : R :=
  .next (if s.barOpen host = false ∨ (s.queue host q).st ≠ .running then s
    else (s.lampChk (schKey host q sch.val) chk).beatWrite host q sch.val value pick)

/-! ### Settlement (R422, R426, R431) -/

/-- An instance whose retirement has come retires once it is settled. -/
def State.retireDue (s : State) (k step d : Nat) : State :=
  match s.sched k with
  | some x => if d + 2 ≤ x.beats then s.retire k step d else s
  | none => s

/-- A DIRECT instance under Training has been placed late: READY with `LATE`, and its open range closes (R423, R426). -/
def State.settleLate (s : State) (k step d : Nat) : State :=
  match s.sched k with
  | none => s
  | some x =>
    let s1 := (s.updInst k step d (fun i => { i with settled := some .ready, late := false, stopped := true })).updSched k (fun y => { y with laten := satInc y.laten })
    (if x.newer step d then s1 else s1.writeLamp k x step .ready true d).writeBlock k

/-- One instance, after a placement of it has committed. -/
def State.instCommitted (s : State) (k : Nat) (x : Sched) (i : Inst) (t : LStep) (pick : W32) : State :=
  if s.placedStep t = false then (if s.placing i then s.placeInst k x i t pick else s)
  else if i.settled.isNone ∧ i.stopped = false ∧ i.deferred = false then (s.settleReady k i.step i.d).retireDue k i.step i.d
  else if i.settled = some .direct ∧ i.late = true ∧ s.pwr.profile = .training then (s.settleLate k i.step i.d).retireDue k i.step i.d
  else s

/-- INSTANCE_PLACED. -/
def execInstancePlaced (host : HostId) (q : QueueNo) (sch : Fin 32) (step : Nat) (pick : W32) (s : State) : R :=
  let k := schKey host q sch.val
  .next (match s.sched k with
    | none => s
    | some x =>
      if x.armed = false ∨ x.orphan = true ∨ s.lamp.stopped = true then s
      else match x.steps[step]? with
        | none => s
        | some t => (x.insts.filter (fun i => i.step == step)).foldl (fun u i => u.instCommitted k x i t pick) s)

/-- DEADLINE_EXPIRY: the oldest due instance of the step that has not settled. In an activation pause it is counted and settles nothing
(R430); without a Lantern it waits for the takeover (R431). -/
def execDeadlineExpiry (host : HostId) (q : QueueNo) (sch : Fin 32) (step : Nat) (pick : W32) (s : State) : R :=
  let k := schKey host q sch.val
  .next (match s.sched k with
    | none => s
    | some x =>
      match x.insts.find? (fun i => i.step == step && i.due && i.settled.isNone && !i.passed) with
      | none => s
      | some i =>
        if x.armed = false then s
        else if s.lamp.stopped then s.updSched k (fun y =>
          { y with paused := satInc y.paused, insts := y.insts.filter (fun j => !(j.step == step && j.d == i.d)) })
        else if x.orphan then s.updInst k step i.d (fun j => { j with passed := true })
        else ((s.deadline k step i.d).retireDue k step i.d).lampPlace pick)

/-- The schedules of a chiplet whose Lantern was lost go on: overdue instances settle to their fallback, and the beat kept meanwhile
applies (R431). -/
def State.adopt (s : State) (chip : Nat) (pick : W32) : State :=
  (s.lamp.sch.filter (fun p => p.2.orphan && s.chipletOf p.2.lregion == chip)).foldl (fun t p =>
    let t1 := t.updSched p.1 (fun y => { y with orphan := false, kept := none })
    let t2 := (p.2.insts.filter (fun i => i.passed)).foldl (fun u i => (u.deadline p.1 i.step i.d).retireDue p.1 i.step i.d) t1
    match p.2.kept with
    | some v => t2.lampBeat p.1 v.toNat pick
    | none => t2) s

/-- SCHEDULE_TAKEOVER: some Lantern is in service and takes over the schedules of a lost one. -/
def execScheduleTakeover (lantern : Fin 4) (pick : W32) (s : State) : R :=
  .next (if (List.range 4).any (fun n => n != lantern.val && !s.fenced (.lantern n)) ∧ s.up = true then s.adopt (lantern.val / 2) pick else s)

end Sys2Proof.Machine
end

