-- ==== Sys2Proof/Machine/Ctl.lean ====
section
/-! DEFINITION. What control instructions share: the entry token and its rollback (01 R28 to R32), recalls (06 R244, R252), trials
(02 R73; 03 R129, R131), and the operations that move segments one by one (02 R74, R89, R94; 09 R371, R372). -/

namespace Sys2Proof.Machine

/-! ### The entry token (01 R28, R31, R32) -/

/-- Whether a change holds a region's entry token: an odd entry, or a seal that recalls lines before its change. A control
instruction that needs the token waits. -/
def State.token (s : State) (r : RegionId) : Bool :=
  s.rt.stalled.any (fun x => x.region == r) || s.q.ops.any (fun o => o.2.kind == .sealing && o.2.region == r && o.2.aux == 0)

/-- A change of an entry that stays odd (R32): nothing but the generation has changed. -/
def State.stallEntry (s : State) (r : RegionId) (p g : Option Nat) : State :=
  let e := s.ent r
  let s1 := s.setEnt r { e with gen := e.gen + 1 }
  { s1 with rt := { s1.rt with stalled := s1.rt.stalled ++ [(⟨r, e, p, g, 0⟩ : Stalled)] } }

/-- The odd entry of a region is restored from its shadow and set even; RT_ROLLBACK posts (R32). Changes that have waited for the token follow,
one generation each (R28). -/
def State.rollback (s : State) (x : Stalled) : State :=
  let g := x.shadow.gen + 2
  let s1 := s.setEnt x.region { x.shadow with gen := g + BitVec.ofNat 32 (2 * x.late) }
  let s2 := ({ s1 with rt := { s1.rt with stalled := s1.rt.stalled.filter (fun y => y.region != x.region) } }).post
    (pairPost .rtRollback 1 x.region.toNat g.toNat 0)
  s2.journalEnt x.region

/-- Whether no request tagged with an earlier generation is in flight (R31); one held on an odd generation has looked nothing up yet (R29). -/
def State.drained (s : State) (r : RegionId) (gen : W32) : Bool :=
  !s.dir.held.any (fun x => x.region == r && x.why != .odd && decide (x.gen.toNat < gen.toNat))

/-- A program's narrowing instruction completes once requests of earlier generations have completed (R31). -/
def State.narrowDone (s : State) (p : Nat) (r : RegionId) : State :=
  let gen := (s.ent r).gen
  if s.drained r gen then s.ctlOk p 0 0
  else ({ s with rt := { s.rt with drains := s.rt.drains ++ [(⟨r, gen, p⟩ : Drain)] } }).ctlWait p

/-- Narrowing instructions of a region whose requests have drained complete. -/
def State.drainRegion (s : State) (r : RegionId) : State :=
  let go := s.rt.drains.filter (fun d => d.region == r && s.drained r d.gen)
  go.foldl (fun t d => t.ctlOk d.prog 0 0) { s with rt := { s.rt with drains := s.rt.drains.filter (fun d => !go.contains d) } }

/-! ### Recalls (06 R244, R252) -/

/-- BISnpInv for every line of a region that no snoop is out for; a line that no host holds leaves the directory. -/
def State.recallRegion (s : State) (r : RegionId) : State :=
  (s.dir.ent.filter (fun e => e.region == r && !e.busy)).foldl (fun t e =>
    let l := t.listed e
    if l = [] then t.dirDel r e.line else t.snoop e .inv l) s

/-- Whether the directory tracks any line of a region. -/
def State.trackedLines (s : State) (r : RegionId) : Bool := s.dir.ent.any (fun e => e.region == r)

/-! ### Trials (02 R73; 03 R128 to R131) -/

/-- An entry with a stored form of another codec and size, its home unchanged or gone. -/
def Sme.form (e : Sme) (st : SegSt) (codec csize : Nat) (w1 : W64) : Sme :=
  { w0 := ({ st := st.code, spr := e.f.spr, codec := BitVec.ofNat 3 codec, csize := BitVec.ofNat 5 csize, pin := e.f.pin, lend := false, prior := 0,
             age := e.f.age, aux := 0 } : SmeF).word
    w1 := w1 }

/-- What a trial found. -/
inductive TrialEnd
  | done      -- committed
  | tried     -- nothing fits: `TRIED`
  | noRoom    -- no run is free: try again later
deriving DecidableEq, Repr

/-- Commits the outcome of a trial on an OPEN segment (02 R73): ZERO, PATTERN, PACKED in a fresh run of the same kind of store, or
nothing. -/
def State.commitTrial (s : State) (r : RegionId) (seg : Nat) (lzv exp : Option Packed) (pick : W32) : State × TrialEnd :=
  let e := s.sme r seg
  match e.home with
  | some (.near spr a) =>
    let b := s.readRun (.near spr a) 16
    if allZero b then (((s.commitSme r seg ({ (e.form .zero 0 0 0) with w0 := ((e.form .zero 0 0 0).edit (fun f => { f with spr := false })).w0 })).releaseHome e), .done)
    else if isPattern b then
      (((s.commitSme r seg ((e.form .pattern 1 0 (BitVec.ofNat 64 (fromBytes (b.take 8)))).edit (fun f => { f with spr := false }))).releaseHome e), .done)
    else
      let form := s.bestForm r lzv exp b
      let s := (s.noteForm r 3 lzv b).noteForm r 4 exp b
      match form with
      | none => (s, .tried)
      | some (codec, x) =>
        let run := if spr then s.allocSpring (a / 4096) x.csize else s.allocPond (s.anchorOf r seg) x.csize (s.useOf r seg .store) pick
        match run with
        | none => (s, .noRoom)
        | some d =>
          let s1 := s.writeRun (.near spr d) (x.run ++ zeros (x.csize * 256 - x.run.length))
          ((s1.commitSme r seg (e.form .packed codec x.csize (BitVec.ofNat 64 d))).releaseHome e, .done)
  | _ => (s, .tried)

/-! ### Operations that move segments (02 R74, R89, R94; 09 R371, R372) -/

/-- Segments an operation looks at, in ascending order. -/
def State.opSegs (s : State) (o : COp) : List (RegionId × Nat) :=
  match o.kind with
  | .windowOut => (s.map.sme.filter (fun p => match p.2.home with
      | some (.tarn w _) => w == o.aux
      | _ => false)).map (fun p => (keyRegion p.1, keySeg p.1))
  | _ => ((s.smes o.region).filter (fun p => decide (o.first ≤ p.1 ∧ p.1 < o.first + o.count))).map (fun p => (o.region, p.1))

/-- Whether a segment is not yet where an operation puts it: a segment whose home is on the move is not (R68), and POISONED, ZERO and PATTERN
segments have nothing to move (14 R514). -/
def State.opNeeds (s : State) (o : COp) (r : RegionId) (seg : Nat) : Bool :=
  let e := s.sme r seg
  match e.home with
  | none => false
  | some h =>
    let near := (e.image <|> some h).getD h
    (s.moveOf r seg).any (fun m => !m.2.image) ||
    match o.kind with
    | .sealing => if s.hasLake then !h.isLake else h.isSpring
    | .pin => !near.isNear
    | .windowOut => (match h with
        | .tarn w _ => w == o.aux
        | _ => false)
    | .moveTier =>
      (match o.tier with
       | .spring => near.core != some (s.lampCore r seg o.aux) && !(o.aux == 127 && near.core.any (fun c => c / 8 == s.anchorOf r seg))
       | .pond => !(near.isNear && !near.isSpring)
       | .lake => !h.isLake
       | .tarn => (match h with
           | .tarn _ _ => false
           | _ => true))
    | _ => false

/-- Whether the move of a segment must wait: its token is held, or its source pseudo-channel is under PANIC (04 R149). -/
def State.opWaits (s : State) (r : RegionId) (seg : Nat) : Bool :=
  (s.moveOf r seg).isSome || s.panicAt (s.sme r seg).home

/-- A seal's move has taken its space: so much of what the seal has reserved in Lake is used (02 R74). -/
def State.sealSpent (s : State) (n cs : Nat) : State :=
  { s with
    lake := { s.lake with resv := s.lake.resv - cs }
    q := { s.q with ops := s.q.ops.upd n (fun o => { o with resv := o.resv - cs }) } }

/-- Starts the move of one segment for operation n: the state after it, or the status and detail of a move that cannot start. A segment that has
been pinned meanwhile goes no lower than Pond (02 R71). -/
def State.opStart (s : State) (n : Nat) (o : COp) (r : RegionId) (seg : Nat) : State × Option (Byte × W16) :=
  let e := s.sme r seg
  let why := MoveFor.op n
  let lend := s.lends r seg
  let far := !(e.home.any Loc.isNear)
  let barred := far && !lend && s.admitDirty r seg e.cs != .yes
  let go (t : State) (l : Loc) (image : Bool) : State × Option (Byte × W16) := ((t.startMove (mkMove r seg l e.cs image 3 why)).1, none)
  match o.kind with
  | .sealing =>
    if s.hasLake = false then (match s.allocPond (s.anchorOf r seg) e.cs (s.useOf r seg .store) o.pick with
      | some a => go s (.near false a) false
      | none => (s, none))
    else (match (if s.lake.wear = .spent then none else s.lakePlace .host (s.anchorOf r seg / 6) e.cs s.map.moveNo) with
     | some p => ((p.1.startMove { mkMove r seg p.2 e.cs false 3 why with sealing := !far }).1.sealSpent n e.cs, none)
     | none => (s, none))
  | .pin =>
    if barred then (s, none)
    else (match s.allocPond (s.anchorOf r seg) e.cs (s.useOf r seg .store) 0 with
      | some a => go s (.near false a) lend
      | none => (s, none))
  | .windowOut =>
    (match s.allocTset r e.cs (some o.aux) with
     | some l => go s l false
     | none =>
       match s.lakeDest r seg e.cs with
       | some p => go p.1 p.2 false
       | none =>
         if s.lakeAdmits e.cs && s.hostWaits .host then (s, none)
         else match (if barred then none else s.allocPond (s.anchorOf r seg) e.cs (s.useOf r seg .store) 0) with
         | some a => go s (.near false a) false
         | none => (s, some (eCapacity, 5)))
  | .moveTier =>
    (match o.tier with
     | .spring =>
       let c := s.lampCore r seg o.aux
       if s.fenced (.wick c) then (s, some (eFenced, 0))
       else if barred then (s, some (eCapacity, 0))
       else (match s.roomSpring c e.cs 8192 with
         | (t, .run a) => go t (.near true a) lend
         | (t, .wait) => (t, none)
         | (t, .none) => (t, some (eCapacity, 0)))
     | .pond =>
       if barred then (s, some (eCapacity, 0))
       else (match s.allocPond (s.anchorOf r seg) e.cs (s.useOf r seg .place) 0 with
         | some a => go s (.near false a) lend
         | none => (s, some (eCapacity, 0)))
     | .lake =>
       if e.f.pin then (s, some (eState, 0x20))
       else (match s.lakeDest r seg e.cs with
         | some p => go p.1 p.2 false
         | none => if s.lakeAdmits e.cs && s.hostWaits .host then (s, none) else (s, some (eCapacity, 0)))
     | .tarn =>
       if e.f.pin then (s, some (eState, 0x20))
       else (match s.allocTset r e.cs none with
         | some l => go s l false
         | none => (s, some (eCapacity, 0))))
  | _ => (s, none)

/-- Notes that a segment of an operation has failed: its lowest one counts (09 R372). -/
def State.opFail (s : State) (n seg : Nat) (status : Byte) (detail : W16) : State :=
  { s with q := { s.q with ops := s.q.ops.upd n (fun o => match o.failed with
      | some k => if seg < k then { o with failed := some seg, status := status, detail := detail } else o
      | none => { o with failed := some seg, status := status, detail := detail }) } }

/-- Starts what an operation can start, lowest segment first, until one has no destination. The SME of each is checked as at an access (02 R61; 14
R509). -/
def State.opStarts (s : State) (n : Nat) (o : COp) : State :=
  (s.opSegs o).foldl (fun t0 p =>
    let t := t0.checkSme p.1 p.2
    if (match t.q.ops.find n with
        | some x => x.failed.isSome
        | none => true) then t
    else if !t.opNeeds o p.1 p.2 || t.opWaits p.1 p.2 then t
    else match t.opStart n o p.1 p.2 with
      | (u, none) => u
      | (u, some st) => u.opFail n p.2 st.1 st.2) s

/-- OPEN segments of a region: those a seal runs a trial on (03 R131). -/
def State.openSegs (s : State) (r : RegionId) : List (Nat × Bool) :=
  ((s.smes r).filter (fun p => (p.2.st == .opn || (p.2.st == .transit && p.2.src == .opn)) && !s.malformed p.2)).map (fun p => (p.1, false))

/-- Sets the trials that an operation still owes. -/
def State.setOwed (s : State) (n : Nat) (l : List (Nat × Bool)) : State := { s with q := { s.q with ops := s.q.ops.upd n (fun o => { o with owed := l }) } }

/-- Runs a seal's trials as far as they go (03 R131, R135): a segment that is on the move, or whose ordinary trial runs, waits; one that is no longer
OPEN needs none; a tile without Lit permission is asked to wake (R138). With every engine fenced there is no trial to run. -/
def State.sealTrials (s : State) (n : Nat) (o : COp) : State :=
  let r := o.region
  let step (a : State × List (Nat × Bool)) (x : Nat × Bool) : State × List (Nat × Bool) :=
    let t := a.1
    let e := t.sme r x.1
    let tile := (e.home.bind Loc.tile).getD 0
    if t.map.trials.has (segKey r x.1) ∨ (t.moveOf r x.1).isSome = true then (t, a.2 ++ [x])
    else if e.st ≠ .opn ∨ t.malformed e = true then a
    else match t.engineFor tile, t.trialEngine tile with
      | none, _ => a
      | some k, none => (t.setLedger (k / 4) { t.ledger (k / 4) with asks := true, rperm := 0 }, a.2 ++ [(x.1, false)])
      | _, some k => (t.submit r x.1 k, a.2 ++ [(x.1, true)])
  let p := o.owed.foldl step (s, [])
  p.1.setOwed n p.2

/-- Sectors that a seal moves into Lake (02 R74): a home on its way into Lake has them, one on its way out of Lake needs them. -/
def State.sealNeed (s : State) (r : RegionId) : Nat :=
  if s.hasLake then ((s.smes r).map (fun p => match p.2.home with
    | some h => if (((s.moveOf r p.1).filter (fun m => !m.2.image)).elim h (fun m => m.2.dest)).isLake then 0 else p.2.cs
    | none => 0)).sum else 0

/-- A seal's one entry change (06 R243, R244; 02 R74): SEALED, every RW grant RO, tracking ended. -/
def State.sealChange (s : State) (n : Nat) (o : COp) : State :=
  let r := o.region
  let hosts := s.grantHosts r
  let s1 := s.change r (fun e => { e with st := .seald })
  let s2 := { s1 with rt := { s1.rt with grants := s1.rt.grants.map (fun (p : Nat × Grant) => if p.2.region = r then (p.1, { p.2 with rw := false }) else p) } }
  let s3 := (s2.journalEnt r).fixOffers
  let s4 := hosts.foldl State.lampGrantsGone s3
  { s4 with q := { s4.q with ops := s4.q.ops.upd n (fun x => { x with aux := (s4.ent r).gen.toNat + 1 }) } }

/-- Ends a window's grant once its homes have left it (02 R94). -/
def State.endWindow (s : State) (w : Nat) : State :=
  { s with rt := { s.rt with windows := s.rt.windows.del w, tsets := s.rt.tsets.map (fun (p : Nat × List Nat) => (p.1, p.2.filter (fun x => x != w))) } }

/-- An operation ends: its programs complete (09 R372). -/
def State.opEnd (s : State) (n : Nat) (o : COp) : State :=
  let s1 := { s with q := { s.q with ops := s.q.ops.del n }, lake := { s.lake with resv := s.lake.resv - o.resv } }
  let ps := o.prog :: o.also
  match o.failed with
  | some k =>
    let s2 := if o.kind = .moveTier ∨ o.kind = .push ∨ o.kind = .pull then { s1 with q := { s1.q with progs := s1.q.progs.upd o.prog (fun x => x.setG o.d (BitVec.ofNat 64 o.done)) } } else s1
    ps.foldl (fun t p => t.failProg p { status := o.status, detail := o.detail, region := some o.region,
                                        info := if o.kind = .windowOut then 0 else if o.status = ePoison then poisonInfo o.region (k * 4096) else BitVec.ofNat 64 (k * 4096) }) s2
  | none =>
    match o.kind with
    | .sealing => s1.narrowDone o.prog o.region
    | .windowOut => ps.foldl (fun t p => t.ctlOk p 0 0) (s1.endWindow o.aux)
    | .moveTier | .push | .pull => s1.ctlOk o.prog o.d (BitVec.ofNat 64 o.done)
    | _ => s1.ctlOk o.prog 0 0

/-- A seal up to its entry change (02 R74; 03 R131; 06 R244): the recall of the region's lines; the trials of its OPEN segments; then, in one step, the
reservation of Lake's space and the change. Lines that hosts take up again meanwhile are recalled again, and what they write back is tried too. -/
def State.sealBegin (s : State) (n : Nat) (o : COp) : State :=
  let r := o.region
  let s1 := s.recallRegion r
  if s1.trackedLines r then s1.setOwed n (s1.openSegs r)
  else
    let s2 := s1.sealTrials n o
    let need := s2.sealNeed r
    let stop (e : Err1) : State := ({ s2 with q := { s2.q with ops := s2.q.ops.del n } }).failProg o.prog e
    if (s2.q.ops.find n).any (fun x => x.owed != []) then s2
    else if s2.dir.lost.any (fun l => l.2.1 == r) then stop (stateErr 0x24 (some r))
    else if need ≠ 0 ∧ s2.lakeAdmits need = false then stop (capErr 5)
    else ({ s2 with
      lake := { s2.lake with resv := s2.lake.resv + need }
      q := { s2.q with ops := s2.q.ops.upd n (fun x => { x with resv := need }) } }).sealChange n o

/-- Runs the moves of an operation as far as they go, and ends it once none is left. -/
def State.opRun (s : State) (n : Nat) (o : COp) : State :=
  let s2 := if o.failed.isSome then s else s.opStarts n o
  match s2.q.ops.find n with
  | none => s2
  | some x =>
    if s2.map.moves.any (fun m => m.2.why == .op n) then s2
    else if x.failed.isSome ∨ (s2.opSegs x).all (fun p => !s2.opNeeds x p.1 p.2) then s2.opEnd n x
    else s2

/-- Runs an operation as far as it goes. -/
def State.runOp (s : State) (n : Nat) : State :=
  match s.q.ops.find n with
  | none => s
  | some o =>
    if !s.up || o.kind == .evacuate || o.kind == .leaving || o.kind == .push || o.kind == .pull then s
    else if o.kind = .sealing ∧ o.aux = 0 then
      let s1 := s.sealBegin n o
      match s1.q.ops.find n with
      | some x => if x.aux = 0 then s1 else s1.opRun n x
      | none => s1
    else s.opRun n o

/-- Runs every operation, oldest first. -/
def State.runOps (s : State) : State := (s.q.ops.map (fun o => o.1)).foldl State.runOp s

/-- A new operation, which runs at once. -/
def State.newOp (s : State) (o : COp) : State :=
  let n := s.q.opNo
  (({ s with q := { s.q with ops := s.q.ops.put n o, opNo := n + 1 } }).ctlWait o.prog).runOp n

/-- An operation with its defaults. -/
def mkOp (k : OpKind) (p : Nat) (r : RegionId) (first count : Nat) : COp :=
  { kind := k, prog := p, also := [], region := r, first := first, count := count, done := 0, failed := none, status := 0, detail := 0, d := 0,
    peerSled := 0, peerRegion := 0, peerSeg := 0, c3 := false, tier := .pond, aux := 0, resv := 0, owed := [], pick := 0 }

end Sys2Proof.Machine
end

