-- ==== Sys2Proof/Machine/Moves.lean ====
section
/-! DEFINITION. Segments on the move: reads of Lake and Tarn, moves and image placements, releases, the clocks of the Segment Map and
trial packs (01 R29, R31; 02 R61 to R87; 03 R129; 05 R188, R194, R226). -/

namespace Sys2Proof.Machine

/-! ### What follows a move -/

/-- Whether every prefetch a program waits for has been placed or abandoned (09 R375). -/
def State.pfDone (s : State) (x : Prog) : Bool := x.wait == .prefetch && !(x.pf.any s.map.moves.has)

/-- Programs whose prefetches have all ended go on. -/
def State.wakePf (s : State) : State :=
  (s.q.progs.filter (fun p => s.pfDone p.2)).foldl (fun t p => t.okOn p.1 (fun x => { x with pf := [] })) s

/-- Held stores of a segment that wait for its token run again. -/
def State.freeToken (s : State) (r : RegionId) (seg : Nat) (pick : W32) : State :=
  s.rerun (fun x => x.why == .token && x.region == r && x.line.toNat / 64 == seg) .ok pick

/-- The commit of a move (02 R68 step 6, R74, R75; AGE under R62), the release of its source, and what waited for it: a relocated home keeps its
image (R77), and loads that waited for a rescued home go on. -/
def State.commitMove (s : State) (n : Nat) (m : Move) (pick : W32) : State :=
  let r := m.region
  let e := s.sme r m.seg
  let x := s.ent r
  let s1 := { s with map := { s.map with moves := s.map.moves.del n } }
  let a := match m.dest with
    | .near _ k => k
    | _ => 0
  let former := e.w1.setWidth 32
  let e1 : Sme :=
    if m.image then e.edit (fun f => { f with lend := true, spr := m.dest.isSpring, aux := BitVec.ofNat 32 a, age := s.clk.age })
    else if m.sealing then (e.at m.dest).edit (fun f => { f with lend := true, spr := e.f.spr, aux := former, pin := f.pin || x.ponly })
    else if m.dest.isLake ∧ e.f.lend = true then { (e.edit (fun f => { f with st := 4, prior := 0 })) with w1 := m.dest.word1 }
    else if m.dest.isNear then (e.at m.dest).edit (fun f => { f with age := s.clk.age, aux := if f.codec = 2 then e.f.aux else 0 })
    else e.at m.dest
  let s2 := s1.commitSme r m.seg e1
  let s3 := if m.image then (match e.image with
      | some l => s2.release l e.cs true
      | none => s2)
    else if m.sealing then s2 else s2.releaseHome e
  let s4 := (if m.why = .wback then s3.wbCommitted m.len else s3).noteRun r m.seg e1
  let s5 := match m.why with
    | .op k => ({ s4 with q := { s4.q with ops := s4.q.ops.upd k (fun o => { o with done := o.done + 1 }) } }).runOp k
    | _ => s4
  ((s5.freeToken r m.seg pick).rerun (missOf r m.seg) .ok 0).wakePf

/-- Another destination for a move whose verification has failed (02 R69). -/
def State.redest (s : State) (strm : Strm) (n : Nat) (m : Move) (pick : W32) : Option (State × Loc) :=
  match m.dest with
  | .near false _ => (s.allocPond (s.anchorOf m.region m.seg) m.len (s.useOf m.region m.seg .place) pick).map (fun a => (s, Loc.near false a))
  | .near true a => (s.allocSpring (a / 4096) m.len).map (fun b => (s, Loc.near true b))
  | .flash _ _ => s.lakePlace strm (s.anchorOf m.region m.seg / 6) m.len n
  | .tarn _ _ => (s.allocTset m.region m.len none).map (fun l => (s, l))

/-- The verification of a move has failed (02 R69): one retry elsewhere, then MOVE_FAIL with the source still home. A seal and a pin
try again (02 R74, R89); a tier move ends. DESIGN CHOICE (assumption log 28): where no other destination exists for the retry, the move ends after its
one failure and posts no MOVE_FAIL, which R69 gives for the second failure. -/
def State.moveFailed (s : State) (n : Nat) (m : Move) (pick : W32) : State :=
  let s1 := { s with lake := { s.lake with stripes := s.lake.stripes.map (fun (p : Nat × Stripe) => (p.1, { p.2 with moves := p.2.moves.filter (fun x => x != n) })) } }
  let again : Option (State × Loc) := if m.fails = 0 then s1.redest (s.streamOf n) n m pick else none
  let after (t : State) : State := match m.why with
    | .op k =>
      let u := if (t.q.ops.find k).any (fun o => o.kind == .moveTier) then t.opFail k m.seg eIntegrity 0 else t
      u.runOp k
    | _ => t
  match again with
  | some (t, l) => { t with map := { t.map with moves := t.map.moves.put n { m with dest := l, fails := 1, verified := false } } }
  | none =>
    let w1 := (s1.sme m.region m.seg).w1
    let s2 := s1.abortMove n
    let s3 := if m.fails = 0 then s2 else s2.post (segPost .moveFail m.region m.seg 0 w1)
    ((after s3).freeToken m.region m.seg pick).wakePf

/-- Whether the Pond commands of a move wait: one of class C3 under PANIC at its source or destination (02 R83; 04 R149), or a source or destination
whose pseudo-channel retrains (04 R159) or whose tile is Banked (13 R477). -/
def State.moveHeld (s : State) (m : Move) : Bool :=
  let src := (s.sme m.region m.seg).home
  let near := src.toList ++ [m.dest]
  near.any (fun l => !s.deadDest l &&
    ((m.cls == 3 && s.panicAt (some l)) || s.trainHeld l || l.tile.any (fun t => (s.ledger t).st == .banked)))

/-- A held move asks for the wake of the Banked tiles it needs. -/
def State.moveWake (s : State) (m : Move) : State :=
  (((s.sme m.region m.seg).home.toList ++ [m.dest]).filterMap Loc.tile).foldl (fun t i => if (t.ledger i).st = .banked then t.askWake i else t) s

/-- A page that no decode step gives loses every run on it (05 R226): a segment with an image is written back from it by a move, any other is
poisoned. -/
def State.losePage (s : State) (f : Nat) : State :=
  (s.map.sme.filter (fun p => match p.2.home with
    | some (.flash g _) => g == f
    | _ => false)).foldl (fun t p =>
      let r := keyRegion p.1
      let seg := keySeg p.1
      if (t.sme r seg).image.isNone then t.homeFault r seg (.flash f 0) false false else t.relocateLake r seg 1) s

/-- The source of a copy cannot be read, or its sectors fail their check (02 R102; 03 R111; 05 R226). -/
def State.srcFault (s : State) (r : RegionId) (seg : Nat) (h : Loc) (src : LakeOut) (stale : Bool) : State :=
  match h, lakeChk src with
  | .flash f _, none => s.losePage f
  | _, some c => s.homeFault r seg h (c == Chk.tag || (stale && !chkFails c)) false
  | _, none => s.homeFault r seg h false false

/-- A move's source in Lake cannot be read, and the segment has an image: the move copies the image (05 R226). Otherwise none. -/
def rescueSrc (e : Sme) (h : Loc) (bad : Bool) : Option Loc := if bad ∧ h.isLake = true then e.image else none

/-- MOVE_COPY_DONE: the copy of a move ends (02 R68 steps 4 to 6). `src` is how the reads of the source ended, `ok` the verification; a
destination on a fenced unit fails it (01 R43; 02 R98). A move into Lake is verified here and commits with its stripe (05 R194); one out of Lake has
read a page (05 R188, R204, R206). -/
def execMoveCopyDone (move : Nat) (ok : Bool) (src : LakeOut) (pick : W32) (s : State) : R :=
  .next (match s.map.moves.find move with
    | none => s
    | some m =>
      if m.image ∨ m.verified = true then s
      else if s.moveHeld m then s.moveWake m
      else
        let e := s.sme m.region m.seg
        match e.home with
        | none => s.abortMove move
        | some h =>
          let stale := !s.epochOk h e.cs
          let bad := stale || (lakeChk src).all chkFails
          let s0 := s.countRead h src
          if s.dead h then s.checkSme m.region m.seg
          else if bad ∧ rescueSrc e h bad = none then
            (((s0.srcFault m.region m.seg h src stale).afterRead h src).freeToken m.region m.seg pick).runOps
          else
            let s1 := (s0.noteChk h ((lakeChk src).getD .ok)).wakeSid h e.cs .move m.cls
            if ok = false ∨ s1.deadDest m.dest = true then (s1.moveFailed move m pick).afterRead h src
            else
              let s2 := s1.writeRun m.dest (s1.readRun ((rescueSrc e h bad).getD h) e.cs)
              (if m.dest.isLake then { s2 with map := { s2.map with moves := s2.map.moves.put move { m with verified := true } } }
               else s2.commitMove move m pick).afterRead h src)

/-- IMAGE_PLACED: the copy of an image ends (02 R75), from its home in Lake or, where it moves, from the image it has. -/
def execImagePlaced (move : Nat) (copy : Copied) (pick : W32) (s : State) : R :=
  .next (match s.map.moves.find move with
    | none => s
    | some m =>
      if m.image = false then s
      else if s.moveHeld m then s.moveWake m
      else match (s.sme m.region m.seg).home with
        | none => s.abortMove move
        | some home =>
          let h := (s.sme m.region m.seg).image.getD home
          let s0 := s.countRead h copy.src
          if (lakeChk copy.src).all chkFails then
            (if h = home then ((s0.abortMove move).srcFault m.region m.seg h copy.src false).afterRead h copy.src
             else (s0.abortMove move).imageFault m.region m.seg h ((lakeChk copy.src) == some Chk.tag) false).wakePf
          else
            let s1 := s0.noteChk h ((lakeChk copy.src).getD .ok)
            (if copy.ok = false ∨ s1.deadDest m.dest = true then s1.moveFailed move m pick
             else (s1.writeRun m.dest (s1.readRun h m.len)).commitMove move m pick).afterRead h copy.src)

/-- A release completes: the stores that wait for sectors try again (02 R87, R101). -/
def State.released (s : State) (rel : Nat) : State :=
  ({ s with map := { s.map with rel := s.map.rel.del rel } }).rerun (fun x => x.why == Held.space) .ok 0

/-- MOVE_SOURCE_RELEASE: no request resolves to the source any longer (02 R68 step 7). -/
def execMoveSourceRelease (rel : Nat) (s : State) : R :=
  .next (match s.map.rel.find rel with
    | some x => if x.image then s else s.released rel
    | none => s)

/-- IMAGE_RELEASE: no request resolves to the image any longer (02 R76). -/
def execImageRelease (rel : Nat) (s : State) : R :=
  .next (match s.map.rel.find rel with
    | some x => if x.image then s.released rel else s
    | none => s)

/-! ### Stripes (05 R193, R194) -/

/-- Counts a stripe as programmed and commits the moves it holds; `bad` names the moves whose read-back failed. -/
def State.stripeDone (s : State) (n : Nat) (t : Stripe) (bad : List Nat) : State :=
  t.moves.foldl (fun u k => match u.map.moves.find k with
    | some m => if m.verified = false then u else if bad.contains k then u.moveFailed k m 0 else u.commitMove k m 0
    | none => u) (s.programStripe n)

/-! ### Reads of Lake and Tarn (05 R188, R226; 07 R290) -/

/-- A map page that cannot be read poisons every segment it covers that is not ZERO (05 R226). -/
def State.loseMapPage (s : State) (r : RegionId) (seg : Nat) : State :=
  ((s.smes r).filter (fun p => p.1 / 256 == seg / 256 && p.2.st != .zero && p.2.st != .poisoned)).foldl
    (fun t p => (t.poisonSeg r p.1 3).post (segPost .segPoison r p.1 3 p.2.w1)) s

/-- Answers one held read of a segment whose bytes have come from Lake or Tarn, under the entry it looked up (01 R30). -/
def State.serveFar (s : State) (x : HReq) : State :=
  let s1 := { s with dir := { s.dir with held := s.dir.held.filter (fun y => y.no != x.no) } }
  let line := x.line.toNat
  if s.isLost x.region x.line then (s1.poisonRead x.region).answerPoison x
  else match s1.readFar x.region (line / 64) (line % 64) with
    | (t, .line b) => t.send (.data x.host x.dpa (lineOfBytes b))
    | (t, _) => (t.poisonRead x.region).answerPoison x

/-- Whether a store waits for a segment: a held write, or a program's commit. -/
def State.storeWaits (s : State) (r : RegionId) (seg : Nat) : Bool :=
  s.dir.held.any (fun x => missOf r seg x && x.kind.stores) ||
  s.q.progs.any (fun p => (match p.2.wait with
    | .commit _ => true
    | _ => false) && p.2.stores.any (fun t => t.region == r && t.lines.any (fun l => l.2 / 64 == seg)))

/-- The read of a segment gave its bytes: stores unpack it into 16 fresh sectors (02 R72); loads are answered, and its placement starts
(02 R84; 05 R218). -/
def State.farServed (s : State) (r : RegionId) (seg : Nat) (pick : W32) : State :=
  let e := s.sme r seg
  let reads := s.dir.held.filter (fun x => missOf r seg x && x.kind.reads)
  let s1 := reads.foldl State.serveFar s
  if s.storeWaits r seg then
    match s1.segBytes e e.home with
    | none => (s1.homeFault r seg (e.home.getD (.flash 0 0)) false true).rerun (missOf r seg) .ok pick
    | some b =>
      match (s1.cancelMove r seg).storeFresh r seg b pick false with
      | (t, .wait w) => { t with dir := { t.dir with held := t.dir.held.map (fun x => if missOf r seg x then { x with why := w } else x) } }
      | (t, _) => t.rerun (missOf r seg) .ok pick
  else s1.promote r seg 1 .demand pick

/-- The bytes of a far home have come with the outcome of their sector check; none where no read gave them. Sectors of an earlier grant of a window
differ in the tag's epoch alone, so that the decoder finds the error there (03 R110, R111). A block with a page that needed reconstruction retires
whatever came of it (05 R206). -/
def State.farRead (s : State) (r : RegionId) (seg : Nat) (h : Loc) (c : Option Chk) (o : LakeOut) (pick : W32) : State :=
  let again (t : State) : State := (t.endMiss (segKey r seg)).rerun (missOf r seg) .ok pick
  match c with
  | some x =>
    let stale := !s.epochOk h (s.sme r seg).cs
    if chkFails x ∨ stale = true then again ((s.homeFault r seg h (x == Chk.tag || (stale && !chkFails x)) false).afterRead h o)
    else ((s.endMiss (segKey r seg)).afterRead h o).farServed r seg pick
  | none => match h with
    | .flash f _ => again ((s.losePage f).afterRead h o)
    | _ => again (s.homeFault r seg h false false)

/-- Whether the Lantern that serves a segment's misses is at work (01 R23, R46, R47): the one that runs the flash translation of the home's channel,
or of the anchor's chiplet for a map page. -/
def State.missServed (s : State) (r : RegionId) (seg : Nat) : Bool :=
  if s.pageAway r seg then s.serves (.ftl (s.anchorOf r seg / 6))
  else match (s.sme r seg).home with
    | some (.flash f _) => s.serves (.ftl (f % 32 / 16))
    | _ => !s.inPause

/-- LAKE_READ_COMPLETE: a read of a segment's home, or first of its map page, ends. Misses are held through an activation pause (01 R44) and while
their Lantern restarts (R47). -/
def execLakeReadComplete (region : RegionId) (seg : Nat) (outcome : LakeOut) (pick : W32) (s : State) : R :=
  let k := segKey region seg
  .next (
    if s.lake.misses.any (fun m => m.1 == k) = false ∨ s.missServed region seg = false then s
    else if s.pageAway region seg then
      let s1 := { s with map := { s.map with away := s.map.away.filter (fun p => p != pageKey region seg) } }
      let bad := match lakeChk outcome with
        | some c => chkFails c
        | none => true
      let s2 := if bad then s1.loseMapPage region seg else s1
      let ps := (s2.lake.misses.filter (fun m => m.1 == k)).filterMap (fun m => m.2)
      let s3 := { s2 with
        lake := { s2.lake with misses := s2.lake.misses.filter (fun m => m.1 != k) }
        q := { s2.q with progs := s2.q.progs.map (fun (p : Nat × Prog) => if ps.contains p.1 ∧ p.2.wait = PWait.miss then (p.1, { p.2 with wait := PWait.run }) else p) } }
      s3.trimMap.rerun (missOf region seg) .ok pick
    else match (s.sme region seg).home with
      | some (.flash f x) => (s.countRead (.flash f x) outcome).farRead region seg (.flash f x) (lakeChk outcome) outcome pick
      | some (.tarn _ _) => s
      | _ => (s.endMiss k).rerun (missOf region seg) .ok pick)

/-! ### Held requests (01 R29; 02 R87; 13 R463) -/

/-- HELD_REQUEST_RESUME: a request held on an odd generation goes on once the entry is even. -/
def execHeldRequestResume (req : Nat) (chk : Chk) (pick : W32) (s : State) : R :=
  .next (match s.dir.held.find? (fun x => x.no == req) with
    | some x => if x.why = .odd ∧ (s.ent x.region).odd = false then s.runHeld req chk pick false false else s
    | none => s)

/-- STORE_HOLD_TIMEOUT: a store has been held for 10 ms: for sectors of a reservation (02 R87 step 3), or for admission (13 R463). -/
def execStoreHoldTimeout (req : Nat) (s : State) : R :=
  .next (match s.dir.held.find? (fun x => x.no == req) with
    | some x =>
      if x.why = .space then s.runHeld req .ok 0 false (s.reserved x.region (s.sme x.region (x.line.toNat / 64)))
      else if x.why = .admission then s.runHeld req .ok 0 true false else s
    | none => s)

/-- NARROWING_CHANGE_DRAINED (01 R31). -/
def execNarrowingChangeDrained (region : RegionId) (s : State) : R := .next (s.drainRegion region)

/-! ### Clocks (02 R61) -/

/-- AGE_CLOCK_TICK: the age clock counts from BOOT. -/
def execAgeClockTick (s : State) : R := .next (if s.sled.st = .off then s else { s with clk := { s.clk with age := s.clk.age + 1 } })

/-- An entry after the sweeper has passed: AGE at most 32,768 behind, and `LAST_STORE` at most 2^30 behind (02 R61, R73). -/
def State.swept (s : State) (e : Sme) : Sme :=
  let a := if 32768 < (s.clk.age - e.f.age).toNat then s.clk.age - 32768 else e.f.age
  let last := e.f.aux.setWidth 31
  let old := decide (2 ^ 30 < (s.clk.store - last).toNat)
  let x := if e.src = .opn ∧ old = true then (e.f.aux.extractLsb' 31 1) ++ (s.clk.store - BitVec.ofNat 31 (2 ^ 30)) else e.f.aux
  e.edit (fun f => { f with age := a, aux := x })

/-- The creation `AGE` of a region's untouched segments after the sweeper has passed. -/
def State.sweptBorn (s : State) (age : W16) : W16 := if 32768 < (s.clk.age - age).toNat then s.clk.age - 32768 else age

/-- AGE_SWEEP: every resident entry, and with it the entries that no access has touched; a malformed one is served as such (R61). -/
def execAgeSweep (s : State) : R :=
  let s1 := ((s.map.sme.filter (fun p => s.malformed p.2 && !s.map.away.contains (pageKey (keyRegion p.1) (keySeg p.1)))).map (fun p => p.1)).foldl
    (fun t k => t.servedMalformed (keyRegion k) (keySeg k)) s
  .next { s1 with
    map := { s1.map with sme := s1.map.sme.map (fun (p : Nat × Sme) =>
      if s1.map.away.contains (pageKey (keyRegion p.1) (keySeg p.1)) then p else (p.1, s1.swept p.2)) }
    rt := { s1.rt with born := s1.regions.foldl (fun t p => t.put p.1.toNat (s1.sweptBorn (t.getD p.1.toNat 0))) s1.rt.born } }

/-! ### Trial packs (02 R73; 03 R129, R135, R138) -/

/-- PACK_DELAY_EXPIRY: the Lantern of a region submits an OPEN segment for a trial pack. -/
def execPackDelayExpiry (region : RegionId) (seg : Nat) (s : State) : R :=
  let e := s.sme region seg
  let k := segKey region seg
  let due := decide (s.pwr.packMs ≤ (s.clk.store - e.f.aux.setWidth 31).toNat) && !e.f.aux.getLsbD 31 &&
    decide (s.map.trialAfter.getD k 0 ≤ s.clk.ms)
  .next (match s.trialEngine ((e.home.bind Loc.tile).getD 0) with
    | some n =>
      if s.up && s.serves (.region region) && e.st == .opn && due && !s.malformed e && !s.map.trials.has k && (s.moveOf region seg).isNone
      then s.submit region seg n else s
    | none => s)

/-- A seal's own trial of a segment has ended (03 R131). -/
def State.paid (s : State) (r : RegionId) (seg : Nat) : State :=
  { s with q := { s.q with ops := s.q.ops.map (fun (p : Nat × COp) =>
      if p.2.kind = .sealing ∧ p.2.region = r then (p.1, { p.2 with owed := p.2.owed.filter (fun x => x != (seg, true)) }) else p) } }

/-- TRIAL_PACK_DONE: a trial that no store has ended (02 R73); it waits while PANIC is asserted at its pseudo-channel (03 R135). -/
def execTrialPackDone (region : RegionId) (seg : Nat) (lzv exp : Option Packed) (chk : Chk) (pick : W32) (s : State) : R :=
  let k := segKey region seg
  if lzv.all Packed.wf = false ∨ exp.all Packed.wf = false then .fault .illFormed else .next (
    if s.map.trials.has k = false ∨ s.panicAt (s.sme region seg).home = true then s
    else
      let s1 := (s.endTrial region seg).paid region seg
      let e := s1.sme region seg
      match e.home with
      | none => s1
      | some h =>
        if e.st ≠ .opn then s1
        else if chkFails chk then s1.homeFault region seg h (chk == Chk.tag) false
        else
          let z : State := match (s1.noteChk h chk).commitTrial region seg lzv exp pick with
            | (t, .done) => t
            | (t, .tried) => t.putSme region seg ((t.sme region seg).edit (fun f => { f with aux := f.aux ||| (1 <<< 31) }))
            | (t, .noRoom) => { t with map := { t.map with trialAfter := t.map.trialAfter.put k (t.clk.ms + t.pwr.packMs) } }
          z.mend region seg h chk pick)

end Sys2Proof.Machine
end

