-- ==== Sys2Proof/Machine/RegionC.lean ====
section
/-! DEFINITION. Region control instructions, grants and revokes (01 R32; 02 R74, R86, R89, R91, R94, R96; 06 R231 to R246, R259; 07
R280; 08 R341, R345; 09 R368 to R373; 13 R461). -/

namespace Sys2Proof.Machine

/-! ### Operands (09 R354, R368, R371) -/

/-- A handle operand: null, or its region and base. -/
def handleErr (x : Prog) (i : Nat) : Option W16 :=
  if 8 ≤ i then some dReserved else if hValid (x.hr i) = false then some dNull else none

/-- The range of h[A] and g[B] bytes (R371): whole segments, not empty, within the region; a FREED region has no size. -/
def rangeErr (s : State) (x : Prog) (w : W64) : Option W16 :=
  match handleErr x (fA w) with
  | some d => some d
  | none =>
    let h := x.hr (fA w)
    let n := (x.gr (fB w)).toNat
    if hBase h % 4096 ≠ 0 ∨ n % 4096 ≠ 0 then some dAlign
    else if n = 0 ∨ ((s.ent (hRegion h)).st ≠ .freed ∧ (s.ent (hRegion h)).bytes < hBase h + n) then some dRange else none

/-- First segment and number of segments of a range. -/
def rangeSegs (x : Prog) (w : W64) : Nat × Nat := (hBase (x.hr (fA w)) / 4096, (x.gr (fB w)).toNat / 4096)

/-- The cell of a row of the state × command table: DIR_LOST, then the region state. -/
def State.cell (s : State) (r : RegionId) (f : RState → Option W16) : Option Err1 :=
  if (s.ent r).dlost then some (stateErr 0x25 (some r))
  else (f (s.ent r).st).map (fun d => stateErr d (some r))

/-- FREED and EVACUATING block. -/
def cellLive : RState → Option W16
  | .freed => some 0x10
  | .evacuating => some 0x13
  | _ => none

/-- FREED, SEALED and EVACUATING block. -/
def cellWritable : RState → Option W16
  | .freed => some 0x10
  | .seald => some 0x12
  | .evacuating => some 0x13
  | _ => none

/-- FREED blocks. -/
def cellAny : RState → Option W16
  | .freed => some 0x10
  | _ => none

/-- The owner's right (08 R341). -/
def State.ownerErr (s : State) (h : HostId) (r : RegionId) : Option Err1 := if s.owns h r then none else some (permErr 3 (some r))

/-- Fails a program with the first failure of a list of checks, or goes on. -/
def State.guarded (s : State) (p : Nat) (l : List (Option Err1)) (f : State) : State :=
  match l.findSome? (fun y => y) with
  | some e => s.failProg p e
  | none => f

/-- Programs that run a control instruction of some kind. -/
def State.opsOf (s : State) (l : List OpKind) : Nat := (s.q.ops.filter (fun o => l.contains o.2.kind)).length

/-! ### REGION.NEW (R233, R369; 02 R86, R88, R96; 06 R259) -/

/-- A field of an extension word. -/
def xf (w : W64) (lo n : Nat) : Nat := (w.extractLsb' lo n).toNat

/-- Ways of `IL_WAYS` (06 R236). -/
def ilWays : Nat → Nat
  | 0 => 1
  | 1 => 2
  | 2 => 4
  | 3 => 8
  | 4 => 16
  | 5 => 3
  | 6 => 6
  | _ => 12

/-- The operand checks of `REGION.NEW` (08 R335, R336; 06 R259). DESIGN CHOICE (assumption log 32): an `IL_POS` not below the number of ways reports
RESERVED_VALUE; R259 names E_ARG and no detail. -/
def newCheck (s : State) (x : Prog) (w e : W64) (list : List W16) : Option W16 :=
  let ponly := e.getLsbD 19
  let back := e.getLsbD 20
  let rt := e.getLsbD 21
  let n := (x.gr (fA w)).toNat
  if onlyBits w [uD, uA, uB] = false ∨ 8 ≤ fD w then some dReserved
  else if xf e 57 7 ≠ 0 ∨ 8 ≤ xf e 24 4 ∨ xf e 22 2 = 3 ∨ 8 ≤ xf e 46 4 ∨ xf e 54 3 = 7 then some dReserved
  else if (rt = true ∧ ponly = false) ∨ (xf e 22 2 = 0) ≠ (rt = true) ∨ (ponly = true ∧ back = true) then some dReserved
  else if xf e 30 16 = 0 ∧ xf e 46 11 ≠ 0 then some dReserved
  else if ilWays (xf e 46 4) ≤ xf e 50 4 then some dReserved
  else if n ≠ 0 ∧ back = false then some dReserved
  else if 4096 < n ∨ (list.take n).any (fun i => match s.rt.windows.find i.toNat with
    | some v => v.host != x.host
    | none => true) then some dRange
  else none

/-- The entry that `REGION.NEW` writes (06 R236). DESIGN CHOICE (assumption log 31): a region with a list of its own takes its region ID as the index into
the Tarn set lists; the layout does not say which index it is. -/
def newEnt (old : REnt) (e : W64) (h : HostId) (own : Bool) (r : RegionId) : REnt :=
  { REnt.freed with
    gen := old.gen + 2, st := .new, rt := e.getLsbD 21, shared := e.getLsbD 18, ponly := e.getLsbD 19, back := e.getLsbD 20, hint := e.extractLsb' 24 4,
    policy := e.extractLsb' 28 2, cls := e.extractLsb' 22 2, owner := h, sizeG := e.extractLsb' 0 18, ilSet := e.extractLsb' 30 16,
    ilWays := e.extractLsb' 46 4, ilPos := e.extractLsb' 50 4, ilGran := e.extractLsb' 54 3,
    tset := if e.getLsbD 20 then (if own then BitVec.allOnes 32 else r.setWidth 32) else 0 }

/-- The lowest region ID that is FREED and released (R233). -/
def State.freeId (s : State) : Option RegionId :=
  ((List.range 16384).find? (fun i =>
    (match s.rt.ent.find i with
     | none => true
     | some e => e.st == .freed && !e.odd) && !s.rt.releasing.contains i)).map (BitVec.ofNat 14)

/-- Bytes of all regions (02 R96). -/
def State.visible (s : State) : Nat := (s.regions.map (fun p => p.2.bytes)).sum

/-- The overcommit limit in bytes (02 R96; setting 0x0001 of 18 R615). -/
def State.overcommit (s : State) : Nat := s.mgt.set.getD 1 (if s.hasLake then 30 else 20) * s.physCap / 20

/-- REGION_NEW. `list` is what the sled reads of the host's list of windows; `stall` leaves the entry odd (01 R32). -/
def execRegionNew (prog : Nat) (list : List W16) (stall : Bool) (s : State) : R :=
  .next (s.control prog (isOp 0x20) (fun x w e => newCheck s x w e list)
    (fun x w e =>
      let ponly := e.getLsbD 19
      let n := (x.gr (fA w)).toNat
      let segs := (xf e 0 18 + 1) * 65536
      if list.length < n then s
      else s.guarded prog [
          (if s.hasLake = false ∧ ponly = false ∧ e.getLsbD 20 = false then some (capErr 4) else none),
          (if s.hasLake ∧ s.lake.wear = .guttering then some (stateErr 0x26 none) else none),
          (if s.hasLake ∧ s.lake.wear = .spent then some (stateErr 0x27 none) else none),
          (if s.freeId.isNone then some (capErr 3) else none),
          (if s.overcommit < s.visible + segs * 4096 then some (capErr 1) else none),
          (if ponly ∧ 3 * s.pondSectors < 4 * (s.reservedSectors + segs * 16) then some (capErr 2) else none)]
        (match s.freeId with
         | none => s
         | some r =>
           if stall then (s.stallEntry r (some prog) none).ctlWait prog
           else
             let s1 := s.setEnt r (newEnt (s.ent r) e x.host (n == 0) r)
             let s2 := { s1 with rt := { s1.rt with
                born := s1.rt.born.set r.toNat 0 s.clk.age, cnt := s1.rt.cnt.del r.toNat
                tsets := if n = 0 then s1.rt.tsets.del r.toNat else s1.rt.tsets.put r.toNat ((list.take n).map BitVec.toNat) } }
             s2.okOn prog (fun y => y.setH (fD w) (BitVec.ofNat 64 (r.toNat + 2 ^ 63))))))

/-! ### REGION.GRANT (06 R238 to R242; 07 R280; 09 R370) -/

/-- Form of a `REGION.GRANT` word; the reserved form 3 is tried as any. -/
def isGrant (form : Nat) (w : W64) : Bool := fOp w == 0x21 && (fModR w % 4 == form || fModR w % 4 == 3)

/-- Granule count of a host grant: g[C], with 0 to the end of the region. -/
def grantCount (s : State) (x : Prog) (w : W64) : Nat :=
  let h := x.hr (fA w)
  let n := (x.gr (fC w)).toNat
  if n = 0 then (s.ent (hRegion h)).sizeG.toNat + 1 - hBase h / 2 ^ 28 else n

/-- The operand checks of the host form. -/
def grantHostCheck (s : State) (x : Prog) (w : W64) : Option W16 :=
  if fModR w % 4 = 3 ∨ onlyBits w [uD, uA, uB, uC, (36, 3)] = false then some dReserved
  else match handleErr x (fA w) with
    | some d => some d
    | none =>
      let h := x.hr (fA w)
      let e := s.ent (hRegion h)
      let first := hBase h / 2 ^ 28
      if hBase h % 2 ^ 28 ≠ 0 then some dAlign
      else if 1024 ≤ (x.gr (fB w)).toNat then some dRange
      else if e.st ≠ .freed ∧ (e.sizeG.toNat < first ∨ e.sizeG.toNat + 1 < first + grantCount s x w) then some dRange
      else none

/-- Grants and offers that stand, with their numbers. -/
def State.allGrants (s : State) : List (Nat × Grant) := s.rt.grants ++ s.rt.offers.map (fun o => (o.1, o.2.grant))

/-- The lowest free DPA of a host's DC region for an extent (07 R280). -/
def State.freeDpa (s : State) (h : HostId) (shared : Bool) (len : Nat) : Option Nat :=
  let lo := if shared then 2 ^ 47 else 0
  let used := ((s.allGrants.filter (fun p => p.2.host == h)).map (fun p => (p.2.dpa, p.2.count * 2 ^ 28))).filter (fun u => decide (lo ≤ u.1 ∧ u.1 < lo + 2 ^ 47))
  let ok (a : Nat) : Bool := decide (a + len ≤ lo + 2 ^ 47) && !meets used a len
  ((lo :: used.map (fun u => u.1 + u.2)).filter ok).foldl (fun (m : Option Nat) a => match m with
    | some b => if a < b then some a else some b
    | none => some a) none

/-- The lowest free grant number. -/
def State.freeGrant (s : State) : Option Nat :=
  (List.range (s.allGrants.length + 1)).find? (fun i => decide (i < 65536) && !s.allGrants.any (fun p => p.1 == i))

/-- The 16-byte tag of the extent that an event names (06 R239): sled ID, region ID, first granule. -/
def DcEv.tag (sled : W16) : DcEv → List Byte
  | .add r first _ _ | .release r first _ _ | .forced r first _ _ =>
    toBytes 2 sled.toNat ++ toBytes 2 r.toNat ++ toBytes 4 first ++ zeros 8

/-- A dynamic capacity event for a host (07 R283): its log grows, and vector 1 is signalled (07 R295). -/
def State.dcEvent (s : State) (h : HostId) (v : DcEv) : State :=
  ({ s with ports := { s.ports with dcLog := s.ports.dcLog.put h.toNat (s.ports.dcLog.getD h.toNat [] ++ [v]) } }).notice h

/-- REGION_GRANT_HOST: the sled offers the extent (R240). -/
def execRegionGrantHost (prog : Nat) (s : State) : R :=
  .next (s.control prog (isGrant 0) (fun x w _ => grantHostCheck s x w)
    (fun x w _ =>
      let h := x.hr (fA w)
      let r := hRegion h
      let to1 : HostId := (x.gr (fB w)).setWidth 10
      let rw := fModR w / 4 % 2 == 1
      let n := grantCount s x w
      let dpa := s.freeDpa to1 (s.ent r).shared (n * 2 ^ 28)
      if s.token r then s
      else s.guarded prog [
          s.grantErr x.host to1 r rw none,
          (if 512 ≤ (s.allGrants.filter (fun p => p.2.host == to1)).length ∨ s.freeGrant.isNone = true then some (capErr 7) else none),
          (if dpa.isNone then some (capErr 9) else none)]
        (match s.freeGrant, dpa with
         | some g, some a =>
           let gr : Grant := { host := to1, region := r, first := hBase h / 2 ^ 28, count := n, rw := rw, dpa := a }
           let s1 := { s with rt := { s.rt with offers := s.rt.offers.put g { grant := gr, prog := prog, d := fD w } } }
           (s1.dcEvent to1 (.add r gr.first n a)).ctlWait prog
         | _, _ => s)))

/-- REGION_GRANT_LEND: a Tarn window (02 R91; 03 R110: its epoch advances). -/
def execRegionGrantLend (prog : Nat) (s : State) : R :=
  .next (s.control prog (isGrant 1)
    (fun x w _ =>
      let a := (x.gr (fB w)).toNat
      let n := (x.gr (fC w)).toNat
      if fModR w % 4 = 3 ∨ onlyBits w [uD, uB, uC, (36, 3)] = false then some dReserved
      else if a % 2 ^ 28 ≠ 0 ∨ n % 2 ^ 28 ≠ 0 then some dAlign
      else if n = 0 ∨ 2 ^ 46 < n then some dRange else none)
    (fun x w _ =>
      match s.rt.windows.lowestFree 4096 0 with
      | none => s.failProg prog (capErr 8)
      | some i =>
        let s1 := { s with rt := { s.rt with
          windows := s.rt.windows.put i { host := x.host, base := (x.gr (fB w)).toNat, size := (x.gr (fC w)).toNat }
          epochs := s.rt.epochs.put i (s.rt.epochs.getD i 0 + 1) } }
        s1.ctlOk prog (fD w) (BitVec.ofNat 64 (i + 2 ^ 16))))

/-- REGION_GRANT_PEER (06 R238; 09 R370). -/
def execRegionGrantPeer (prog : Nat) (s : State) : R :=
  .next (s.control prog (isGrant 2)
    (fun x w _ =>
      if fModR w % 4 = 3 ∨ onlyBits w [uD, uA, uB, (36, 3)] = false then some dReserved
      else match handleErr x (fA w) with
        | some d => some d
        | none => if hBase (x.hr (fA w)) % 2 ^ 28 ≠ 0 then some dAlign else if 65536 ≤ (x.gr (fB w)).toNat then some dRange else none)
    (fun x w _ =>
      let r := hRegion (x.hr (fA w))
      let rw := fModR w / 4 % 2 == 1
      let slot := s.rt.peers.lowestFree 1024 0
      if s.token r then s
      else s.guarded prog [
          s.cell r (if rw then cellWritable else cellLive), s.ownerErr x.host r, (if slot.isNone then some (capErr 0) else none)]
        (match slot with
         | none => s
         | some i =>
           ({ s with rt := { s.rt with peers := s.rt.peers.put i { sled := (x.gr (fB w)).setWidth 16, region := r, rw := rw } } }).ctlOk
             prog (fD w) (BitVec.ofNat 64 (i + 2 ^ 17)))))

/-- The grant of an accepted offer takes effect (R240): a widening change. -/
def State.grantNow (s : State) (g : Nat) (o : Offer) : State :=
  let r := o.grant.region
  let s1 := { s with rt := { s.rt with offers := s.rt.offers.del g, grants := s.rt.grants.put g o.grant } }
  let n := (s1.grantHosts r).length
  let s2 := s1.takeSlot r o.grant.host
  let s3 := s2.change r (fun e => { e with nhost := BitVec.ofNat 11 n, st := if e.st = .new then .active else e.st })
  ((((s3.journalEnt r).fixOffers.serveUpdate).rtFlags).notice o.grant.host).ctlOk o.prog o.d (BitVec.ofNat 64 g)

/-- ADD_DYNAMIC_CAPACITY_RESPONSE: the answer to an offer (R240). An acceptance waits for the entry token. -/
def execAddDynamicCapacityResponse (host : HostId) (offer : Nat) (accept stall : Bool) (s : State) : R :=
  .next (if s.barOpen host = false then s
    else match s.rt.offers.find offer with
      | none => s.send (.mailbox host 2 [])
      | some o =>
        if o.grant.host ≠ host then s.send (.mailbox host 2 [])
        else if accept = false then (s.send (.mailbox host 0 [])).withdraw offer eRefused 1
        else if s.token o.grant.region then s
        else if stall then
          let s1 := { s with rt := { s.rt with offers := s.rt.offers.del offer } }
          (s1.send (.mailbox host 0 [])).stallEntry o.grant.region (some o.prog) none
        else (s.send (.mailbox host 0 [])).grantNow offer o)

/-- GRANT_OFFER_TIMEOUT (R240). -/
def execGrantOfferTimeout (offer : Nat) (s : State) : R := .next (s.withdraw offer eTimeout 2)

/-! ### Revokes (06 R241, R252) -/

/-- Lines of a region that list a host: its slot, its group, or its host ID (R252). -/
def State.linesOf (s : State) (h : HostId) (r : RegionId) : List DEnt :=
  s.dir.ent.filter (fun e => e.region == r && (match e.st with
    | .excl => e.vec.toNat == h.toNat
    | .shared => if e.coarse then e.vec.getLsbD (h.toNat / 16)
        else (match s.slotOf r h with
          | some i => e.vec.getLsbD i
          | none => false)))

/-- BISnpInv to a revoked host for every line that lists it (R252). -/
def State.recallHost (s : State) (h : HostId) (r : RegionId) : State := (s.linesOf h r).foldl (fun t e => t.snoop e .inv [h]) s

/-- Step 4 of a host grant's revoke: the narrowing entry change. -/
def State.revokeChange (s : State) (g : Nat) : State :=
  match s.rt.grants.find g with
  | none => s.endRevoke g
  | some x =>
    let ps := match s.rt.revokes.find g with
      | some v => v.progs
      | none => []
    let s1 := ({ s with rt := { s.rt with revokes := s.rt.revokes.del g } }).dropGrant g
    let s2 := (((s1.lampGrantsGone x.host).fixOffers).serveUpdate).notice x.host
    ps.foldl (fun t p => t.narrowDone p x.region) s2

/-- Steps 3 and 4, once the host's access has ended: the lines that list it are recalled, once none of them is BUSY for another cause, then the entry
changes. `stall` leaves it odd. -/
def State.revokeOn (s : State) (g : Nat) (stall : Bool) : State :=
  match s.rt.grants.find g, s.rt.revokes.find g with
  | some x, some v =>
    let r := x.region
    let due := (s.ent r).tracked && v.stage != .change
    let s1 := if due then s.recallHost x.host r else s
    if due ∧ (s.linesOf x.host r).any (fun e => e.busy) = true then s
    else if (s1.ent r).tracked ∧ s1.dir.snoops.any (fun n => n.region == r && n.host == x.host) then
      { s1 with rt := { s1.rt with revokes := s1.rt.revokes.put g { v with stage := .change } } }
    else if s1.token r then { s1 with rt := { s1.rt with revokes := s1.rt.revokes.put g { v with stage := .change } } }
    else if stall then { (s1.stallEntry r none (some g)) with rt := { (s1.stallEntry r none (some g)).rt with revokes := s1.rt.revokes.put g { v with stage := .change } } }
    else s1.revokeChange g
  | _, _ => s

/-- Revokes past the host's release go on. -/
def State.runRevokes (s : State) : State :=
  (s.rt.revokes.filter (fun p => p.2.stage != .waitRelease)).foldl (fun t p => t.revokeOn p.1 false) s

/-- A grant number's form, or why it is malformed (09 R370). -/
def grantNoErr (v : W64) : Option W16 := if v.extractLsb' 18 46 ≠ 0 ∨ xf v 16 2 = 3 then some dReserved else none

/-- Revokes a host grant (R241). -/
def State.revokeHost (s : State) (p : Nat) (x : Prog) (g : Nat) : State :=
  match s.rt.grants.find g with
  | none => s.failProg p (argErr dRange)
  | some gr =>
    let r := gr.region
    match s.rt.revokes.find g with
    | some v =>
      if v.progs = [] then s.failProg p (argErr dRange)
      else s.guarded p [s.cell r cellAny, s.ownerErr x.host r]
        (({ s with rt := { s.rt with revokes := s.rt.revokes.put g { v with progs := v.progs ++ [p] } } }).ctlWait p)
    | none =>
      if s.token r then s
      else s.guarded p [s.cell r cellAny, s.ownerErr x.host r]
        ((({ s with rt := { s.rt with revokes := s.rt.revokes.put g { progs := [p], stage := .waitRelease } } }).dcEvent gr.host
          (.release r gr.first gr.count gr.dpa)).ctlWait p)

/-- Revokes a Tarn window (02 R94). -/
def State.revokeWindow (s : State) (p : Nat) (x : Prog) (w : Nat) : State :=
  match s.rt.windows.find w with
  | none => s.failProg p (argErr dRange)
  | some v =>
    if v.host ≠ x.host then s.failProg p (permErr 6 none)
    else match s.q.ops.find? (fun o => o.2.kind == .windowOut && o.2.aux == w) with
      | some o => ({ s with q := { s.q with ops := s.q.ops.put o.1 { o.2 with also := o.2.also ++ [p] } } }).ctlWait p
      | none =>
        let into := s.map.moves.filter (fun m => match m.2.dest with
          | .tarn a _ => a == w
          | _ => false)
        (into.foldl (fun t m => t.abortMove m.1) s).newOp { (mkOp .windowOut p 0 0 0) with aux := w }

/-- Revokes a peer grant. -/
def State.revokePeer (s : State) (p : Nat) (x : Prog) (i : Nat) : State :=
  match s.rt.peers.find i with
  | none => s.failProg p (argErr dRange)
  | some v =>
    if s.token v.region then s
    else s.guarded p [s.cell v.region cellAny, s.ownerErr x.host v.region]
      (({ s with rt := { s.rt with peers := s.rt.peers.del i } }).narrowDone p v.region)

/-- REGION_REVOKE. -/
def execRegionRevoke (prog : Nat) (s : State) : R :=
  .next (s.control prog (isOp 0x22)
    (fun x w _ => if onlyBits w [uA] = false then some dReserved else grantNoErr (x.gr (fA w)))
    (fun x w _ =>
      let v := x.gr (fA w)
      let i := xf v 0 16
      if xf v 16 2 = 0 then s.revokeHost prog x i else if xf v 16 2 = 1 then s.revokeWindow prog x i else s.revokePeer prog x i))

/-- REVOKE_TIMEOUT: forced release (R241 step 2). -/
def execRevokeTimeout (grant : Nat) (stall : Bool) (s : State) : R :=
  .next (match s.rt.grants.find grant, s.rt.revokes.find grant with
    | some g, some v =>
      if v.stage ≠ .waitRelease then s
      else
        let s1 := { s with rt := { s.rt with gone := s.rt.gone ++ [grant], revokes := s.rt.revokes.put grant { v with stage := .recall } } }
        let s2 := (s1.dcEvent g.host (.forced g.region g.first g.count g.dpa)).post (pairPost .grantForced 1 g.region.toNat g.host.toNat grant)
        (s2.lampGrantsGone g.host).revokeOn grant stall
    | _, _ => s)

/-- RELEASE_DYNAMIC_CAPACITY: a host releases an extent, asked or of its own accord (R241). -/
def execReleaseDynamicCapacity (host : HostId) (grant : Nat) (stall : Bool) (s : State) : R :=
  .next (if s.barOpen host = false then s
    else match s.rt.grants.find grant with
      | none => s.send (.mailbox host 2 [])
      | some g =>
        if g.host ≠ host ∨ s.rt.gone.contains grant = true then s.send (.mailbox host 2 [])
        else
          let v : Revoke := (s.rt.revokes.find grant).getD { progs := [], stage := .recall }
          let s1 := { s with rt := { s.rt with gone := s.rt.gone ++ [grant], revokes := s.rt.revokes.put grant { v with stage := .recall } } }
          ((s1.send (.mailbox host 0 [])).lampGrantsGone host).revokeOn grant stall)

/-- A rollback and what follows it: the instruction that began the change fails (01 R32); step 4 of a revoke is made again (R241). -/
def State.rollbackEnd (s : State) (x : Stalled) : State :=
  let s1 := s.rollback x
  let s2 := match x.revoke with
    | some g => s1.revokeOn g false
    | none => s1
  match x.prog with
  | some p => s2.failProg p { status := eTimeout, detail := 1 }
  | none => s2

/-- RT_ROLLBACK: an entry has been odd for 1 ms (01 R32). -/
def execRtRollback (region : RegionId) (s : State) : R :=
  .next (match s.rt.stalled.find? (fun x => x.region == region) with
    | none => s
    | some x => s.rollbackEnd x)

/-! ### REGION.SEAL, KEEP, FREE (06 R232 to R235, R243, R244; 02 R74, R90; 03 R131) -/

/-- Why `REGION.SEAL` cannot run. -/
def State.sealErrs (s : State) (x : Prog) (r : RegionId) : List (Option Err1) :=
  [s.cell r cellWritable,
   (if s.dir.lost.any (fun l => l.2.1 == r) then some (stateErr 0x24 (some r)) else none),
   (if s.hasLake ∧ s.lake.wear = .spent then some (stateErr 0x27 (some r)) else none),
   s.ownerErr x.host r]

/-- REGION_SEAL. `stall` leaves the entry odd where the change comes at once. -/
def execRegionSeal (prog : Nat) (stall : Bool) (pick : W32) (s : State) : R :=
  .next (s.control prog (isOp 0x23) (fun x w _ => if onlyBits w [uA] = false then some dReserved else handleErr x (fA w))
    (fun x w _ =>
      let r := hRegion (x.hr (fA w))
      if s.token r then s
      else s.guarded prog (s.sealErrs x r) (
        let owed := s.openSegs r
        if stall ∧ s.trackedLines r = false ∧ owed = [] ∧ (s.sealNeed r = 0 ∨ s.lakeAdmits (s.sealNeed r) = true) then
          (s.stallEntry r (some prog) none).ctlWait prog
        else s.newOp { (mkOp .sealing prog r 0 (s.ent r).segs) with owed := owed, pick := pick })))

/-- A region that becomes Keep is journalled whole: its entry, and the state of every segment (05 R198). -/
def State.journalAll (s : State) (r : RegionId) : State :=
  (s.smes r).foldl (fun t p => t.journal (.seg r p.1 p.2)) (s.journalEnt r)

/-- REGION_KEEP. -/
def execRegionKeep (prog : Nat) (stall : Bool) (s : State) : R :=
  .next (s.control prog (isOp 0x24) (fun x w _ => if onlyBits w [uA, (26, 1)] = false then some dReserved else handleErr x (fA w))
    (fun x w _ =>
      let r := hRegion (x.hr (fA w))
      let on := fModI w % 2 == 1
      let e := s.ent r
      if s.token r then s
      else
        let s1 := s.change r (fun y => { y with keep := on })
        s.guarded prog [
            (if s.hasLake then none else some (capErr 4)),
            s.cell r cellLive,
            (if on ∧ e.shared = true ∧ e.st ≠ .seald then some (stateErr 0x22 (some r)) else none),
            (if on ∧ e.back = true then some (stateErr 0x21 (some r)) else none),
            (if on ∧ s.lake.wear = .spent then some (stateErr 0x27 (some r)) else none),
            s.ownerErr x.host r,
            (if on ∧ e.keep = false ∧ s.commitment < s1.commitment ∧ 3 * (s.pwr.budget * 2 ^ 30) < 4 * s1.commitment then some (capErr 0) else none)]
          (if stall then (s.stallEntry r (some prog) none).ctlWait prog
           else
             let s2 := if on then (if e.keep then s1.journalEnt r else s1.journalAll r) else if e.keep then s1.journal (.regionDrop r) else s1
             s2.fixOffers.okOn prog (fun y => y))))

/-- A region is freed (R232, R234): its entry, its tracking, its grants to peers; its storage release begins. -/
def State.freeRegion (s : State) (r : RegionId) : State :=
  let e := s.ent r
  let s1 := if e.keep then s.journal (.regionDrop r) else s
  let s2 := (s1.smes r).foldl (fun t p => t.cancelMove r p.1) s1
  let s3 := s2.setEnt r { REnt.freed with gen := e.gen + 2 }
  let s4 := { s3 with
    rt := { s3.rt with
      slots := s3.rt.slots.filter (fun p => p.1 / 64 != r.toNat), peers := s3.rt.peers.filter (fun p => p.2.region != r)
      grants := s3.rt.grants.filter (fun p => p.2.region != r), evac := s3.rt.evac.del r.toNat, releasing := s3.rt.releasing ++ [r.toNat] }
    dir := { s3.dir with
      ent := s3.dir.ent.filter (fun x => x.region != r), snoops := s3.dir.snoops.filter (fun n => n.region != r)
      lost := s3.dir.lost.filter (fun l => l.2.1 != r) }
    map := { s3.map with trials := s3.map.trials.filter (fun p => keyRegion p.1 != r) } }
  ((s4.lampRegionGone r).fixOffers).serveUpdate

/-- REGION_FREE. -/
def execRegionFree (prog : Nat) (stall : Bool) (s : State) : R :=
  .next (s.control prog (isOp 0x25) (fun x w _ => if onlyBits w [uA] = false then some dReserved else handleErr x (fA w))
    (fun x w _ =>
      let r := hRegion (x.hr (fA w))
      let granted := s.rt.grants.any (fun p => p.2.region == r) || s.rt.peers.any (fun p => p.2.region == r)
      let block : Option W16 := match (s.ent r).st with
        | .freed => some 0x10
        | .active => some 0x11
        | .seald => if granted then some 0x14 else none
        | .evacuating => some 0x13
        | .new => none
      if s.token r then s
      else s.guarded prog [block.map (fun d => stateErr d (some r)), s.ownerErr x.host r]
        (if stall then (s.stallEntry r (some prog) none).ctlWait prog else (s.freeRegion r).narrowDone prog r)))

/-- REGION_RELEASE_DONE: everything the freed region stored is released, and its ID is reusable (R233). -/
def execRegionReleaseDone (region : RegionId) (s : State) : R :=
  .next (if s.rt.releasing.contains region.toNat = false ∨ s.rt.drains.any (fun d => d.region == region) = true then s
    else { s with
      rt := { s.rt with releasing := s.rt.releasing.filter (fun r => r != region.toNat), tsets := s.rt.tsets.del region.toNat, cnt := s.rt.cnt.del region.toNat,
                        born := s.rt.born.del region.toNat, pwAt := s.rt.pwAt.del region.toNat }
      map := { s.map with sme := s.map.sme.filter (fun p => keyRegion p.1 != region), away := s.map.away.filter (fun p => p / 2 ^ 26 != region.toNat),
                          trialAfter := s.map.trialAfter.filter (fun p => keyRegion p.1 != region) } })

/-! ### PIN, UNPIN (02 R86, R87, R89; 13 R461) -/

/-- The right that PIN and UNPIN need (08 R341). -/
def State.pinErr (s : State) (x : Prog) (w : W64) : Option Err1 :=
  let h := x.hr (fA w)
  let r := hRegion h
  if s.owns x.host r ∨ s.covered x.host r (hBase h) (x.gr (fB w)).toNat true = true then none else some (permErr 3 (some r))

/-- Segments of a range that are not pinned yet. -/
def State.unpinnedIn (s : State) (r : RegionId) (first count : Nat) : Nat :=
  count - ((s.smes r).filter (fun p => decide (first ≤ p.1 ∧ p.1 < first + count) && p.2.f.pin)).length

/-- Pins or unpins a segment; a move that would take a pinned one below Pond ends (02 R71). -/
def State.pinSeg (s : State) (r : RegionId) (seg : Nat) (on : Bool) : State :=
  let s1 := if on ∧ (s.moveOf r seg).any (fun m => !m.2.image && !m.2.sealing && !m.2.dest.isNear && (s.sme r seg).home.any Loc.isNear) = true
    then s.cancelMove r seg else s
  s1.commitSme r seg ((s1.sme r seg).edit (fun f => { f with pin := on }))

/-- PIN. -/
def execPin (prog : Nat) (s : State) : R :=
  .next (s.control prog (isOp 0x26) (fun x w _ => if onlyBits w [uA, uB] = false then some dReserved else rangeErr s x w)
    (fun x w _ =>
      let r := hRegion (x.hr (fA w))
      let g := rangeSegs x w
      let e := s.ent r
      let more := if e.ponly then 0 else s.unpinnedIn r g.1 g.2
      let keeps := e.keep && !e.isSealed && decide (more ≠ 0)
      if s.token r then s
      else s.guarded prog [
          s.cell r cellLive, s.pinErr x w,
          (if 3 * s.pondSectors < 4 * (s.reservedSectors + 16 * more) then some (capErr 2) else none),
          (if keeps ∧ 3 * (s.pwr.budget * 2 ^ 30) < 4 * (s.commitment + 4096 * more) then some (capErr 0) else none)]
        (((List.range g.2).foldl (fun t i => t.pinSeg r (g.1 + i) true) s).newOp (mkOp .pin prog r g.1 g.2))))

/-- UNPIN. -/
def execUnpin (prog : Nat) (s : State) : R :=
  .next (s.control prog (isOp 0x27) (fun x w _ => if onlyBits w [uA, uB] = false then some dReserved else rangeErr s x w)
    (fun x w _ =>
      let r := hRegion (x.hr (fA w))
      let g := rangeSegs x w
      if s.token r then s
      else s.guarded prog [s.cell r cellAny, s.pinErr x w]
        ((((s.smes r).filter (fun p => decide (g.1 ≤ p.1 ∧ p.1 < g.1 + g.2))).foldl (fun t p => t.pinSeg r p.1 false) s).okOn prog (fun y => y))))

/-! ### MOVE within the sled (R371, R372; 14 R514) -/

/-- `KIND` of a `MOVE` extension word. -/
def moveKind (e : W64) : Nat := xf e 0 3

/-- The checks every form of MOVE shares, for the kinds that a test takes; others are another command's. -/
def moveCheck (s : State) (mine : Nat → Bool) (x : Prog) (w e : W64) (own : Option W16) : Option W16 :=
  if moveKind e = 7 then some dReserved
  else if !mine (moveKind e) then none
  else match own with
    | some d => some d
    | none => rangeErr s x w

/-- Whether 256 MOVE instructions run (R373). -/
def State.moveBusy (s : State) : Option Err1 :=
  if 256 ≤ s.opsOf [.moveTier, .push, .pull] then some { status := eBusy, detail := 0 } else none

/-- What a host lacks for the range of a MOVE within the sled; a sealed region, whose grants are all RO, asks for a grant only
(08 R341, R345; assumption log 25). -/
def State.moveRight (s : State) (x : Prog) (w : W64) : Option Err1 :=
  let h := x.hr (fA w)
  let r := hRegion h
  (s.lacks x.host r (hBase h) (x.gr (fB w)).toNat (!(s.ent r).isSealed)).map (fun d => permErr d (some r))

/-- MOVE_TIER. DEDUCED (assumption log 66): a sealed region on a sled without Lake, whose segments Spring never homes (00 R7), gives E_STATE
with detail SEALED for a destination in Spring. -/
def execMoveTier (prog : Nat) (s : State) : R :=
  .next (s.control prog (isOp 0x28)
    (fun x w e => moveCheck s (fun k => decide (k < 4)) x w e
      (let k := moveKind e
       let x0 := s.ent (hRegion (x.hr (fA w)))
       let core := xf e 4 7
       if onlyBits w [uD, uA, uB] = false ∨ (if k = 0 then xf e 3 1 ≠ 0 ∨ xf e 11 53 ≠ 0 ∨ (96 ≤ core ∧ core ≠ 127) else xf e 3 61 ≠ 0) then some dReserved
       else if x0.st ≠ .freed ∧ handleErr x (fA w) = none ∧ ((2 ≤ k ∧ x0.ponly = true) ∨ (k = 3 ∧ x0.back = false)) then some dRange
       else none))
    (fun x w e =>
      let k := moveKind e
      let r := hRegion (x.hr (fA w))
      let g := rangeSegs x w
      if 4 ≤ k ∨ s.token r = true then s
      else s.guarded prog [
          (if k = 2 ∧ s.hasLake = false then some (capErr 4) else none),
          (if k = 0 ∧ s.pondOrTarn r = true then some (stateErr 0x12 (some r)) else none),
          s.cell r (if k < 2 then cellLive else cellWritable),
          (if 2 ≤ k ∧ (s.smes r).any (fun p => decide (g.1 ≤ p.1 ∧ p.1 < g.1 + g.2) && p.2.f.pin) = true then some (stateErr 0x20 (some r)) else none),
          (if k = 2 ∧ s.lake.wear = .spent then some (stateErr 0x27 (some r)) else none),
          s.moveRight x w, s.moveBusy]
        (s.newOp { (mkOp .moveTier prog r g.1 g.2) with
          d := fD w, aux := xf e 4 7, tier := if k = 0 then .spring else if k = 1 then .pond else if k = 2 then .lake else .tarn })))

/-- Makes a segment ZERO or PATTERN, whatever it held (02, segment transitions). -/
def State.fillSeg (s : State) (r : RegionId) (seg : Nat) (pat : W64) : State :=
  let s1 := s.releaseSeg r seg
  let e := s1.sme r seg
  let st : SegSt := if pat = 0 then .zero else .pattern
  let s2 := s1.commitSme r seg (((e.form st (if pat = 0 then 0 else 1) 0 pat).edit (fun f => { f with spr := false, age := s.clk.age })))
  s2.endTrial r seg

/-- Lines of a range that the directory tracks. -/
def State.trackedIn (s : State) (r : RegionId) (first count : Nat) : List DEnt :=
  s.dir.ent.filter (fun e => e.region == r && decide (first * 64 ≤ e.line.toNat ∧ e.line.toNat < (first + count) * 64))

/-- Recalls the lines of a range (06 R255). -/
def State.recallRange (s : State) (r : RegionId) (first count : Nat) : State :=
  ((s.trackedIn r first count).filter (fun e => !e.busy)).foldl (fun t e =>
    let l := t.listed e
    if l = [] then t.dirDel r e.line else t.snoop e .inv l) s

/-- MOVE_FILL. Lines that hosts hold are recalled first; the instruction then runs again. -/
def execMoveFill (prog : Nat) (s : State) : R :=
  .next (s.control prog (isOp 0x28)
    (fun x w e => moveCheck s (fun k => k == 4) x w e
      (if onlyBits w [uD, uA, uB, uC] = false ∨ xf e 3 61 ≠ 0 then some dReserved else none))
    (fun x w e =>
      let r := hRegion (x.hr (fA w))
      let g := rangeSegs x w
      let pat := x.gr (fC w)
      if moveKind e ≠ 4 ∨ s.token r = true then s
      else s.guarded prog [s.cell r cellWritable, s.moveRight x w, s.moveBusy] (
        let s0 := s.recallRange r g.1 g.2
        if s0.trackedIn r g.1 g.2 ≠ [] then s0
        else
          let segs := if pat = 0 then ((s0.smes r).filter (fun p => decide (g.1 ≤ p.1 ∧ p.1 < g.1 + g.2))).map (fun p => p.1)
            else (List.range g.2).map (fun i => g.1 + i)
          let s1 := segs.foldl (fun t i => t.fillSeg r i pat) s0
          let s2 := { s1 with dir := { s1.dir with lost := s1.dir.lost.filter (fun l => !(l.2.1 == r && decide (g.1 * 64 ≤ l.2.2.toNat ∧ l.2.2.toNat < (g.1 + g.2) * 64))) } }
          s2.ctlOk prog (fD w) (BitVec.ofNat 64 g.2))))

end Sys2Proof.Machine
end

