-- ==== Sys2Proof/Machine/HostMem.lean ====
section
/-! DEFINITION. Host memory commands and snoop responses (06 R249, R252 to R254; 07 R275, R276, R282, R285, R287, R306, R310, R313). -/

namespace Sys2Proof.Machine

/-- A request whose SPID no binding holds is dropped, with HOST_UNBOUND at most once per second per half (07 R276). DESIGN CHOICE (assumption
log 35): so is a request on a direct-mode half whose function 0 has no binding, of which R276 does not speak. -/
def State.unboundReq (s : State) (half : Nat) (spid : BitVec 12) : State :=
  let recent := match s.ports.unboundAt.find half with
    | some t => decide (s.clk.ms < t + 1000)
    | none => false
  if recent then s
  else ({ s with ports := { s.ports with unboundAt := s.ports.unboundAt.put half s.clk.ms } }).post
    (pairPost .hostUnbound 10 half spid.toNat 0)

/-- Takes a request from a half: the host ID of its binding, where the half and the host accept requests (07 R275, R300 step 1). -/
def State.fromHost (s : State) (half : Nat) (spid : BitVec 12) (f : HostId → State) : State :=
  if s.linkOpen half = false then s
  else match s.hostAt half spid with
    | none => s.unboundReq half spid
    | some h => if s.inReset h then s else f h

/-- Whether a half refuses CXL.mem requests until IDE is established (07 R306). -/
def State.needsIde (s : State) (half : Nat) : Bool := (s.portCfg (half / 2)).ideReq && !(s.halfReg half).ide

/-- A request with its defaults. -/
def mkReq (h : HostId) (half : Nat) (dpa : BitVec 48) (kind : ReqKind) : HReq :=
  { no := 0, host := h, half := half, dpa := dpa, kind := kind, nocache := false, region := 0, line := 0, gen := 0, ent := .freed, gnt := none, data := 0,
    mask := BitVec.allOnes 64, poison := false, why := .odd }

/-- A read of a host: a C0 read moves its RT stream (07 R287). -/
def State.hostRead (s : State) (x : HReq) (c : Chk) : State :=
  if s.needsIde x.half then s.answerPoison x
  else
    let s1 := match s.lookup x.host x.dpa.toNat with
      | some (_, g, line) => if (s.ent g.region).rt then s.streamRead x.half x.host g.region line else s
      | none => s
    s1.accept x c 0

/-- A write of a host: not accepted once the half returns no credits (07 R313); one with poison is discarded with ERR_NONFATAL (07 R285). -/
def State.hostWrite (s : State) (x : HReq) (c : Chk) (pick : W32) : State :=
  if s.ports.stopStores then s
  else if x.poison then (s.answerPoison x).send (.err x.half .nonfatal)
  else if s.needsIde x.half then s.answerPoison x
  else s.accept x c pick

/-- MEM_RD. -/
def execMemRd (half : Fin 16) (spid : BitVec 12) (dpa : BitVec 48) (nocache : Bool) (chk : Chk) (s : State) : R :=
  .next (s.fromHost half.val spid (fun h => s.hostRead { (mkReq h half.val dpa .rd) with nocache := nocache } chk))

/-- MEM_RD_DATA. -/
def execMemRdData (half : Fin 16) (spid : BitVec 12) (dpa : BitVec 48) (chk : Chk) (s : State) : R :=
  .next (s.fromHost half.val spid (fun h => s.hostRead (mkReq h half.val dpa .rdOwn) chk))

/-- MEM_INV: ownership without data. -/
def execMemInv (half : Fin 16) (spid : BitVec 12) (dpa : BitVec 48) (s : State) : R :=
  .next (s.fromHost half.val spid (fun h =>
    if s.needsIde half.val then s.answerPoison (mkReq h half.val dpa .inv) else s.accept (mkReq h half.val dpa .inv) .ok 0))

/-- MEM_WR. `keep` says that the sender keeps a clean copy (06 R249, the write-back row). -/
def execMemWr (half : Fin 16) (spid : BitVec 12) (dpa : BitVec 48) (data : Line) (poison : Bool) (keep : Bool) (chk : Chk) (pick : W32) (s : State) : R :=
  .next (s.fromHost half.val spid (fun h => s.hostWrite { (mkReq h half.val dpa .wr) with data := data, poison := poison, nocache := !keep } chk pick))

/-- MEM_WR_PTL. -/
def execMemWrPtl (half : Fin 16) (spid : BitVec 12) (dpa : BitVec 48) (data : Line) (mask : W64) (poison : Bool) (chk : Chk) (pick : W32) (s : State) : R :=
  .next (s.fromHost half.val spid (fun h =>
    s.hostWrite { (mkReq h half.val dpa .wrPtl) with data := data, mask := mask, poison := poison, nocache := true } chk pick))

/-- MEM_SPEC_RD: a hint that the sled drops (07 R285). -/
def execMemSpecRd (half : Fin 16) (spid : BitVec 12) (_dpa : BitVec 48) (s : State) : R := .next (s.fromHost half.val spid (fun _ => s))

/-- Revokes, seals, drains and offers that waited for lines go on. -/
def State.afterLines (s : State) : State := s.runRevokes.runOps

/-- BI_SNOOP_RESPONSE. -/
def execBiSnoopResponse (host : HostId) (region : RegionId) (line : BitVec 40) (modified : Bool) (data : Line) (chk : Chk) (pick : W32) (s : State) : R :=
  .next (match s.dir.snoops.find? (fun n => n.region == region && n.line == line && n.host == host) with
    | none => s
    | some n =>
      let s1 := if modified then s.writeBack n data chk pick else s
      ((s1.answered n).lineFree region line .ok 0).afterLines)

/-- BI_SNOOP_TIMEOUT (06 R253). -/
def execBiSnoopTimeout (host : HostId) (region : RegionId) (line : BitVec 40) (chk : Chk) (pick : W32) (s : State) : R :=
  .next (match s.dir.snoops.find? (fun n => n.region == region && n.line == line && n.host == host) with
    | none => s
    | some _ => ((s.fatalTo host).endGrants host chk pick).afterLines)

end Sys2Proof.Machine
end

