-- ==== Sys2Proof/Machine/PondC.lean ====
section
/-! DEFINITION. The Pond controllers' events: urgency, PANIC, refresh, temperature, power-down, retraining, scrub, start-up (04 R145 to
R177; 13 R482). How long refreshes, retrains and power-down exits hold traffic is timing (assumption log 15). -/

namespace Sys2Proof.Machine

/-! ### What the events share -/

/-- A stack's temperature record. -/
def State.stk (s : State) (k : Nat) : Stk := s.pond.stk.getD k .reset

/-- Whether a pseudo-channel's controller works: in service, out of self-refresh. -/
def State.pchWorks (s : State) (n : Nat) : Bool := (s.pch n).svc && !s.pchFenced n && !(s.pch n).selfRef


/-- `POSTPONE` and `CE_THRESH` in force. -/
def State.postpone (s : State) : Nat := (s.pond.panicReg.extractLsb' 16 3).toNat
def State.ceThresh (s : State) : Nat := (s.pond.errctl.extractLsb' 0 16).toNat

/-- Whether a pseudo-channel holds a sector of an RT-flagged region (R155). -/
def State.pdHeld (s : State) (n : Nat) : Bool :=
  s.map.sme.any (fun p => (s.ent (keyRegion p.1)).rt && (p.2.home.any (fun l => l.pch == some n) || p.2.image.any (fun l => l.pch == some n)))

/-- A cause of R158 makes a retrain due, or joins the one that is. -/
def State.needTrain (s : State) (n : Nat) (cause : BitVec 3) : State :=
  let p := s.pch n
  if p.svc = false ∨ s.pchFenced n = true then s
  else match p.due with
    | some d => s.setPch n { p with due := some { d with err := d.err || cause == 2 } }
    | none => s.setPch n { p with due := some { cause := cause, err := cause == 2, forced := false, running := false } }

/-- The segment that has a sector of a pseudo-channel in its home or image, with the run it lies in. -/
def State.sectorUse (s : State) (a : Nat) : Option (Nat × Loc) :=
  s.map.sme.findSome? (fun p =>
    let hit (l : Option Loc) : Option (Nat × Loc) := match l with
      | some (.near false b) => if b ≤ a ∧ a < b + p.2.cs then some (p.1, .near false b) else none
      | _ => none
    (hit p.2.home).or (hit p.2.image))

/-- Throttle level of a tile: its stack's, level 1 of its chiplet, 3 when its stack is fenced (13 R482, R488). -/
def State.tileThr (s : State) (k : Nat) : Nat :=
  if s.stackFenced k then 3 else max (s.pwr.thr.getD k 0) (if s.pwr.chipHot.contains (k / 6) || s.pwr.badRead.getD (k / 6) 0 != 0 then 1 else 0)

/-- Counts the rises of tile throttle levels over what they were (13 R488). -/
def State.countThr (s old : State) : State :=
  let up := ((List.range 12).filter (fun k => decide (old.tileThr k < s.tileThr k ∧ s.tileThr k < 3))).length
  { s with pwr := { s.pwr with throttles := (List.range up).foldl (fun v _ => satInc v) s.pwr.throttles } }

/-- The throttle level that a stack temperature gives, from the level in force (13 R482). -/
def thrLevel (old : Nat) (t : Int) : Nat :=
  if 100 ≤ t then 2
  else if 97 < t ∧ old = 2 then 2
  else if 95 ≤ t then 1
  else if 92 < t ∧ old ≠ 0 then 1
  else 0

/-- A good stack temperature acts on the throttle, and fences the stack at 105 °C (13 R482). -/
def State.stackHeat (s : State) (k : Nat) (t : W16) : State :=
  if s.stackFenced k then s
  else
    let old := s.pwr.thr.getD k 0
    let lv := thrLevel old t.toInt
    let s1 : State := ({ s with pwr := { s.pwr with thr := s.pwr.thr.put k lv } }).countThr s
    let s2 := if old < lv then s1.post (pairPost .thermThrottle 13 k lv t.toNat) else s1
    if 105 ≤ t.toInt then (s2.post (pairPost .stackHot 9 k t.toNat 105)).fenceUnit (.stack k) 8 2 else s2

/-! ### Urgency and PANIC -/

/-- The urgency level of a threshold (R145). -/
def urgLevel : UrgPct → Nat
  | .p50 => 1
  | .p75 => 2
  | .p100 => 3

/-- The oldest request of a port in a controller's queues, if one waits there, reaches a level. -/
def State.ageReq (s : State) (n : Nat) (port : PPort) (level : Nat) : State :=
  if (s.bankQ n).reqs.any (fun x => x.port == port) then s.setBankQ n ((s.bankQ n).age port level) else s

/-- URGENCY_THRESHOLD: the request's level rises, and reaching level 3 adds one to its port's target-miss counter (R145, R146); P-RT has
none. -/
def execUrgencyThreshold (pch : Fin 384) (port : PPort) (pct : UrgPct) (s0 : State) : R :=
  .next (
    let s := s0.ageReq pch port (urgLevel pct)
    if s0.pchWorks pch = false then s0
    else if pct ≠ .p100 then s
    else match port with
      | .rt => s
      | .host => { s with pond := { s.pond with missHost := satInc s.pond.missHost } }
      | .wick => { s with pond := { s.pond with missWick := satInc s.pond.missWick } }
      | .codec => { s with pond := { s.pond with missCodec := satInc s.pond.missCodec } }
      | .move => { s with pond := { s.pond with missMove := satInc s.pond.missMove } })


/-- PANIC_ASSERT (R148). -/
def execPanicAssert (half : Fin 16) (s : State) : R :=
  .next (
    if s.pond.panic.has half ∨ s.ports.streams.all (fun t => t.half != half.val) then s
    else s.presentPanic half (s.aheadPchs half))

/-- A half withdraws PANIC: pseudo-channels that leave PANIC repay their refresh debt (R152). -/
def State.clearPanic (s : State) (half : Nat) : State :=
  let l := s.pond.panic.getD half []
  let s1 : State := { s with pond := { s.pond with panic := s.pond.panic.del half } }
  (l.filter (fun n => !s1.pchPanic n)).foldl (fun t n => t.setPch n { t.pch n with debt := [] }) s1

/-- PANIC_CLEAR. -/
def execPanicClear (half : Fin 16) (s : State) : R := .next (s.clearPanic half)

/-! ### Refresh and power-down -/

/-- REFRESH_DUE in Thermal mode. -/
def execRefreshDue (pch : Fin 384) (bank : Fin 64) (s : State) : R :=
  .next (
    let p := s.pch pch
    if s.pchWorks pch = false ∨ p.steady = true ∨ p.training = true ∨ s.pchPanic pch = false then s
    else
      let d := p.debt.getD bank 0
      if d < s.postpone then s.setPch pch { p with debt := p.debt.put bank (d + 1) }
      else { s with pond := { s.pond with forced := satInc s.pond.forced } })

/-- STEADY_REFRESH_DUE: the all-bank refresh of Steady mode postpones nothing (R149, R150); it leaves no debt on any bank. -/
def execSteadyRefreshDue (pch : Fin 384) (s : State) : R :=
  .next (
    let p := s.pch pch
    if s.pchWorks pch = false ∨ p.steady = false then s else s.setPch pch { p with debt := [] })

/-- REF_MODE_BOUNDARY: a change waits for PANIC to clear (R174); either direction leaves every debt at zero. -/
def execRefModeBoundary (pch : Fin 384) (s : State) : R :=
  .next (
    let p := s.pch pch
    if s.pchWorks pch = false ∨ p.steady = p.refMode ∨ s.pchPanic pch = true then s
    else s.setPch pch { p with steady := p.refMode, debt := [] })

/-- PD_TIMER_EXPIRY (R154, R155). -/
def execPdTimerExpiry (pch : Fin 384) (sid : Fin 4) (s : State) : R :=
  .next (
    let p := s.pch pch
    if s.pchWorks pch = false ∨ p.pdTimer = 0 ∨ 256 < p.pdTimer.toNat ∨ s.pdHeld pch = true ∨ p.pd.contains sid.val = true then s
    else s.setPch pch { p with pd := p.pd ++ [sid.val] })

/-! ### Temperature -/

/-- Whether a reading is good (R151): it succeeds, lies within −40 to 125 °C, and is within 10 °C of the read just before. -/
def goodTemp (last : Option W16) (t : W16) : Bool :=
  decide (-40 ≤ t.toInt ∧ t.toInt ≤ 125) && (match last with
    | some l => decide (t.toInt - l.toInt ≤ 10 ∧ l.toInt - t.toInt ≤ 10)
    | none => true)

/-- STACK_TEMP_READ: `none` is a read that failed or that the stack flags as invalid. Every bad read posts STACK_TEMP_LOST (R151). DESIGN CHOICE
(assumption log 30): after a read that failed there is no read just before, and the next one is not held to the 10 °C. -/
def execStackTempRead (stack : Fin 12) (temp : Option W16) (s : State) : R :=
  .next (
    let x := s.stk stack
    let put (y : Stk) : State := { s with pond := { s.pond with stk := s.pond.stk.set stack .reset y } }
    match s.sled.st with
    | .off | .dead => s
    | _ => match temp.filter (goodTemp x.last) with
      | none =>
        (put { x with valid := temp.isSome, last := temp, good := 0, lost := true }).post (pairPost .stackTempLost 9 stack x.tNow.toNat 0)
      | some t =>
        let lost := x.lost && decide (x.good + 1 < 3)
        let hot := if 85 ≤ t.toInt then true else if t.toInt ≤ 82 then false else x.hot
        let s1 := put { x with tNow := t, valid := true, tMax := if x.seen ∧ t.toInt ≤ x.tMax.toInt then x.tMax else t, last := some t,
                               seen := true, good := if x.lost then x.good + 1 else 0, lost := lost, hot := hot }
        let s2 := s1.stackHeat stack t
        (List.range 32).foldl (fun u i =>
          let n := 32 * stack.val + i
          let d := t.toInt - (u.pch n).tTrain.toInt
          if 15 ≤ d ∨ d ≤ -15 then u.needTrain n 1 else u) s2)

/-! ### Retraining -/

/-- RETRAIN_REQUEST: a write of 1 to `RETRAIN`. -/
def execRetrainRequest (pch : Fin 384) (s : State) : R := .next (s.needTrain pch 4)

/-- Whether a stack retrains a pseudo-channel now. -/
def State.stackTrains (s : State) (k : Nat) : Bool := (List.range 32).any (fun i => (s.pch (32 * k + i)).training)

/-- Whether a due retrain may start as far as PANIC goes (R160). -/
def State.trainFree (s : State) (n : Nat) : Bool := (s.pch n).due.any (fun d => !d.running && (d.forced || !s.pchPanic n)) && s.pchWorks n

/-- Whether it is a pseudo-channel's turn: the oldest training of its stack goes first, then the lower index (R159). -/
def State.trainTurn (s : State) (n : Nat) : Bool :=
  s.trainFree n && !s.stackTrains (n / 32) && (List.range 32).all (fun i =>
    let m := 32 * (n / 32) + i
    !s.trainFree m || decide ((s.pch n).trainNo < (s.pch m).trainNo ∨ ((s.pch n).trainNo = (s.pch m).trainNo ∧ n ≤ m)))

/-- RETRAIN_START. -/
def execRetrainStart (pch : Fin 384) (s : State) : R :=
  .next (
    if s.trainTurn pch then
      let p := s.pch pch
      s.setPch pch { p with due := p.due.map (fun d => { d with running := true }) }
    else s)

/-- RETRAIN_PANIC_TIMEOUT: it starts as soon as no other retrain of its stack runs (R160). -/
def execRetrainPanicTimeout (pch : Fin 384) (s : State) : R :=
  .next (
    let p := s.pch pch
    match p.due with
    | some d =>
      if d.running ∨ s.pchPanic pch = false then s
      else s.setPch pch { p with due := some { d with forced := true, running := !s.stackTrains (pch.val / 32) && s.pchWorks pch } }
    | none => s)

/-- The widest run of consecutive passing taps, the lowest start on a tie: its start and length (R157). -/
def widestRun (m : BitVec 128) : Nat × Nat :=
  ((List.range 128).foldl (fun (a : (Nat × Nat) × Nat) i =>
    let n := if m.getLsbD i then a.2 + 1 else 0
    (if a.1.2 < n then (i + 1 - n, n) else a.1, n)) ((0, 0), 0)).1

/-- The centre of an acceptable window: a run of at least 20 taps (R157). -/
def tapCentre (m : BitVec 128) : Option Nat :=
  let w := widestRun m
  if 20 ≤ w.2 then some ((w.1 + (w.1 + w.2 - 1)) / 2) else none

/-- The delay setting of a lane, 0 to 8, in the read or the write direction, from the controller's last training; which taps passed is a free value
(assumption log 10). -/
def State.delaySetting (s : State) (n lane : Nat) (write : Bool) : Option Nat := tapCentre (Config.tapPass n (s.pch n).trainNo lane write)

/-- RETRAIN_DONE: new settings with the temperature they were found at, or none and a fence (R157, R158, R162). `ok` says that every lane has an
acceptable window in both directions. The requests that waited go on (R159); a Banked permission that arrived meanwhile takes effect (R174). -/
def execRetrainDone (pch : Fin 384) (ok : Bool) (s : State) : R :=
  .next (
    let p := s.pch pch
    match p.due with
    | none => s
    | some d =>
      if d.running = false then s
      else
        let no := s.pond.trainNo + 1
        let q : Pch := { p with
          due := none, trainCnt := satInc p.trainCnt, cause := d.cause, tTrain := (s.stk (pch.val / 32)).tNow.setWidth 8, parity := false
          errRuns := if d.err then p.errRuns + 1 else p.errRuns, errAt := if d.err then s.clk.ms else p.errAt, trainNo := no }
        let s1 : State := { s.setPch pch q with pond := { (s.setPch pch q).pond with trainNo := no } }
        let s2 := if ok then s1 else s1.fenceUnit (.pch pch) 2 1
        let s3 := if (s2.ledger (pch.val / 32)).st = .banked then s2.setPch pch { s2.pch pch with selfRef := true, debt := [], pd := [] } else s2
        s3.bankDrain pch)

/-- CE_WINDOW_END: PCH_CE_HIGH above `CE_THRESH`, then the ladder of R161. -/
def execCeWindowEnd (pch : Fin 384) (s : State) : R :=
  .next (
    let p := s.pch pch
    let s1 := s.setPch pch { p with window := 0 }
    if p.window ≤ s.ceThresh ∨ p.svc = false ∨ s.pchFenced pch = true then s1
    else
      let s2 := s1.post (pairPost .pchCeHigh 8 pch p.window s.ceThresh)
      let near := decide (s.clk.ms ≤ p.errAt + 60000)
      if p.errRuns = 0 ∨ near = false then
        (s2.setPch pch { s2.pch pch with errRuns := 0 }).needTrain pch 2
      else if p.errRuns = 1 then s2.needTrain pch 2
      else s2.fenceUnit (.pch pch) 3 1)

/-- COMMAND_PARITY_ERROR: the second rejection in a row counts one error and makes a retrain due (R163). A retry ends within its tick
of the store clock (assumption log 1). -/
def execCommandParityError (pch : Fin 384) (s : State) : R :=
  .next (
    let p := s.pch pch
    if s.pchWorks pch = false then s
    else if p.parity then (s.setPch pch { p with parity := false, capar := satInc p.capar }).needTrain pch 3
    else s.setPch pch { p with parity := true })

/-! ### Scrub, stall, start-up -/

/-- SCRUB_DUE: the scrub reads one sector that holds a home or an image, through P-MOVE at class C3 (R149, R165). -/
def execScrubDue (pch : Fin 384) (sector : BitVec 23) (chk : Chk) (pick : W32) (s : State) : R :=
  .next (
    let a := pch.val * 2 ^ 23 + sector.toNat
    if s.pchWorks pch = false ∨ s.pond.errctl.extractLsb' 16 8 = 0 ∨ s.pchPanic pch = true ∨ (s.pch pch).training = true then s
    else match s.sectorUse a with
      | none => s
      | some (k, l) =>
        let r := keyRegion k
        let seg := keySeg k
        let s1 := s.wakeSid (.near false a) 1 .move 3
        if chkFails chk then
          if (s1.sme r seg).image = some l then s1.imageFault r seg l (chk == Chk.tag) false
          else s1.homeFault r seg l (chk == Chk.tag) false
        else (s1.noteChk (.near false a) chk).mend r seg l chk pick)

/-- PCH_STALL: a request held for 100 µs outside a retrain (R175). -/
def execPchStall (pch : Fin 384) (s : State) : R :=
  .next (if s.pchWorks pch = false ∨ (s.pch pch).training = true then s else s.fenceUnit (.pch pch) 4 1)

/-- STACK_INIT_TIMEOUT (R176). -/
def execStackInitTimeout (stack : Fin 12) (s : State) : R :=
  .next (if s.sled.boot = .pond then s.fenceUnit (.stack stack) 0x0A 0 else s)

/-- Whether Pond training has ended within the limits (R177). -/
def State.pondOk (s : State) : Bool :=
  decide (((List.range 12).filter s.stackFenced).length ≤ 2 ∧ ((List.range 384).filter s.pchFenced).length ≤ 64)

/-- POND_STARTUP_DONE: each pseudo-channel enters service or is fenced (R162, R176 to R178). -/
def execPondStartupDone (failed : List (Fin 384)) (s : State) : R :=
  .next (
    if s.sled.boot ≠ .pond then s
    else
      let no := s.pond.trainNo + 1
      let s1 : State := (failed.map (fun f => f.val)).foldl (fun t n => t.fenceUnit (.pch n) 2 0) s
      let s2 : State := (List.range 384).foldl (fun t n =>
        if t.pchFenced n then t
        else
          let p := t.pch n
          t.setPch n { p with svc := true, selfRef := false, steady := p.refMode, debt := [], pd := [], due := none, parity := false,
                              cause := 0, trainCnt := satInc p.trainCnt, tTrain := (t.stk (n / 32)).tNow.setWidth 8, trainNo := no }) s1
      let s3 : State := { s2 with pond := { s2.pond with trainNo := no } }
      if s3.pondOk then { s3 with sled := { s3.sled with boot := if s3.hasLake then .mount else .ready } } else s3.enterVigil 7)

end Sys2Proof.Machine
end

