-- ==== Sys2Proof/Machine/LakeC.lean ====
section
/-! DEFINITION. Lake's own events: stripes, checkpoints, garbage collection, patrol, failures, wear, mount, format (05 R193 to R230;
18 R610). -/

namespace Sys2Proof.Machine

/-- STRIPE_TIMER: 2 ms after its first run a stripe takes no further run and is programmed (R193). -/
def execStripeTimer (stripe : Nat) (s : State) : R :=
  .next { s with lake := { s.lake with stripes := s.lake.stripes.upd stripe (fun x => { x with full := true }) } }

/-- Whether a stripe is to be programmed: it takes no further run, since its timer has run out or its data pages are full (R193). -/
def State.stripeDue (s : State) (t : Stripe) : Bool :=
  t.full || ((s.members t.sb (t.idx % 4)).filter (fun c => c != s.parityCh t.sb t.idx)).all (fun c => t.fill.getD c 0 == 64)

/-- STRIPE_PROGRAMMED: a stripe that is due, every run of which has been copied; those whose read-back failed in `bad` move elsewhere, the others
commit (R194). -/
def execStripeProgrammed (stripe : Nat) (bad : List Nat) (s : State) : R :=
  .next (match s.lake.stripes.find stripe with
    | none => s
    | some t => if s.nandStopped = false ∧ s.stripeDue t = true ∧ t.moves.all (fun n => (s.map.moves.find n).all (fun m => m.verified)) = true then s.stripeDone stripe t bad else s)

/-- CHECKPOINT_DUE (R199). -/
def execCheckpointDue (s : State) : R :=
  .next (if s.lake.mounted ∧ s.lake.wp = false ∧ s.sled.flush.isNone = true then s.checkpoint else s)

/-- GC_SUPERBLOCK_DONE: garbage collection comes to a superblock that it may take. Runs that are still valid start on their way through the cold
stream, at C1 under urgent collection, else at C3 (R201, R202); once none is left the superblock is erased. `eraseOk` says that every block of it has
been, otherwise ERASE_FAIL follows for the block that was not. -/
def execGcSuperblockDone (sb : Nat) (eraseOk : Bool) (s : State) : R :=
  .next (
    let s0 := s.gcFlags
    if s0.gcMay sb = false then s0
    else if s0.validOn sb ≠ 0 ∨ s0.sbBusy sb = true then
      (s0.ownedRuns sb).foldl (fun t k => t.relocateLake (keyRegion k) (keySeg k) (if s0.lake.urgent then 1 else 3)) s0
    else if eraseOk then s0.erased sb else s0)

/-- The page reads of a patrol's sample: every 64th page of every member, and the last page programmed (R204, R205). -/
def State.samplePages (s : State) (sb : Nat) : State :=
  let b := s.sb sb
  s.setSb sb { b with
    sampleAt := s.clk.ms
    reads := ((List.range 128).filter (fun m => !b.retired.contains m)).foldl (fun t m => t.put m (t.getD m 0 + 37)) b.reads }

/-- PATROL_DUE: the sample of a superblock. `retry3` says that some page needed read-retry set 3 or later, `rebuilt` names the blocks
with a page that needed reconstruction; a superblock programmed more than 180 days ago is relocated as well (R205). -/
def execPatrolDue (sb : Nat) (retry3 : Bool) (rebuilt : List (Fin 128)) (s : State) : R :=
  .next (
    if s.lake.mounted = false ∨ s.lake.wp = true ∨ s.lake.wear = .spent ∨ s.sled.flush.isSome = true ∨ s.validOn sb = 0 then s
    else
      let old := decide (s.clk.ms - (s.sb sb).progAt > 180 * 86400000)
      let s1 : State := s.samplePages sb
      let s2 : State := if retry3 ∨ rebuilt ≠ [] ∨ old = true then
          let u := s1.relocatePages (fun f => sbOf f == sb) 3
          { u with lake := { u.lake with patReloc := satInc u.lake.patReloc } }
        else ((s1.sb sb).reads.filter (fun p => decide (50000 ≤ p.2))).foldl (fun t p => t.disturbed sb p.1) s1
      (rebuilt.map (fun m => m.val)).foldl (fun t m => t.retireBlock sb m) s2)

/-- PROGRAM_FAIL: a page of an open stripe is written again elsewhere and its block retires (R206, R228). -/
def execProgramFail (stripe : Nat) (ch : Fin 32) (s : State) : R :=
  .next (match s.lake.stripes.find stripe with
    | none => s
    | some t =>
      let s1 : State := { s with lake := { s.lake with progFail := satInc s.lake.progFail } }
      s1.retireBlock t.sb (ch.val * 4 + t.idx % 4))

/-- ERASE_FAIL: a block of a superblock being erased retires (R206); the others are erased. -/
def execEraseFail (sb : Nat) (member : Fin 128) (s : State) : R :=
  .next (
    if (s.sb sb).st ≠ .closed ∨ s.validOn sb ≠ 0 ∨ s.sbBusy sb = true ∨ s.lake.mounted = false then s
    else
      let s1 : State := { s with lake := { s.lake with eraseFail := satInc s.lake.eraseFail } }
      (s1.retireBlock sb member).erased sb)

/-- WEAR_EVAL (R208). -/
def execWearEval (s : State) : R := .next (if s.lake.mounted then s.evalWear else s)

/-- LAKE_DIE_FAIL (R227): in service a Lantern fences the die, at the mount the Pilot. -/
def execLakeDieFail (die : Fin 1024) (s : State) : R :=
  .next (
    if s.hasLake ∧ die.val % 32 < s.id.variant.dies ∧ (s.up = true ∨ s.sled.boot = .mount ∨ s.sled.st = .duskFlush) then
      s.fenceUnit (.die die) 0x0B (if s.sled.boot = .mount then 0 else 1)
    else s)

/-- LAKE_MOUNT_DONE: replay from the latest checkpoint that can be read, the latest or the one before; with neither, Lake does not mount
(R215, R229). A mount that passes 12 s reads as neither (16 R569). The deferred Keep flush leaves out the segments in `lost` (16 R566). -/
def execLakeMountDone (read : CkptRead) (lost : List Nat) (s : State) : R :=
  .next (
    if s.sled.boot ≠ .mount then s
    else if read ≠ .neither then
      let s1 := ({ s with
        lake := { s.lake with bbt := true }
        sled := { s.sled with kept := s.sled.kept.filter (fun p => !lost.contains p.1) } }).replay (read == CkptRead.older)
      { s1 with sled := { s1.sled with boot := .ready } }
    else (s.post { ev := .lakeMountFail, okind := 0, obj := 0 }).enterVigil 8)

/-- CHANNEL_GROUP_WAKE_DONE: a group that its permission allows to run is Lit again (R220). -/
def execChannelGroupWakeDone (group : Fin 4) (s : State) : R :=
  .next (
    let i := 16 + group.val
    let e := s.ledger i
    if e.st = .lit ∨ e.perm ≠ 0 then s else (s.setLedger i { e with asks := false }).setPst i .lit 0 0)

/-- LAKE_FORMAT_DONE: the journal, every checkpoint and every Keep region are gone; erase counts stay; a warm restart follows (18 R610). -/
def execLakeFormatDone (s : State) : R :=
  .next (
    if s.mgt.formatting = false then s
    else
      let s1 : State := { s with
        lake := { s.lake with jour := [.checkpoint 0 s.lake.wseq], jmark := 1, ckpt := { Ckpt.empty with blocks := s.blockTable }, btab := s.blockTable,
                              ckptOld := .empty, mapAt := [], idxAt := [], idxDirty := [], wp := false }
        sled := { s.sled with preserved := false, kept := [] } }
      s1.restart 3)

end Sys2Proof.Machine
end

