-- ==== Sys2Proof/Machine/MailboxC.lean ====
section
/-! DEFINITION. The memory device mailbox and DOE of a host function (07 R283, R284). An answer carries the facts this manual gives, in
order; the rest of a payload is the standard's (assumption log 13). -/

namespace Sys2Proof.Machine

/-- Answers a mailbox command of a function that its host reaches. -/
def State.mailbox (s : State) (h : HostId) (code : Nat) (words : List Nat) : State :=
  if s.barOpen h then s.send (.mailbox h code (words.map (BitVec.ofNat 64))) else s

/-- Words of an extent: base, length, region. -/
def extentWords (g : Grant) : List Nat := [g.dpa, g.count * 2 ^ 28, g.region.toNat]

/-- A dynamic capacity event record as words: kind, region, first granule, granules, base. -/
def DcEv.words : DcEv → List Nat
  | .add r f c d => [0, r.toNat, f, c, d]
  | .release r f c d => [1, r.toNat, f, c, d]
  | .forced r f c d => [2, r.toNat, f, c, d]

/-- Words of a standard payload (assumption log 13). -/
def stdWords (code n : Nat) : List Nat := (List.range n).map (fun i => (Config.stdPayload code i).toNat)

/-- GET_DYNAMIC_CAPACITY_CONFIGURATION: two regions of 128 TiB with 256 MiB blocks and 512 extents (R271, R280). -/
def execGetDynamicCapacityConfiguration (host : HostId) (s : State) : R :=
  .next (s.mailbox host 0 [2, 0, 2 ^ 47, 2 ^ 47, 2 ^ 47, 2 ^ 28, 512])

/-- GET_DYNAMIC_CAPACITY_EXTENT_LIST: the extents that the host holds. -/
def execGetDynamicCapacityExtentList (host : HostId) (s : State) : R :=
  .next (
    let l := (s.grantsOfHost host).filter (fun p => !s.rt.gone.contains p.1)
    s.mailbox host 0 (l.length :: l.flatMap (fun p => extentWords p.2)))

/-- IDENTIFY_MEMORY_DEVICE: volatile capacity only (R272). -/
def execIdentifyMemoryDevice (host : HostId) (s : State) : R := .next (s.mailbox host 0 (2 ^ 48 :: 0 :: stdWords 0x4000 6))

/-- GET_EVENT_RECORDS: the dynamic capacity event log (R283). -/
def execGetEventRecords (host : HostId) (s : State) : R :=
  .next (
    let l := s.ports.dcLog.getD host.toNat []
    s.mailbox host 0 (l.length :: l.flatMap DcEv.words))

/-- CLEAR_EVENT_RECORDS: the records returned are cleared. -/
def execClearEventRecords (host : HostId) (s : State) : R :=
  .next (
    if s.barOpen host then
      let s1 := s.mailbox host 0 []
      { s1 with ports := { s1.ports with dcLog := s1.ports.dcLog.del host.toNat } }
    else s)

/-- GET_HEALTH_INFO. -/
def execGetHealthInfo (host : HostId) (s : State) : R := .next (s.mailbox host 0 (stdWords 0x4200 3))

/-- GET_SUPPORTED_LOGS. -/
def execGetSupportedLogs (host : HostId) (s : State) : R := .next (s.mailbox host 0 (stdWords 0x0400 3))

/-- MAILBOX_UNSUPPORTED: every command that R283 does not list. -/
def execMailboxUnsupported (host : HostId) (opcode : W16) (s : State) : R :=
  .next (
    let listed : List Nat := [0x4800, 0x4801, 0x4802, 0x4803, 0x4000, 0x0100, 0x0101, 0x4200, 0x0400]
    if listed.contains opcode.toNat then s else s.mailbox host 3 [])

/-- DOE_CDAT: one DSMAS entry per DC region, marked volatile, and its DSLBIS: 230 ns, and the link's width and speed that give the
bandwidth (R284). -/
def execDoeCdat (host : HostId) (s : State) : R :=
  .next (
    let x := s.halfReg (s.halfOf host)
    let entry (i : Nat) : List Nat := [i, i * 2 ^ 47, 2 ^ 47, 1, 230, 230, x.width.toNat, x.speed.toNat]
    if s.reach host then s.send (.mailbox host 0 ((entry 0 ++ entry 1).map (BitVec.ofNat 64))) else s)

end Sys2Proof.Machine
end

