-- ==== Sys2Proof/Machine/PortsC.lean ====
section
/-! DEFINITION. The host ports: resets, links, power states of links and functions, Tarn reads, errors, IDE (06 R251; 07 R271 to R314). -/

namespace Sys2Proof.Machine

/-- PRESENCE_SWEEP: presence bits of regions with no entry on a pseudo-channel are cleared (06 R251). -/
def execPresenceSweep (s : State) : R :=
  .next { s with dir := { s.dir with pres := s.dir.pres.filter (fun x => s.dir.ent.any (fun e =>
    e.region.toNat == x.2 && (let p := s.dirSet e.region e.line; pchOfSet p.1 p.2 == x.1))) } }

/-! ### Links and resets (R273, R299 to R303, R312) -/

/-- Whether a half exists: half 2n + 1 only on a port that runs bifurcated (R273). -/
def State.halfExists (s : State) (half : Nat) : Bool := half % 2 == 0 || s.ports.bifur.contains (half / 2)

/-- The link of a half leaves Detect: a change of `BIFURC` applies once both halves of the port stand in Detect (R273). -/
def State.leaveDetect (s : State) (half : Nat) : State :=
  let n := half / 2
  let rest := s.ports.bifur.filter (fun x => x != n)
  if (s.halfReg (2 * n)).link.toNat ≤ 1 ∧ ((s.halfReg (2 * n + 1)).link.toNat ≤ 1 ∨ (s.halfReg (2 * n + 1)).link = 9) then
    { s with ports := { s.ports with bifur := if (s.portCfg n).bifurc then n :: rest else rest } }
  else s

/-- A half has trained, or to no width: it is then fenced (R310). -/
def State.trained (s : State) (half : Nat) (t : Train) : State :=
  if t.ok then
    (s.setHalf half { s.halfReg half with link := 2, width := t.width, speed := t.speed, flit := t.flit, hold := false, trained := true }).pgLit half
  else s.fenceUnit (.half half) 0x0C 1

/-- Halves of a port group that its PERST# resets. -/
def State.perstHalves (s : State) (pg : Nat) : List Nat :=
  [4 * pg, 4 * pg + 1, 4 * pg + 2, 4 * pg + 3].filter (fun h => (s.portCfg (h / 2)).perstEn && s.halfExists h && !(s.halfReg h).hold)

/-- PERST_ASSERT. A half in L2 stays there (R298). Halves held in Detect ignore the pin (R312). -/
def execPerstAssert (pg : Fin 4) (s : State) : R :=
  .next (
    if s.ports.perst.contains pg.val then s
    else
      let s1 : State := { s with ports := { s.ports with perst := pg.val :: s.ports.perst } }
      (s1.perstHalves pg).foldl (fun t h =>
        let x := t.halfReg h
        let l2 := x.link == 8
        let u := (t.setHalf h { x with persts := satInc x.persts }).dropLink h 0
        if l2 then u.setHalf h { u.halfReg h with link := 8 } else u) s1)

/-- PERST_RELEASE: the halves leave Detect; LINK_RETURN ends the reset. -/
def execPerstRelease (pg : Fin 4) (s : State) : R :=
  .next (
    let s1 : State := { s with ports := { s.ports with perst := s.ports.perst.filter (fun x => x != pg.val) } }
    if s.ports.perst.contains pg.val = false then s
    else (s1.perstHalves pg).foldl (fun t h => (t.leaveDetect h).setHalf h { t.halfReg h with link := 1 }) s1)

/-- HOT_RESET: the link retrains. -/
def execHotReset (half : Fin 16) (s : State) : R :=
  .next (
    let x := s.halfReg half
    if x.hold ∨ s.halfExists half = false then s else (s.setHalf half { x with resets := satInc x.resets }).dropLink half 1)

/-- LINK_DOWN. -/
def execLinkDown (half : Fin 16) (s : State) : R :=
  .next (if (s.halfReg half).hold ∨ s.halfExists half = false ∨ (s.halfReg half).link = 0 then s else s.dropLink half 2)

/-- A reset of one function, counted on its half. -/
def State.fnReset (s : State) (h : HostId) : State :=
  let n := s.halfOf h
  let x := s.halfReg n
  if (s.bindOf h).valid = false ∨ x.hold = true then s else (s.setHalf n { x with resets := satInc x.resets }).hostEvent h 3 false false

/-- FUNCTION_LEVEL_RESET. -/
def execFunctionLevelReset (host : HostId) (s : State) : R := .next (s.fnReset host)

/-- CXL_RESET: the same step, asked for through the CXL DVSEC. -/
def execCxlReset (host : HostId) (s : State) : R := .next (s.fnReset host)

/-- FRESET: a write of 1 to `FRESET`; `RESETS` does not count it (R307). -/
def execFreset (host : HostId) (s : State) : R := .next (if s.barOpen host then s.hostEvent host 3 false false else s)

/-- The binding that a `KDEV_BIND` write leaves: reserved bits and a second `OWNER` have no effect, and `SPID` is reserved on a direct
half (R277, R308). -/
def State.bindOfWord (s : State) (h : HostId) (v : W32) : Bind :=
  let old := s.bindOf h
  let half := v.extractLsb' 1 4
  let other := s.ports.bind.any (fun p => p.1 != h.toNat && p.2.owner)
  { valid := v.getLsbD 0, half := half, func := v.extractLsb' 5 8, spid := if s.fabric half.toNat then v.extractLsb' 13 12 else old.spid,
    owner := if v.getLsbD 25 && other then old.owner else v.getLsbD 25 }

/-- A management write of `KDEV_BIND` (R308). -/
def State.bindWrite (s : State) (h : HostId) (value : W32) : State :=
  let old := s.bindOf h
  let b := s.bindOfWord h value
  if old.valid ∧ (b.valid = false ∨ b.half ≠ old.half ∨ b.func ≠ old.func ∨ b.spid ≠ old.spid) then s.rebind h b
  else s.setBind h b

/-- KDEV_BIND_WRITE. -/
def execKdevBindWrite (host : HostId) (value : W32) (s : State) : R := .next (s.bindWrite host value)

/-- LINK_RETURN: the link of a half is up again: step 6 of R300 for every host ID that waited for it (R300). -/
def execLinkReturn (half : Fin 16) (train : Train) (s : State) : R :=
  .next (
    let s1 := s.leaveDetect half
    let x := s1.halfReg half
    let pin := (s1.portCfg (half.val / 2)).perstEn && s1.ports.perst.contains (half.val / 4)
    if s.up = false ∨ x.hold = true ∨ pin = true ∨ s1.halfExists half = false ∨ s1.fenced (.half half) = true ∨
       (x.link ≠ 0 ∧ x.link ≠ 1 ∧ x.link ≠ 8) then s
    else
      let s2 := s1.trained half train
      if train.ok then (s2.hostsOn half).foldl (fun t h => t.hostBack h true true) s2 else s2)

/-! ### Functions (R292, R297) -/

/-- D3COLD_ENTRY. -/
def execD3coldEntry (host : HostId) (s : State) : R :=
  .next (if (s.bindOf host).valid ∧ (s.halfReg (s.halfOf host)).hold = false then s.hostEvent host 5 false true else s)

/-- D3HOT_ENTRY: `KDEV_FSTAT` changes, and vectors 0 and 1 are held (R295, R297). -/
def execD3hotEntry (host : HostId) (s : State) : R :=
  .next (
    if s.reach host = false ∨ (s.fnOf host).d3 = true then s
    else (s.setFn host { s.fnOf host with d3 := true }).notice host)

/-- D0_ENTRY: from D3hot, held vectors are sent; from D3cold, step 6 of R300. -/
def execD0Entry (host : HostId) (s : State) : R :=
  .next (
    if s.inReset host then s.hostBack host false true
    else
      let f := s.fnOf host
      if s.reach host = false ∨ f.d3 = false then s
      else
        let s1 := s.setFn host { f with d3 := false, msixPend := [] }
        (f.msixPend.foldl (fun t v => t.signal host v) s1).notice host)

/-- BUS_MASTER_DISABLE: every window of the host is lost (R292). -/
def execBusMasterDisable (host : HostId) (s : State) : R :=
  .next (
    if s.reach host then ((s.setFn host { s.fnOf host with busMaster := false }).loseWindows host .ok 0).afterLines else s)

/-- RT_STREAM_IDLE: a stream without a read for 10 µs closes (R287); a buffer without streams presents no PANIC. -/
def execRtStreamIdle (half : Fin 16) (host : HostId) (region : RegionId) (s : State) : R :=
  .next (
    let s1 : State := { s with ports := { s.ports with streams := s.ports.streams.filter (fun t => !(t.half == half.val && t.host == host && t.region == region)) } }
    if s1.ports.streams.any (fun t => t.half == half.val) then s1 else s1.clearPanic half)

/-! ### Tarn reads (R290, R291; 02 R93) -/

/-- Whether a Tarn read has been issued: a port holds at most `TAGS` outstanding reads, its later ones wait (R290). DESIGN CHOICE (assumption log 73):
the read of one segment counts once, and the halves of a port take turns in the order of their reads. -/
def State.issued (s : State) (no : Nat) : Bool :=
  match s.ports.np.find no with
  | none => false
  | some n =>
    let port := s.halfOf n.host / 2
    decide ((s.ports.np.filter (fun p => decide (p.1 < no) && s.halfOf p.2.host / 2 == port)).length < (s.portCfg port).tags.toNat)

/-- TARN_READ_COMPLETE. -/
def execTarnReadComplete (region : RegionId) (seg : Nat) (chk : Chk) (pick : W32) (s : State) : R :=
  .next (
    if s.inPause = true ∨ s.ports.np.all (fun n => !(n.2.region == region && n.2.seg == seg && s.issued n.1)) ∨ s.pageAway region seg = true then s
    else
      let s1 : State := { s with ports := { s.ports with np := s.ports.np.filter (fun p => !(p.2.region == region && p.2.seg == seg)) } }
      match (s.sme region seg).home with
      | some (.tarn w x) => s1.farRead region seg (.tarn w x) (some chk) (.first chk) pick
      | _ => (s1.endMiss (segKey region seg)).rerun (missOf region seg) .ok pick)

/-- COMPLETION_TIMEOUT, or UR, CA or a poisoned completion: one retry, then a failed sector check (R291, R310). -/
def execCompletionTimeout (req : Nat) (s : State) : R :=
  .next (match s.ports.np.find req with
    | none => s
    | some n =>
      let s1 := s.send (.err (s.halfOf n.host) .nonfatal)
      if s.issued req = false then s
      else if n.retried = false then { s1 with ports := { s1.ports with np := s1.ports.np.put req { n with retried := true } } }
      else
        let s2 : State := { s1 with ports := { s1.ports with np := s1.ports.np.del req } }
        match (s.sme n.region n.seg).home with
        | some (.tarn w x) => s2.farRead n.region n.seg (.tarn w x) none .unreadable 0
        | _ => (s2.endMiss (segKey n.region n.seg)).rerun (missOf n.region n.seg) .ok 0)

/-! ### Link power (R296, R298) -/

/-- Whether a host ID of a half holds a grant of an RT-flagged region. -/
def State.rtHalf (s : State) (half : Nat) : Bool :=
  (s.hostsOn half).any (fun h => (s.grantsOfHost h).any (fun g => (s.ent g.2.region).rt))

/-- L1_IDLE_EXPIRY: the sled takes the link to L1, where `L1_IDLE` and RT grants allow it. -/
def execL1IdleExpiry (half : Fin 16) (s : State) : R :=
  .next (
    if s.linkOpen half = false ∨ (s.portCfg (half.val / 2)).l1Idle = 0 ∨ s.rtHalf half = true then s
    else s.setHalf half { s.halfReg half with link := 5 })

/-- L0P_REQUEST: a host's request for fewer lanes, or for all of them (07 R306, R307). DESIGN CHOICE (assumption log 36): `WIDTH` goes on reading the
trained width while the link is in L0p. -/
def execL0pRequest (half : Fin 16) (width : BitVec 3) (s : State) : R :=
  .next (
    let x := s.halfReg half
    if s.linkOpen half = false ∨ x.width < width ∨ (width < x.width ∧ s.rtHalf half = true) then s
    else s.setHalf half { x with link := if width = x.width then 2 else 3 })

/-- LINK_POWER_STATE_CHANGE: L1, L1.1, L1.2, L2, or back to L0; L0p where `L0P_EN` lets the sled reduce its lanes and no RT grant forbids it (R296). -/
def execLinkPowerStateChange (half : Fin 16) (link : BitVec 4) (s : State) : R :=
  .next (
    let x := s.halfReg half
    let legal : List (BitVec 4) := [2, 5, 6, 7, 8]
    let narrow := link == 3 && (s.portCfg (half.val / 2)).l0pEn && !s.rtHalf half && x.link == 2
    if x.hold ∨ s.up = false ∨ (legal.contains link || narrow) = false ∨ (x.link ≠ 3 ∧ legal.contains x.link = false) then s
    else
      let s1 := s.setHalf half { x with link := link }
      if link = 2 then s1.pgLit half else s1)

/-- Whether WAKE# of a port group is asserted (R298, R314): some half is in L2 under PERST#, or in L1.2, and a function on it wakes for an
event of severity error or higher, or for an offer. -/
def State.wakeOut (s : State) (pg : Nat) : Bool :=
  !(s.sled.st == .off || s.sled.st == .vigil || s.sled.st == .dead) &&
  [4 * pg, 4 * pg + 1, 4 * pg + 2, 4 * pg + 3].any (fun h =>
    let l := (s.halfReg h).link
    ((l == 8 && s.ports.perst.contains pg) || l == 7) &&
    (s.hostsOn h).any (fun i => (s.fnOf i).wakeEv &&
      (s.rt.offers.any (fun o => o.2.grant.host == i) || s.evt.ring.any (fun r => decide (3 ≤ r.sev.toNat) && s.mayRead i r))))

/-! ### Errors and IDE (R271, R310) -/

/-- CORRECTED_LINK_ERROR. -/
def execCorrectedLinkError (half : Fin 16) (s : State) : R :=
  .next (
    let x := s.halfReg half
    if s.linkOpen half then (s.setHalf half { x with cor := x.cor + 1 }).send (.err half .cor) else s)

/-- MALFORMED_TLP. -/
def execMalformedTlp (half : Fin 16) (s : State) : R :=
  .next (if s.linkOpen half then (s.send (.err half .fatal)).dropLink half 2 else s)

/-- IDE_CHECK_FAIL: the stream becomes insecure and the half takes a link down. -/
def execIdeCheckFail (half : Fin 16) (s : State) : R :=
  .next (
    let x := s.halfReg half
    if s.linkOpen half ∧ x.ide = true then ((s.setHalf half { x with ide := false }).send (.err half .fatal)).dropLink half 2 else s)

/-- IDE_KM_MESSAGE: starting the keyed stream establishes IDE on the half; programming keys shows nowhere (assumption log 13). -/
def execIdeKmMessage (half : Fin 16) (start : Bool) (s : State) : R :=
  .next (if start ∧ s.linkOpen half = true then s.setHalf half { s.halfReg half with ide := true } else s)

end Sys2Proof.Machine
end

