-- ==== Sys2Proof/Machine/PeerC.lean ====
section
/-! DEFINITION. Peer moves and evacuation: the peer window's frames, the peer forms of MOVE, EVACUATE (06 R255, R260 to R262; 07 R293,
R294, R309; 08 R341, R345; 14 R514). A refusal travels in no field of a frame: what the peer answers is an operand (assumption log 4). -/

namespace Sys2Proof.Machine

/-! ### Lanes and frames -/

/-- The peer sled whose lane a PBR ID writes. -/
def State.peerAt (s : State) (pbr : BitVec 12) : Option W16 := (s.mgt.lanes.find? (fun l => l.2.2 == pbr)).map (fun l => l.2.1)

/-- Whether a peer is enrolled. -/
def State.enrolled (s : State) (p : W16) : Bool := s.mgt.lanes.any (fun l => l.2.1 == p)

/-- Writes a frame into a peer's window; without an enrolment there is no window to write. -/
def State.sendFrame (s : State) (m : PMove) (k : FrameKind) (region : RegionId) (seg seq count : Nat) (payload : List Byte) : State :=
  if s.enrolled m.peer then
    s.send (.frame m.peer k ⟨s.id.sledId, m.tag, region, BitVec.ofNat 34 seg, BitVec.ofNat 32 seq, BitVec.ofNat 32 count, payload⟩)
  else s

/-- A peer move of a peer and tag, in one direction. -/
def PMove.isFor (m : PMove) (p : W16) (tag : W32) (sends : Bool) : Bool := m.peer == p && m.tag == tag && m.sends == sends

/-- Writes a peer move back. -/
def State.putPm (s : State) (m : PMove) : State :=
  { s with ports := { s.ports with pmoves := s.ports.pmoves.map (fun x => if x.isFor m.peer m.tag m.sends then m else x) } }

/-- The local segment of sequence number q. -/
def PMove.segAt (m : PMove) (q : Nat) : Nat := match m.segs with
  | some l => l.getD q m.first
  | none => m.first + q

/-- A peer move with its defaults. -/
def mkPm (peer : W16) (tag : W32) (sends : Bool) (op : Option Nat) (r : RegionId) (first count : Nat) (segs : Option (List Nat))
    (peerRegion : RegionId) (peerSeg : Nat) : PMove :=
  { peer := peer, tag := tag, sends := sends, op := op, region := r, first := first, count := count, segs := segs, peerRegion := peerRegion,
    peerSeg := peerSeg, seq := 0, acked := 0, retried := [], slots := [], done := none, got := [] }

/-! ### The end of a move -/

/-- The peer window needs these: a pull starts with its PULL frame (R294). -/
def State.startPm (s : State) (m : PMove) : State :=
  if s.ports.pmoves.any (fun x => x.peer == m.peer && x.sends == m.sends) then
    { s with ports := { s.ports with pwait := s.ports.pwait ++ [m] } }
  else
    let s1 : State := { s with ports := { s.ports with pmoves := s.ports.pmoves ++ [m] } }
    if !m.sends && m.op.isSome then s1.sendFrame m .pull m.peerRegion m.peerSeg 0 m.count [] else s1

/-- A peer move leaves the lane; the next that waits for the lane and direction starts. -/
def State.endPm (s : State) (m : PMove) : State :=
  let s1 : State := { s with ports := { s.ports with pmoves := s.ports.pmoves.filter (fun x => !x.isFor m.peer m.tag m.sends) } }
  match s1.ports.pwait.find? (fun x => x.peer == m.peer && x.sends == m.sends) with
  | some n => ({ s1 with ports := { s1.ports with pwait := s1.ports.pwait.erase n } }).startPm n
  | none => s1

/-- Grants of an evacuated region end as a revoke ends them, and no program waits for them (06 R241, R262). -/
def State.revokeAll (s : State) (r : RegionId) : State :=
  (s.grantsOf r).foldl (fun t p =>
    if t.rt.revokes.has p.1 then t
    else ({ t with rt := { t.rt with revokes := t.rt.revokes.put p.1 { progs := [], stage := .waitRelease } } }).dcEvent p.2.host
      (.release r p.2.first p.2.count p.2.dpa)) s

/-- An evacuation whose region has no grant left frees it, and completes (R262). -/
def State.leaveDone (s : State) (n : Nat) : State :=
  match s.q.ops.find n with
  | none => s
  | some o =>
    if o.kind ≠ .leaving ∨ s.grantsOf o.region ≠ [] ∨ s.token o.region = true ∨ s.drained o.region (s.ent o.region).gen = false then s
    else (({ s with q := { s.q with ops := s.q.ops.del n } }).freeRegion o.region).narrowDone o.prog o.region

/-- A failed evacuation gives the region its state and its RW grants back (R262). -/
def State.unEvacuate (s : State) (r : RegionId) : State :=
  match s.rt.evac.find r.toNat with
  | none => s
  | some v =>
    let s1 : State := { s with rt := { s.rt with
      evac := s.rt.evac.del r.toNat
      grants := s.rt.grants.map (fun (p : Nat × Grant) => if v.narrowed.contains p.1 then (p.1, { p.2 with rw := true }) else p) } }
    let n := s1.grantsOf r
    (s1.change r (fun e => { e with st := if v.before = .seald then .seald else if n = [] then .new else .active })).journalEnt r

/-- A peer move ends with a status; `q` names its first segment that is not acknowledged. -/
def State.failPm (s : State) (m : PMove) (status : Byte) (detail : W16) : State :=
  let s1 := s.endPm m
  match m.op.bind (fun n => (s1.q.ops.find n).map (fun o => (n, o))) with
  | none => s1
  | some (n, o) =>
    let s2 := if o.kind = .evacuate then s1.unEvacuate o.region else s1
    s2.opEnd n { o with done := if m.sends then m.acked else m.seq, failed := some (m.segAt (if m.sends then m.acked else m.seq)), status := status, detail := detail }

/-- Every segment of a peer move that this sled began is acknowledged. -/
def State.okPm (s : State) (m : PMove) : State :=
  let s1 := s.endPm m
  match m.op.bind (fun n => (s1.q.ops.find n).map (fun o => (n, o))) with
  | none => s1
  | some (n, o) =>
    if o.kind = .evacuate then
      (({ s1 with q := { s1.q with ops := s1.q.ops.put n { o with kind := .leaving, done := m.count } } }).revokeAll o.region).leaveDone n
    else s1.opEnd n { o with done := m.count }

/-! ### Sending (R255, R294) -/

/-- What the read of a segment for a peer gives. -/
inductive PRead
  | data (b : List Byte)
  | poison
  | wait
  | gone
deriving DecidableEq, Repr

/-- Reads a whole segment for a peer, after lines that a host holds EXCL have come back (06 R255), as a program's load reads it (03 R127): a damaged
image is dropped and the home read, a home in Lake or Tarn is read by a miss, of which `got` says that it has completed; c is the outcome of the
sector check of a near copy. -/
def State.peerRead (s0 : State) (r : RegionId) (seg : Nat) (c : Chk) (got : Bool) : State × PRead :=
  if (s0.ent r).st = .freed then (s0, .gone)
  else if s0.dataReady r [(seg * 4096, 4096)] = false then (s0.wakeFor r [(seg * 4096, 4096)], .wait)
  else
    let ex := (s0.trackedIn r seg 1).filter (fun e => e.st == .excl || e.busy)
    if ex ≠ [] then ((ex.filter (fun e => !e.busy)).foldl (fun t e => t.snoop e .inv (t.listed e)) s0, .wait)
    else
      let s := s0.checkSme r seg
      let e := s.sme r seg
      if e.st = .poisoned ∨ (s.ent r).dlost = true ∨ s.dir.lost.any (fun l => l.2.1 == r && l.2.2.toNat / 64 == seg) = true then (s, .poison)
      else if s.pageAway r seg then (s.startMiss r seg none, .wait)
      else match e.image, e.home with
        | some i, _ =>
          if chkFails c then (s.imageFault r seg i (c == Chk.tag) false, .wait)
          else (match s.segBytes e (some i) with
            | some b => ((s.noteChk i c).touch r seg, .data b)
            | none => (s.imageFault r seg i false true, .wait))
        | none, some h =>
          if h.isNear = false ∧ got = false then (s.startMiss r seg none, .wait)
          else if h.isNear = true ∧ chkFails c = true then (s.homeFault r seg h (c == Chk.tag) false, .poison)
          else (match s.segBytes e (some h) with
            | some b => ((if h.isNear then s.noteChk h c else s).touch r seg, .data b)
            | none => (s.homeFault r seg h false true, .poison))
        | none, none => (s.touch r seg, .data ((s.segBytes e none).getD (zeros 4096)))

/-- Region and segment that a DATA frame names: the peer's where this sled knows them, its own when it answers a PULL, which does not name
the puller's (assumption log 18). -/
def PMove.target (m : PMove) (q : Nat) : RegionId × Nat :=
  if m.op.isSome then (m.peerRegion, m.peerSeg + (m.segAt q - m.first)) else (m.region, m.segAt q)

/-- Sends DATA frames while fewer than 14 are unacknowledged, then DONE. `fuel` bounds the frames of one turn; c is the outcome of the sector check of
the first segment read. -/
def State.pump (s : State) (m : PMove) (c : Chk) : Nat → State
  | 0 => s
  | f + 1 =>
    if m.count ≤ m.seq then
      if m.done.isSome then s
      else
        let m1 := { m with done := some m.count }
        let s1 := (s.putPm m1).sendFrame m1 .done (m1.target 0).1 0 0 m1.count []
        if m.acked = m.count then s1.okPm m1 else s1
    else if 14 ≤ m.seq - m.acked then s
    else
      let k := segKey m.region (m.segAt m.seq)
      match s.peerRead m.region (m.segAt m.seq) c (m.got.contains k) with
      | (t, .data b) =>
        let m1 := { m with seq := m.seq + 1, got := m.got.filter (fun x => x != k) }
        ((t.putPm m1).sendFrame m (.data) (m.target m.seq).1 (m.target m.seq).2 m.seq 0 b).pump m1 .ok f
      | (t, .wait) => t
      | (t, .poison) => t.failPm m ePoison 0
      | (t, .gone) => t.failPm m eState 0x10

/-! ### Receiving -/

/-- Writes a whole segment that a peer sent: hosts' lines of it are recalled first, and it takes a new home in Pond (R255, R260). None
while it must wait. A POISONED segment keeps its poison. -/
def State.peerWrite (s0 : State) (r : RegionId) (seg : Nat) (b : List Byte) (pick : W32) : State × Bool :=
  let s1 := s0.recallRange r seg 1
  let s := s1.checkSme r seg
  if (s.ent r).odd = true ∨ s.trackedIn r seg 1 ≠ [] ∨ s.pageAway r seg = true ∨ s.promoting r seg = true then (s, false)
  else if (s.sme r seg).st = .poisoned then (s.poisonWrite r (seg * 64) 0, true)
  else match s.admitDirty r seg 16 with
    | .hold => (s, false)
    | .drop => (s.capacityFatal r seg, true)
    | a =>
      let s2 := s.cancelMove r seg
      let s3 := s2.endTrial r seg
      match (if a = .past then s3.overAdmit else s3).storeFresh r seg b pick false with
      | (t, .wait _) => (t, false)
      | (t, _) => ({ t with dir := { t.dir with lost := t.dir.lost.filter (fun l => !(l.2.1 == r && l.2.2.toNat / 64 == seg)) } }, true)

/-- Writes the frames that have arrived in order, acknowledges every fourth and the last, and ends the move once DONE's count has come. -/
def State.drainPm (s : State) (m : PMove) (pick : W32) : Nat → State
  | 0 => s
  | f + 1 =>
    if m.done = some m.seq then
      let s1 := s.sendFrame m .ack m.region 0 (m.seq - 1) 0 []
      if m.op.isSome then s1.okPm m else s1.endPm m
    else match m.slots.find? (fun x => x.seq == m.seq) with
      | none => s.putPm m
      | some x =>
        let seg := if m.op.isSome then m.first + m.seq else x.seg
        match s.peerWrite m.region seg x.payload pick with
        | (t, false) => t.putPm m
        | (t, true) =>
          let n := m.seq + 1
          let m1 := { m with seq := n, slots := m.slots.filter (fun y => y.seq != m.seq), acked := if n % 4 = 0 then n else m.acked }
          let t1 := if n % 4 = 0 then t.sendFrame m1 .ack m1.region 0 (n - 1) 0 [] else t
          (t1.putPm m1).drainPm m1 pick f

/-- Whether a peer may write a region: an RW peer grant, and a state that takes stores (R260; 08 R345). -/
def State.peerMayWrite (s : State) (p : W16) (r : RegionId) : Bool :=
  let e := s.ent r
  s.rt.peers.any (fun g => g.2.sled == p && g.2.region == r && g.2.rw) && (e.st == .new || e.st == .active) && !e.dlost

/-- Whether a peer may read a region. -/
def State.peerMayRead (s : State) (p : W16) (r : RegionId) : Bool :=
  let e := s.ent r
  s.rt.peers.any (fun g => g.2.sled == p && g.2.region == r) && e.st != .freed && !e.dlost

/-- Takes a frame of an enrolled peer into its lane; one whose `CRC` fails, or that carries a reserved `KIND`, draws a NAK. -/
def State.takeFrame (s : State) (pbr : BitVec 12) (x : PFrame) (crcOk : Bool) (f : W16 → State) : State :=
  if s.up = false then s
  else match s.peerAt pbr with
    | none => s
    | some p => if crcOk then f p else s.sendFrame (mkPm p x.tag false none x.region 0 0 none 0 0) .nak x.region 0 x.seq.toNat 0 []

/-- PEER_DATA_FRAME. A frame whose segment arrives damaged twice ends a pull with E_INTEGRITY (R260). -/
def execPeerDataFrame (pbr : BitVec 12) (frame : PFrame) (crcOk : Bool) (pick : W32) (s : State) : R :=
  if frame.whole = false then .fault .illFormed else .next (
    match s.peerAt pbr with
    | none => s
    | some p =>
      let q := frame.seq.toNat
      match s.ports.pmoves.find? (fun m => m.isFor p frame.tag false) with
      | some m =>
        if s.up = false ∨ q < m.seq ∨ m.seq + 14 ≤ q then s
        else if crcOk = false then
          if m.retried.contains q then s.failPm m eIntegrity 0
          else ((s.putPm { m with retried := q :: m.retried }).sendFrame m .nak m.region 0 q 0 [])
        else if m.op.isNone ∧ s.peerMayWrite p m.region = false then s.endPm m
        else s.drainPm { m with slots := m.slots.filter (fun y => y.seq != q) ++ [⟨q, frame.seg.toNat, frame.payload⟩] } pick 15
      | none =>
        s.takeFrame pbr frame crcOk (fun p =>
          if q ≠ 0 ∨ s.peerMayWrite p frame.region = false ∨ (s.ent frame.region).segs ≤ frame.seg.toNat ∨
             s.ports.pmoves.any (fun m => m.peer == p && !m.sends) = true then s
          else
            let m := { mkPm p frame.tag false none frame.region frame.seg.toNat 0 none 0 0 with slots := [⟨0, frame.seg.toNat, frame.payload⟩] }
            (s.startPm m).drainPm m pick 15))

/-- PEER_PULL_FRAME: a peer asks for segments of a region that it may read. -/
def execPeerPullFrame (pbr : BitVec 12) (frame : PFrame) (check : FrameCheck) (s : State) : R :=
  .next (s.takeFrame pbr frame check.crcOk (fun p =>
    if s.peerMayRead p frame.region = false ∨ (s.ent frame.region).segs < frame.seg.toNat + frame.count.toNat ∨
       s.ports.pmoves.any (fun m => m.isFor p frame.tag true) = true then s
    else
      let m := mkPm p frame.tag true none frame.region frame.seg.toNat frame.count.toNat none frame.region frame.seg.toNat
      let s1 := s.startPm m
      if s1.ports.pmoves.contains m then s1.pump m check.chk 15 else s1))

/-- PEER_ACK_FRAME: `SEQ` is the highest sequence received in order. -/
def execPeerAckFrame (pbr : BitVec 12) (frame : PFrame) (check : FrameCheck) (s : State) : R :=
  .next (s.takeFrame pbr frame check.crcOk (fun p =>
    match s.ports.pmoves.find? (fun m => m.isFor p frame.tag true) with
    | none => s
    | some m =>
      let n := frame.seq.toNat + 1
      if n ≤ m.acked ∨ m.seq < n then s
      else
        let m1 := { m with acked := n }
        let s1 := s.putPm m1
        if n = m1.count ∧ m1.done.isSome = true then (if m1.op.isSome then s1.okPm m1 else s1.endPm m1) else s1.pump m1 check.chk 15))

/-- PEER_NAK_FRAME: the frame is resent once; a second NAK ends the move with E_INTEGRITY (R260). -/
def execPeerNakFrame (pbr : BitVec 12) (frame : PFrame) (crcOk : Bool) (s : State) : R :=
  .next (s.takeFrame pbr frame crcOk (fun p =>
    match s.ports.pmoves.find? (fun m => m.isFor p frame.tag true) with
    | none => s
    | some m =>
      let q := frame.seq.toNat
      if q < m.acked ∨ m.seq ≤ q then s
      else if m.retried.contains q then s.failPm m eIntegrity 0
      else match s.peerRead m.region (m.segAt q) .ok true with
        | (t, .data b) => (t.putPm { m with retried := q :: m.retried }).sendFrame m .data (m.target q).1 (m.target q).2 q 0 b
        | (t, .poison) => t.failPm m ePoison 0
        | (t, .gone) => t.failPm m eState 0x10
        | (t, .wait) => t))

/-- PEER_DONE_FRAME: the sender has sent `COUNT` segments. -/
def execPeerDoneFrame (pbr : BitVec 12) (frame : PFrame) (crcOk : Bool) (s : State) : R :=
  .next (s.takeFrame pbr frame crcOk (fun p =>
    match s.ports.pmoves.find? (fun m => m.isFor p frame.tag false) with
    | none => s
    | some m => s.drainPm { m with done := some frame.count.toNat } 0 15))

/-- PEER_MOVE_TIMEOUT (R309). -/
def execPeerMoveTimeout (tag : W32) (s : State) : R :=
  .next (match s.ports.pmoves.find? (fun m => m.tag == tag && m.op.isSome) with
    | some m => s.failPm m eTimeout 5
    | none => match s.ports.pmoves.find? (fun m => m.tag == tag) with
      | some m => s.endPm m
      | none => s)

/-! ### Progress of peer moves and evacuations -/

/-- The copy of an evacuation starts once requests of earlier generations have drained and no line of the region is tracked. -/
def State.evacStart (s : State) (n : Nat) (o : COp) : State :=
  let r := o.region
  let s1 := s.recallRegion r
  if s1.drained r (BitVec.ofNat 32 (o.aux - 1)) = false ∨ s1.trackedLines r = true then s1
  else
    let l := ((s1.smes r).filter (fun p => p.2.st != .zero)).map (fun p => p.1)
    let m := mkPm o.peerSled (BitVec.ofNat 32 n) true (some n) r 0 l.length (some l) o.peerRegion 0
    let s2 := s1.startPm m
    if s2.ports.pmoves.contains m then s2.pump m .ok 15 else s2

/-- Whether an operation has its peer move in a lane, or waiting for one. -/
def State.hasPm (s : State) (n : Nat) : Bool := (s.ports.pmoves ++ s.ports.pwait).any (fun m => m.op == some n)

/-- Peer moves and evacuations go as far as they can. -/
def State.runPeers (s : State) : State :=
  if s.up = false then s
  else
    let s1 := (s.q.ops.filter (fun o => o.2.kind == .evacuate)).foldl (fun t o => if t.hasPm o.1 then t else t.evacStart o.1 o.2) s
    let s2 := s1.ports.pmoves.foldl (fun t m => match t.ports.pmoves.find? (fun x => x.isFor m.peer m.tag m.sends) with
      | none => t
      | some x => if x.sends then t.pump x .ok 15 else t.drainPm x 0 15) s1
    (s2.q.ops.filter (fun o => o.2.kind == .leaving)).foldl (fun t o => t.leaveDone o.1) s2

/-! ### The instructions (09 R371 to R373) -/

/-- What the peer sled answers about its region, as the instruction's failure (08 R345). -/
def peerErr (v : PeerView) (r : RegionId) : Option Err1 :=
  match v with
  | .ok => none
  | .notNew => some (stateErr 0x15 (some r))
  | .noGrant => some (permErr 5 (some r))
  | .refused st d => some { status := st, detail := d, region := some r }

/-- The checks of the peer forms: kind k, a peer offset of whole segments, no reserved bits. -/
def peerCheck (k : Nat) (s : State) (x : Prog) (w e : W64) : Option W16 :=
  moveCheck s (fun i => i == k) x w e
    (if onlyBits w [uD, uA, uB, uC] = false ∨ xf e 41 23 ≠ 0 then some dReserved
     else if (x.gr (fC w)).toNat % 4096 ≠ 0 then some dAlign else none)

/-- The operation of a peer form. -/
def peerOp (k : OpKind) (p : Nat) (x : Prog) (w e : W64) : COp :=
  let g := rangeSegs x w
  { mkOp k p (hRegion (x.hr (fA w))) g.1 g.2 with
    d := fD w, peerSled := BitVec.ofNat 16 (xf e 11 16), peerRegion := BitVec.ofNat 14 (xf e 27 14), peerSeg := (x.gr (fC w)).toNat / 4096, c3 := e.getLsbD 3 }

/-- Starts the peer move of an operation. -/
def State.startPeer (s : State) (o : COp) (sends : Bool) (c : Chk) : State :=
  let n := s.q.opNo
  let s1 := s.newOp o
  let m := mkPm o.peerSled (BitVec.ofNat 32 n) sends (some n) o.region o.first o.count none o.peerRegion o.peerSeg
  let s2 := s1.startPm m
  if sends ∧ s2.ports.pmoves.contains m = true then s2.pump m c 15 else s2

/-- MOVE_PEER_PUSH: this region is the source. -/
def execMovePeerPush (prog : Nat) (view : PushView) (s : State) : R :=
  .next (s.control prog (isOp 0x28) (peerCheck 5 s) (fun x w e =>
    let r := hRegion (x.hr (fA w))
    if moveKind e ≠ 5 ∨ s.token r = true then s
    else s.guarded prog [s.cell r cellAny,
        (s.lacks x.host r (hBase (x.hr (fA w))) (x.gr (fB w)).toNat false).map (fun d => permErr d (some r)), peerErr view.peer r, s.moveBusy]
      (s.startPeer (peerOp .push prog x w e) true view.chk)))

/-- MOVE_PEER_PULL: this region is the destination. -/
def execMovePeerPull (prog : Nat) (peer : PeerView) (s : State) : R :=
  .next (s.control prog (isOp 0x28) (peerCheck 6 s) (fun x w e =>
    let r := hRegion (x.hr (fA w))
    if moveKind e ≠ 6 ∨ s.token r = true then s
    else s.guarded prog [s.cell r cellWritable,
        (s.lacks x.host r (hBase (x.hr (fA w))) (x.gr (fB w)).toNat true).map (fun d => permErr d (some r)), peerErr peer r, s.moveBusy]
      (s.startPeer (peerOp .pull prog x w e) false .ok)))

/-- The narrowing change that starts an evacuation: EVACUATING, every RW grant RO (R262). -/
def State.evacChange (s : State) (n : Nat) (r : RegionId) : State :=
  let rw := ((s.grantsOf r).filter (fun p => p.2.rw)).map (fun p => p.1)
  let hosts := s.grantHosts r
  let before := (s.ent r).st
  let s1 := s.change r (fun e => { e with st := .evacuating })
  let s2 : State := { s1 with rt := { s1.rt with
    grants := s1.rt.grants.map (fun (p : Nat × Grant) => if p.2.region = r then (p.1, { p.2 with rw := false }) else p)
    evac := s1.rt.evac.put r.toNat ⟨before, rw⟩ } }
  let s3 := ((s2.journalEnt r).fixOffers).lampRegionGone r
  let s4 := hosts.foldl State.lampGrantsGone s3
  { s4 with q := { s4.q with ops := s4.q.ops.upd n (fun x => { x with aux := (s4.ent r).gen.toNat + 1 }) } }

/-- EVACUATE. `stall` leaves the entry odd (01 R32). -/
def execEvacuate (prog : Nat) (peerOk : PeerView) (stall : Bool) (s : State) : R :=
  .next (s.control prog (isOp 0x29)
    (fun x w _ =>
      if onlyBits w [uA, uB, uC] = false then some dReserved
      else match handleErr x (fA w) with
        | some d => some d
        | none => if 65536 ≤ (x.gr (fB w)).toNat ∨ 16384 ≤ (x.gr (fC w)).toNat then some dRange else none)
    (fun x w _ =>
      let r := hRegion (x.hr (fA w))
      if s.token r then s
      else s.guarded prog [s.cell r cellLive, s.ownerErr x.host r, peerErr peerOk r,
          (if 16 ≤ s.opsOf [.evacuate, .leaving] then some { status := eBusy, detail := 0 } else none)]
        (if stall then (s.ctlWait prog).stallEntry r (some prog) none
         else
           let n := s.q.opNo
           let o : COp := { mkOp .evacuate prog r 0 (s.ent r).segs with
             peerSled := (x.gr (fB w)).setWidth 16, peerRegion := (x.gr (fC w)).setWidth 14, c3 := true }
           ((s.newOp o).evacChange n r).runPeers)))

end Sys2Proof.Machine
end

