-- ==== Sys2Proof/Machine/PowerC.lean ====
section
/-! DEFINITION. The commands of power: the input, Dusk flush, the hold-up store, the Ledger, clocks, power states, profiles and
temperatures (13 R450 to R492; 01 R33 to R36, R49). -/

namespace Sys2Proof.Machine

/-! ### The input (13 R450 to R453) -/

/-- The warning band of an input voltage in 10 mV: 1 low, 2 high, 0 neither (R450). -/
def bandOf (vin : Nat) : Nat := if 4200 ≤ vin ∧ vin < 4400 then 1 else if 5950 < vin ∧ vin ≤ 6050 then 2 else 0


/-- Whether input power reaches the sled. -/
def State.inputOn (s : State) : Bool := !s.pwr.sag && !s.pwr.switchOpen

/-- SUPPLY_RANGE: one post on each entry into a band. -/
def execSupplyRange (vin : W16) (s : State) : R :=
  .next (
    let b := bandOf vin.toNat
    let s1 : State := { s with pwr := { s.pwr with vin := vin, band := b } }
    if s.awake ∧ b ≠ 0 ∧ b ≠ s.pwr.band then s1.post (pairPost .supplyRange 0 0 vin.toNat 0) else s1)

/-- SUPPLY_SAG. A sag during a warm restart's Keep flush ends in OFF (16 R568). -/
def execSupplySag (vin : W16) (s : State) : R :=
  .next (
    if 4200 ≤ vin.toNat then s
    else if s.pwr.sag then { s with pwr := { s.pwr with vin := vin, lowVin := if vin < s.pwr.lowVin then vin else s.pwr.lowVin } }
    else
      let s1 : State := { s with pwr := { s.pwr with vin := vin, band := 0, sag := true, lowVin := vin } }
      if s.awake = false then { s1 with sled := { s1.sled with dark := false, stayOff := false } }
      else
        let s2 := s1.post (pairPost .supplySag 0 0 vin.toNat s.pwr.ride)
        match s2.sled.flush with
        | some (.restart _) => { s2 with sled := { s2.sled with offNext := true } }
        | _ => s2)

/-- SAG_END: the sled returns to the input; the ride-through timer stands until SAG_TIMER_RESET. -/
def execSagEnd (vin : W16) (s : State) : R :=
  .next (
    if s.pwr.sag = false ∨ vin.toNat ≤ 4300 then s
    else
      let s1 : State := { s with pwr := { s.pwr with vin := vin, sag := false, rides := satInc s.pwr.rides } }
      if s.awake then s1 else { s1 with sled := { s1.sled with dark := true } })

/-- SAG_TIMER_RESET. -/
def execSagTimerReset (s : State) : R := .next (if s.pwr.sag then s else { s with pwr := { s.pwr with ride := 0 } })

/-- RIDE_THROUGH_EXPIRY. -/
def execRideThroughExpiry (s : State) : R :=
  .next (if s.pwr.sag then ({ s with pwr := { s.pwr with ride := 20 } }).duskTrigger 0 false else s)

/-- OVERVOLTAGE. -/
def execOvervoltage (vin : W16) (s : State) : R :=
  .next (if vin.toNat ≤ 6050 then s
    else
      let s1 : State := { s with pwr := { s.pwr with vin := vin, switchOpen := true } }
      ({ s1 with sled := { s1.sled with dark := false } }).duskTrigger 1 false)

/-- OVERCURRENT (R452): treated as an input above 60.5 V. -/
def execOvercurrent (s : State) : R :=
  .next (
    let s1 : State := { s with pwr := { s.pwr with switchOpen := true } }
    ({ s1 with sled := { s1.sled with dark := false } }).duskTrigger 2 false)

/-- PILOT_DUSK_TIMEOUT (01 R49). A flush that meets an activation restart waits for the new firmware instead (01 R46). -/
def execPilotDuskTimeout (s : State) : R :=
  .next (match s.sled.flush with
    | some (.dusk t) => if s.sled.flushCmd ∨ s.inPause = true then s else s.commandFlush t
    | _ => s)

/-- DUSK_FLUSH_END: steps 3 to 6 (R453). A power-off under R492 writes a checkpoint before the rails fall (05 R230). -/
def execDuskFlushEnd (s : State) : R :=
  .next (match s.sled.flush with
    | some (.dusk t) =>
      if s.sled.flushCmd = false then s
      else
        let s1 := s.flushKeep
        let s2 := if (t = 4 ∨ t = 6) ∧ s1.lake.mounted = true then s1.checkpoint else s1
        let s3 := s2.powerDown s2.inputOn s2.sled.startFault
        { s3 with sled := { s3.sled with stayOff := t == 4 } }
    | _ => s)

/-! ### The hold-up store (13 R456 to R466, R490, R491) -/

/-- A measurement in service: it does not run below full charge, in a sag or in a flush (R489). -/
def State.mayMeasure (s : State) : Bool := s.awake && s.pwr.full && !s.pwr.sag && s.sled.flush.isNone

/-- Charging takes what the cap leaves, 40 W to 250 W, while the store is below full charge (R452, R471). -/
def State.charging (s : State) : State :=
  let free := (s.capRoom + 10 * s.pwr.charge) / 10
  { s with pwr := { s.pwr with charge := max 40 (min 250 free) } }

/-- Whether two measurements agree within 2% (R456). -/
def agree (a b : Nat) : Bool := decide (50 * (max a b - min a b) ≤ max a b)

/-- A measurement's value is applied (R456, R458). -/
def State.applyMeas (s : State) (j : Nat) : State :=
  let s1 : State := { s with pwr := { s.pwr with eMeas := j, higher := none } }
  if j < 3000 ∧ s.pwr.weak = false then
    (({ s1 with pwr := { s1.pwr with weak := true } }).post (pairPost .holdupWeak 0 0 j 3000)).advise 6
  else s1

/-- HOLDUP_MEASURE: E keeps its value until the store has recharged (R457). -/
def execHoldupMeasure (joules : Nat) (ok : Bool) (s : State) : R :=
  .next (
    if s.mayMeasure = false then s
    else
      let p := s.pwr
      let s1 : State := ({ s with pwr := { p with measuring := some s.energy, full := false } }).charging
      if ok = false ∨ joules = 0 then
        let n := p.measFails + 1
        let s2 : State := { s1 with pwr := { s1.pwr with measFails := n } }
        if n < 3 ∨ p.failed = true then s2
        else
          let s3 : State := ({ s2 with pwr := { s2.pwr with failed := true } }).rebudget
          if p.budget = 0 then s3.post (pairPost .holdupFail 0 0 0 0) else s3
      else
        let s2 : State := { s1 with pwr := { s1.pwr with measFails := 0, failed := false } }
        (if p.eMeas = 0 ∨ joules ≤ p.eMeas then s2.applyMeas joules
         else match p.higher with
          | some h => if agree h joules then s2.applyMeas joules else { s2 with pwr := { s2.pwr with higher := some joules } }
          | none => { s2 with pwr := { s2.pwr with higher := some joules } }).rebudget)

/-- HOLDUP_CHARGE_COMPLETE: `joules` is E_NOW, from the store voltage and the last measured capacitance (R457). -/
def execHoldupChargeComplete (joules : Nat) (s : State) : R :=
  .next (
    let s1 : State := { s with pwr := { s.pwr with full := true, measuring := none, eNow := joules, charge := 0 } }
    if s.awake then s1.rebudget else s1)

/-- HOLDUP_STORE_EXHAUSTED: the rails fall; a flush has written the first `written` of its segments (R454, R490). -/
def execHoldupStoreExhausted (written : Nat) (s : State) : R :=
  .next (
    if s.awake = false then s
    else match s.sled.flush with
      | some _ => if s.sled.flushCmd then (s.flushSome written).powerDown s.inputOn s.sled.startFault else s.powerDown s.inputOn s.sled.startFault
      | none => if s.pwr.sag then s.powerDown false (if s.sled.st = .boot ∨ s.sled.st = .train then 2 else s.sled.startFault) else s)

/-- STORE_ADMIT_TIMEOUT (R463). -/
def execStoreAdmitTimeout (req : Nat) (pick : W32) (s : State) : R :=
  .next (match s.dir.held.find? (fun x => x.no == req) with
    | some x => if x.why = .admission then s.runHeld req .ok pick true false else s
    | none => s)

/-- WRITEBACK_ESCALATE (R464). -/
def execWritebackEscalate (s : State) : R :=
  .next (if s.up = false ∨ s.inPause = true ∨ s.dirty ≤ s.pwr.budget * 2 ^ 30 then s
    else ({ s with pwr := { s.pwr with wb := 2 } }).wbRun)

/-! ### The Ledger (01 R33 to R36; 13 R467 to R474) -/


/-- LEDGER_REQUEST: the slot, and the Pilot's answer. -/
def execLedgerRequest (entry : Fin 21) (ceil : W16) (perm : BitVec 2) (s : State) : R :=
  .next (
    if perm = 3 ∨ 13500 < ceil.toNat ∨ s.awake = false then s
    else
      let s1 := s.setLedger entry { s.ledger entry with rceil := ceil, rperm := perm, asks := true }
      if s.pilotGrants then s1.answerAll else s1)

/-- Whether the Pilot may write a grant word: within the entry's floor and maximum, Lit for a tile that serves RT (01 R36), and never a
count above the cap (R470). -/
def State.grantFits (s : State) (i ceil : Nat) (perm : BitVec 2) : Bool :=
  let e := s.ledger i
  let t := s.writeGrant i ceil perm
  perm != 3 && decide (e.floor i ≤ ceil ∧ ceil ≤ maxCeil i) && !(s.rtTile i && perm != 0) &&
  (decide (t.powerCount ≤ t.capDw) || decide (t.powerCount ≤ s.powerCount))

/-- LEDGER_GRANT. -/
def execLedgerGrant (entry : Fin 21) (ceil : W16) (perm : BitVec 2) (s : State) : R :=
  .next (if s.pilotGrants ∧ s.grantFits entry ceil.toNat perm = true then s.writeGrant entry ceil.toNat perm else s)


/-- The power state a unit takes under its permission (R477): none above it, and a port group that a half needs is Lit with Lit permission. -/
def State.obeyed (s : State) (i : Nat) : PState :=
  let e := s.ledger i
  if e.perm = 2 then .banked
  else if e.perm = 1 ∧ e.st = .lit then .trimmed
  else if e.perm = 0 ∧ 12 ≤ i ∧ i < 16 ∧ s.pgActive i = true then .lit
  else e.st

/-- A unit takes the state that its permission allows (R477); a Banked tile's stack enters self-refresh (04 R156). -/
def State.obey (s : State) (i : Nat) : State :=
  let t := s.setPst i (s.obeyed i) 1 2
  if i < 12 ∧ s.obeyed i = .banked ∧ (s.ledger i).st ≠ .banked then t.selfRefresh i true else t

/-- LEDGER_ACK: the acknowledgement of the latest number settles every earlier one (01 R46); a stalled Pilot goes on counting the old value
(01 R48). -/
def execLedgerAck (entry : Fin 21) (seq : Byte) (s : State) : R :=
  .next (
    let e := s.ledger entry
    if seq = e.seq then
      let stalled := s.pilotStalled
      let s1 := (s.setLedger entry { e with
        ack := seq, forcedClk := false, counted := if stalled then e.counted else e.ceil, lowering := stalled && e.lowering }).obey entry
      if s1.pilotGrants then s1.answerAll else s1
    else if (e.seq - seq) < (e.seq - e.ack) then s.setLedger entry { e with ack := seq }
    else s)

/-- LEDGER_FORCED: a lowering has not been acknowledged for 10 µs (01 R35). -/
def execLedgerForced (entry : Fin 21) (s : State) : R :=
  .next (
    let e := s.ledger entry
    if s.awake = false ∨ e.ack = e.seq ∨ e.lowering = false ∨ e.forcedClk = true then s
    else
      let s1 := s.setLedger entry { e with forcedClk := true }
      ({ s1 with pwr := { s1.pwr with forced := satInc s1.pwr.forced } }).post (pairPost .ledgerForced 12 entry e.seq.toNat e.ceil.toNat))

/-- LEDGER_IDLE_LOWER (R471). -/
def execLedgerIdleLower (entry : Fin 21) (s : State) : R :=
  .next (
    let e := s.ledger entry
    let c := max (e.floor entry) (e.draw.toNat * 5 / 4)
    if s.pilotGrants ∧ 2 * e.draw.toNat < e.ceil.toNat ∧ c < e.ceil.toNat then s.writeGrant entry c e.perm else s)

/-- HW_WAKE_GRANT (R472). A request after step 2 of Dusk flush is ignored (R489). -/
def execHwWakeGrant (entry : Fin 21) (s : State) : R :=
  .next (
    let e := s.ledger entry
    if e.asks = false ∨ e.perm ≠ 2 ∨ e.rperm ≠ 0 ∨ s.up = false then s
    else
      let s1 := s.writeGrant entry (e.floor entry) 0
      s1.setLedger entry { s1.ledger entry with asks := decide (e.floor entry < e.rceil.toNat) })

/-- GOVERNOR_ESTIMATE (R473). -/
def execGovernorEstimate (entry : Fin 21) (draw : W16) (s : State) : R :=
  .next (let e := s.ledger entry; s.setLedger entry { e with draw := draw, gov := decide (e.ceil < draw) })

/-- CAP_SAMPLE: the input as sampled; `pin` is the average over 10 ms in 0.1 W (R474). -/
def execCapSample (vin iin pin : W16) (s : State) : R :=
  .next (
    let s1 : State := { s with pwr := { s.pwr with vin := vin, iin := iin, pin := pin } }
    if s.awake = false ∨ 100 * pin.toNat ≤ 102 * s.capDw then s1
    else
      let s2 := if s1.pilotGrants then s1.lowerTenth else s1
      s2.post (pairPost .capExceed 0 0 (pin.toNat / 10) (s.capDw / 10)))

/-! ### Power states (13 R477 to R479) -/

/-- Whether a tile has work: a program, a codec read, a move or a trial (R477). -/
def State.tileWork (s : State) (k : Nat) : Bool :=
  let near (l : Option Loc) : Bool := (l.bind Loc.tile).any (fun t => t == k)
  s.q.progs.any (fun p => decide (p.2.core < 96) && p.2.core / 8 == k) ||
  s.map.moves.any (fun p => near (some p.2.dest) || near (s.sme p.2.region p.2.seg).home) ||
  s.map.trials.any (fun x => x.2 / 4 == k)

/-- Halves of a port group. -/
def pgHalves (i : Nat) : List Nat := (List.range 4).map (fun j => 4 * (i - 12) + j)

/-- Whether an entry may be Trimmed. -/
def State.mayTrim (s : State) (i : Nat) : Bool :=
  if i < 12 then !s.tileWork i && !s.servesRt i
  else if i < 16 then (pgHalves i).all (fun h => let l := (s.halfReg h).link.toNat; 5 ≤ l || l ≤ 1)
  else if i < 20 then s.lake.misses == [] && s.lake.stripes == []
  else false

/-- TRIM_IDLE_EXPIRY. -/
def execTrimIdleExpiry (entry : Fin 21) (s : State) : R :=
  .next (
    let e := s.ledger entry
    if s.up ∧ e.st = .lit ∧ s.mayTrim entry = true then s.setPst entry .trimmed 0 0 else s)

/-- Whether an entry may be Banked. -/
def State.mayBank (s : State) (i : Nat) : Bool :=
  if i < 12 then !s.servesRt i && !s.tileWork i
  else if i < 16 then (pgHalves i).all (fun h => let l := (s.halfReg h).link.toNat; l == 7 || l == 8 || l == 9 || l == 0)
  else if i < 20 then s.lake.misses == [] && s.lake.stripes == []
  else (List.range 20).all (fun j => (s.ledger j).st == .banked)


/-- BANK_IDLE_EXPIRY: the Pilot writes `PERM` Banked, and the unit follows. -/
def execBankIdleExpiry (entry : Fin 21) (s : State) : R :=
  .next (
    let e := s.ledger entry
    if s.up ∧ s.pilotGrants = true ∧ (e.st = .trimmed ∨ (entry = 20 ∧ e.st = .lit)) ∧ s.mayBank entry = true then
      let s1 := s.writeGrant entry e.ceil.toNat 2
      let s2 := (s1.setLedger entry { s1.ledger entry with ack := (s1.ledger entry).seq }).setPst entry .banked 0 0
      if entry < 12 then s2.selfRefresh entry true else s2
    else s)

/-- TRIMMED_PERM_TIMER (R480). -/
def execTrimmedPermTimer (tile : Fin 12) (s : State) : R :=
  .next (
    let e := s.ledger tile
    if s.pwr.profile = .training ∧ s.pilotGrants = true ∧ s.up = true ∧ e.st = .trimmed ∧ e.perm = 0 ∧ s.rtTile tile = false then s.writeGrant tile e.ceil.toNat 1
    else s)

/-- A tile PLL that does not lock fences the tile's cores and codec engines (R490; 14 R504). -/
def State.tilePllFail (s : State) (k : Nat) : State :=
  ((s.post (pairPost .clockFault 0 0 3 k)).trace 0 8 3).fenceUnits
    ((List.range 8).map (fun j => FUnit.wick (8 * k + j)) ++ (List.range 4).map (fun j => FUnit.codec (4 * k + j))) 9 2

/-- TILE_WAKE_DONE (R479): requests are accepted. Without a lock the Pond controllers still serve, as in Trimmed. -/
def execTileWakeDone (tile : Fin 12) (lockOk : Bool) (s : State) : R :=
  .next (
    let e := s.ledger tile
    if e.st = .lit ∨ e.perm = 2 ∨ (lockOk = true ∧ e.perm = 1) ∨ s.up = false then s
    else
      let s1 := if e.st = .banked then s.selfRefresh tile false else s
      let s2 := s1.setPst tile (if lockOk then .lit else .trimmed) 0 0
      let s3 := if lockOk then s2 else s2.tilePllFail tile
      s3.rerun (fun x => x.why == .wake) .ok 0)

/-! ### Profiles (13 R480, R481) -/

/-- The values of a profile. -/
def State.loadProfile (s : State) (f : Profile) : State :=
  let tr := f == .training
  { s with
    pwr := { s.pwr with profile := f, packMs := if tr then 500 else 50, trimUs := if tr then 20 else 200, bankMs := if tr then 1000 else 10000,
                        w1 := if tr then 4 else 8, w2 := if tr then 8 else 4, w3 := if tr then 4 else 1 }
    pond := { s.pond with lat := if tr then 0x03E8032000C80190#64 else 0x0FA001E0014000A0#64 } }

/-- POWER_PROFILE. -/
def execPowerProfile (prog : Nat) (s : State) : R :=
  .next (s.control prog (isOp 0x2A)
    (fun _ w _ => if onlyBits w [uImm] = false then some dReserved else if 1 < (fImm w).toNat then some dReserved else none)
    (fun x w _ => s.guarded prog [(if s.isOwnerFn x.host then none else some (permErr 4 none)),
        (if s.pwr.switching.isSome then some { status := eBusy, detail := 0 } else none)]
      (let s1 := s.ctlWait prog
       { s1 with pwr := { s1.pwr with switching := some (prog, if fImm w = 1 then .training else .serving) } })))

/-- PROFILE_SWITCH_DONE: to Serving, the Pilot raises every tile to Lit allowed (R481). -/
def execProfileSwitchDone (s : State) : R :=
  .next (match s.pwr.switching with
    | none => s
    | some (p, f) =>
      let s1 := s.loadProfile f
      let s2 : State := { s1 with pwr := { s1.pwr with switching := none } }
      let s3 := if f = .serving ∧ s2.pilotGrants = true then
          (List.range 12).foldl (fun t k => if (t.ledger k).perm = 0 then t else t.writeGrant k (t.ledger k).ceil.toNat 0) s2
        else s2
      s3.okOn p (fun y => y))

/-! ### Temperatures (13 R482, R490) -/

/-- Good reads still wanted of a sensor that has failed, after one more read. -/
def State.sensor (s : State) (i : Nat) (good : Bool) : State :=
  { s with pwr := { s.pwr with badRead := if good then s.pwr.badRead.set i 0 (s.pwr.badRead.getD i 0 - 1) else s.pwr.badRead.put i 3 } }

/-- One chiplet junction: level 1 of its tiles, and the trip. -/
def State.junction (s : State) (c : Nat) (t : Option W16) : State :=
  let s1 := s.sensor c t.isSome
  match t with
  | none => s1
  | some v =>
    let hot := if 100 ≤ v.toInt then true else if v.toInt ≤ 95 then false else s.pwr.chipHot.contains c
    let rest := s.pwr.chipHot.filter (fun x => x != c)
    let s2 : State := { s1 with pwr := { s1.pwr with chipHot := if hot then c :: rest else rest, tjw := if c = 0 then v else s1.pwr.tjw,
                                                     tje := if c = 0 then s1.pwr.tje else v } }
    if 110 ≤ v.toInt ∧ s2.pwr.tripped = false then
      ({ s2 with pwr := { s2.pwr with tripped := true } }).post (pairPost .thermTrip 0 0 v.toNat c)
    else s2

/-- Inlet air. -/
def State.inletRead (s : State) (t : Option W16) : State :=
  match t with
  | none => s
  | some v =>
    let hot := if 40 ≤ v.toInt then true else if v.toInt ≤ 38 then false else s.pwr.inletHot
    let s1 : State := { s with pwr := { s.pwr with inlet := v, inletHot := hot } }
    if hot ∧ s.pwr.inletHot = false then s1.post (pairPost .thermInlet 0 0 v.toNat 40) else s1

/-- The limit of a channel group: 0 none, 1 halved, 2 stopped. -/
def nandLevel (old : Nat) (t : Int) : Nat :=
  if 85 ≤ t then 2 else if 80 < t ∧ old = 2 then 2 else if 75 ≤ t then 1 else if 70 < t ∧ old ≠ 0 then 1 else 0

/-- The hottest NAND die of a channel group; a failed sensor halves programs. -/
def State.nandRead (s : State) (g : Nat) (t : Option W16) : State :=
  let s1 := s.sensor (2 + g) t.isSome
  let old := s.pwr.nandLim.getD g 0
  let base := match t with
    | some v => nandLevel old v.toInt
    | none => old
  let lim := if s1.pwr.badRead.getD (2 + g) 0 ≠ 0 then max base 1 else base
  { s1 with pwr := { s1.pwr with nandLim := s1.pwr.nandLim.set g 0 lim, nandT := match t with
    | some v => s1.pwr.nandT.set g 0 v
    | none => s1.pwr.nandT } }

/-- THERMAL_READ. -/
def execThermalRead (tjw tje inlet nand0 nand1 nand2 nand3 : Option W16) (s : State) : R :=
  .next (
    if s.awake = false then s
    else
      let s1 := ((((s.nandRead 0 nand0).nandRead 1 nand1).nandRead 2 nand2).nandRead 3 nand3).inletRead inlet
      let s2 := ((s1.junction 0 tjw).junction 1 tje).countThr s
      if s2.pwr.tripped ∧ s.pwr.tripped = false then s2.duskTrigger 3 true else s2)

/-! ### Clocks (13 R475, R476, R490) -/

/-- RC_CALIBRATE. -/
def execRcCalibrate (factor : W16) (s : State) : R :=
  .next (if s.clk.crystalOk ∧ s.awake = true then { s with clk := { s.clk with rcAt := s.clk.ms, rcFactor := factor } } else s)

/-- CRYSTAL_FAIL: the timebase goes on from the calibrated RC. -/
def execCrystalFail (s : State) : R :=
  .next (
    let s1 : State := { s with clk := { s.clk with crystalOk := false } }
    if s.clk.crystalOk ∧ s.awake = true then (s1.post (pairPost .clockFault 0 0 0 0)).trace 0 8 0x600 else s1)

/-- FAST_REF_FAIL. -/
def execFastRefFail (ref : Fin 2) (s : State) : R :=
  .next (
    let ok := if ref = 0 then s.clk.ref0Ok else s.clk.ref1Ok
    if ok = false then s
    else
      let c := s.clk
      let s1 : State := { s with clk := { c with ref0Ok := c.ref0Ok && ref != 0, ref1Ok := c.ref1Ok && ref != 1,
                                                 refInUse := if c.refInUse = ref.val then 1 - ref.val else c.refInUse } }
      if s.awake = false then s1
      else
        let s2 := (s1.post (pairPost .clockFault 0 0 (1 + ref.val) ref.val)).trace 0 8 (1 + ref.val + (if s1.clk.ref0Ok ∨ s1.clk.ref1Ok then 0x600 else 0))
        if s2.clk.ref0Ok ∨ s2.clk.ref1Ok then s2
        else ((List.range 12).foldl (fun (t : State) k => t.selfRefresh k true) s2).askVigil 9)

/-- TILE_PLL_LOCK_FAIL. -/
def execTilePllLockFail (tile : Fin 12) (s : State) : R := .next (if s.awake then s.tilePllFail tile else s)

/-- STACK_PLL_LOCK_FAIL. -/
def execStackPllLockFail (stack : Fin 12) (s : State) : R :=
  .next (if s.awake then ((s.post (pairPost .clockFault 0 0 4 stack)).trace 0 8 4).fenceUnit (.stack stack) 9 2 else s)

end Sys2Proof.Machine
end

