-- ==== Sys2Proof/Machine/FenceC.lean ====
section
/-! DEFINITION. The commands of fences, the Event Ring, the service latch and the bridge (01 R40 to R43; 14 R500 to R519). -/

namespace Sys2Proof.Machine

/-! ### Fences -/

/-- A cause that a unit's own fence may carry: the table of R503 but for the bits loaded at start-up and the implied ones. -/
def causeOk (c : Byte) : Bool := decide (1 ≤ c.toNat ∧ c.toNat ≤ 0x0F) && c != 0x0D && c != 0x0E

/-- The units that fail with a shared part of one of them: both halves of a port with its RT stream buffer, every die on a channel with its
sequencer (R504). -/
def State.sharing (s : State) (u : FUnit) : List FUnit :=
  match u with
  | .half h => [.half h, .half (h ^^^ 1)]
  | .die d => .die d :: (((List.range s.id.variant.dies).map (fun i => 32 * (d / 32) + i)).filter (fun n => n != d)).map FUnit.die
  | v => [v]

/-- FENCE_SET (R502 to R508). A bit that is 1 stays 1 (01 R41). -/
def execFenceSet (bit : Fin 1584) (cause : Byte) (set : FenceBy) (s : State) : R :=
  .next (if s.awake = false ∨ causeOk cause = false ∨ set.setter = 3 then s
    else s.fenceUnits (if set.whole then s.sharing (unitOfBit bit) else [unitOfBit bit]) cause set.setter.toNat)

/-- FENCE_RECOVERY: the recovery of a unit ends; `lost` names what could not be read. During an activation it waits for the new firmware
(R518). -/
def execFenceRecovery (bit : Fin 1584) (lost : List Nat) (s : State) : R :=
  .next (if s.inPause then s else s.recover (unitOfBit bit) lost)

/-! ### Reading events (R500, R501) -/

/-- Index of the oldest record of the ring. -/
def State.oldestRec (s : State) : Nat := s.evt.prod - s.evt.ring.length

/-- Records at or after an index, with their own indices. -/
def State.recsFrom (s : State) (idx : Nat) : List (Nat × EvRec) :=
  (((List.range s.evt.ring.length).map (fun i => s.oldestRec + i)).zip s.evt.ring).filter (fun p => decide (idx ≤ p.1))

/-- The readable records of a function, in ring order. A damaged record is readable by every function (R520). -/
def State.readable (s : State) (h : HostId) : List (Nat × EvRec) :=
  (s.recsFrom (s.reader h).idx).filter (fun p => p.2.bad || s.mayRead h p.2)

/-- `AVAIL` of a function. -/
def State.avail (s : State) (h : HostId) : Nat := (s.readable h).length

/-- The read index after an acknowledgement of n records among l. -/
def ackIdx (l : List (Nat × EvRec)) (n prod idx : Nat) : Nat :=
  if l.length ≤ n then prod
  else if n = 0 then idx
  else match l[n - 1]? with
    | some p => p.1 + 1
    | none => idx

/-- A write of `KEVT_ACK`. -/
def State.ackWrite (s : State) (h : HostId) (value : W32) : State :=
  if s.barOpen h = false then s
  else
    let rd := s.reader h
    s.setReader h { rd with idx := ackIdx (s.readable h) (value.extractLsb' 0 12).toNat s.evt.prod rd.idx }

/-- KEVT_ACK_WRITE. -/
def execKevtAckWrite (host : HostId) (value : W32) (s : State) : R := .next (s.ackWrite host value)

/-- KEVT_LOST_READ: the read clears the count. -/
def execKevtLostRead (host : HostId) (s : State) : R :=
  .next (if s.barOpen host = false then s
    else
      let rd := s.reader host
      (s.setReader host { rd with lost := 0 }).send (.regValue (rd.lost.setWidth 64)))

/-- Vector 0 of a function, held back while its spacing runs. -/
def State.vector0 (s : State) (h : HostId) : State :=
  let rd := s.reader h
  if rd.spacing then s.setReader h { rd with heldSig := true } else (s.setReader h { rd with spacing := true }).signal h 0

/-- A write of `KEVT_CTL`: a reserved `MINSEV` leaves the field as it is (00 R16). -/
def State.ctlWrite (s : State) (h : HostId) (value : W32) : State :=
  if s.barOpen h = false then s
  else
    let rd := s.reader h
    let m := value.extractLsb' 0 3
    let on := value.getLsbD 3
    let s1 := s.setReader h { rd with minsev := if 5 < m.toNat then rd.minsev else m, notify := on }
    if on ∧ rd.notify = false ∧ s1.avail h ≠ 0 then s1.vector0 h else s1

/-- KEVT_CTL_WRITE. -/
def execKevtCtlWrite (host : HostId) (value : W32) (s : State) : R := .next (s.ctlWrite host value)

/-- EVENT_VECTOR_SPACING: 10 µs have passed since the last signal. -/
def execEventVectorSpacing (host : HostId) (s : State) : R :=
  .next (
    let rd := s.reader host
    if rd.spacing = false then s
    else if rd.heldSig then (s.setReader host { rd with heldSig := false }).signal host 0
    else s.setReader host { rd with spacing := false })

/-! ### The service latch (R517) -/

/-- Whether the sled is safe to remove. -/
def State.safeNow (s : State) : Bool :=
  s.up && s.rt.ent.all (fun p => p.2.st == .freed) && s.rt.windows == [] && s.dirty == 0

/-- SAFE_TO_REMOVE posts when it comes to hold. -/
def State.safeUpdate (s : State) : State :=
  let now := s.safeNow
  let s1 : State := { s with sled := { s.sled with safe := now } }
  if now ∧ s.sled.safe = false then s1.post { ev := .safeToRemove } else s1

/-- LATCH_OPEN: Dusk flush, or the power-off of 13 R492 of a sled that is safe to remove. -/
def execLatchOpen (s : State) : R :=
  .next (
    if s.sled.latchOpen then s
    else
      let safe := s.safeNow
      let s1 : State := { s with sled := { s.sled with latchOpen := true } }
      (s1.post (pairPost .latchOpen 0 0 (if safe then 1 else 0) 0)).duskTrigger (if safe then 4 else 5) true)

/-! ### The bridge (R519) -/

/-- BRIDGE_LINK_FAIL. -/
def execBridgeLinkFail (s : State) : R :=
  .next (
    let n := s.sled.bridge - 1
    if s.awake = false ∨ s.sled.bridge = 0 then s
    else
      let s1 : State := { s with sled := { s.sled with bridge := n } }
      let s2 := (s1.post (pairPost .bridgeLink 0 0 n 8)).advise 5
      if n = 0 then s2.askVigil 0x0A
      else if 5 ≤ n ∨ s.sled.bridgeLost = true then s2
      else
        let s3 : State := { s2 with sled := { s2.sled with bridgeLost := true } }
        (s3.post (pairPost .bridgeLost 0 0 n 8)).duskTrigger 6 true)

end Sys2Proof.Machine
end

