-- ==== Sys2Proof/Machine/WdC.lean ====
section
/-! DEFINITION. The watchdogs, the escalation ladder, warm restart and VIGIL commands, and the RESET button (15 R523 to R555). -/

namespace Sys2Proof.Machine

/-! ### Trips and the ladder (R533 to R537, R552, R554) -/

/-- Trips within the last hour, among the times of trips in ms. -/
def triesOf (now : Nat) (times : List Nat) : Nat := (times.filter (fun t => decide (now < t + 3600000))).length

/-- The ladder (R533). -/
def ladder (n tries : Nat) : Nat := if n ≤ tries then 3 else if tries = 1 then 1 else 2

/-- What a trip leads to. -/
inductive Rung
  /-- counted, no new action: a Keep flush or warm restart is under way (R552). -/
  | counted
  /-- as `counted`, and VIGIL entry replaces the rest of the restart. -/
  | later
  | stage (n : Nat)
deriving DecidableEq, Repr

/-- The number of a stage taken, for WD_TRIP. -/
def Rung.num : Rung → Nat
  | .counted => 0
  | .later => 3
  | .stage n => n

/-- The stage a trip takes in the present state, from the stage the ladder gives (R552). -/
def State.stageFor (s : State) (base : Nat) : Rung :=
  match s.sled.flush with
  | some (.dusk _) => .stage 1
  | some (.restart _) => if base = 3 then .later else .counted
  | _ =>
    if s.sled.st = .vigil then .stage 1
    else if s.sled.st = .boot ∧ s.sled.warm = true then (if base = 3 then .stage 3 else .counted)
    else .stage base

/-- Ladder stages 2 and 3 during probation: the next boot returns to PREVIOUS (17 R589 cause 2). -/
def State.markFallback (s : State) : State :=
  if (s.fw.inState .probation).isSome then { s with fw := { s.fw with fallback := true, dseq := s.fw.dseq + 1 } } else s

/-- Stages 2 and 3, with the VIGIL cause of stage 3. A warm restart whose Keep flush no Lantern can run is VIGIL entry (R554). -/
def State.ladderUp (s : State) (x : Rung) (cause : Nat) : State :=
  match x with
  | .counted => s
  | .later => s.markFallback.askVigil cause
  | .stage 2 => if s.up && s.noLantern then s.markFallback.askVigil cause else s.markFallback.askRestart 1
  | .stage 3 => s.markFallback.askVigil cause
  | .stage _ => s

/-- An engine watchdog. -/
def State.wde (s : State) (n : Nat) : Wde := s.wd.wde.getD n (Wde.reset 500)

/-- Writes an engine watchdog. -/
def State.setWde (s : State) (n : Nat) (w : Wde) : State := { s with wd := { s.wd with wde := s.wd.wde.put n w } }

/-- Stage 1 of an engine watchdog: its Lantern or the eight cores of its group restart (R536). -/
def State.restartUnit (s : State) (n : Nat) : State :=
  let s1 := (s.setWde n { s.wde n with restart := true }).traceReset (if n < 4 then 3 else 4)
  if n < 4 then
    let s2 := s1.endOn (256 + n) eTimeout 0
    { s2 with lamp := { s2.lamp with sch := s2.lamp.sch.map (fun p => if p.2.armed ∧ s2.lanternOf p.2.lregion = n then (p.1, { p.2 with orphan := true }) else p) } }
  else (List.range 8).foldl (fun t i => t.endOn (8 * (n - 4) + i) eTimeout 0) s1

/-- A trip of an engine watchdog; `least` is the lowest stage it may take. A stage that a restarting Pilot would carry out is the next one up
(R554). -/
def State.tripWde (s : State) (n least : Nat) : State :=
  let w := s.wde n
  let times := w.times ++ [s.clk.ms]
  let tries := triesOf s.clk.ms times
  let s1 := s.setWde n { w with times := times, trips := satInc w.trips, elapsed := 0 }
  let base0 := max least (ladder s.wd.ntries.toNat tries)
  let base := if base0 = 2 ∧ s.wd.pilotRestart = true then 3 else base0
  let x := s1.stageFor base
  let s2 := s1.post (pairPost .wdTrip (if n < 4 then 6 else 13) (if n < 4 then n else n - 4) x.num tries)
  if x = .stage 1 then s2.restartUnit n else s2.ladderUp x (if n < 4 then 2 else 3)

/-- A trip of the Pilot watchdog: it posts no record (R535). -/
def State.tripWdp (s : State) (last : BitVec 2) : State :=
  let times := s.wd.times ++ [s.clk.ms]
  let tries := triesOf s.clk.ms times
  let s1 : State := { s with wd := { s.wd with times := times, trips := satInc s.wd.trips, last := last, elapsed := 0, half := false, warn := false } }
  let x := s1.stageFor (ladder s.wd.ntries.toNat tries)
  if x = .stage 1 then ({ s1 with wd := { s1.wd with pilotRestart := true } }).traceReset 2 else s1.ladderUp x 1

/-! ### The Pilot watchdog (R523 to R526, R553) -/

/-- `WDP` timeout in ms, and its early warning. -/
def wdpMs (tout : BitVec 4) : Nat := 125 * 2 ^ tout.toNat / 2
def warnMs (tout : BitVec 4) : Nat := 375 * 2 ^ tout.toNat / 8

/-- Whether the Pilot runs firmware: not in its boot ROM, and not stalled. -/
def State.pilotRuns (s : State) : Bool :=
  s.awake && s.sled.st != .dead && !s.wd.pilotRestart && !s.inPause && (s.sled.st != .boot || s.sled.boot == .selfTest)

/-- WDP_START: a write of `WDP_CFG` by the Pilot. -/
def execWdpStart (cfg : W32) (s : State) : R :=
  .next (
    if s.pilotRuns = false ∨ s.wd.run = true then s
    else
      let t := cfg.extractLsb' 0 4
      let tout := if 9 < t.toNat then s.wd.tout else t
      { s with wd := { s.wd with tout := tout, run := cfg.getLsbD 4, elapsed := 0 } })

/-- WDP_SERVICE: a write of `WDP_SVC` by the Pilot (R524). A completed service ends the hold of an activation (R534). -/
def execWdpService (key : W32) (s : State) : R :=
  .next (
    if s.pilotRuns = false then s
    else
      let s1 : State := if s.wd.run then s else { s with wd := { s.wd with run := true, elapsed := 0 } }
      let k := key.extractLsb' 0 16
      if k = 0x6C61 ∧ s1.wd.half = false then { s1 with wd := { s1.wd with half := true } }
      else if k = 0x6D70 ∧ s1.wd.half = true then
        { s1 with wd := { s1.wd with half := false, warn := false, elapsed := 0, held := false,
                                     wde := if s1.wd.held then s1.wd.wde.map (fun p => if p.1 < 4 then (p.1, { p.2 with elapsed := 0 }) else p) else s1.wd.wde } }
      else ({ s1 with wd := { s1.wd with badsvc := satInc s1.wd.badsvc } }).tripWdp 2)

/-- Whether the Pilot watchdog counts. -/
def State.wdpCounts (s : State) : Bool :=
  s.wd.run && s.awake && s.sled.st != .dead && !s.wd.held && !s.wd.pilotRestart && !s.inPause && (s.sled.st != .boot || s.sled.boot == .selfTest)

/-- WDP_EARLY_WARNING (R525). -/
def execWdpEarlyWarning (s : State) : R :=
  .next (if s.wdpCounts = false ∨ s.wd.warn = true then s
    else ({ s with wd := { s.wd with warn := true } }).post (pairPost .wdpWarn 14 0 (warnMs s.wd.tout) (wdpMs s.wd.tout)))

/-- WDP_TIMEOUT. -/
def execWdpTimeout (s : State) : R := .next (if s.wdpCounts then s.tripWdp 1 else s)

/-- WDP_OSC_FAIL: the count goes on from the 4 MHz clock (R553). -/
def execWdpOscFail (s : State) : R := .next (if s.awake ∧ s.wd.oscfail = false then ({ s with wd := { s.wd with oscfail := true } }).trace 0 8 0x605 else s)

/-! ### The engine watchdogs (R527 to R532) -/

/-- Whether an engine watchdog pauses (R528, R552). -/
def State.wdePaused (s : State) (n : Nat) : Bool :=
  let w := s.wde n
  w.restart || s.sled.st == .vigil || s.sled.st == .off || s.sled.st == .dead ||
  (if n < 4 then (s.ledger 20).st == .banked || s.wd.held || s.inPause || s.fenced (.lantern n)
   else
    let k := n - 4
    let ps := s.q.progs.filter (fun p => p.2.core / 8 == k && decide (p.2.core < 96))
    ps == [] || ps.all (fun p => match p.2.wait with
      | .beat _ _ _ => true
      | _ => false) ||
    (s.ledger k).perm != 0 || s.pwr.thr.getD k 0 == 2)

/-- Whether it counts. -/
def State.wdeCounts (s : State) (n : Nat) : Bool := (s.wde n).en && !s.wdePaused n

/-- A write of `WDE_SVC` restarts the disable sequence (R530); a wrong key trips the watchdog. -/
def State.wdeSvc (s : State) (n : Nat) (key : W32) : State :=
  if s.awake = false ∨ s.sled.st = .dead then s
  else
    let w := s.wde n
    if key.extractLsb' 0 16 = 0xC4D1 then s.setWde n { w with elapsed := 0, dis := 0 }
    else
      let s1 := s.setWde n { w with badsvc := satInc w.badsvc, dis := 0 }
      if w.en = false ∨ s.sled.st = .vigil then s1 else s1.tripWde n 1

/-- WDE_SERVICE. -/
def execWdeService (n : Fin 16) (key : W32) (s : State) : R := .next (s.wdeSvc n key)

/-- WDE_TIMEOUT. -/
def execWdeTimeout (n : Fin 16) (s : State) : R := .next (if s.wdeCounts n then s.tripWde n 1 else s)

/-- WDE_CLOCK_MONITOR (R529). -/
def execWdeClockMonitor (n : Fin 16) (s : State) : R :=
  .next (if s.wdeCounts n then (s.setWde n { s.wde n with clkfail := true }).tripWde n 1 else s)

/-- A write of `WDE_DIS` (R530). A wrong write that is the first key begins the sequence again. -/
def State.wdeDis (s : State) (n : Nat) (key : W32) : State :=
  let w := s.wde n
  let k := key.extractLsb' 0 16
  if w.lock ∨ s.awake = false then s
  else if w.dis = 0 ∧ k = 0x3A5C then s.setWde n { w with dis := 1 }
  else if w.dis = 1 ∧ k = 0x0FF1 then s.setWde n { w with dis := 2 }
  else if w.dis = 2 ∧ k = 0xD15A then s.setWde n { w with dis := 0, en := false }
  else s.setWde n { w with dis := if k = 0x3A5C then 1 else 0 }

/-- WDE_DISABLE_KEY. -/
def execWdeDisableKey (n : Fin 16) (key : W32) (s : State) : R := .next (s.wdeDis n key)

/-- A write of `WDE_CFG` (R551): `TOUT` and `CLKSEL` while unlocked; `EN` and `LOCK` by writing 1. -/
def State.writeWdeCfg (s : State) (n : Nat) (cfg : W32) : State :=
  let w := s.wde n
  let t := cfg.extractLsb' 0 16
  let w1 := if w.lock then w else { w with tout := if t = 0 then w.tout else t, clksel := cfg.getLsbD 16 }
  let w2 := if cfg.getLsbD 17 ∧ w1.en = false then { w1 with en := true, elapsed := 0 } else w1
  s.setWde n (if cfg.getLsbD 18 then { w2 with lock := true } else w2)

/-- WDE_ENABLE. -/
def execWdeEnable (n : Fin 16) (cfg : W32) (s : State) : R := .next (if cfg.getLsbD 17 ∧ s.awake = true then s.writeWdeCfg n cfg else s)

/-- WDE_LOCK. -/
def execWdeLock (n : Fin 16) (cfg : W32) (s : State) : R := .next (if cfg.getLsbD 18 ∧ s.awake = true then s.writeWdeCfg n cfg else s)

/-- DISPATCHER_STALL: the lowest Lantern in service declares it, at stage 2 or above (R532). -/
def execDispatcherStall (s : State) : R :=
  .next (match (List.range 4).find? (fun n => !s.fenced (.lantern n)) with
    | some n => if s.up then s.tripWde n 2 else s
    | none => s)

/-- One ms of every count (R525 to R528). -/
def State.wdTick (s : State) : State :=
  let w := s.wd
  { s with wd := { w with
      elapsed := if s.wdpCounts then w.elapsed + 1 else if w.held then 0 else w.elapsed
      wde := w.wde.map (fun p => if s.wdeCounts p.1 then (p.1, { p.2 with elapsed := p.2.elapsed + 1 }) else p) } }

/-! ### Restarts and VIGIL (R536 to R541) -/

/-- The power-off of 13 R492, by state: in VIGIL it runs no flush (R541). -/
def State.powerOffNow (s : State) : State :=
  if s.sled.st = .vigil then
    (if s.sled.flush.isSome then { s with sled := { s.sled with offNext := true } } else
      let s1 := s.powerDown s.inputOn s.sled.startFault
      { s1 with sled := { s1.sled with stayOff := true } })
  else s.duskTrigger 4 true

/-- The Pilot is back: a flush that waited for it starts (01 R49; 15 R536). -/
def State.pilotBack (s : State) : State :=
  let s1 : State := { s with wd := { s.wd with pilotRestart := false, elapsed := 0, half := false } }
  match s1.sled.flush with
  | some (.dusk t) => if s1.sled.flushCmd then s1 else s1.commandFlush t
  | _ => s1

/-- UNIT_RESTART_DONE: 0 to 15 an engine watchdog's unit, 16 the Pilot; `failed` lists cores of a group that failed their self-test, and
is not empty for a Lantern or a Pilot that failed. An entry that the Lantern left odd is rolled back (01 R50). -/
def execUnitRestartDone (n : Fin 17) (failed : List Nat) (s : State) : R :=
  .next (
    if n.val = 16 then
      if s.wd.pilotRestart = false then s
      else if failed = [] then s.pilotBack
      else ({ s with wd := { s.wd with pilotRestart := false } }).powerOffNow
    else if (s.wde n).restart = false then s
    else
      let s1 := s.setWde n { s.wde n with restart := false, elapsed := 0 }
      if n.val < 4 then
        let s2 := (s.rt.stalled.filter (fun x => s.lanternOf x.region == n.val)).foldl State.rollbackEnd s1
        if failed = [] then s2.adopt (n.val / 2) 0 else s2.fenceUnit (.lantern n) 7 0
      else (failed.filter (fun i => decide (i < 8))).foldl (fun t i => t.fenceUnit (.wick (8 * (n.val - 4) + i)) 7 0) s1)

/-- KEEP_FLUSH_DONE: the flush of a warm restart or of VIGIL entry ends (R537, R539, R552; 16 R568). -/
def execKeepFlushDone (s : State) : R :=
  .next (match s.sled.flush with
    | some (.restart rc) =>
      let s1 := s.flushKeep
      if s1.sled.offNext then s1.powerDown s1.inputOn s1.sled.startFault
      else match s1.sled.vigilNext with
        | some c => s1.enterVigil c
        | none => s1.restart rc
    | some .vigil =>
      let s1 := s.flushKeep
      if s1.sled.offNext then s1.powerDown s1.inputOn s1.sled.startFault else s1.vigilSettle
    | _ => s)

/-! ### Management commands: who may give them (18 R603 to R613) -/

/-- Whether a way in exists: the bus, also in Dark; a half in L0; an open session. -/
def State.viaOpen (s : State) (v : Via) : Bool :=
  match v with
  | .bus => s.awake || s.sled.dark
  | .vdm => (List.range 16).any (fun h => (s.halfReg h).link.toNat == 2)
  | .session n => s.mgt.sess.any (fun p => p.1 == n && p.2.finished)

/-- Whether a command marked Owner is accepted (R613). -/
def State.viaOwner (s : State) (v : Via) : Bool :=
  match s.mgt.root, v with
  | none, .bus => true
  | some _, .session n => s.mgt.sess.any (fun p => p.1 == n && p.2.finished && p.2.owner)
  | _, _ => false

/-- `GSTAT` codes (R605). -/
def gOk : Nat := 0
def gBadArg : Nat := 1
def gNeedOwner : Nat := 2
def gState : Nat := 3
def gLocked : Nat := 4
def gBusy : Nat := 5
def gUnsupported : Nat := 6
def gRefused : Nat := 7

/-- Answers on the management port. -/
def State.mgmt (s : State) (code : Nat) (words : List W64) : State := s.send (.mgmt code words)

/-- A management command that the present state accepts or not: STATE where it does not, and no answer in Dark (R606). -/
def State.mgmtIn (s : State) (v : Via) (accepts : Bool) (f : State) : State :=
  if s.viaOpen v = false then s
  else if accepts then f
  else if s.awake then s.mgmt gState [] else s

/-- A Galben command that the Pilot serves (18 R629 to R631): before its firmware runs a power-on start leaves it unanswered; a stalled Pilot's
island answers BUSY; an activation pause holds it, four at most (R609). -/
def State.asks (s : State) (v : Via) (c : Instr) (f : State) : State :=
  if s.awake = false ∨ s.sled.st = .dead then f
  else if s.viaOpen v = false then s
  else if s.sled.st = .boot ∧ s.sled.boot ≠ .selfTest then (if s.sled.warm then s.mgmt gBusy [] else s)
  else if s.inPause then
    (if s.mgt.held.length < 4 then { s with mgt := { s.mgt with held := s.mgt.held ++ [c] } } else s.mgmt gBusy [])
  else if s.wd.pilotRestart then s.mgmt gBusy []
  else f

/-- A command marked Owner. -/
def State.mgmtOwner (s : State) (v : Via) (accepts : Bool) (f : State) : State :=
  s.mgmtIn v accepts (if s.viaOwner v then f else s.mgmt gNeedOwner [])

/-- WARM_RESTART (R547). One that comes during VIGIL entry runs when its flush ends. -/
def execWarmRestart (via : Via) (s : State) : R :=
  .next (s.asks via (.warmRestart via) (s.mgmtOwner via (s.up || s.sled.st == .boot || s.sled.st == .train || s.sled.st == .vigil)
    (let s1 := s.mgmt gOk []
     if s1.sled.st = .vigil ∧ s1.sled.vigilDone = false then { s1 with sled := { s1.sled with flush := some (.restart 3) } }
     else s1.askRestart 3)))

/-- ENTER_VIGIL. -/
def execEnterVigil (via : Via) (s : State) : R :=
  .next (s.asks via (.enterVigil via) (s.mgmtOwner via (s.up || s.sled.st == .boot || s.sled.st == .train) ((s.mgmt gOk []).askVigil 5)))

/-- CLEAR_TRIES (R533). -/
def execClearTries (via : Via) (s : State) : R :=
  .next (s.asks via (.clearTries via) (s.mgmtOwner via (s.awake && s.sled.st != .dead)
    (let s1 := s.mgmt gOk []
     { s1 with wd := { s1.wd with times := [], wde := s1.wd.wde.map (fun p => (p.1, { p.2 with times := [] })) } })))

/-- POWER_OFF (13 R492). -/
def execPowerOff (via : Via) (s : State) : R :=
  .next (s.asks via (.powerOff via) (s.mgmtOwner via (s.awake && s.sled.st != .dead) (s.mgmt gOk []).powerOffNow))

/-! ### The RESET button (R543 to R545) -/

/-- RESET_BUTTON_PRESS: debounced, it is timed from here. -/
def execResetButtonPress (s : State) : R :=
  .next (if s.wd.btn ≠ 0 then s else { s with wd := { s.wd with btn := 1, pressAt := s.clk.ms, pressed10 := false } })

/-- A press is classed: RESET_PRESS posts. -/
def State.classed (s : State) (ms cls : Nat) : State :=
  ({ s with wd := { s.wd with press := BitVec.ofNat 16 (ms / 10), cls := BitVec.ofNat 2 cls } }).post (pairPost .resetPress 0 0 ms cls)

/-- RESET_BUTTON_RELEASE: classes 0 and 1 are decided here. A release during a warm restart or VIGIL entry has no other effect (R552). -/
def execResetButtonRelease (ms : Nat) (s : State) : R :=
  .next (
    if s.wd.btn ≠ 1 then s
    else
      let s1 : State := { s with wd := { s.wd with btn := 0, pressed10 := false } }
      if ms < 20 ∨ s.awake = false then s1
      else if s.wd.pressed10 then { s1 with wd := { s1.wd with press := BitVec.ofNat 16 (ms / 10) } }
      else if 10000 ≤ ms then s1
      else
        let cls := if ms < 2000 then 0 else 1
        let s2 := s1.classed ms cls
        if cls = 0 ∨ s2.sled.st = .duskFlush ∨ (s2.sled.st = .boot ∧ s2.sled.warm = true) then s2 else s2.askRestart 2)

/-- RESET_BUTTON_10S: class 2. -/
def execResetButton10s (s : State) : R :=
  .next (
    if s.wd.btn ≠ 1 ∨ s.wd.pressed10 = true ∨ s.awake = false then s
    else (({ s with wd := { s.wd with pressed10 := true } }).classed 10000 2).askVigil 4)

/-- The button becomes faulty (R544). -/
def State.buttonFaulty (s : State) (ms : Nat) : State :=
  (({ s with wd := { s.wd with btn := 2, pressed10 := false } }).classed ms 3).post { ev := .resetFaulty }

/-- RESET_FAULTY: the 60 s mark. -/
def execResetFaulty (s : State) : R := .next (if s.wd.btn ≠ 1 ∨ s.awake = false then s else s.buttonFaulty 60000)

/-- RESET_BUTTON_RESTORED: a faulty button has been seen released for 1 s. -/
def execResetButtonRestored (s : State) : R := .next (if s.wd.btn = 2 then { s with wd := { s.wd with btn := 0 } } else s)

/-- What the amber LED on the front shows (R546). -/
inductive Amber
  | off
  | blink4   -- 4 Hz
  | blink1   -- 1 Hz
  | steady
deriving DecidableEq, Repr

/-- The amber LED, in every state but OFF: steady in DEAD (17 R595), 1 Hz throughout VIGIL, else 4 Hz from the 2 s mark of a press until its release or
its 10 s mark. DEDUCED (assumption log 70): in VIGIL a press does not change the 1 Hz. -/
def State.amber (s : State) : Amber :=
  let held := s.clk.ms - s.wd.pressAt
  match s.sled.st with
  | .off => .off
  | .dead => .steady
  | .vigil => .blink1
  | _ => if s.wd.btn = 1 ∧ s.wd.pressed10 = false ∧ 2000 ≤ held ∧ held < 10000 then .blink4 else .off

/-- The front blue LED: the sled is safe to remove (14 R517). -/
def State.blue (s : State) : Bool := s.sled.safe

end Sys2Proof.Machine
end

