-- ==== Sys2Proof/Machine/Regs.lean ====
section
/-! DEFINITION. The sled-global space: every register of the index, its read value, what a write does, and the fields that the settings store
keeps (19 R632 to R651; 07 R306 to R308; 04 R169 to R173; 05 R221 to R224; 13 R484 to R488; 14 R502; 15 R548 to R551; 17 R596 to R598; 18
R627, R628). -/

namespace Sys2Proof.Machine

/-! ### Fields -/

/-- A register value from its fields: place and value. -/
def pack (l : List (Nat × Nat)) : W64 := BitVec.ofNat 64 ((l.map (fun p => p.2 * 2 ^ p.1)).sum)

/-- A Bool as a bit. -/
def bit (b : Bool) : Nat := if b then 1 else 0

/-- A field of a word. -/
def fld (v : W64) (lo w : Nat) : Nat := (v.extractLsb' lo w).toNat

/-- Saturates at a width. -/
def sat (w n : Nat) : Nat := min n (2 ^ w - 1)

/-- The low half of a slot as a 32-bit register. -/
def low32 (v : W64) : W32 := v.setWidth 32

/-- A field write under 00 R11 and R16: the new value where it is legal, else the field stays. -/
def fieldOr (new old : W64) (lo w : Nat) (ok : Nat → Bool) : Nat := if ok (fld new lo w) then fld new lo w else fld old lo w

/-! ### Reads -/

/-- `KDEV_PORT`. -/
def Port.word (p : Port) : W64 :=
  pack [(0, bit p.bifurc), (1, bit p.perstEn), (2, bit p.modeA), (3, bit p.modeB), (4, p.tags.toNat), (16, p.l1Idle.toNat), (26, bit p.l0pEn), (27, bit p.ideReq)]

/-- `KDEV_PSTAT` (R641: zero for a half that does not exist or was never trained). -/
def State.pstatWord (s : State) (h : Nat) : W64 :=
  let x := s.halfReg h
  if s.halfExists h = false ∨ x.trained = false then 0
  else pack [(0, x.link.toNat), (4, x.width.toNat), (7, x.speed.toNat), (10, x.flit.toNat), (12, bit x.ide), (13, bit x.hold), (16, x.linkdown.toNat),
             (32, x.persts.toNat), (48, x.resets.toNat)]

/-- `KDEV_BIND`. -/
def Bind.word (b : Bind) : W64 := pack [(0, bit b.valid), (1, b.half.toNat), (5, b.func.toNat), (13, b.spid.toNat), (25, bit b.owner)]

/-- `KEVT_FMAPi`. -/
def State.fmapWord (s : State) (i : Nat) : W64 :=
  pack ((s.evt.fmap.filter (fun p => p.1 / 64 == i)).map (fun p => (p.1 % 64, 1)))

/-- `KPWR_STAT` (13 R485). -/
def State.pwrStat (s : State) : W64 :=
  pack [(0, s.pstate), (2, bit (s.pwr.profile == .training)), (3, bit s.pwr.switching.isSome), (4, bit s.pwr.sag), (5, bit (s.sled.st == .duskFlush)),
        (16, s.pwr.vin.toNat), (32, s.pwr.pin.toNat), (48, s.pwr.iin.toNat)]

/-- `HU_STATE` (13 R486). -/
def State.huState (s : State) : Nat :=
  if s.pwr.failed ∨ (s.pwr.full = true ∧ s.pwr.budget = 0 ∧ s.hasLake = true ∧ s.budgetMax ≠ 0) then 4
  else if s.pwr.measuring.isSome then 2 else if s.pwr.full = false then 0 else if s.pwr.weak then 3 else 1

/-- `KPWR_HOLDUP0`, `KPWR_HOLDUP1`. -/
def State.holdup0 (s : State) : W64 :=
  pack [(0, sat 13 s.pwr.eMeas), (13, sat 13 s.pwr.eNow), (26, s.pwr.budget), (34, sat 18 (s.dirty / 2 ^ 20)), (52, s.huState), (55, s.pwr.wb)]
def State.holdup1 (s : State) : W64 :=
  pack [(0, sat 12 s.flushJ), (12, sat 18 (s.commitment / 2 ^ 20)), (30, sat 18 (s.pwr.admission / 2 ^ 20)), (48, s.pwr.overadmit.toNat)]

/-- Airflow needed for the present draw, in 0.01 m³/min (13 R483). -/
def State.airReq (s : State) : Nat := 60 + s.pwr.pin.toNat * 300 / 10000

/-- `KPWR_THERM`. -/
def State.thermWord (s : State) : W64 :=
  pack ((List.range 12).map (fun k => (2 * k, s.tileThr k)) ++
        [(24, s.pwr.tjw.toNat % 256), (32, s.pwr.tje.toNat % 256), (40, s.pwr.inlet.toNat % 256), (48, s.airReq)])

/-- `KPWR_CNT`. -/
def State.pwrCnt (s : State) : W64 :=
  pack [(0, s.pwr.rides.toNat), (16, s.pwr.dusks.toNat), (32, s.pwr.forced.toNat), (48, s.pwr.throttles.toNat)]

/-- A grant word and a request slot (13 R468, R469). -/
def Entry.grantWord (e : Entry) : W64 := pack [(0, e.ceil.toNat), (16, e.perm.toNat), (24, e.seq.toNat), (32, bit e.rtf)]
def Entry.reqWord (e : Entry) : W64 := pack [(0, e.rceil.toNat), (16, e.rperm.toNat), (24, e.ack.toNat), (32, e.draw.toNat)]

/-- `PND_CTL`, `PND_STAT`, `PND_CE`, `PND_ERR` (04 R169, R170, R173). -/
def Pch.ctlWord (p : Pch) : W64 := pack [(0, bit p.refMode), (8, p.pdTimer.toNat)]
def State.pndStat (s : State) (n : Nat) : W64 :=
  let p := s.pch n
  let svc := if s.pchFenced n then 3 else if p.training then 2 else if p.svc then 1 else 0
  let st := s.stk (n / 32)
  pack [(0, svc), (2, bit (st.hot || st.lost)), (3, bit (s.pchPanic n)), (4, (p.debt.map (fun x => x.2)).foldl max 0), (7, bit (s.pdHeld n)),
        (8, p.tTrain.toNat), (16, p.cause.toNat), (19, if p.steady then (Sys2Proof.Config.refPhase s.q.freeNo n).toNat % 1950 else 0), (32, p.trainCnt.toNat)]
def Pch.ceWord (p : Pch) : W64 := pack [(0, p.ce1.toNat), (32, p.ce23.toNat)]

/-- `ODE`: what the stack has reported on its severity pins since power-on, saturating (04 R163, R173). -/
def State.onDie (s : State) (n : Nat) : Nat :=
  min (2 ^ 32 - 1) (((List.range (s.clk.ms - s.pond.odeFrom)).map (fun i => (Sys2Proof.Config.onDie n (s.pond.odeFrom + i)).toNat)).sum)

def State.errWord (s : State) (n : Nat) : W64 := pack [(0, (s.pch n).ue.toNat), (16, (s.pch n).capar.toNat), (32, s.onDie n)]

/-- `PND_ROWLOGr`. -/
def Pch.rowWord (p : Pch) (r : Nat) : W64 :=
  match p.rowlog[r]? with
  | some x => pack [(0, x.row.toNat), (15, x.slot.toNat), (24, x.count.toNat), (32, x.age.toNat)]
  | none => 0

/-- One slot of a `PND_` frame. -/
def State.pndRead (s : State) (n off : Nat) : W64 :=
  if off = 0 then (s.pch n).ctlWord
  else if off = 8 then s.pndStat n
  else if off = 0x10 then (s.pch n).ceWord
  else if off = 0x18 then s.errWord n
  else if 0x20 ≤ off ∧ off < 0xA0 then (s.pch n).rowWord ((off - 0x20) / 8)
  else 0

/-- `PND_TEMP`. -/
def Stk.word (x : Stk) : W64 := pack [(0, x.tNow.toNat % 256), (8, bit x.valid), (16, x.tMax.toNat % 256)]

/-- The sled-wide `PND_` slots. -/
def State.pndWide (s : State) (a : Nat) : W64 :=
  let p := s.pond
  if a = 0x58000 then p.lat
  else if a = 0x58008 then p.panicReg.setWidth 64
  else if a = 0x58010 then p.errctl.setWidth 64
  else if a = 0x58018 then pack [(0, p.missHost.toNat), (16, p.missWick.toNat)]
  else if a = 0x58020 then pack [(0, p.missCodec.toNat), (16, p.missMove.toNat)]
  else if a = 0x58028 then pack [(0, p.asserts.toNat), (32, p.forced.toNat)]
  else if 0x58100 ≤ a ∧ a < 0x58160 then (s.stk ((a - 0x58100) / 8)).word
  else if 0x58200 ≤ a ∧ a < 0x58500 then
    let c := (a - 0x58200) / 8
    pack [(0, (p.sprCe.getD c 0).toNat), (32, (p.sprUe.getD c 0).toNat)]
  else 0

/-- The `LAK_` slots: zero on K9-P and until the mount completes. -/
def State.lakRead (s : State) (a : Nat) : W64 :=
  let l := s.lake
  if s.hasLake = false ∨ l.mounted = false then 0
  else if a = 0x80000 then
    pack [(0, l.wear.code), (8, sat 10 s.sparePm), (18, sat 10 s.lastPm), (32, sat 13 s.peMean), (45, sat 13 l.peMax)]
  else if a = 0x80008 then pack [(0, 3000), (16, sat 10 s.diesIn), (32, sat 32 l.retired)]
  else if a = 0x80010 then pack [(0, sat 16 s.freeSb), (16, bit l.urgent), (17, bit (l.duskUsed == 0)), (32, s.duskLeft / 2 ^ 26)]
  else if a = 0x80018 then l.ctl.setWidth 64
  else if a = 0x80020 then l.hostPg
  else if a = 0x80028 then l.nandPg
  else if a = 0x80030 then pack [(0, l.retry.toNat), (32, l.recon.toNat)]
  else if a = 0x80038 then pack [(0, l.rdReloc.toNat), (16, l.patReloc.toNat), (32, l.progFail.toNat), (48, l.eraseFail.toNat)]
  else 0

/-- The `WDP_` slots. -/
def State.wdpRead (s : State) (a : Nat) : W64 :=
  let w := s.wd
  let now := s.clk.ms
  if a = 0x90000 then pack [(0, w.tout.toNat), (4, bit w.run)]
  else if a = 0x90010 then
    pack [(0, bit w.run), (1, bit w.half), (2, bit w.warn), (3, bit w.oscfail), (4, sat 15 w.elapsed), (19, w.trips.toNat), (27, w.badsvc.toNat),
          (35, w.last.toNat), (37, sat 3 (triesOf now w.times))]
  else if a = 0x90018 then pack [(0, w.rcause.toNat), (4, w.vcause.toNat), (12, w.btn.toNat), (14, w.press.toNat), (30, w.cls.toNat)]
  else if a = 0x90020 then pack [(0, w.ntries.toNat)]
  else 0

/-- One slot of a `WDE_` frame. -/
def State.wdeRead (s : State) (n off : Nat) : W64 :=
  let w := s.wde n
  if off = 0 then pack [(0, w.tout.toNat), (16, bit w.clksel), (17, bit w.en), (18, bit w.lock)]
  else if off = 0x18 then
    pack [(0, bit w.en), (1, bit (s.wdePaused n)), (2, bit w.clkfail), (4, sat 16 w.elapsed), (20, sat 3 (triesOf s.clk.ms w.times)), (23, w.trips.toNat),
          (31, w.badsvc.toNat)]
  else 0

/-- `CHN_STATn`. -/
def Link.word (l : Link) : W64 := pack [(0, l.st), (2, bit l.peerOk), (16, l.peerId.toNat), (32, l.crcErr.toNat), (48, l.resent.toNat)]

/-- The `CHN_` slots. -/
def State.chnRead (s : State) (a : Nat) : W64 :=
  let c := s.chn
  if a = 0xB0000 then c.ctl.setWidth 64
  else if a = 0xB0008 then c.arm
  else if a = 0xB0010 then c.up.word
  else if a = 0xB0018 then c.dn.word
  else if a = 0xB0020 then pack [(0, c.rcvd.toNat), (16, c.fwded.toNat), (32, c.written.toNat), (48, c.xstate)]
  else 0

/-- Slot state codes (17 R577). -/
def SlotSt.code : SlotSt → Nat
  | .empty => 0 | .writing => 1 | .staged => 2 | .running => 3 | .probation => 4 | .previous => 5 | .failed => 6 | .superseded => 7

/-- `FWS_SLOTn`. -/
def FwS.slotWord (f : FwS) (n : Nat) : W64 :=
  let x := f.slot n
  pack [(0, x.version.toNat), (32, x.st.code), (35, bit (f.booted == n)), (48, x.setfmt.toNat)]

/-- The `FWS_` slots. -/
def State.fwsRead (s : State) (a : Nat) : W64 :=
  let f := s.fw
  if a = 0xC0000 then f.slotWord 0
  else if a = 0xC0008 then f.slotWord 1
  else if a = 0xC0010 then pack [(0, f.probH.toNat)]
  else if a = 0xC0018 then pack [(0, f.probEl.toNat), (16, f.svn), (23, bit s.mgt.lock), (24, f.lastRef.toNat), (32, f.lastFb.toNat)]
  else 0

/-- `TRC_STAT`. -/
def TrcS.stat (t : TrcS) : W64 := pack [(0, t.wrptr), (15, bit t.stopped), (16, bit t.frozen), (32, t.wraps.toNat), (48, t.dropped.toNat)]

/-- The `TRC_` slots. -/
def State.trcRead (s : State) (a : Nat) : W64 :=
  let t := s.trc
  if a = 0xD0000 then pack [(0, bit t.wrap), (1, bit t.frozen), (2, bit t.fzFatal), (4, bit t.ledg), (5, bit t.diag), (6, t.evsev.toNat)]
  else if a = 0xD0008 then t.srcEn
  else if a = 0xD0010 then t.stat
  else if a = 0xD0020 then pack [(0, s.time.toNat), (48, (Sys2Proof.Config.frac t.no).toNat)]
  else 0

/-- The two words of a trace slot; an empty one has `SRC` 0xFF (18 R621). -/
def State.trcSlot (s : State) (k : Nat) : W64 × W64 :=
  match s.trc.buf.find k with
  | some r => (pack [(0, r.ts.toNat), (48, r.frac.toNat), (60, bit r.fracv)], pack [(0, r.src.toNat), (8, r.rtype.toNat), (16, r.data.toNat)])
  | none => (0, 0xFF)

/-- The value of a slot of the sled-global space, at a multiple of 8; reserved space reads zero (R641). -/
def State.regRead (s : State) (a : Nat) : W64 :=
  if a < 0x40 then (s.portCfg (a / 8)).word
  else if 0x100 ≤ a ∧ a < 0x180 then s.pstatWord ((a - 0x100) / 8)
  else if 0x2000 ≤ a ∧ a < 0x4000 then (s.bindOf (BitVec.ofNat 10 ((a - 0x2000) / 8))).word
  else if 0x10000 ≤ a ∧ a < 0x100C8 then s.fmapWord ((a - 0x10000) / 8)
  else if a = 0x20000 then s.pwr.cap.setWidth 64
  else if a = 0x20008 then s.pwrStat
  else if a = 0x20010 then s.holdup0
  else if a = 0x20018 then s.holdup1
  else if a = 0x20020 then s.thermWord
  else if a = 0x20028 then s.pwrCnt
  else if 0x20100 ≤ a ∧ a < 0x201A8 then (s.ledger ((a - 0x20100) / 8)).grantWord
  else if 0x20200 ≤ a ∧ a < 0x202A8 then (s.ledger ((a - 0x20200) / 8)).reqWord
  else if 0x40000 ≤ a ∧ a < 0x58000 then s.pndRead ((a - 0x40000) / 256) (a % 256)
  else if 0x58000 ≤ a ∧ a < 0x58500 then s.pndWide a
  else if 0x80000 ≤ a ∧ a < 0x80040 then s.lakRead a
  else if 0x90000 ≤ a ∧ a < 0x90028 then s.wdpRead a
  else if 0xA0000 ≤ a ∧ a < 0xA0200 then s.wdeRead ((a - 0xA0000) / 32) (a % 32)
  else if 0xB0000 ≤ a ∧ a < 0xB0028 then s.chnRead a
  else if 0xC0000 ≤ a ∧ a < 0xC0020 then s.fwsRead a
  else if 0xD0000 ≤ a ∧ a < 0xD0028 then s.trcRead a
  else if 0x100000 ≤ a ∧ a < 0x180000 then
    let x := s.trcSlot ((a - 0x100000) / 16)
    if a % 16 = 0 then x.1 else x.2
  else 0

/-! ### Writes -/

/-- Sum of `TAGS` over the ports other than one (07 R290). -/
def State.otherTags (s : State) (n : Nat) : Nat := (((List.range 8).filter (fun i => i != n)).map (fun i => (s.portCfg i).tags.toNat)).sum

/-- `KDEV_PORT`: `TAGS` 1 to 1,024 with at most 4,096 over the ports (07 R290), `L1_IDLE` 0 or 2 to 1,023. -/
def State.writePort (s : State) (n : Nat) (v : W64) : State :=
  let old := s.portCfg n
  let o := old.word
  let p : Port :=
    { bifurc := v.getLsbD 0, perstEn := v.getLsbD 1, modeA := v.getLsbD 2, modeB := v.getLsbD 3,
      tags := BitVec.ofNat 11 (fieldOr v o 4 11 (fun x => decide (1 ≤ x ∧ x ≤ 1024 ∧ s.otherTags n + x ≤ 4096))),
      l1Idle := BitVec.ofNat 10 (fieldOr v o 16 10 (fun x => x != 1)), l0pEn := v.getLsbD 26, ideReq := v.getLsbD 27 }
  { s with ports := { s.ports with cfg := s.ports.cfg.set n .reset p } }

/-- `KPWR_CAP`; a lowered cap brings the grants under it, a raised one fills requests (13 R471, R474). -/
def State.writeCap (s : State) (v : W64) : State :=
  let o : W64 := s.pwr.cap.setWidth 64
  let c := pack [(0, fieldOr v o 0 11 (fun x => decide (600 ≤ x ∧ x ≤ 1350))), (11, fld v 11 1), (12, fieldOr v o 12 7 (fun x => decide (x ≤ 64)))]
  let s1 : State := { s with pwr := { s.pwr with cap := c.setWidth 32 } }
  let s2 := if s1.pilotGrants then s1.underCap.answerAll else s1
  if s2.awake then s2.rebudget else s2

/-- `POSTPONE` below the debt of a bank issues the refreshes beyond it (04 R152). -/
def State.trimDebt (s : State) : State :=
  let n := s.postpone
  s.pond.pch.foldl (fun t p =>
    let over1 := (p.2.debt.map (fun d => d.2 - n)).sum
    if over1 = 0 then t
    else
      let u := t.setPch p.1 { p.2 with debt := p.2.debt.filterMap (fun d => if n = 0 then none else some (d.1, min d.2 n)) }
      { u with pond := { u.pond with forced := (List.range over1).foldl (fun v _ => satInc v) u.pond.forced } }) s

/-- `PND_CTL` of a pseudo-channel in service; `act` holds the bits written as WO. -/
def State.writePndCtl (s : State) (n : Nat) (v act : W64) : State :=
  if s.pchFenced n then s
  else
    let p := s.pch n
    let s1 := s.setPch n { p with refMode := v.getLsbD 0, pdTimer := BitVec.ofNat 9 (fieldOr v p.ctlWord 8 9 (fun x => decide (x ≤ 256))) }
    if act.getLsbD 24 then s1.needTrain n 4 else s1

/-- The sled-wide `PND_` registers. -/
def State.writePnd (s : State) (a : Nat) (v : W64) : State :=
  let p := s.pond
  if a = 0x58000 then
    let t (i : Nat) : Nat × Nat := (16 * i, fieldOr v p.lat (16 * i) 16 (fun x => decide (50 ≤ x)))
    { s with pond := { p with lat := pack [t 0, t 1, t 2, t 3] } }
  else if a = 0x58008 then
    let o : W64 := p.panicReg.setWidth 64
    let x := fieldOr v o 0 7 (fun z => decide (5 ≤ z ∧ z ≤ 75))
    let y := fieldOr v o 8 7 (fun z => decide (z ≤ 95))
    let ok := decide (x + 5 ≤ y)
    let w := pack [(0, if ok then x else fld o 0 7), (8, if ok then y else fld o 8 7), (16, fieldOr v o 16 3 (fun z => decide (z ≤ 4)))]
    ({ s with pond := { p with panicReg := w.setWidth 32 } }).trimDebt
  else if a = 0x58010 then
    let o : W64 := p.errctl.setWidth 64
    let w := pack [(0, fieldOr v o 0 16 (fun x => x != 0)), (16, fieldOr v o 16 8 (fun x => decide (x ≤ 168))), (24, fld v 24 1)]
    { s with pond := { p with errctl := w.setWidth 32 } }
  else s

/-- `LAK_CTL`. -/
def State.writeLakCtl (s : State) (v : W64) : State :=
  let o : W64 := s.lake.ctl.setWidth 64
  let c1 (x : Nat) : Bool := decide (1 ≤ x ∧ x ≤ 36)
  let w := pack [(0, fieldOr v o 0 8 c1), (8, fieldOr v o 8 8 c1), (16, fieldOr v o 16 5 (fun x => decide (1 ≤ x ∧ x ≤ 30))), (21, fld v 21 1)]
  if s.hasLake then { s with lake := { s.lake with ctl := w.setWidth 32 } } else s

/-- A write of 1 to `RESTART` empties the trace buffer (18 R625). -/
def TrcS.restart (t : TrcS) : TrcS :=
  { t with buf := [], wrptr := 0, held := 0, stopped := false, frozen := false, wraps := 0, dropped := 0, left := none }

/-- `FREEZE` written. -/
def TrcS.freeze (t : TrcS) (on : Bool) : TrcS := { t with frozen := on, left := if on then none else t.left }

/-- `TRC_CTL`. -/
def State.writeTrcCtl (s : State) (v act : W64) : State :=
  let t := s.trc
  let t1 := if act.getLsbD 3 then t.restart else t
  let e := fld v 6 3
  let t2 := { t1 with wrap := v.getLsbD 0, fzFatal := v.getLsbD 2, ledg := v.getLsbD 4, diag := v.getLsbD 5, evsev := if 5 < e then t1.evsev else BitVec.ofNat 3 e }
  { s with trc := t2.freeze (v.getLsbD 1) }

/-- `TRC_MARK`. -/
def State.writeMark (s : State) (m : Nat) : State := s.trace 0 7 (m % 2 ^ 48)

/-- `CHN_CTL`: a link that is disabled goes down, and a sled whose DOWN link is disabled forwards no more of an image (17 R574, R600). -/
def State.writeChnCtl (s : State) (v : W64) : State :=
  let c : ChnS := if v.getLsbD 4 = false ∧ s.chn.tx.isSome = true then
      { s.chn with tx := none, xstate := 3, rx := s.chn.rx.map (fun (r : Rx) => { r with fwd := false }) }
    else s.chn
  { s with chn := { c with ctl := v.setWidth 32 &&& 0x1F#32, up := if v.getLsbD 3 ∨ c.up.st = 3 then c.up else { c.up with st := 0, peerOk := false },
                                                            dn := if v.getLsbD 4 ∨ c.dn.st = 3 then c.dn else { c.dn with st := 0, peerOk := false } } }

/-- What a write does to one slot, given the value its RW bits would take and the bits written; `mgmt` for management, whose writes alone
reach `KDEV_BIND` and `WDE_SVC` (07 R308; 15 R523, R527). -/
def State.regPut (s : State) (a : Nat) (v act : W64) (mgmt : Bool) : State :=
  if a < 0x40 then s.writePort (a / 8) v
  else if 0x2000 ≤ a ∧ a < 0x4000 then (if mgmt then s.bindWrite (BitVec.ofNat 10 ((a - 0x2000) / 8)) (low32 v) else s)
  else if a = 0x20000 then s.writeCap v
  else if 0x40000 ≤ a ∧ a < 0x58000 then (if a % 256 = 0 then s.writePndCtl ((a - 0x40000) / 256) v act else s)
  else if 0x58000 ≤ a ∧ a < 0x58018 then s.writePnd a v
  else if a = 0x80018 then s.writeLakCtl v
  else if a = 0x90020 then
    (if fld v 0 3 = 0 then s else { s with wd := { s.wd with ntries := BitVec.ofNat 3 (fld v 0 3) } })
  else if 0xA0000 ≤ a ∧ a < 0xA0200 then
    let n := (a - 0xA0000) / 32
    if a % 32 = 0 then s.writeWdeCfg n (low32 v)
    else if a % 32 = 8 then (if mgmt then s.wdeSvc n (low32 act) else s)
    else if a % 32 = 0x10 then s.wdeDis n (low32 act)
    else s
  else if a = 0xB0000 then s.writeChnCtl v
  else if a = 0xB0008 then { s with chn := { s.chn with arm := v } }
  else if a = 0xC0010 then
    (if 1 ≤ fld v 0 8 ∧ fld v 0 8 ≤ 168 then { s with fw := { s.fw with probH := BitVec.ofNat 8 (fld v 0 8) } } else s)
  else if a = 0xD0000 then s.writeTrcCtl v act
  else if a = 0xD0008 then { s with trc := { s.trc with srcEn := v } }
  else if a = 0xD0018 then s.writeMark (fld act 0 48)
  else s

/-! ### The settings store (17 R591 to R593; 19 R648) -/

/-- The bits of a slot that the settings store keeps; zero where it keeps none. -/
def keptMask (a : Nat) : W64 :=
  if a < 0x40 then 0x0FFF7FFF#64
  else if a = 0x20000 then 0x0007FFFF#64
  else if 0x40000 ≤ a ∧ a < 0x58000 ∧ a % 256 = 0 then 0x0001FF01#64
  else if a = 0x58008 then 0x00077F7F#64
  else if a = 0x58010 then 0x01FFFFFF#64
  else if a = 0x80018 then 0x003FFFFF#64
  else if a = 0x90020 then 7#64
  else if 0xA0080 ≤ a ∧ a < 0xA0200 ∧ a % 32 = 0 then 0x0001FFFF#64
  else if a = 0xB0000 then 0x1F#64
  else if a = 0xC0010 then 0xFF#64
  else if a = 0xD0000 then 0x1F7#64
  else if a = 0xD0008 then BitVec.allOnes 64
  else 0

/-- Addresses of the registers that the store keeps. -/
def keptAddrs : List Nat :=
  (List.range 8).map (fun n => 8 * n) ++ [0x20000] ++ (List.range 384).map (fun n => 0x40000 + 256 * n) ++ [0x58008, 0x58010, 0x80018, 0x90020] ++
  (List.range 12).map (fun n => 0xA0080 + 32 * n) ++ [0xB0000, 0xC0010, 0xD0000, 0xD0008]

/-- The value a kept register stands at, `LAK_CTL` also before the mount. -/
def State.keptNow (s : State) (a : Nat) : W64 := (if a = 0x80018 then s.lake.ctl.setWidth 64 else s.regRead a) &&& keptMask a

/-- The record of the registers: those that differ from their reset values. -/
def State.snapSettings (s : State) : Tbl W64 :=
  keptAddrs.filterMap (fun a => if s.keptNow a = State.reset.keptNow a then none else some (a, s.keptNow a))

/-- Writes the stored register values back, kept fields only (16 R558 step 6). -/
def State.loadSettings (s : State) : State :=
  s.fw.store.foldl (fun t p =>
    let m := keptMask p.1
    if m = 0 then t else t.regPut p.1 ((t.regRead p.1 &&& ~~~m) ||| (p.2 &&& m)) 0 true) s

/-- Loads the stored Fence Map bits with `FCAUSE` 0x0D (01 R51). -/
def State.loadFences (s : State) : State :=
  (s.fw.store.filter (fun p => decide (0x10000 ≤ p.1 ∧ p.1 < 0x100C8))).foldl (fun t p =>
    (List.range 64).foldl (fun u j => if p.2.getLsbD j then u.setBit (unitOfBit ((p.1 - 0x10000) / 8 * 64 + j)) 0x0D else u) t) s

/-- A write to a slot by management or the owner function: `m` marks the bits written. The owner lock shuts the owner function out of every field
that the store keeps (18 R614). A change of a kept field awaits its record (17 R593). -/
def State.regWrite (s : State) (a : Nat) (v m : W64) (mgmt : Bool) : State :=
  let k := keptMask a
  let old := if a = 0x80018 then s.lake.ctl.setWidth 64 else s.regRead a
  let m1 := if s.mgt.lock ∧ mgmt = false then m &&& ~~~k else m
  let s1 := s.regPut a ((old &&& ~~~m1) ||| (v &&& m1)) (v &&& m1) mgmt
  if k ≠ 0 ∧ s1.keptNow a ≠ s.keptNow a then { s1 with fw := { s1.fw with dirty := true } } else s1

end Sys2Proof.Machine
end

