-- ==== Sys2Proof/Machine/Flash.lean ====
section
/-! DEFINITION. What flash holds of the state: physical blocks (05 R184), the frames of a page with their check bytes, metadata and parity (R186,
R187, R190), and the pages of the journal (R197). -/

namespace Sys2Proof.Machine

/-! ### Blocks (R184) -/

/-- The physical block that a plane's sequencer maps a good-block index onto: the blocks of its table are left out. -/
def physBlock (plane idx : Nat) : Nat :=
  let bad := Config.badBlocks plane
  ((List.range (idx + bad.length + 1)).filter (fun b => !bad.contains b)).getD idx idx

/-- The physical block of a flash page address, once the tables have been read at mount: plane number 4 x die index + plane. -/
def State.physBlockOf (s : State) (fpa : Nat) : Option Nat :=
  if s.lake.bbt then some (physBlock (4 * (fpa % 32 * 32 + fpa / 32 % 32) + fpa / 1024 % 4) (fpa / 4096 % 2048)) else none

/-! ### CRC-32C -/

/-- One bit of CRC-32C, least significant bit first. -/
def crcBit (c : W32) : W32 := if c.getLsbD 0 then (c >>> 1) ^^^ 0x82F63B78 else c >>> 1

/-- One byte of CRC-32C. -/
def crcByte (c : W32) (b : Byte) : W32 := (List.range 8).foldl (fun x _ => crcBit x) (c ^^^ b.setWidth 32)

/-- CRC-32C of some bytes. -/
def crc32c (l : List Byte) : W32 := ~~~(l.foldl crcByte 0xFFFFFFFF)

/-! ### Frames (R186, R187, R190) -/

/-- What a page is for. -/
inductive PageKind
  | data | parity | metaS | journal | pad
deriving DecidableEq, Repr

/-- `KIND` codes. -/
def PageKind.code : PageKind → Nat
  | .data => 1 | .parity => 2 | .metaS => 3 | .journal => 4 | .pad => 5

/-- The programmed stripe of a flash page. -/
def State.stripeOf (s : State) (fpa : Nat) : Option WStripe := s.lake.written.find (sbOf fpa * 9216 + fpa / 2 ^ 23 * 4 + fpa / 1024 % 4)

/-- `WSEQ` and `KIND` of a programmed page: pages of a stripe are counted in the order they are programmed, and a page without a run is PAD (R193). -/
def State.pageMeta (s : State) (fpa : Nat) : Option (Nat × PageKind) :=
  (s.stripeOf fpa).map (fun x =>
    let ch := fpa % 32
    (x.wseq + x.members.findIdx (fun c => c == ch),
     if ch = x.par then .parity else if x.data.has ch = false then .pad else if x.isMeta then .metaS else .data))

/-- Bytes 0 to 4,351 of a data page's frame: 16 sectors and their check bytes. -/
def State.frameData (s : State) (fpa f : Nat) : List Byte :=
  s.readRun (.flash fpa (16 * f)) 16 ++ (List.range 16).flatMap (fun k => s.checkBytes (.flash fpa (16 * f + k)))

/-- Bytes XORed position by position. -/
def xorBytes (a b : List Byte) : List Byte := List.zipWith (fun x y => x ^^^ y) a b

/-- The flash page of another channel of a page's stripe. -/
def onChannel (fpa ch : Nat) : Nat := fpa / 32 * 32 + ch

/-- Bytes 0 to 4,351 of the parity page's frame: the XOR of the other members' (R190). -/
def State.frameParity (s : State) (fpa f : Nat) (x : WStripe) : List Byte :=
  (x.members.filter (fun c => c != x.par)).foldl (fun a c => xorBytes a (s.frameData (onChannel fpa c) f)) (zeros 4352)

/-- A page that fails, rebuilt from the other members of its stripe (R188 step 4, R190). -/
def State.frameRebuilt (s : State) (fpa f : Nat) (x : WStripe) : List Byte :=
  (x.members.filter (fun c => c != x.par && c != fpa % 32)).foldl (fun a c => xorBytes a (s.frameData (onChannel fpa c) f)) (s.frameParity fpa f x)

/-- Frame metadata before its `CRC` (R187). -/
def metaHead (wseq : Nat) (k : PageKind) (f : Nat) : List Byte := toBytes 8 wseq ++ toBytes 1 k.code ++ toBytes 1 f ++ zeros 18

/-- Bytes 0 to 4,383 of a frame of a programmed page: what the flash ECC covers (R186 to R188). -/
def State.frame (s : State) (fpa f : Nat) : Option (List Byte) :=
  match s.stripeOf fpa, s.pageMeta fpa with
  | some x, some (w, k) =>
    let b := (if k = .parity then s.frameParity fpa f x else s.frameData fpa f) ++ metaHead w k f
    some (b ++ toBytes 4 (crc32c b).toNat)
  | _, _ => none

/-- Whether the metadata of a frame make it readable: its `KIND` is not reserved and its `CRC` fits (R187). -/
def frameReadable (b : List Byte) : Bool :=
  decide (b.length = 4384) && decide (1 ≤ byteAt b 4360 ∧ byteAt b 4360 ≤ 5) && toBytes 4 (crc32c (b.take 4380)).toNat == b.drop 4380

/-! ### The journal (R197) -/

/-- Bytes 16 x part to 16 x part + 15 of a Region Table entry (06 R236). -/
def REnt.part (e : REnt) : Nat → List Byte
  | 0 =>
    toBytes 4 e.gen.toNat ++
    toBytes 1 (e.st.code + bit e.keep * 8 + bit e.rt * 16 + bit e.shared * 32 + bit e.ponly * 64 + bit e.back * 128) ++
    toBytes 1 (e.hint.toNat + e.policy.toNat * 16 + e.cls.toNat * 64) ++
    toBytes 2 (e.owner.toNat + bit e.coarse * 1024 + bit e.dlost * 2048) ++ toBytes 4 e.sizeG.toNat ++ toBytes 4 e.nhost.toNat
  | 1 =>
    toBytes 2 e.ilSet.toNat ++ toBytes 1 (e.ilWays.toNat + e.ilPos.toNat * 16) ++ toBytes 1 e.ilGran.toNat ++ toBytes 4 e.tset.toNat ++ zeros 8
  | _ => toBytes 4 e.root.toNat ++ toBytes 4 e.slist.toNat ++ zeros 8

/-- A record of 32 bytes: type, bytes 1 to 15, bytes 16 to 31. -/
def jbytes (type : Nat) (lo hi : List Byte) : List Byte :=
  toBytes 1 type ++ (lo ++ zeros 15).take 15 ++ (hi ++ zeros 16).take 16

/-- The records of 32 bytes that a journal record stands for: an entry takes three. -/
def JRec.bytes : JRec → List (List Byte)
  | .seg r i e => [jbytes 1 (zeros 1 ++ toBytes 2 r.toNat ++ toBytes 5 i) (toBytes 8 e.w0.toNat ++ toBytes 8 e.w1.toNat)]
  | .region r e => (List.range 3).map (fun n => jbytes 2 (toBytes 1 n ++ toBytes 2 r.toNat) (e.part n))
  | .regionDrop r => [jbytes 3 (zeros 1 ++ toBytes 2 r.toNat) []]
  | .checkpoint toc w => [jbytes 4 [] (toBytes 6 toc ++ zeros 2 ++ toBytes 8 w)]
  | .retire sb m => [jbytes 5 [] (toBytes 6 (fpaOf sb (m % 4) (m / 4) * 64))]
  | .flushBegin => [jbytes 6 [] []]
  | .flushEnd n => [jbytes 7 [] (toBytes 8 n)]
  | .other type => [jbytes type.toNat [] []]

/-- The page of the journal that a record was written in: the header with `JSEQ`, `COUNT` and `CRC`, then its records (R197; one record a page,
assumption log 18). -/
def JRec.page (j : JRec) (jseq : Nat) : List Byte :=
  let recs := j.bytes
  let body := (recs.flatten ++ zeros 16320).take 16320
  let head := toBytes 8 jseq ++ toBytes 2 recs.length ++ zeros 2
  head ++ toBytes 4 (crc32c (head ++ body)).toNat ++ zeros 48 ++ body

/-- Whether a journal page passes its `CRC` (R197, R215). -/
def journalPageOk (b : List Byte) : Bool :=
  decide (b.length = 16384) && toBytes 4 (crc32c (b.take 12 ++ b.drop 64)).toNat == (b.drop 12).take 4

/-- `JSEQ` of the newest page of a state's journal. -/
def State.lastPage (s : State) : Option (List Byte) := s.lake.jour.getLast?.map (fun j => j.page s.lake.jseq)

end Sys2Proof.Machine
end

