-- ==== Sys2Proof/Machine/BootC.lean ====
section
/-! DEFINITION. From power to service: input, power-on, rails, the boot ROM's verification, self-test and READY (16 R556 to R570; 07 R276,
R312; 13 R450 to R453, R491; 15 R523, R531, R555; 17 R587 to R593). -/

namespace Sys2Proof.Machine

/-! ### The start -/

/-- The settings record by which the island starts the sled: `AUTO_ON` of `KPWR_CAP` (13 R484). -/
def State.autoOn (s : State) : Bool := (s.fw.store.getD 0x20000 0x00040D46#64).getLsbD 11

/-- A power-on reset (15 R542; 16 R558 steps 1 to 3): the sled is in BOOT and its rails rise. A button found pressed is faulty (15 R555). -/
def State.startSled (s : State) : State :=
  let s1 : State := { s with
    sled := { s.sled with st := .boot, boot := .rails, warm := false, dark := false, stayOff := false, safe := false, flush := none, flushCmd := false,
                          vigilNext := none, offNext := false, vigilDone := false, bridge := 8, bridgeLost := false, preserved := false, kept := [] }
    pwr := { s.pwr with sag := false, ride := 0, switchOpen := false, charge := 250 }
    chn := { s.chn with up := { s.chn.up with st := 1 }, dn := { s.chn.dn with st := 1 } }
    fw := { s.fw with tried := [], booted := 2 } }
  let s2 : State := (s1.traceReset 0).trace 1 5 (SledSt.boot.code + SledSt.off.code * 256)
  if s2.wd.btn = 1 then s2.buttonFaulty 0 else s2

/-- COLD_START: the sled is inserted; `AUTO_ON` does not matter (16 R557). -/
def execColdStart (s : State) : R :=
  .next (if s.sled.st ≠ .off then s else ({ s with sled := { s.sled with latchOpen := false } }).startSled)

/-- INPUT_STABLE: input has returned and has stayed within its range for 2 s (13 R453; 16 R557). With `AUTO_ON` 0 the sled stays Dark. -/
def execInputStable (s : State) : R :=
  .next (
    if s.sled.st ≠ .off ∨ s.sled.stayOff = true then s
    else if s.autoOn then s.startSled
    else { s with sled := { s.sled with dark := true } })

/-- POWER_ON (15 R547; 18 R606). -/
def execPowerOn (via : Via) (s : State) : R :=
  .next (s.asks via (.powerOn via) (s.mgmtOwner via (s.sled.st == .off) (s.mgmt gOk []).startSled))

/-- RAIL_FAULT: the first one of a start drops every rail for one retry; a rail group is enabled once more only (16 R559, R569). -/
def execRailFault (s : State) : R :=
  .next (if s.sled.boot = .rails then { s with sled := { s.sled with boot := .retry } } else s)

/-- RAIL_RETRY: every rail is good, or the sled is OFF with start fault 0x01. -/
def execRailRetry (ok : Bool) (s : State) : R :=
  .next (
    if s.sled.boot ≠ .retry then s
    else if ok then { s with sled := { s.sled with boot := .verify } }
    else s.powerDown s.inputOn 1)

/-! ### Slots (17 R586 to R590) -/

/-- The boot ROM's outcome for the slot that verified: slot states, and the fallback cause where it is a fallback. `first` says that no slot
failed before it. -/
def FwS.bootFrom (f : FwS) (n : Nat) (first : Bool) : FwS × Option Nat :=
  let o := 1 - n
  let f1 : FwS := { f with booted := n, tried := [] }
  if first then
    if (f.slot n).st = .previous then
      ({ f1.mark2 n .running .failed with fallback := false, boot := n, lastFb := if f.fallback then 2 else 1 }, some (if f.fallback then 2 else 1))
    else if (f.slot n).st = .staged then
      ({ f1.mark2 n .probation .previous with boot := n, probEl := 0 }, none)
    else (f1, none)
  else
    let cause := if (f.slot o).st = .previous ∧ (f.slot n).st = .probation then 5 else 3
    ({ f1.mark2 n .running .failed with fallback := false, boot := n, lastFb := BitVec.ofNat 3 cause }, some cause)

/-- The settings records as firmware of a format finds them (17 R591, R592): an older record is converted and kept, a newer one is erased. -/
def FwS.convert (f : FwS) (fmt : W16) : FwS :=
  if f.fmt < fmt then { f with fmt := fmt, older := some (f.fmt, f.store) }
  else if fmt < f.fmt then
    match f.older with
    | some (g, st) => if g = fmt then { f with fmt := fmt, store := st, older := none } else { f with fmt := fmt, store := st, older := some (g, st) }
    | none => { f with fmt := fmt, store := [], older := none }
  else f

/-- The kept registers at their reset values, and management's credentials and settings at their defaults: both copies of the governing record
have failed (16 R569; 17 R593; 18 R615). -/
def State.loseSettings (s : State) : State :=
  let s1 : State := keptAddrs.foldl (fun t a =>
    t.regPut a ((t.regRead a &&& ~~~(keptMask a)) ||| State.reset.keptNow a) 0 true) s
  ({ s1 with
    fw := { s1.fw with store := [], dirty := false }
    mgt := { s1.mgt with set := [], root := none, lock := false, key := none, lanes := [] } }).post { ev := .settingsFault }

/-- The bindings at a power-on (07 R273, R276): `BIFURC` as it stands, and host ID k on function 0 of port half k where that half exists and
is in direct mode. -/
def State.bindAll (s : State) : State :=
  let s1 : State := { s with ports := { s.ports with bifur := (List.range 8).filter (fun n => (s.portCfg n).bifurc) } }
  let hosts := (List.range 16).filter (fun k => s1.halfExists k && !(if k % 2 = 0 then (s1.portCfg (k / 2)).modeA else (s1.portCfg (k / 2)).modeB))
  { s1 with ports := { s1.ports with bind := hosts.map (fun k => (k, (⟨true, BitVec.ofNat 4 k, 0, 0, false⟩ : Bind))) } }

/-- The Pilot and the Lanterns start their watchdogs (15 R523, R531, R555): the WDP with the timeout of management setting 8 where it does not
run already, and each Lantern's WDE enabled and locked. -/
def State.startDogs (s : State) : State :=
  let wd := if s.wd.run then { s.wd with elapsed := 0 }
    else { s.wd with run := true, elapsed := 0, tout := BitVec.ofNat 4 (s.mgt.set.getD 8 4) }
  (List.range 4).foldl (fun t n =>
    if t.fenced (.lantern n) then t else t.setWde n { t.wde n with en := true, lock := true, elapsed := 0 }) { s with wd := wd }

/-- The governing settings record as the boot finds it: with the copy of the higher `RSEQ` unreadable, the other copy (17 R591). -/
def FwS.readRecord (f : FwS) (c : RecRead) : FwS := if c = .other then { f with store := f.prev, rseq := f.rseq - 1 } else f

/-- Steps 6 and 7 of a start (16 R558, R563): the Pilot firmware of the booted slot. A warm restart keeps its registers, bindings and Fence
Map (R564). -/
def State.pilotStarts (s : State) (record : RecRead) : State :=
  let warm := s.sled.warm
  let s1 : State := { s with fw := (s.fw.readRecord record).convert (s.fw.slot s.fw.booted).setfmt, sled := { s.sled with boot := .selfTest } }
  let s2 : State := if record = .neither then s1.loseSettings else if warm then s1 else s1.loadSettings.loadFences
  (if warm then s2 else s2.bindAll).startDogs

/-- The sled enters DEAD (16 R569; 17 R595): its ports are held in reset and its Chain links repeat what they hear. -/
def State.goDead (s : State) : State :=
  let s1 : State := (s.setSled .dead).holdPorts
  { s1 with
    sled := { s1.sled with boot := .none }
    fw := { s1.fw with tried := [], booted := 2 }
    chn := { s1.chn with up := { s1.chn.up with st := 3, peerOk := false }, dn := { s1.chn.dn with st := 3, peerOk := false }, rx := none, tx := none } }

/-- IMAGE_VERIFY_DONE (16 R558 steps 5 to 7, R569; 17 R580, R589, R590): `ok` for a slot that is authentic; `record` which copy of the governing
settings record can be read; `pilotOk` that the Pilot firmware passes its own start-up check. -/
def execImageVerifyDone (slot : Fin 2) (ok : Bool) (record : RecRead) (pilotOk : Bool) (s : State) : R :=
  .next (
    let n := slot.val
    let first := s.fw.tried == []
    let due := if first then s.fw.select else 1 - s.fw.select
    if (s.sled.boot ≠ .rails ∧ s.sled.boot ≠ .verify) ∨ n ≠ due then s
    else if ok = false ∨ (s.fw.slot n).complete = false then
      (if first ∧ (s.fw.slot (1 - n)).complete then { s with fw := { s.fw with tried := [n] }, sled := { s.sled with boot := .verify } } else s.goDead)
    else
      let p := s.fw.bootFrom n first
      let s1 : State := { s with fw := p.1 }
      let s2 : State := s1.trace 1 9 (n + (if p.2.isSome then 3 else 1) * 256 + ((p.1.slot n).iseq.setWidth 32).toNat * 65536)
      let s3 : State := match p.2 with
        | some c => s2.post (pairPost .fwFallback 0 0 n c)
        | none => s2
      if pilotOk then s3.pilotStarts record else s3.powerDown s3.inputOn 4)

/-! ### Self-test and READY -/

/-- The fences of a self-test (16 R569): a unit that failed, or whose test has not ended. -/
def State.testFences (s : State) (l : List (Fin 1584)) : State :=
  l.foldl (fun t b => match unitOfBit b.val with
    | .half h => t.fenceUnit (.half h) 0x0C 0
    | u => t.fenceUnit u 1 0) s

/-- The Ledger grants training power to tiles and channel groups, and the stacks are released into the Pond start-up (16 R558 step 9; 01 R51), out of
the self-refresh of a warm restart (04 R179). The amount is each entry's floor. With all four Lanterns fenced, by this test or by bits of an
earlier power cycle, the sled enters VIGIL instead (01 R24; 15 R538; 16 R566, R569). -/
def State.beginTrain (s : State) : State :=
  if s.sled.boot ≠ .selfTest then s
  else if s.fencedIn 96 100 = 4 then s.askVigil 6
  else
    let s1 : State := (List.range 20).foldl (fun t i =>
      (t.writeGrant i ((t.ledger i).floor i) 0).setPst i .lit 0 0) (s.setSled .train)
    let s2 : State := (List.range 12).foldl (fun t k => t.selfRefresh k false) s1
    { s2 with sled := { s2.sled with boot := .pond } }

/-- SELF_TEST_DONE. An RT stream buffer that failed fences both halves of its port (07 R311; 14 R504). With all four Lanterns fenced the sled is in
VIGIL, not in TRAIN. -/
def execSelfTestDone (found : SelfTest) (s : State) : R :=
  .next (if s.sled.boot ≠ .selfTest then s else
    (found.buffers.foldl (fun (t : State) n => t.fenceUnits [.half (2 * n.val), .half (2 * n.val + 1)] 0x0C 0) (s.testFences found.failed)).beginTrain)

/-- SELF_TEST_TIMEOUT: the start goes on without the units whose test has not ended. -/
def execSelfTestTimeout (unfinished : List (Fin 1584)) (s : State) : R :=
  .next (if s.sled.boot ≠ .selfTest then s else
    let s1 : State := unfinished.foldl (fun t b => t.fenceUnit (unitOfBit b.val) 1 0) s
    s1.beginTrain)

/-- The conditions of R560 that the steps before READY leave to check. -/
def State.readyOk (s : State) : Bool :=
  s.sled.boot == .ready && s.pondOk && (List.range 4).any (fun n => !s.fenced (.lantern n)) && decide (5 ≤ s.sled.bridge)

/-- A port half is released at READY (07 R273, R312). PERST# keeps its halves in Detect. -/
def State.releaseHalf (s : State) (h : Nat) : State :=
  let s1 := s.leaveDetect h
  if s1.halfExists h = false ∨ s1.fenced (.half h) = true then s1
  else s1.setHalf h { s1.halfReg h with link := if (s1.portCfg (h / 2)).perstEn ∧ s1.ports.perst.contains (h / 4) then 0 else 1, hold := false }

/-- TRAIN_COMPLETE (16 R560, R561; 07 R312): READY, and how the port halves trained. -/
def execTrainComplete (halves : List Train) (s : State) : R :=
  .next (
    if s.sled.st ≠ .train ∨ s.readyOk = false then s
    else
      let s1 : State := { s with
        sled := { s.sled with boot := .none, startFault := 0 }
        q := { s.q with dispatching := true } }
      let s2 : State := (s1.setSled .ready).rebudget
      let s3 : State := (List.range 16).foldl State.releaseHalf ((List.range 16).foldl (fun t h =>
        t.setHalf h { t.halfReg h with link := 0 }) s2)
      let s4 : State := halves.foldl (fun t x => if (t.halfReg x.half).link = 1 then t.trained x.half x else t) s3
      s4.safeUpdate)

end Sys2Proof.Machine
end

