-- ==== Sys2Proof/Machine/Image.lean ====
section
/-! DEFINITION. The bytes of a firmware image: the fields of its chunk 0, and what the boot ROM decrypts (17 R578, R579). -/

namespace Sys2Proof.Machine

/-- A field of chunk 0: bits from a byte offset. -/
def chunkField (c : Chunk) (byte bits : Nat) : BitVec bits := c.extractLsb' (8 * byte) bits

/-- The content key of an image, unwrapped under the Galben image key; none where the tag of the wrap fails (R578, R579). -/
def contentKey (c0 : Chunk) : Option (BitVec 256) :=
  Config.gcmKey Config.imageKey (chunkField c0 32 96) (chunkField c0 44 256) (chunkField c0 76 128)

/-- The nonce of chunk k: the bytes of `ISEQ`, then those of k as a 32-bit number (R579). -/
def chunkNonce (iseq : W64) (k : Nat) : BitVec 96 := BitVec.ofNat 32 k ++ iseq

/-- Body chunk k of an image in clear: its tag lies in chunk 0, whose bytes 0 to 63 are the additional data (R578, R579). -/
def clearChunk (c0 : Chunk) (k : Nat) (c : Chunk) : Option Chunk :=
  (contentKey c0).bind (fun key => Config.gcmChunk key (chunkNonce (chunkField c0 8 64) k) (chunkField c0 0 512) c (chunkField c0 (1024 + 16 * (k - 1)) 128))

/-- The body of a slot in clear: what only the boot ROM holds, as it decrypts the sections into the code banks (R579, R584); none where a chunk is
absent or a tag fails. -/
def Slot.clear (x : Slot) : Option (List Chunk) :=
  (x.body.find 0).bind (fun c0 => ((List.range x.nchunk).map (fun i => (x.body.find (i + 1)).bind (clearChunk c0 (i + 1)))).foldr
    (fun c l => c.bind (fun y => l.map (fun t => y :: t))) (some []))

/-- The image digest of a slot: SHA-384 of chunk 0 bytes 0 to 17,407, then the body chunks as stored (R580). -/
def Slot.digest (x : Slot) : BitVec 384 :=
  Config.sha384 (toBytes 17408 (((x.body.find 0).getD 0).extractLsb' 0 139264).toNat ++
    (List.range x.nchunk).flatMap (fun i => toBytes 65536 ((x.body.find (i + 1)).getD 0).toNat))

end Sys2Proof.Machine
end

