-- ==== Sys2Proof/Machine/FwC.lean ====
section
/-! DEFINITION. Firmware and the Chain: staging, activation, probation, the settings store, Chain frames (17 R571 to R602; 01 R45, R46;
08 R343; 09 R368, R373; 11 R430; 15 R534). -/

namespace Sys2Proof.Machine

/-! ### Refusals (17 R582, R583) -/

/-- The slot that is not booted (17 R581). -/
def State.otherSlot (s : State) : Nat := 1 - s.fw.booted

/-- HOLDUP_LOW: E is below 1.2 × (132 J + `BUDGET_MAX` × 23.488 J / f). -/
def State.holdupLow (s : State) : Bool :=
  if s.hasLake then
    s.diesIn == 0 || decide (10000 * s.energy * s.diesIn < 12 * (132000 * s.diesIn + s.budgetMax * 23488 * s.diesAll))
  else decide (10 * s.energy < 12 * 132)

/-- The structural checks of an image, less its `SVN` (17 R582). -/
def soundImage (x : Image) : Bool := x.formed && decide (1 ≤ x.chunks ∧ x.chunks ≤ 1023 ∧ x.svn.toNat ≤ 64) && x.iseq != 0 && x.iseq != BitVec.allOnes 64

/-- The update refusals that rest on the sled alone, in table order: the first that holds. -/
def State.sledRefuses (s : State) : Option W16 :=
  if s.mgt.lock then some 0x10
  else if s.sled.latchOpen then some 0x11
  else if s.rt.ent.any (fun p => p.2.st == .evacuating) then some 0x12
  else if (s.fw.inState .probation).isSome then some 0x13
  else if s.holdupLow then some 0x14
  else none

/-- The update refusals of an image to be staged. -/
def State.refuses (s : State) (x : Image) : Option W16 :=
  match s.sledRefuses with
  | some d => some d
  | none => if x.svn.toNat < s.fw.svn then some 0x15 else if soundImage x then none else some 0x16

/-- The refusal becomes `LAST_REF`. -/
def State.lastRefusal (s : State) (d : Option W16) : State :=
  match d with
  | some v => { s with fw := { s.fw with lastRef := v.setWidth 8 } }
  | none => s

/-- An E_REFUSED failure. -/
def refused (d : Option W16) : Option Err1 := d.map (fun v => { status := eRefused, detail := v })

/-! ### Staging (17 R581) -/

/-- The slot's first write. -/
def State.slotWriting (s : State) : State := { s with fw := s.fw.setSlot s.otherSlot { Slot.empty with st := .writing } }

/-- Completes the program of a staging, if one waits. -/
def State.stageEnds (s : State) (p : Option Nat) (e : Option Err1) : State :=
  match p, e with
  | some q, some x => s.failProg q x
  | some q, none => s.okOn q (fun y => y)
  | none, _ => s

/-- FW.STAGE. `image` and `body` are what host memory holds at g[A], `readOk` whether its read succeeds; the Chain form reads neither. -/
def execFwStage (prog : Nat) (image : Image) (read : ImageRead) (s : State) : R :=
  .next (s.control prog (isOp 0x2B)
    (fun x w _ =>
      let n := (x.gr (fB w)).toNat
      if onlyBits w [uA, uB, (36, 1)] = false then some dReserved
      else if fModR w % 2 = 1 ∧ (n % 65536 ≠ 0 ∨ n < 131072 ∨ 67108864 < n) then some dRange
      else none)
    (fun x w _ =>
      let host := fModR w % 2 == 1
      let seen : Image := if 65536 * (image.chunks + 1) = (x.gr (fB w)).toNat then image else { image with formed := false }
      let why := if host ∧ read.ok = true then s.refuses seen else s.sledRefuses
      let own := s.isOwnerFn x.host
      let busy := s.fw.stage.isSome || s.fw.wait.isSome
      let s0 := if own ∧ busy = false then s.lastRefusal why else s
      s0.guarded prog [(if own then none else some (permErr 4 none)),
          (if busy then some { status := eBusy, detail := 0 } else none), refused why,
          (if host ∧ read.ok = false then some { status := eIntegrity, detail := 0 } else none)]
        (let s1 := s.ctlWait prog
         if host then
           let s2 := s1.slotWriting
           { s2 with fw := { s2.fw with stage := some ⟨image, 0, false, some prog, read.body⟩ } }
         else { s1 with chn := { s1.chn with arm := x.gr (fA w) }, fw := { s1.fw with wait := some (prog, x.gr (fB w), s1.clk.ms) } })))

/-- FW_STAGE_TIMEOUT: 1 h without a matching offer. -/
def execFwStageTimeout (s : State) : R :=
  .next (match s.fw.wait with
    | none => s
    | some (p, _, _) =>
      let s1 : State := { s with chn := { s.chn with arm := BitVec.allOnes 64 }, fw := { s.fw with wait := none } }
      s1.failProg p { status := eTimeout, detail := 0 })

/-! ### The transfer on DOWN (17 R573, R574, R600) -/

/-- Chunks of an image with its chunk 0. -/
def chunksOf (x : Image) : Nat := x.chunks + 1

/-- Free chunk buffers. -/
def State.freeBufs (s : State) : Nat := 8 - (match s.chn.rx with
  | some r => r.bufs.length
  | none => 0)

/-- Frees the buffers of chunks that are acknowledged downstream and written, as far as the sled forwards and stores them. -/
def State.freeChunks (s : State) : State :=
  match s.chn.rx with
  | none => s
  | some r =>
    let wr := match s.fw.stage with
      | some g => if g.chain then g.written else chunksOf r.image
      | none => chunksOf r.image
    let unsent (k : Nat) : Bool := match s.chn.tx with
      | some x => r.fwd && !x.origin && (decide (x.next ≤ k) || x.out.contains k)
      | none => false
    { s with chn := { s.chn with rx := some { r with bufs := r.bufs.filter (fun b => unsent b.1 || (r.storing && decide (wr ≤ b.1))) } } }

/-- Sends a chunk on DOWN exactly as the sled holds it: out of its buffer, or out of the slot where this sled offers its own image (17 R574, R575,
R579). -/
def State.sendChunk (s : State) (x : Tx) (k : Nat) : State :=
  let held := if x.origin then (s.fw.slot s.otherSlot).body.find k else s.chn.rx.bind (fun r => r.bufs.find k)
  s.send (.chunk x.image.iseq k (held.getD 0))

/-- Sends chunks in order, never more outstanding than the last ACK reported free; after the last one is acknowledged, DONE. -/
def State.sendChunks : Nat → State → State
  | 0, s => s
  | n + 1, s =>
    match s.chn.tx with
    | none => s
    | some x =>
      let have1 := x.origin || (match s.chn.rx with
        | some r => r.got.contains x.next
        | none => false)
      if x.accepted = false ∨ x.doneSent = true then s
      else if chunksOf x.image ≤ x.next then
        (if x.out = [] then
          let s1 : State := { s with chn := { s.chn with tx := some { x with doneSent := true } } }
          s1.chainSend 1 .done x.image.iseq 0 0 []
        else s)
      else if x.credits ≤ x.out.length ∨ have1 = false then s
      else
        let s1 : State := { s with chn := { s.chn with tx := some { x with next := x.next + 1, out := x.out ++ [x.next] } } }
        State.sendChunks n (s1.sendChunk x x.next)

/-- Offers an image on DOWN. -/
def State.offerDown (s : State) (x : Image) (origin : Bool) : State :=
  let s1 : State := { s with chn := { s.chn with tx := some ⟨x, origin, false, 0, [], 0, [], false⟩ } }
  s1.chainSend 1 .offer x.iseq 0 0 [x.svn.toNat, x.version.toNat, x.setfmt.toNat, x.chunks]

/-- Whether DOWN can carry a transfer now. -/
def State.downFree (s : State) : Bool := s.chn.dn.st == 2 && s.chn.ctl.getLsbD 4 && s.chn.tx.isNone

/-- Forwarding stops: the sled keeps receiving and storing, and `XSTATE` is 3 (17 R600). -/
def State.stopForward (s : State) : State :=
  ({ s with chn := { s.chn with tx := none, xstate := 3, rx := s.chn.rx.map (fun (r : Rx) => { r with fwd := false }) } }).freeChunks

/-- A chunk has not arrived: it is sent again; the third failure aborts the transfer on the link and CHAIN_FAULT posts. -/
def State.resend (s : State) (k : Nat) : State :=
  match s.chn.tx with
  | none => s
  | some x =>
    if x.out.contains k = false then s
    else
      let n := x.fails.getD k 0 + 1
      if 3 ≤ n then
        ((s.chainSend 1 .abort x.image.iseq 0 1 []).stopForward).post (pairPost .chainFault 0 0 1 1)
      else
        let s1 : State := { s with chn := { s.chn with tx := some { x with fails := x.fails.put k n }, dn := { s.chn.dn with resent := satInc s.chn.dn.resent } } }
        s1.sendChunk x k

/-! ### The transfer on UP (17 R573 to R575) -/

/-- One entry of a settings bundle, or a management setting: an address that the store keeps and may be written from outside (17 R594;
18 R615). -/
def settable (a : Nat) (v : Nat) : Bool :=
  if a < 0x800000 then keptMask a != 0
  else match a with
    | 0xFFFF0001 => decide (20 ≤ v ∧ v ≤ 80)
    | 0xFFFF0002 => decide (1 ≤ v ∧ v ≤ 100)
    | 0xFFFF0003 => decide (1 ≤ v ∧ v ≤ 60)
    | 0xFFFF0007 => decide (1 ≤ v ∧ v ≤ 10)
    | 0xFFFF0008 => decide (v ≤ 9)
    | _ => false

/-- The default of a management setting (18 R615). -/
def State.settingDefault (s : State) (i : Nat) : Nat :=
  match i with
  | 1 => if s.hasLake then 30 else 20
  | 2 => 10
  | 3 => 5
  | 7 => 2
  | _ => 4

/-- Writes one entry as management would. -/
def State.putEntry (s : State) (a : Nat) (v : W64) : State :=
  if a < 0x800000 then s.regWrite a v (BitVec.allOnes 64) true
  else if settable a v.toNat then
    { s with mgt := { s.mgt with set := s.mgt.set.set (a % 256) (s.settingDefault (a % 256)) v.toNat } }
  else s

/-- Whether the sled applies a bundle (17 R594; 18 R614): `SET_RX`, the settings key enrolled, no lock, every entry kept. -/
def State.takesBundle (s : State) (l : List (W32 × W64)) (verifies : Bool) : Bool :=
  s.chn.ctl.getLsbD 2 && verifies && s.mgt.key.isSome && !s.mgt.lock && s.pilotRuns && s.sled.flush.isNone &&
  l.all (fun e => if e.1.toNat < 0x800000 then keptMask e.1.toNat != 0 else decide (0xFFFF0001 ≤ e.1.toNat ∧ e.1.toNat ≤ 0xFFFF0003 ∨ e.1.toNat = 0xFFFF0007 ∨ e.1.toNat = 0xFFFF0008))

/-- The transfer on UP ends with its last ACK once every chunk has been forwarded and, where the sled stores it, written. -/
def State.rxEnds (s : State) : State :=
  match s.chn.rx with
  | none => s
  | some r =>
    let sent := !r.fwd || (match s.chn.tx with
      | some x => x.origin || x.doneSent
      | none => true)
    if r.done ∧ r.got.length = chunksOf r.image ∧ r.storing = false ∧ sent = true then
      let s1 : State := { s with chn := { s.chn with rx := none, xstate := if s.chn.xstate = 3 then 3 else 0 } }
      s1.chainSend 0 .ack r.image.iseq 0xFFFFFFFF s1.freeBufs []
    else s

/-- The staging of a transfer ends without an image: its slot stays WRITING. -/
def State.stageLost (s : State) : State :=
  match s.fw.stage with
  | some g => if g.chain then ({ s with fw := { s.fw with stage := none } }).stageEnds g.prog (some { status := eIntegrity, detail := 0 }) else s
  | none => s

/-- The transfer on UP is aborted: it is forwarded no further. -/
def State.rxAbort (s : State) : State :=
  match s.chn.rx with
  | none => s
  | some _ =>
    let s1 : State := match s.chn.tx with
      | some x => if x.origin then s else
          ({ s with chn := { s.chn with tx := none } }).chainSend 1 .abort x.image.iseq 0 1 []
      | none => s
    ({ s1 with chn := { s1.chn with rx := none, xstate := 3 } }).stageLost

/-- A link register. -/
def State.link (s : State) (l : Nat) : Link := if l = 0 then s.chn.up else s.chn.dn

/-- Writes a link. -/
def State.setLink (s : State) (l : Nat) (x : Link) : State :=
  { s with chn := if l = 0 then { s.chn with up := x } else { s.chn with dn := x } }

/-- A frame that is discarded (17 R572). -/
def State.badFrame (s : State) (l : Nat) : State := s.setLink l { s.link l with crcErr := satInc (s.link l).crcErr }

/-- A frame arrives on a link: on one that is up; one whose check fails is discarded. In bypass the other link repeats it (17 R595). -/
def State.frameIn (s : State) (l : Nat) (ok : Bool) (kind : ChainKind) (words : List Nat) (f : State) : State :=
  if (s.link l).st = 3 then (if ok then s.send (.repeated (1 - l) kind words none) else s)
  else if (s.link l).st ≠ 2 then s else if ok then f else s.badFrame l

/-- CHAIN_HELLO (17 R572, R597). -/
def execChainHello (link : Fin 2) (peer : W16) (ok : Bool) (s : State) : R :=
  .next (s.frameIn link ok .hello [peer.toNat] (s.setLink link { s.link link with peerOk := true, peerId := peer, helloAt := s.clk.ms }))

/-- HELLO_TIMER: HELLO on both links (17 R573). -/
def execHelloTimer (s : State) : R :=
  .next (
    if s.awake = false ∨ s.sled.st = .dead then s
    else [0, 1].foldl (fun t l => if (t.link l).st = 2 then
        t.chainSend l .hello 0 0 0 [t.id.sledId.toNat, t.sled.st.code, t.fw.booted, (t.fw.slot t.fw.booted).iseq.toNat]
      else t) s)

/-- How the sled takes an offer for firmware (17 R575, R581, R583): it is armed for the image, or not; a program may wait for an image of one
length. The result says whether it stores the image. -/
def State.takeOffer (s : State) (x : Image) : State × Bool :=
  let arm := s.chn.arm
  let fits := match s.fw.wait with
    | some (_, len, _) => len == 0 || len.toNat == 65536 * chunksOf x
    | none => true
  let held := (s.fw.slot s.otherSlot).st == .staged && (s.fw.slot s.otherSlot).iseq == x.iseq
  if x.settings ∨ arm = BitVec.allOnes 64 ∨ (arm ≠ 0 ∧ arm ≠ x.iseq) ∨ held = true ∨ s.fw.stage.isSome = true ∨ fits = false ∨
      s.pilotRuns = false ∨ s.sled.flush.isSome = true then (s, false)
  else
    let p := s.fw.wait.map (fun w => w.1)
    let s1 : State := { s with chn := { s.chn with arm := BitVec.allOnes 64 }, fw := { s.fw with wait := none } }
    match s.refuses x with
    | some d => ((((s1.lastRefusal (some d)).post (pairPost .fwRefused 0 0 d.toNat 0))).stageEnds p (refused (some d)), false)
    | none =>
      let s2 := s1.slotWriting
      ({ s2 with fw := { s2.fw with stage := some ⟨x, 0, true, p, []⟩ } }, true)

/-- CHAIN_OFFER: images flow downward only (17 R571), so an offer on DOWN says nothing. An offer that arrives before the last transfer ended
replaces it. -/
def execChainOffer (link : Fin 2) (image : Image) (ok : Bool) (s : State) : R :=
  .next (s.frameIn link ok .offer [image.iseq.toNat, image.svn.toNat, image.version.toNat, image.setfmt.toNat, image.chunks] (
    if link = 1 then s
    else
      let p := s.rxAbort.takeOffer image
      let s1 := p.1
      let fwd := s1.chn.ctl.getLsbD 0 && s1.downFree
      let xs : Nat := if p.2 then 1 else if fwd then 2 else 0
      let r : Rx := ⟨image, p.2, fwd, [], [], false⟩
      let s2 : State := { s1 with chn := { s1.chn with rx := some r, rcvd := 0, fwded := 0, written := 0, xstate := xs } }
      let s3 := if fwd then s2.offerDown image false else s2
      s3.chainSend 0 .ack image.iseq 0xFFFFFFFF s3.freeBufs []))

/-- CHAIN_DATA: a chunk that was received before is acknowledged again. -/
def execChainData (link : Fin 2) (seq : Nat) (chunk : ChunkIn) (s : State) : R :=
  .next (
    if (s.link link).st = 3 then (if chunk.crcOk then s.send (.repeated (1 - link.val) .data [seq] (some chunk.data)) else s)
    else if (s.link link).st ≠ 2 ∨ link = 1 then s
    else match s.freeChunks.chn.rx with
      | none => if chunk.crcOk then s else s.badFrame 0
      | some r =>
        if chunk.crcOk = false then (s.badFrame 0).chainSend 0 .nak r.image.iseq seq 0 []
        else if chunksOf r.image ≤ seq then s
        else if r.got.contains seq then s.chainSend 0 .ack r.image.iseq seq s.freeBufs []
        else if s.freeChunks.freeBufs = 0 then s
        else
          let s1 : State := { s with chn := { s.chn with rx := some { r with got := r.got ++ [seq], bufs := r.bufs.put seq chunk.data }, rcvd := satInc s.chn.rcvd } }
          let s2 := (State.sendChunks 8 s1).freeChunks
          (s2.chainSend 0 .ack r.image.iseq seq s2.freeBufs []).rxEnds)

/-- CHAIN_ACK: of the offer, of DONE, or of a chunk. -/
def execChainAck (link : Fin 2) (seq : W32) (free : Nat) (ok : Bool) (s : State) : R :=
  .next (s.frameIn link ok .ack [seq.toNat, free] (
    if link = 0 then s
    else match s.chn.tx with
      | none => s
      | some x =>
        if seq = 0xFFFFFFFF#32 then
          (if x.doneSent then ({ s with chn := { s.chn with tx := none } }).freeChunks.rxEnds
           else if x.accepted then s
           else State.sendChunks 8 { s with chn := { s.chn with tx := some { x with accepted := true, credits := free } } })
        else if x.out.contains seq.toNat = false then s
        else
          let s1 : State := { s with chn := { s.chn with
            tx := some { x with out := x.out.filter (fun k => k != seq.toNat), credits := free }
            fwded := if x.origin then s.chn.fwded else satInc s.chn.fwded } }
          (State.sendChunks 8 s1.freeChunks).rxEnds))

/-- CHAIN_NAK. -/
def execChainNak (link : Fin 2) (seq : Nat) (ok : Bool) (s : State) : R :=
  .next (s.frameIn link ok .nak [seq] (if link = 0 then s else (s.resend seq).rxEnds))

/-- CHAIN_ACK_TIMEOUT. The Chain hardware of the receiver may hold an ACK through an activation pause (17 R599), which is shorter. -/
def execChainAckTimeout (link : Fin 2) (seq : Nat) (s : State) : R := .next (if link = 0 then s else (s.resend seq).rxEnds)

/-- CHAIN_DONE. A settings bundle is applied when all of it has arrived (17 R594): `verifies` says that its signature verifies under the enrolled
settings key. -/
def execChainDone (link : Fin 2) (ok : Bool) (entries : List (W32 × W64)) (verifies : Bool) (s : State) : R :=
  .next (s.frameIn link ok .done [] (
    if link = 1 then s
    else match s.chn.rx with
      | none => s
      | some r =>
        let s1 : State := { s with chn := { s.chn with rx := some { r with done := true } } }
        let apply1 := r.image.settings && !r.done && r.got.length == chunksOf r.image && s.takesBundle entries verifies
        let s2 := if apply1 then entries.foldl (fun t e => t.putEntry e.1.toNat e.2) s1 else s1
        s2.rxEnds))

/-- CHAIN_ABORT. -/
def execChainAbort (link : Fin 2) (ok : Bool) (s : State) : R := .next (s.frameIn link ok .abort [] (if link = 1 then s else s.rxAbort))

/-- CHAIN_LINK_UP: an enabled link is up; in DEAD both stay in bypass (17 R572, R595). -/
def execChainLinkUp (link : Fin 2) (s : State) : R :=
  .next (
    if s.awake = false ∨ s.sled.st = .dead ∨ s.chn.ctl.getLsbD (3 + link.val) = false then s
    else s.setLink link { s.link link with st := 2 })

/-- CHAIN_LINK_LOSS: what ran on the link ends (17 R600). -/
def execChainLinkLoss (link : Fin 2) (s : State) : R :=
  .next (
    if (s.link link).st ≠ 2 then s
    else
      let s1 := (s.setLink link { s.link link with st := 0, peerOk := false }).post (pairPost .chainFault 0 0 link.val 0)
      if link = 0 then s1.rxAbort
      else if s1.chn.tx.isSome then s1.stopForward.rxEnds else s1)

/-- Programs a chunk into a slot as it was received (17 R579). -/
def FwS.putChunk (f : FwS) (n k : Nat) (data : Option Chunk) : FwS :=
  let put (x : Slot) : Slot := data.elim x (fun c => { x with body := x.body.put k c })
  if n = 0 then { f with slot0 := put f.slot0 } else { f with slot1 := put f.slot1 }

/-- CHUNK_WRITTEN: the slot writer programs chunks in order (17 R574, R581). After the last one the slot is STAGED. -/
def execChunkWritten (seq : Nat) (s : State) : R :=
  .next (match s.fw.stage with
    | none => s
    | some g =>
      let here := !g.chain || (match s.chn.rx with
        | some r => r.got.contains seq
        | none => false)
      if seq ≠ g.written ∨ here = false then s
      else
        let data : Option Chunk := if g.chain then s.chn.rx.bind (fun r => r.bufs.find seq) else g.src[seq]?
        let s1 : State := { s with
          fw := { s.fw.putChunk s.otherSlot seq data with stage := some { g with written := seq + 1 } }
          chn := if g.chain then { s.chn with written := satInc s.chn.written } else s.chn }
        if seq + 1 < chunksOf g.image then s1.freeChunks
        else
          let x := g.image
          let n := s1.otherSlot
          let s2 : State := { s1 with
            fw := { s1.fw.setSlot n ⟨.staged, x.iseq, x.version, x.svn, x.setfmt, x.chunks, (s1.fw.slot n).body⟩ with stage := none }
            chn := { s1.chn with rx := s1.chn.rx.map (fun (r : Rx) => { r with storing := false }) } }
          let s3 := (s2.post (pairPost .fwStaged 0 0 n x.iseq.toNat)).stageEnds g.prog none
          let s4 := if g.chain = false ∧ s3.chn.ctl.getLsbD 1 = true ∧ s3.downFree = true then s3.offerDown x true else s3
          s4.freeChunks.rxEnds)

/-- SPI_PROGRAM_FAIL (17 R601): the slot is FAILED and its staging ends. A directory copy that fails is written in the other copy, which shows
nowhere. -/
def execSpiProgramFail (s : State) : R :=
  .next (match s.fw.stage with
    | none => s
    | some g =>
      let s1 : State := { s with
        fw := { s.fw.mark s.otherSlot .failed with stage := none }
        chn := { s.chn with rx := s.chn.rx.map (fun (r : Rx) => if g.chain then { r with storing := false } else r) } }
      ((s1.stageEnds g.prog (some { status := eIntegrity, detail := 0 })).freeChunks).rxEnds)

/-! ### Activation (17 R584, R585; 01 R45, R46) -/

/-- Steps 2 to 4: the pause. Entries that stay odd are rolled back first. -/
def State.beginPause (s : State) : State :=
  match s.fw.act with
  | none => s
  | some a =>
    let s1 := s.rt.stalled.foldl State.rollbackEnd s
    let s2 := ((s1.lamp.sch.filter (fun p => p.2.armed)).map (fun p => p.1)).foldl State.idleWords s1.lampStop
    let s3 := s2.traceReset 5
    { s3 with fw := { s3.fw with act := some { a with paused := true, pausedAt := s3.clk.ms } }, wd := { s3.wd with held := true } }

/-- An activation passes its checks: step 1 waits while a pseudo-channel is under PANIC. -/
def State.beginAct (s : State) (slot : Nat) (prog : Option Nat) (cause : Nat) : State :=
  let s1 : State := { s with fw := { s.fw with act := some ⟨slot, prog, false, 0, cause⟩ } }
  if (List.range 384).any (fun n => s1.pchPanic n) then s1 else s1.beginPause

/-- The state and refusal checks of an activation: the staged slot's `SVN` among them. -/
def State.actRefuses (s : State) (slot : Nat) : Option W16 :=
  match s.sledRefuses with
  | some d => some d
  | none => if (s.fw.slot slot).svn.toNat < s.fw.svn then some 0x15 else none

/-- FW.ACTIVATE. One that meets an activation under way is tried again after it. -/
def execFwActivate (prog : Nat) (s : State) : R :=
  .next (s.control prog (isOp 0x2C) (fun _ w _ => only [] w)
    (fun x _ _ =>
      if s.fw.act.isSome then s
      else
        let own := s.isOwnerFn x.host
        let slot := s.fw.inState .staged
        let why := s.actRefuses (slot.getD 0)
        let s0 := if own ∧ slot.isSome = true then s.lastRefusal why else s
        s0.guarded prog [(if slot.isSome then none else some (stateErr 0x28 none)), (if own then none else some (permErr 4 none)), refused why]
          ((s.ctlWait prog).beginAct (slot.getD 0) (some prog) 0)))

/-- ACTIVATION_PANIC_WAIT_END: no pseudo-channel is under PANIC, or 2 s have passed. -/
def execActivationPanicWaitEnd (s : State) : R :=
  .next (match s.fw.act with
    | some a => if a.paused then s else s.beginPause
    | none => s)

/-- The firmware of another slot runs: its settings format, and the record of the change in the trace. -/
def State.runsFrom (s : State) (n kind : Nat) : State :=
  ({ s with fw := s.fw.convert (s.fw.slot n).setfmt }).trace 1 9 (n + kind * 256 + ((s.fw.slot n).iseq.setWidth 32).toNat * 65536)

/-! ### Probation (17 R587, R588) -/

/-- FW.CONFIRM's effect on the slots, the SVN counter and the settings records. -/
def State.confirm (s : State) (n : Nat) : State :=
  let f := s.fw
  let o := 1 - n
  let f2 := if (f.slot o).st = .previous then f.mark2 n .running .superseded else f.mark n .running
  ({ s with fw := { f2 with svn := max f.svn (f.slot n).svn.toNat, older := none } }).post (pairPost .fwConfirmed 0 0 n 0)

/-- The slot on probation, while no fallback from it has begun (17 R599). -/
def State.onProbation (s : State) : Option Nat := if s.fw.act.isSome then none else s.fw.inState .probation

/-- FW.CONFIRM. -/
def execFwConfirm (prog : Nat) (s : State) : R :=
  .next (s.control prog (isOp 0x2D) (fun _ w _ => only [] w)
    (fun x _ _ =>
      let slot := s.onProbation
      s.guarded prog [(if slot.isSome then none else some (stateErr 0x29 none)), (if s.isOwnerFn x.host then none else some (permErr 4 none))]
        ((s.confirm (slot.getD 0)).okOn prog (fun y => y))))

/-- PROBATION_TICK: 10 minutes in READY or SERVE. Probation that ends unconfirmed falls back to PREVIOUS by an activation (17 R587, R589). -/
def execProbationTick (s : State) : R :=
  .next (
    if s.up = false ∨ (s.fw.inState .probation).isNone = true then s
    else
      let s1 : State := { s with fw := { s.fw with probEl := satInc s.fw.probEl, dseq := s.fw.dseq + 1 } }
      match s1.fw.inState .previous with
      | some n => if s1.fw.expired ∧ s1.fw.act.isNone = true then s1.beginAct n none 1 else s1
      | none => s1)

/-- SETTINGS_WRITE: the Pilot writes the changed record, and the same fields of the older one (17 R592, R593). -/
def execSettingsWrite (s : State) : R :=
  .next (
    if s.fw.dirty = false ∨ s.pilotRuns = false then s
    else
      let rec1 : Tbl W64 := ({ s with fw := { s.fw with store := s.snapSettings } }).storedFences
      let all : Tbl W64 := (s.fw.store.filter (fun p => decide (0x10000 ≤ p.1 ∧ p.1 < 0x100C8))).foldl (fun t p => t.put p.1 (t.getD p.1 0 ||| p.2)) rec1
      { s with fw := { s.fw with store := all, rseq := s.fw.rseq + 1, prev := s.fw.store, older := s.fw.older.map (fun x => (x.1, all)), dirty := false } })

end Sys2Proof.Machine
end

