-- ==== Sys2Proof/Machine/MgmtC.lean ====
section
/-! DEFINITION. Management: MCTP control messages, SPDM, the Galben commands (18 R603 to R618, R629 to R631; 17 R586, R588; 14 R496, R515).
An answer holds the facts this manual gives, in order; message framing and the rest of a payload are the standards' (assumption log 13). -/

namespace Sys2Proof.Machine

/-! ### MCTP control messages (R603) -/

/-- Answers an MCTP control message: in every state that has an endpoint. -/
def State.mctp (s : State) (words : List Nat) : State :=
  if s.awake ∨ s.sled.dark = true then s.mgmt gOk (words.map (BitVec.ofNat 64)) else s

/-- SET_ENDPOINT_ID: the bus owner assigns the endpoint ID; 0x00 and 0xFF are no ID. -/
def execSetEndpointId (eid : Byte) (s : State) : R :=
  .next (
    if s.awake = false ∧ s.sled.dark = false then s
    else if eid = 0 ∨ eid = 0xFF then s.mctp [2]
    else ({ s with mgt := { s.mgt with eid := eid } }).mctp [0, 0, eid.toNat])

/-- GET_ENDPOINT_ID. -/
def execGetEndpointId (s : State) : R := .next (s.mctp [0, s.mgt.eid.toNat])

/-- The message types of an endpoint. -/
def mctpTypes : List Nat := [0x05, 0x06, 0x7E]

/-- GET_MCTP_VERSION_SUPPORT: the base standard 1.3, and a version of each message type. -/
def execGetMctpVersionSupport (ty : Byte) (s : State) : R :=
  .next (
    if ty = 0xFF ∨ ty = 0 then s.mctp [0, 1, 0xF1F3F000]
    else if mctpTypes.contains ty.toNat then s.mctp [0, 1, (Config.stdPayload 4 ty.toNat).toNat]
    else s.mctp [0x80])

/-- GET_MESSAGE_TYPE_SUPPORT. -/
def execGetMessageTypeSupport (s : State) : R := .next (s.mctp ([0, mctpTypes.length] ++ mctpTypes))

/-- GET_VENDOR_DEFINED_MESSAGE_SUPPORT: one set, Galben's PCI vendor ID. -/
def execGetVendorDefinedMessageSupport (sel : Byte) (s : State) : R :=
  .next (if sel = 0 then s.mctp [0, 0xFF, 0, (Config.stdPayload 6 0).toNat] else s.mctp [2])

/-! ### SPDM (R611) -/

/-- Whether a carrier reaches the responder. DEAD answers identity only (17 R595). -/
def State.carrierUp (s : State) (c : Carrier) : Bool :=
  s.sled.st != .dead && (match c with
    | .bus => s.awake || s.sled.dark
    | .half n => (s.halfReg n).link == 2 || (s.halfReg n).link == 3
    | .doe h => s.reach h)

/-- Answers an SPDM request on its carrier, through the Pilot: not before its firmware runs, and not while it stalls or is replaced. -/
def State.spdm (s : State) (c : Carrier) (words : List Nat) : State :=
  if s.carrierUp c = false ∨ (s.awake = true ∧ s.pilotRuns = false) then s
  else match c with
    | .doe h => s.send (.mailbox h 0 (words.map (BitVec.ofNat 64)))
    | _ => s.mgmt gOk (words.map (BitVec.ofNat 64))

/-- Whether a request on a carrier is served. -/
def State.carrierOn (s : State) (c : Carrier) : Bool := s.carrierUp c && (s.awake == false || s.pilotRuns)

/-- An SPDM error. -/
def spdmError (code : Nat) : List Nat := [0x7F, code]

/-- Words of a payload that only the standard gives. -/
def spdmWords (code n : Nat) : List Nat := (List.range n).map (fun i => (Config.stdPayload code i).toNat)

/-- SPDM_GET_VERSION: 1.2 and 1.3. -/
def execSpdmGetVersion (on : Carrier) (s : State) : R := .next (s.spdm on [0x04, 2, 0x12, 0x13])

/-- SPDM_GET_CAPABILITIES: CERT, CHAL, MEAS with signature, MEAS_FRESH, ENCRYPT, MAC, MUT_AUTH, KEY_EX, HBEAT, KEY_UPD, as DSP0274 places
them. -/
def execSpdmGetCapabilities (on : Carrier) (s : State) : R := .next (s.spdm on [0x61, 0x63F6])

/-- SPDM_NEGOTIATE_ALGORITHMS: ECDSA P-384, SHA-384, secp384r1, AES-256-GCM. -/
def execSpdmNegotiateAlgorithms (on : Carrier) (s : State) : R := .next (s.spdm on [0x63, 0x80, 0x02, 0x10, 0x02])

/-- SPDM_GET_DIGESTS: slots 0 and 1. -/
def execSpdmGetDigests (on : Carrier) (s : State) : R := .next (s.spdm on ([0x01, 0x03] ++ spdmWords 0x81 12))

/-- SPDM_GET_CERTIFICATE. -/
def execSpdmGetCertificate (on : Carrier) (slot : Byte) (s : State) : R :=
  .next (s.spdm on (if slot.toNat < 2 then [0x02, slot.toNat] ++ spdmWords (0x8200 + slot.toNat) 8 else spdmError 1))

/-- SPDM_CHALLENGE. -/
def execSpdmChallenge (on : Carrier) (slot : Byte) (s : State) : R :=
  .next (s.spdm on (if slot.toNat < 2 then [0x03, slot.toNat] ++ spdmWords (0x8300 + slot.toNat) 12 else spdmError 1))

/-- `VARIANT` (00 R3). -/
def Variant.code : Variant → Nat
  | .l64 => 1
  | .l128 => 2
  | .p => 3

/-- A field of the booted image, for which a sled without a booted slot has no value (assumption log 10). -/
def State.bootedField (s : State) (f : Slot → Nat) : Nat := if s.fw.booted < 2 then f (s.fw.slot s.fw.booted) else (Config.stdPayload 1 0).toNat

/-- The six 64-bit words of a hash, the first bytes first. -/
def hashWords (h : BitVec 384) : List Nat := (List.range 6).map (fun i => (h.extractLsb' (64 * i) 64).toNat)

/-- The entries of the governing settings record (17 R591, R594; 18 R615): the registers and Fence Map words it holds, then the management settings, the
owner's credentials and the peer lanes at their pseudo-addresses. -/
def State.settingsEntries (s : State) : List (Nat × W64) :=
  let m := s.mgt
  s.fw.store ++ (m.set.map (fun p => (0xFFFF0000 + p.1, BitVec.ofNat 64 p.2))) ++
  m.root.elim [] (fun h => (hashWords h).zipIdx.map (fun p => (0xFFFF0100 + p.2, BitVec.ofNat 64 p.1))) ++
  (if m.lock then [(0xFFFF0106, 1#64)] else []) ++
  m.key.elim [] (fun k => (List.range 13).map (fun i => (0xFFFF0110 + i, k.extractLsb' (64 * i) 64))) ++
  m.lanes.map (fun l => (0xFFFF0200 + l.1, pack [(0, l.2.1.toNat), (16, l.2.2.toNat), (63, 1)]))

/-- The governing settings record (17 R591). -/
def State.settingsRecord (s : State) : List Byte :=
  let es := s.settingsEntries
  let body := es.flatMap (fun e => toBytes 8 e.1 ++ toBytes 8 e.2.toNat)
  let head := toBytes 4 0x5453464B ++ toBytes 4 s.fw.fmt.toNat ++ toBytes 8 s.fw.rseq.toNat ++ toBytes 4 es.length
  head ++ toBytes 4 (crc32c (head ++ body)).toNat ++ toBytes 8 0 ++ body

/-- The governing record of the slot directory (17 R577). -/
def State.directoryRecord (s : State) : List Byte :=
  let f := s.fw
  let b := toBytes 4 0x5244464B ++ toBytes 8 f.dseq.toNat ++ toBytes 1 (f.boot + 2 * bit f.fallback) ++ toBytes 1 f.slot0.st.code ++ toBytes 1 f.slot1.st.code ++
    toBytes 1 0 ++ toBytes 4 f.probEl.toNat ++ toBytes 8 f.slot0.iseq.toNat ++ toBytes 8 f.slot1.iseq.toNat ++ toBytes 24 0
  b ++ toBytes 4 (crc32c b).toNat

/-- The Fence Map bits, 1,600 of them, as bytes (14 R502). -/
def State.fenceBytes (s : State) : List Byte := (List.range 200).map (fun i =>
  BitVec.ofNat 8 ((List.range 8).foldl (fun a j => if s.evt.fmap.has (8 * i + j) then a + 2 ^ j else a) 0))

/-- The content of a measurement, by index: DMTF value type, then the facts. -/
def State.measurement (s : State) (i : Nat) : List Nat :=
  match i with
  | 1 => 0x00 :: spdmWords 0xE001 6
  | 2 => 0x01 :: hashWords (if s.fw.booted < 2 then (s.fw.slot s.fw.booted).digest else Config.sha384 [])
  | 3 => [0x06, s.bootedField (fun x => x.version.toNat)]
  | 4 => [0x07, s.bootedField (fun x => x.svn.toNat), s.fw.svn]
  | 5 => 0x03 :: hashWords (Config.sha384 s.settingsRecord)
  | 6 => [0x02, s.id.variant.code, s.diesAll] ++ hashWords (Config.sha384 s.fenceBytes)
  | _ => 0x04 :: s.directoryRecord.map (fun b => b.toNat)

/-- SPDM_GET_MEASUREMENTS: index 0 asks for the count, 0xFF for all. -/
def execSpdmGetMeasurements (on : Carrier) (index : Byte) (s : State) : R :=
  .next (
    let i := index.toNat
    s.spdm on (if i = 0 then [0x60, 7] else if i ≤ 7 then [0x60, i] ++ s.measurement i
      else if i = 0xFF then 0x60 :: ([1, 2, 3, 4, 5, 6, 7].flatMap (fun k => k :: s.measurement k)) else spdmError 1))

/-- SPDM_KEY_EXCHANGE: at most 8 sessions at once across all transports. -/
def execSpdmKeyExchange (on : Carrier) (s : State) : R :=
  .next (
    if s.carrierOn on = false then s
    else if 8 ≤ s.mgt.sess.length then s.spdm on (spdmError 0x0A)
    else match s.mgt.sess.lowestFree 8 0 with
      | none => s.spdm on (spdmError 0x0A)
      | some n =>
        let s1 : State := { s with mgt := { s.mgt with sess := s.mgt.sess.put n ⟨on, false, false, 0⟩ } }
        s1.spdm on ([0x64, n] ++ spdmWords 0xE4 12))

/-- Runs a request inside a session. -/
def State.inSession (s : State) (n : Nat) (open1 : Bool) (f : Sess → State) : State :=
  match s.mgt.sess.find n with
  | some x => if s.carrierOn x.carrier = false then s else if x.finished = open1 then f x else s.spdm x.carrier (spdmError 4)
  | none => s

/-- SPDM_FINISH: the session is open. `root` is the hash at which the requester's chain roots, where it asked for mutual authentication; under the
enrolled owner root the session carries Owner commands (R613). -/
def execSpdmFinish (session : Nat) (root : Option (BitVec 384)) (s : State) : R :=
  .next (s.inSession session false (fun x =>
    let own := root.isSome && root == s.mgt.root
    ({ s with mgt := { s.mgt with sess := s.mgt.sess.put session { x with finished := true, owner := own } } }).spdm x.carrier [0x65]))

/-- SPDM_HEARTBEAT. -/
def execSpdmHeartbeat (session : Nat) (s : State) : R := .next (s.inSession session true (fun x => s.spdm x.carrier [0x68]))

/-- SPDM_KEY_UPDATE. -/
def execSpdmKeyUpdate (session : Nat) (s : State) : R :=
  .next (s.inSession session true (fun x =>
    ({ s with mgt := { s.mgt with sess := s.mgt.sess.put session { x with keys := x.keys + 1 } } }).spdm x.carrier [0x69]))

/-- SPDM_END_SESSION. -/
def execSpdmEndSession (session : Nat) (s : State) : R :=
  .next (s.inSession session true (fun x =>
    (s.spdm x.carrier [0x6C]) |> fun t => { t with mgt := { t.mgt with sess := t.mgt.sess.del session } }))

/-! ### Identity and sensors (R606, R616, R617) -/

/-- `KDEV_IDENT` as the management port gives it: the fields of a function have no value there (assumption log 10). -/
def State.identWord (s : State) : W64 :=
  pack [(0, s.id.variant.code), (8, 0x10), (16, s.id.sledId.toNat)] ||| (Config.stdPayload 1 1 &&& 0x00007FFF00000000#64)

/-- IDENTIFY: in every state, Dark and DEAD included; the island answers it. -/
def execIdentify (s : State) : R :=
  .next (
    if s.awake = false ∧ s.sled.dark = false then s
    else s.mgmt gOk [s.identWord, s.id.serial.setWidth 64, (s.id.serial >>> 64).setWidth 64, BitVec.ofNat 64 (s.bootedField (fun x => x.version.toNat)),
      BitVec.ofNat 64 s.sled.st.code, s.sled.startFault.setWidth 64, pack [(0, bit s.mgt.root.isSome), (1, bit s.mgt.lock)]])

/-- The replacement reasons of 14 R515 as they hold now: bit r − 1 for reason r. HOLDUP_WEAK has posted since power-on. -/
def State.reasons (s : State) : Nat :=
  bit (decide (0 < s.fencedIn 532 544)) + 2 * bit (decide (8 < s.fencedIn 148 532)) + 4 * bit (decide (4 < s.fencedIn 0 96)) +
  8 * bit (decide (0 < s.fencedIn 96 100)) + 16 * bit (decide (s.sled.bridge < 8)) + 32 * bit (s.evt.advised.contains 6) +
  64 * bit (decide (2 ≤ s.lake.wear.code)) + 128 * bit (decide (16 < s.fencedIn 560 1584))

/-- The health word (R617). -/
def State.health (s : State) : Nat :=
  s.reasons + 2 ^ 8 * bit s.map.capWarn + 2 ^ 9 * bit s.map.capCrit +
  2 ^ 10 * bit ((List.range 12).any (fun k => s.tileThr k == 1 || s.tileThr k == 2)) + 2 ^ 11 * bit (s.fw.inState .probation).isSome +
  2 ^ 12 * bit s.mgt.lock + 2 ^ 13 * bit (s.sled.st == .vigil) + 2 ^ 14 * bit (s.pwr.wb == 2)

/-- A signed 16-bit reading as a sensor value. -/
def signed32 (t : W16) : Nat := (t.signExtend 32).toNat

/-- A sensor: its status, 0 valid, 1 unavailable, 2 not populated, 3 unknown ID, and its value. -/
def State.sensorOf (s : State) (id : Nat) : Nat × Nat :=
  let p := s.pwr
  let lake (v : Nat) : Nat × Nat := if s.hasLake then (0, v) else (2, 0)
  let chip (c : Nat) (t : W16) : Nat × Nat := if p.badRead.getD c 0 = 0 then (0, signed32 t) else (1, 0)
  if id < 12 then (if (s.stk id).valid then (0, signed32 (s.stk id).tNow) else (1, 0))
  else if 0x14 ≤ id ∧ id < 0x18 then
    (if s.hasLake = false then (2, 0) else if p.badRead.getD (id - 0x12) 0 = 0 then (0, signed32 (p.nandT.getD (id - 0x14) 0)) else (1, 0))
  else if (0x28 ≤ id ∧ id ≤ 0x2C) ∨ (0x30 ≤ id ∧ id ≤ 0x34) then (0, (Config.rail id s.clk.ms).toNat)
  else match id with
    | 0x10 => chip 0 p.tjw
    | 0x11 => chip 1 p.tje
    | 0x12 => (0, signed32 p.inlet)
    | 0x20 => (0, p.vin.toNat)
    | 0x21 => (0, p.iin.toNat)
    | 0x22 => (0, p.pin.toNat)
    | 0x40 => (0, p.eMeas)
    | 0x41 => (0, p.eNow)
    | 0x42 => (0, p.budget)
    | 0x43 => (0, s.dirty / 2 ^ 20)
    | 0x44 => (0, s.huState)
    | 0x50 => lake s.lake.wear.code
    | 0x51 => lake s.sparePm
    | 0x52 => lake s.peMean
    | 0x60 => (0, s.physUse * 256 / 2 ^ 30)
    | 0x61 => (0, s.physCap / 2 ^ 30)
    | 0x62 => (0, s.mgt.set.getD 1 (s.settingDefault 1))
    | 0x63 => (0, s.visible / 2 ^ 30)
    | 0x70 => (0, s.fencedIn 0 96)
    | 0x71 => (0, s.fencedIn 148 532)
    | 0x72 => (0, s.fencedIn 532 544)
    | 0x73 => lake (s.fencedIn 560 1584)
    | 0x74 => (0, s.fencedIn 544 560)
    | 0x75 => (0, s.sled.bridge)
    | 0x80 => (0, s.sled.st.code)
    | 0x81 => (0, s.pstate)
    | 0x82 => (0, if s.pwr.profile = .training then 1 else 0)
    | 0x83 => (0, s.sled.startFault.toNat)
    | 0x84 => (0, s.airReq)
    | 0x90 => (0, s.dir.recalls)
    | 0x91 => (0, s.dir.lost.length)
    | 0xA0 => (0, s.health)
    | _ => (3, 0)

/-- Sensors that the island answers alone: in Dark, and while the Pilot is stalled (R616, R630). -/
def islandSensor (id : Nat) : Bool := decide (0x20 ≤ id ∧ id ≤ 0x22) || decide (0x40 ≤ id ∧ id ≤ 0x44) || id == 0x83

/-- SENSOR: 1 to 64 IDs; not in DEAD, and not before the Pilot's firmware of a power-on start. -/
def execSensor (ids : List W16) (s : State) : R :=
  .next (
    let alone := s.awake == false || s.wd.pilotRestart
    let one (i : W16) : W64 :=
      let v := s.sensorOf i.toNat
      let st := if v.1 = 3 then v else if alone ∧ islandSensor i.toNat = false then (1, 0) else v
      pack [(0, i.toNat), (16, st.1), (32, st.2 % 2 ^ 32)]
    if s.awake = false ∧ s.sled.dark = false then s
    else if s.sled.st = .dead then s.mgmt gState []
    else if s.sled.st = .boot ∧ s.sled.boot ≠ .selfTest ∧ s.sled.warm = false then s
    else if ids = [] ∨ 64 < ids.length then s.mgmt gBadArg []
    else s.mgmt gOk (ids.map one))

/-! ### Registers, events and the trace (R607, R608, R626; 19 R642) -/

/-- BOOT to VIGIL (R606). -/
def State.bootToVigil (s : State) : Bool := s.awake && s.sled.st != .dead

/-- READY, SERVE or VIGIL. -/
def State.settled3 (s : State) : Bool := s.up || s.sled.st == .vigil

/-- REG_READ. -/
def execRegRead (addr : W32) (count : Nat) (s : State) : R :=
  .next (s.asks .bus (.regRead addr count) (s.mgmtIn .bus s.bootToVigil (
    if addr.toNat % 8 ≠ 0 ∨ 0x800000 ≤ addr.toNat ∨ count = 0 ∨ 120 < count then s.mgmt gBadArg []
    else s.mgmt gOk ((List.range count).map (fun i => s.regRead (addr.toNat + 8 * i))))))

/-- A write that the owner lock shuts to everyone but the owner is LOCKED (R614), any other one without rights NEED_OWNER. -/
def State.mgmtKept (s : State) (v : Via) (accepts kept : Bool) (f : State) : State :=
  s.mgmtIn v accepts (if s.viaOwner v then f else if s.mgt.lock ∧ kept = true then s.mgmt gLocked [] else s.mgmt gNeedOwner [])

/-- REG_WRITE. -/
def execRegWrite (addr : W32) (value : W64) (via : Via) (s : State) : R :=
  .next (s.asks via (.regWrite addr value via) (s.mgmtKept via (s.bootToVigil && s.sled.st != .duskFlush) (keptMask addr.toNat != 0) (
    if addr.toNat % 8 ≠ 0 ∨ 0x800000 ≤ addr.toNat then s.mgmt gBadArg []
    else (s.regWrite addr.toNat value (BitVec.allOnes 64) true).mgmt gOk [])))

/-- The four words of an event record (14 R495). -/
def EvRec.words (r : EvRec) : List W64 :=
  [pack [(0, r.code.toNat), (16, r.sev.toNat), (19, r.plane.toNat), (24, r.okind.toNat), (32, r.obj.toNat)],
   pack [(0, r.time.toNat), (48, r.shost.toNat), (62, r.scope.toNat)], r.p0, r.p1]

/-- EVENT_READ: acknowledges, then answers the lost count and the oldest unread records. -/
def execEventRead (ack : Nat) (max : Nat) (s : State) : R :=
  .next (s.asks .bus (.eventRead ack max) (s.mgmtIn .bus s.bootToVigil (
    if max = 0 ∨ 31 < max ∨ 65536 ≤ ack then s.mgmt gBadArg []
    else
      let rd := s.evt.mgmt
      let idx := ackIdx (s.recsFrom rd.idx) ack s.evt.prod rd.idx
      let s1 : State := { s with evt := { s.evt with mgmt := { rd with idx := idx, lost := 0 } } }
      s1.mgmt gOk (rd.lost.setWidth 64 :: ((s1.recsFrom idx).take max).flatMap (fun p => p.2.words)))))

/-- TRACE_READ: slots from the first, then `TRC_STAT` as it stands after them. -/
def execTraceRead (slot : Nat) (count : Nat) (s : State) : R :=
  .next (s.asks .bus (.traceRead slot count) (s.mgmtIn .bus s.bootToVigil (
    if count = 0 ∨ 62 < count ∨ 32768 ≤ slot then s.mgmt gBadArg []
    else s.mgmt gOk (s.trc.stat :: (List.range count).flatMap (fun i =>
      let w := s.trcSlot ((slot + i) % 32768)
      [w.1, w.2])))))

/-! ### Firmware (R606, R609; 17 R575, R586, R588) -/

/-- FIRMWARE_ARM. -/
def execFirmwareArm (iseq : W64) (via : Via) (s : State) : R :=
  .next (s.asks via (.firmwareArm iseq via) (s.mgmtOwner via s.settled3 (({ s with chn := { s.chn with arm := iseq } }).mgmt gOk [])))

/-- FIRMWARE_ACTIVATE: in VIGIL a warm restart into the staged slot, elsewhere R584. A refusal is answered REFUSED with its detail. -/
def execFirmwareActivate (via : Via) (s : State) : R :=
  .next (s.asks via (.firmwareActivate via) (s.mgmtOwner via s.settled3 (
    match s.fw.inState .staged with
    | none => s.mgmt gState []
    | some n =>
      if s.fw.act.isSome then s.mgmt gBusy []
      else match s.actRefuses n with
        | some d => (((s.lastRefusal (some d)).post (pairPost .fwRefused 0 0 d.toNat 0))).mgmt gRefused [d.setWidth 64]
        | none =>
          let s1 := s.mgmt gOk []
          if s.sled.st ≠ .vigil then s1.beginAct n none 0
          else
            let s2 : State := { s1 with fw := { s1.fw with boot := n, dseq := s1.fw.dseq + 1 } }
            if s2.sled.vigilDone = false then { s2 with sled := { s2.sled with flush := some (.restart 3) } } else s2.askRestart 3)))

/-- FIRMWARE_CONFIRM. -/
def execFirmwareConfirm (via : Via) (s : State) : R :=
  .next (s.asks via (.firmwareConfirm via) (s.mgmtOwner via s.settled3 (
    match s.onProbation with
    | some n => (s.confirm n).mgmt gOk []
    | none => s.mgmt gState [])))

/-! ### Settings and owner credentials (R612 to R615) -/

/-- SETTING_GET. -/
def execSettingGet (id : W16) (s : State) : R :=
  .next (s.asks .bus (.settingGet id) (s.mgmtIn .bus (s.bootToVigil && s.sled.st != .duskFlush) (
    match id.toNat with
    | 4 => s.mgmt gOk [BitVec.ofNat 64 s.pwr.w1]
    | 5 => s.mgmt gOk [BitVec.ofNat 64 s.pwr.w2]
    | 6 => s.mgmt gOk [BitVec.ofNat 64 s.pwr.w3]
    | i => if i = 0 ∨ 8 < i then s.mgmt gBadArg [] else s.mgmt gOk [BitVec.ofNat 64 (s.mgt.set.getD i (s.settingDefault i))])))

/-- SETTING_SET: class weights hold until the next profile switch, every other setting is kept. -/
def execSettingSet (id : W16) (value : W32) (via : Via) (s : State) : R :=
  .next (s.asks via (.settingSet id value via) (
    let i := id.toNat
    let v := value.toNat
    s.mgmtKept via (s.bootToVigil && s.sled.st != .duskFlush) (!decide (4 ≤ i ∧ i ≤ 6)) (
      if 4 ≤ i ∧ i ≤ 6 then
        (if v = 0 ∨ 64 < v then s.mgmt gBadArg []
         else
          let p := s.pwr
          ({ s with pwr := if i = 4 then { p with w1 := v } else if i = 5 then { p with w2 := v } else { p with w3 := v } }).mgmt gOk [BitVec.ofNat 64 v])
      else if settable (0xFFFF0000 + i) v then (s.putEntry (0xFFFF0000 + i) (BitVec.ofNat 64 v)).mgmt gOk [BitVec.ofNat 64 v]
      else s.mgmt gBadArg [])))

/-- OWNER_ENROL_ROOT: the first root on the bus without a session, a later one by the owner. A session that the old root authorised goes on
(R629). -/
def execOwnerEnrolRoot (hash : BitVec 384) (via : Via) (s : State) : R :=
  .next (s.asks via (.ownerEnrolRoot hash via) (s.mgmtOwner via s.settled3 (({ s with mgt := { s.mgt with root := some hash } }).mgmt gOk [])))

/-- OWNER_LOCK_SET: with a root enrolled. -/
def execOwnerLockSet (via : Via) (s : State) : R :=
  .next (s.asks via (.ownerLockSet via) (s.mgmtOwner via s.settled3 (
    if s.mgt.root.isNone then s.mgmt gNeedOwner [] else ({ s with mgt := { s.mgt with lock := true } }).mgmt gOk [])))

/-- OWNER_LOCK_CLEAR: with a root enrolled. -/
def execOwnerLockClear (via : Via) (s : State) : R :=
  .next (s.asks via (.ownerLockClear via) (s.mgmtOwner via s.settled3 (
    if s.mgt.root.isNone then s.mgmt gNeedOwner [] else ({ s with mgt := { s.mgt with lock := false } }).mgmt gOk [])))

/-- OWNER_ENROL_SETTINGS_KEY. -/
def execOwnerEnrolSettingsKey (key : BitVec 776) (via : Via) (s : State) : R :=
  .next (s.asks via (.ownerEnrolSettingsKey key via) (s.mgmtOwner via s.settled3 (({ s with mgt := { s.mgt with key := some key } }).mgmt gOk [])))

/-- OWNER_RELEASE. -/
def execOwnerRelease (via : Via) (s : State) : R :=
  .next (s.asks via (.ownerRelease via) (s.mgmtOwner via s.settled3 (
    ({ s with mgt := { s.mgt with root := none, key := none, lock := false } }).mgmt gOk [])))

/-! ### Peers, statistics, Lake format (R610, R615, R618; 07 R309) -/

/-- PEER_ENROL: the lowest free of 64 lanes. -/
def execPeerEnrol (sled : W16) (pbr : BitVec 12) (via : Via) (s : State) : R :=
  .next (s.asks via (.peerEnrol sled pbr via) (s.mgmtOwner via s.up (
    match s.mgt.lanes.lowestFree 64 0 with
    | none => s.mgmt gBusy []
    | some n => ({ s with mgt := { s.mgt with lanes := s.mgt.lanes.put n (sled, pbr) } }).mgmt gOk [BitVec.ofNat 64 n])))

/-- PEER_WITHDRAW: frames of the peer are ignored from now on. -/
def execPeerWithdraw (sled : W16) (via : Via) (s : State) : R :=
  .next (s.asks via (.peerWithdraw sled via) (s.mgmtOwner via s.up (
    if s.mgt.lanes.any (fun l => l.2.1 == sled) then
      ({ s with mgt := { s.mgt with lanes := s.mgt.lanes.filter (fun l => l.2.1 != sled) } }).mgmt gOk []
    else s.mgmt gBadArg [])))

/-- The measured ratio of a region in 1/256 (03 R132), over its OPEN, PACKED, LAKE and TARN segments, and its ZERO and PATTERN segments. DESIGN CHOICE
(assumption log 29): the ratio is rounded down to a whole 1/256; 18 R618 gives the unit and no rounding. -/
def State.ratioOf (s : State) (r : RegionId) : Nat × Nat :=
  let e := s.map.sme.filter (fun p => keyRegion p.1 == r)
  let stored := e.filter (fun p => p.2.st == .opn || p.2.st == .packed || p.2.st == .lake || p.2.st == .tarn)
  let gone := (e.filter (fun p => p.2.st != .zero && p.2.st != .pattern)).length
  let cs := (stored.map (fun p => p.2.cs)).sum
  (if cs = 0 then 0 else 256 * 16 * stored.length / cs, (s.ent r).segs - gone)

/-- STATS: a region, or a schedule with the block as it was last written. -/
def execStats (okind : Byte) (obj : W32) (s : State) : R :=
  .next (s.asks .bus (.stats okind obj) (s.mgmtIn .bus s.settled3 (
    if okind = 1 ∧ obj.toNat < 16384 ∧ (s.ent (obj.setWidth 14)).st ≠ .freed then
      let c := s.rt.cnt.getD obj.toNat ⟨0, 0, 0, 0, 0, 0⟩
      let x := s.ratioOf (obj.setWidth 14)
      s.mgmt gOk ([x.1, x.2, c.poisoned, c.lostLines, c.poisonReads, c.discarded, c.codecFault, c.sectorTag].map (BitVec.ofNat 64))
    else if okind = 4 then
      let k := ((obj.toNat / 2 ^ 16 % 2 ^ 10) * 64 + obj.toNat / 32 % 64) * 32 + obj.toNat % 32
      (match s.sched k with
        | some x => s.mgmt gOk ((List.range 6).map (fun i => BitVec.ofNat 64 (fromBytes ((x.block.drop (8 * i)).take 8))))
        | none => s.mgmt gBadArg [])
    else s.mgmt gBadArg [])))

/-- LAKE_FORMAT: in VIGIL with `VCAUSE` 0x08, once VIGIL entry has ended; the format ends in LAKE_FORMAT_DONE. -/
def execLakeFormat (sled : W16) (via : Via) (s : State) : R :=
  .next (s.asks via (.lakeFormat sled via) (s.mgmtOwner via (s.sled.st == .vigil && s.sled.vigilDone && s.wd.vcause == 8) (
    if sled ≠ s.id.sledId then s.mgmt gBadArg []
    else if s.mgt.formatting then s.mgmt gBusy []
    else ({ s with mgt := { s.mgt with formatting := true } }).mgmt gOk [])))

/-- UNSUPPORTED_COMMAND. -/
def execUnsupportedCommand (gcmd : Byte) (s : State) : R :=
  .next (s.asks .bus (.unsupportedCommand gcmd) (s.mgmtIn .bus s.awake (
    if 1 ≤ gcmd.toNat ∧ gcmd.toNat ≤ 0x0D then s else s.mgmt gUnsupported [])))

end Sys2Proof.Machine
end

