-- ==== Sys2Proof/Machine/ActC.lean ====
section
/-! DEFINITION. The end of an activation: what it held goes on (17 R584, R585, R589; 18 R629; 01 R46). -/

namespace Sys2Proof.Machine

/-- Runs a management command that an activation pause held. -/
def State.heldRun (s : State) (c : Instr) : R :=
  match c with
  | .warmRestart via => execWarmRestart via s
  | .enterVigil via => execEnterVigil via s
  | .clearTries via => execClearTries via s
  | .powerOff via => execPowerOff via s
  | .powerOn via => execPowerOn via s
  | .regRead addr count => execRegRead addr count s
  | .regWrite addr value via => execRegWrite addr value via s
  | .eventRead ack max => execEventRead ack max s
  | .traceRead slot count => execTraceRead slot count s
  | .firmwareArm iseq via => execFirmwareArm iseq via s
  | .firmwareActivate via => execFirmwareActivate via s
  | .firmwareConfirm via => execFirmwareConfirm via s
  | .settingGet id => execSettingGet id s
  | .settingSet id value via => execSettingSet id value via s
  | .ownerEnrolRoot hash via => execOwnerEnrolRoot hash via s
  | .ownerLockSet via => execOwnerLockSet via s
  | .ownerLockClear via => execOwnerLockClear via s
  | .ownerEnrolSettingsKey key via => execOwnerEnrolSettingsKey key via s
  | .ownerRelease via => execOwnerRelease via s
  | .peerEnrol sled pbr via => execPeerEnrol sled pbr via s
  | .peerWithdraw sled via => execPeerWithdraw sled via s
  | .stats okind obj => execStats okind obj s
  | .lakeFormat sled via => execLakeFormat sled via s
  | .unsupportedCommand gcmd => execUnsupportedCommand gcmd s
  | _ => .next s

/-- Every held command runs, in arrival order. -/
def State.runHeldCmds (s : State) : State :=
  s.mgt.held.foldl (fun t c => match t.heldRun c with
    | .next u => u
    | _ => t) { s with mgt := { s.mgt with held := [] } }

/-- The pause ends: held traffic and queues go on, a Dusk flush that waited begins (01 R46), and SPDM sessions are over (18 R611). -/
def State.endPause (s : State) : State :=
  let s1 : State := { s with fw := { s.fw with act := none }, mgt := { s.mgt with sess := [] } }
  let s2 := s1.applyKept.lampResume 0
  match s2.sled.flush with
  | some (.dusk t) => if s2.sled.flushCmd then s2 else s2.commandFlush t
  | _ => s2

/-- Steps 5 to 7 of R584, R585, and fallback causes 1, 4 and 5 of R589. -/
def State.verified (s : State) (ok : Bool) : State :=
  match s.fw.act with
    | none => s
    | some a =>
      let n := a.slot
      let o := 1 - n
      if a.paused = false then s
      else if a.cause = 0 then
        if ok then
          let s1 : State := { s with fw := { s.fw.mark2 n .probation .previous with boot := n, booted := n, probEl := 0, fallback := false } }
          let s2 := (s1.runsFrom n 2).endPause
          (s2.post (pairPost .fwActivated 0 0 n (s.clk.ms - a.pausedAt))).stageEnds a.prog none
        else
          let s1 : State := { s with fw := { s.fw.mark n .failed with lastFb := 4 } }
          (s1.endPause.post (pairPost .fwFallback 0 0 s1.fw.booted 4)).stageEnds a.prog (some { status := eIntegrity, detail := 0 })
      else if ok then
        let s1 : State := { s with fw := { s.fw.mark2 n .running .failed with boot := n, booted := n, fallback := false, lastFb := 1 } }
        (s1.runsFrom n 3).endPause.post (pairPost .fwFallback 0 0 n 1)
      else
        let s1 : State := { s with fw := { s.fw.mark2 n .failed .running with boot := o, lastFb := 5 } }
        s1.endPause.post (pairPost .fwFallback 0 0 o 5)

/-- ACTIVATION_VERIFY_DONE. -/
def execActivationVerifyDone (ok : Bool) (s : State) : R :=
  .next (let s1 := s.verified ok
    if s.inPause then s1.runHeldCmds else s1)

end Sys2Proof.Machine
end

