-- ==== Sys2Proof/Machine/RegC.lean ====
section
/-! DEFINITION. Host writes of registers through the BARs, and writes of the trace registers (19 R632 to R649; 07 R279, R305; 08 R319, R347,
R348; 18 R625, R628). -/

namespace Sys2Proof.Machine

/-! ### Slots (R637, R638) -/

/-- The pieces of a request: each slot it touches, with the offset in the slot and the bytes. -/
def pieces : Nat → Nat → List Byte → List (Nat × Nat × List Byte)
  | 0, _, _ => []
  | n + 1, off, b =>
    if b = [] then []
    else
      let k := 8 - off % 8
      (off - off % 8, off % 8, b.take k) :: pieces n (off + k) (b.drop k)

/-- Whether a piece acts: 4 bytes aligned to 4, or 8 bytes. -/
def pieceActs (at1 : Nat) (b : List Byte) : Bool := b.length == 8 || (b.length == 4 && at1 % 4 == 0)

/-- The written value of a piece in its slot, and the bits written. -/
def pieceVal (at1 : Nat) (b : List Byte) : W64 × W64 :=
  (BitVec.ofNat 64 (fromBytes b * 2 ^ (8 * at1)), BitVec.ofNat 64 ((2 ^ (8 * b.length) - 1) * 2 ^ (8 * at1)))

/-! ### BAR0 (R633, R645) -/

/-- `KQ_CFG`. -/
def Queue.cfgWord (x : Queue) : W64 :=
  pack [(0, bit x.enable), (1, x.kind.toNat), (3, x.bwclass.toNat), (5, x.group.toNat), (9, x.sizeM1.toNat), (21, bit x.irqEn), (24, x.runlim.toNat),
        (40, x.inflight.toNat)]

/-- A write to a slot of a queue frame. The bases and the fields of `KQ_CFG` are locked while `ENABLE` is 1 (08 R346, R347). -/
def State.queueReg (s : State) (h : HostId) (q : QueueNo) (off : Nat) (v m : W64) : State :=
  let x := s.queue h q
  match off with
  | 0 => if x.enable then s else s.setQueue h q { x with sqbase := ((x.sqbase &&& ~~~m) ||| (v &&& m)) &&& ~~~0xFFF#64 }
  | 8 => if x.enable then s else s.setQueue h q { x with cqbase := ((x.cqbase &&& ~~~m) ||| (v &&& m)) &&& ~~~0xFFF#64 }
  | 16 =>
    let c := (x.cfgWord &&& ~~~m) ||| (v &&& m)
    if x.enable then (if c.getLsbD 0 then s else s.disableQueue h q)
    else if c.getLsbD 0 then s.enableQueue h q c
    else s.setQueue h q (x.configure c)
  | _ => s

/-- `KDEV_FCTL`: `WAKE_EV`, and `FRESET` after it. -/
def State.writeFctl (s : State) (h : HostId) (v m : W64) : State :=
  let s1 := if m.getLsbD 1 then s.setFn h { s.fnOf h with wakeEv := v.getLsbD 1 } else s
  if m.getLsbD 0 ∧ v.getLsbD 0 = true then s1.hostEvent h 3 false false else s1

/-- A write to a slot of BAR0. The standard structures keep what the host wrote (assumption log 13). -/
def State.bar0Write (s : State) (h : HostId) (a : Nat) (v m : W64) : State :=
  if a = 8 then s.writeFctl h v m
  else if 0x1000 ≤ a ∧ a < 0x2000 then s.queueReg h (BitVec.ofNat 6 ((a - 0x1000) / 0x40)) (a % 0x40) v m
  else if a = 0x9008 then (if m.getLsbD 0 then s.ackWrite h (low32 v) else s)
  else if a = 0x9018 then (if m.getLsbD 0 then s.ctlWrite h (low32 v) else s)
  else if (0xA000 ≤ a ∧ a < 0xB100) ∨ (0xC000 ≤ a ∧ a < 0xC420) then
    let f := s.fnOf h
    s.setFn h { f with std := f.std.put a ((f.std.getD a (Config.stdPayload (0x10000 + a) 0) &&& ~~~m) ||| (v &&& m)) }
  else s

/-! ### BAR2 and BAR4 (R634, R635, R637) -/

/-- A write to a slot of BAR2: `KQ_SQTAIL` first, then `KQ_CQHEAD`; or a beat doorbell. -/
def State.bar2Write (s : State) (h : HostId) (a : Nat) (v m : W64) : State :=
  let q : QueueNo := BitVec.ofNat 6 (a / 0x1000)
  let o := a % 0x1000
  if 0x40000 ≤ a then s
  else if o = 0 then
    let s1 := if m.getLsbD 0 then s.tailBell h q (low32 v) else s
    if m.getLsbD 32 then s1.headBell h q (low32 (v >>> 32)) else s1
  else if 0x800 ≤ o ∧ o < 0x900 then (if (s.queue h q).st = .running then s.beatWrite h q ((o - 0x800) / 8) (v &&& m) 0 else s)
  else s

/-- A write to a slot of BAR4: the sled-global space on the owner function. A write of the peer window is a command of its own. -/
def State.bar4Write (s : State) (h : HostId) (a : Nat) (v m : W64) : State :=
  if s.isOwnerFn h ∧ a < 0x800000 then s.regWrite a v m false else s

/-- REGISTER_WRITE: each piece acts on its slot, in ascending order; other pieces are ignored (R638, R641). -/
def execRegisterWrite (host : HostId) (bar : Bar) (off : Nat) (bytes : List Byte) (s : State) : R :=
  .next ((pieces bytes.length off bytes).foldl (fun t p =>
    if t.barOpen host = false ∨ pieceActs p.2.1 p.2.2 = false then t
    else
      let w := pieceVal p.2.1 p.2.2
      match bar with
      | .bar0 => t.bar0Write host p.1 w.1 w.2
      | .bar2 => t.bar2Write host p.1 w.1 w.2
      | .bar4 => t.bar4Write host p.1 w.1 w.2) s)

/-! ### The trace registers (18 R625, R627, R628) -/

/-- TRC_RESTART: a write of 1 to `RESTART`. -/
def execTrcRestart (s : State) : R := .next (if s.bootToVigil then { s with trc := s.trc.restart } else s)

/-- TRC_FREEZE: a write of 1 to `FREEZE`. -/
def execTrcFreeze (s : State) : R := .next (if s.bootToVigil then { s with trc := s.trc.freeze true } else s)

/-- TRC_MARK_WRITE. -/
def execTrcMarkWrite (value : W64) (s : State) : R := .next (if s.bootToVigil then s.writeMark (fld value 0 48) else s)

end Sys2Proof.Machine
end

