-- ==== Sys2Proof/Machine/Back.lean ====
section
/-! DEFINITION. The millisecond: STORE_CLOCK_TICK advances the clocks and runs, once per ms, the engines that act on their own (assumption
log 1; 02 R61, R63 to R66, R82 to R87, R97; 06 R240, R241; 09 R371, R372; 11 R414; 13 R463, R471, R472; 17 R597). -/

namespace Sys2Proof.Machine

/-! ### The engines -/

/-- Misses of a channel group that is not Lit ask for its wake (05 R220; 13 R472). -/
def State.wakeGroups (s : State) : State :=
  s.lake.misses.foldl (fun t m => match (t.sme (keyRegion m.1) (keySeg m.1)).home with
    | some (.flash f _) =>
      let i := 16 + f % 32 / 8
      if (t.ledger i).perm ≠ 0 ∧ (t.ledger i).st ≠ .lit ∧ (t.ledger i).asks = false then t.askWake i else t
    | _ => t) s

/-- What a held request waits for that no command of its own resolves. -/
def Held.waits : Held → Bool
  | .token | .space | .admission | .wake | .bank => true
  | _ => false

/-- The engines of a sled in READY or SERVE, one after the other. -/
def State.runEngines (s : State) : State :=
  let s1 := (s.rerun (fun x => x.why.waits) .ok 0).fixOffers
  let s2 := s1.runRevokes.runOps.runPeers
  let s3 := s2.reclaim.writeback
  let s4 := (s3.gcFlags.trimMap).lampPlace 0
  let s5 := s4.settleAcks.rtFlags.capCheck
  let s6 := s5.wakeGroups
  let s7 := if s6.pilotGrants then s6.answerAll else s6
  s7.safeUpdate.wakePf

/-- A HELLO older than 300 ms no longer counts (17 R597). -/
def Link.fade (l : Link) (now : Nat) : Link := if l.peerOk ∧ 300 < now - l.helloAt then { l with peerOk := false } else l

/-- One ms of every clock and counter. The store clock counts from BOOT; the ride-through timer while the sag lasts. -/
def State.msTick (s : State) : State :=
  let on := s.sled.st != .off
  let now := s.clk.ms + 1
  let s1 : State := { s with
    clk := { s.clk with ms := now, store := if on then s.clk.store + 1 else s.clk.store }
    pwr := if s.pwr.sag then { s.pwr with ride := s.pwr.ride + 1 } else s.pwr
    pond := { s.pond with pch := s.pond.pch.map (fun p => if p.2.parity then (p.1, { p.2 with parity := false }) else p) }
    chn := { s.chn with up := s.chn.up.fade now, dn := s.chn.dn.fade now } }
  s1.wdTick

/-- STORE_CLOCK_TICK. -/
def execStoreClockTick (s : State) : R := .next (let s1 := s.msTick; if s1.up then s1.runEngines else s1)

end Sys2Proof.Machine
end

