-- ==== Sys2Proof/Machine/Dispatch.lean ====
section
/-! DEFINITION. The dispatch: one arm per command. -/

namespace Sys2Proof.Machine

def exec (i : Instr) (s : State) : Host.Outcome State Fault Refusal :=
  match i with
  | .memRd half spid dpa nocache chk => Sys2Proof.Machine.execMemRd half spid dpa nocache chk s
  | .memRdData half spid dpa chk => Sys2Proof.Machine.execMemRdData half spid dpa chk s
  | .memInv half spid dpa => Sys2Proof.Machine.execMemInv half spid dpa s
  | .memWr half spid dpa data poison keep chk pick => Sys2Proof.Machine.execMemWr half spid dpa data poison keep chk pick s
  | .memWrPtl half spid dpa data mask poison chk pick => Sys2Proof.Machine.execMemWrPtl half spid dpa data mask poison chk pick s
  | .memSpecRd half spid dpa => Sys2Proof.Machine.execMemSpecRd half spid dpa s
  | .biSnoopResponse host region line modified data chk pick => Sys2Proof.Machine.execBiSnoopResponse host region line modified data chk pick s
  | .biSnoopTimeout host region line chk pick => Sys2Proof.Machine.execBiSnoopTimeout host region line chk pick s
  | .heldRequestResume req chk pick => Sys2Proof.Machine.execHeldRequestResume req chk pick s
  | .rtRollback region => Sys2Proof.Machine.execRtRollback region s
  | .narrowingChangeDrained region => Sys2Proof.Machine.execNarrowingChangeDrained region s
  | .lakeReadComplete region seg outcome pick => Sys2Proof.Machine.execLakeReadComplete region seg outcome pick s
  | .storeHoldTimeout req => Sys2Proof.Machine.execStoreHoldTimeout req s
  | .moveCopyDone move ok src pick => Sys2Proof.Machine.execMoveCopyDone move ok src pick s
  | .moveSourceRelease rel => Sys2Proof.Machine.execMoveSourceRelease rel s
  | .imagePlaced move copy pick => Sys2Proof.Machine.execImagePlaced move copy pick s
  | .imageRelease rel => Sys2Proof.Machine.execImageRelease rel s
  | .ageClockTick => Sys2Proof.Machine.execAgeClockTick s
  | .storeClockTick => Sys2Proof.Machine.execStoreClockTick s
  | .ageSweep => Sys2Proof.Machine.execAgeSweep s
  | .packDelayExpiry region seg => Sys2Proof.Machine.execPackDelayExpiry region seg s
  | .trialPackDone region seg lzv exp chk pick => Sys2Proof.Machine.execTrialPackDone region seg lzv exp chk pick s
  | .urgencyThreshold pch port pct => Sys2Proof.Machine.execUrgencyThreshold pch port pct s
  | .panicAssert half => Sys2Proof.Machine.execPanicAssert half s
  | .panicClear half => Sys2Proof.Machine.execPanicClear half s
  | .refreshDue pch bank => Sys2Proof.Machine.execRefreshDue pch bank s
  | .steadyRefreshDue pch => Sys2Proof.Machine.execSteadyRefreshDue pch s
  | .stackTempRead stack temp => Sys2Proof.Machine.execStackTempRead stack temp s
  | .refModeBoundary pch => Sys2Proof.Machine.execRefModeBoundary pch s
  | .pdTimerExpiry pch sid => Sys2Proof.Machine.execPdTimerExpiry pch sid s
  | .retrainRequest pch => Sys2Proof.Machine.execRetrainRequest pch s
  | .retrainStart pch => Sys2Proof.Machine.execRetrainStart pch s
  | .retrainPanicTimeout pch => Sys2Proof.Machine.execRetrainPanicTimeout pch s
  | .retrainDone pch ok => Sys2Proof.Machine.execRetrainDone pch ok s
  | .ceWindowEnd pch => Sys2Proof.Machine.execCeWindowEnd pch s
  | .commandParityError pch => Sys2Proof.Machine.execCommandParityError pch s
  | .scrubDue pch sector chk pick => Sys2Proof.Machine.execScrubDue pch sector chk pick s
  | .pchStall pch => Sys2Proof.Machine.execPchStall pch s
  | .stackInitTimeout stack => Sys2Proof.Machine.execStackInitTimeout stack s
  | .pondStartupDone failed => Sys2Proof.Machine.execPondStartupDone failed s
  | .stripeTimer stripe => Sys2Proof.Machine.execStripeTimer stripe s
  | .stripeProgrammed stripe bad => Sys2Proof.Machine.execStripeProgrammed stripe bad s
  | .checkpointDue => Sys2Proof.Machine.execCheckpointDue s
  | .gcSuperblockDone sb eraseOk => Sys2Proof.Machine.execGcSuperblockDone sb eraseOk s
  | .patrolDue sb retry3 rebuilt => Sys2Proof.Machine.execPatrolDue sb retry3 rebuilt s
  | .programFail stripe ch => Sys2Proof.Machine.execProgramFail stripe ch s
  | .eraseFail sb member => Sys2Proof.Machine.execEraseFail sb member s
  | .wearEval => Sys2Proof.Machine.execWearEval s
  | .lakeDieFail die => Sys2Proof.Machine.execLakeDieFail die s
  | .lakeMountDone read lost => Sys2Proof.Machine.execLakeMountDone read lost s
  | .regionNew prog list stall => Sys2Proof.Machine.execRegionNew prog list stall s
  | .regionGrantHost prog => Sys2Proof.Machine.execRegionGrantHost prog s
  | .regionGrantLend prog => Sys2Proof.Machine.execRegionGrantLend prog s
  | .regionGrantPeer prog => Sys2Proof.Machine.execRegionGrantPeer prog s
  | .regionRevoke prog => Sys2Proof.Machine.execRegionRevoke prog s
  | .regionSeal prog stall pick => Sys2Proof.Machine.execRegionSeal prog stall pick s
  | .regionKeep prog stall => Sys2Proof.Machine.execRegionKeep prog stall s
  | .regionFree prog stall => Sys2Proof.Machine.execRegionFree prog stall s
  | .regionReleaseDone region => Sys2Proof.Machine.execRegionReleaseDone region s
  | .pin prog => Sys2Proof.Machine.execPin prog s
  | .unpin prog => Sys2Proof.Machine.execUnpin prog s
  | .moveTier prog => Sys2Proof.Machine.execMoveTier prog s
  | .moveFill prog => Sys2Proof.Machine.execMoveFill prog s
  | .movePeerPush prog view => Sys2Proof.Machine.execMovePeerPush prog view s
  | .movePeerPull prog peer => Sys2Proof.Machine.execMovePeerPull prog peer s
  | .evacuate prog peerOk stall => Sys2Proof.Machine.execEvacuate prog peerOk stall s
  | .powerProfile prog => Sys2Proof.Machine.execPowerProfile prog s
  | .profileSwitchDone => Sys2Proof.Machine.execProfileSwitchDone s
  | .fwStage prog image read => Sys2Proof.Machine.execFwStage prog image read s
  | .fwActivate prog => Sys2Proof.Machine.execFwActivate prog s
  | .fwConfirm prog => Sys2Proof.Machine.execFwConfirm prog s
  | .addDynamicCapacityResponse host offer accept stall => Sys2Proof.Machine.execAddDynamicCapacityResponse host offer accept stall s
  | .grantOfferTimeout offer => Sys2Proof.Machine.execGrantOfferTimeout offer s
  | .revokeTimeout grant stall => Sys2Proof.Machine.execRevokeTimeout grant stall s
  | .releaseDynamicCapacity host grant stall => Sys2Proof.Machine.execReleaseDynamicCapacity host grant stall s
  | .getDynamicCapacityConfiguration host => Sys2Proof.Machine.execGetDynamicCapacityConfiguration host s
  | .getDynamicCapacityExtentList host => Sys2Proof.Machine.execGetDynamicCapacityExtentList host s
  | .identifyMemoryDevice host => Sys2Proof.Machine.execIdentifyMemoryDevice host s
  | .getEventRecords host => Sys2Proof.Machine.execGetEventRecords host s
  | .clearEventRecords host => Sys2Proof.Machine.execClearEventRecords host s
  | .getHealthInfo host => Sys2Proof.Machine.execGetHealthInfo host s
  | .getSupportedLogs host => Sys2Proof.Machine.execGetSupportedLogs host s
  | .mailboxUnsupported host opcode => Sys2Proof.Machine.execMailboxUnsupported host opcode s
  | .doeCdat host => Sys2Proof.Machine.execDoeCdat host s
  | .presenceSweep => Sys2Proof.Machine.execPresenceSweep s
  | .perstAssert pg => Sys2Proof.Machine.execPerstAssert pg s
  | .perstRelease pg => Sys2Proof.Machine.execPerstRelease pg s
  | .hotReset half => Sys2Proof.Machine.execHotReset half s
  | .linkDown half => Sys2Proof.Machine.execLinkDown half s
  | .functionLevelReset host => Sys2Proof.Machine.execFunctionLevelReset host s
  | .cxlReset host => Sys2Proof.Machine.execCxlReset host s
  | .freset host => Sys2Proof.Machine.execFreset host s
  | .kdevBindWrite host value => Sys2Proof.Machine.execKdevBindWrite host value s
  | .d3coldEntry host => Sys2Proof.Machine.execD3coldEntry host s
  | .d3hotEntry host => Sys2Proof.Machine.execD3hotEntry host s
  | .d0Entry host => Sys2Proof.Machine.execD0Entry host s
  | .linkReturn half train => Sys2Proof.Machine.execLinkReturn half train s
  | .busMasterDisable host => Sys2Proof.Machine.execBusMasterDisable host s
  | .rtStreamIdle half host region => Sys2Proof.Machine.execRtStreamIdle half host region s
  | .tarnReadComplete region seg chk pick => Sys2Proof.Machine.execTarnReadComplete region seg chk pick s
  | .completionTimeout req => Sys2Proof.Machine.execCompletionTimeout req s
  | .peerDataFrame pbr frame crcOk pick => Sys2Proof.Machine.execPeerDataFrame pbr frame crcOk pick s
  | .peerPullFrame pbr frame check => Sys2Proof.Machine.execPeerPullFrame pbr frame check s
  | .peerAckFrame pbr frame check => Sys2Proof.Machine.execPeerAckFrame pbr frame check s
  | .peerNakFrame pbr frame crcOk => Sys2Proof.Machine.execPeerNakFrame pbr frame crcOk s
  | .peerDoneFrame pbr frame crcOk => Sys2Proof.Machine.execPeerDoneFrame pbr frame crcOk s
  | .l1IdleExpiry half => Sys2Proof.Machine.execL1IdleExpiry half s
  | .l0pRequest half width => Sys2Proof.Machine.execL0pRequest half width s
  | .correctedLinkError half => Sys2Proof.Machine.execCorrectedLinkError half s
  | .malformedTlp half => Sys2Proof.Machine.execMalformedTlp half s
  | .ideCheckFail half => Sys2Proof.Machine.execIdeCheckFail half s
  | .sqTailWrite host q value => Sys2Proof.Machine.execSqTailWrite host q value s
  | .cqHeadWrite host q value => Sys2Proof.Machine.execCqHeadWrite host q value s
  | .queueEnable host q cfg => Sys2Proof.Machine.execQueueEnable host q cfg s
  | .queueDisable host q => Sys2Proof.Machine.execQueueDisable host q s
  | .queueDrained host q => Sys2Proof.Machine.execQueueDrained host q s
  | .descriptorFetchDone host q desc words chk => Sys2Proof.Machine.execDescriptorFetchDone host q desc words chk s
  | .descriptorFetchFail host q => Sys2Proof.Machine.execDescriptorFetchFail host q s
  | .completionPostFail host q => Sys2Proof.Machine.execCompletionPostFail host q s
  | .programDispatch host q pick => Sys2Proof.Machine.execProgramDispatch host q pick s
  | .runLimitExpiry prog => Sys2Proof.Machine.execRunLimitExpiry prog s
  | .dispatcherStall => Sys2Proof.Machine.execDispatcherStall s
  | .commitWriteDone prog chk pick => Sys2Proof.Machine.execCommitWriteDone prog chk pick s
  | .feederStreamIdle prog region => Sys2Proof.Machine.execFeederStreamIdle prog region s
  | .br prog => Sys2Proof.Machine.execBr prog s
  | .loop prog => Sys2Proof.Machine.execLoop prog s
  | .waitTime prog => Sys2Proof.Machine.execWaitTime prog s
  | .waitBeat prog => Sys2Proof.Machine.execWaitBeat prog s
  | .waitSignal prog => Sys2Proof.Machine.execWaitSignal prog s
  | .waitTimeout prog => Sys2Proof.Machine.execWaitTimeout prog s
  | .signal prog => Sys2Proof.Machine.execSignal prog s
  | .kick prog => Sys2Proof.Machine.execKick prog s
  | .fence prog => Sys2Proof.Machine.execFence prog s
  | .halt prog => Sys2Proof.Machine.execHalt prog s
  | .movs prog => Sys2Proof.Machine.execMovs prog s
  | .ld prog chk => Sys2Proof.Machine.execLd prog chk s
  | .st prog => Sys2Proof.Machine.execSt prog s
  | .gather prog chk => Sys2Proof.Machine.execGather prog chk s
  | .scatter prog => Sys2Proof.Machine.execScatter prog s
  | .prefetch prog => Sys2Proof.Machine.execPrefetch prog s
  | .vmac prog => Sys2Proof.Machine.execVmac prog s
  | .vdot prog => Sys2Proof.Machine.execVdot prog s
  | .deq prog => Sys2Proof.Machine.execDeq prog s
  | .smaxp prog => Sys2Proof.Machine.execSmaxp prog s
  | .topk prog => Sys2Proof.Machine.execTopk prog s
  | .red prog => Sys2Proof.Machine.execRed prog s
  | .cvt prog => Sys2Proof.Machine.execCvt prog s
  | .schedStep prog => Sys2Proof.Machine.execSchedStep prog s
  | .schedLoad prog chk => Sys2Proof.Machine.execSchedLoad prog chk s
  | .schedArm prog chk pick => Sys2Proof.Machine.execSchedArm prog chk pick s
  | .schedDisarm prog chk pick => Sys2Proof.Machine.execSchedDisarm prog chk pick s
  | .beat prog => Sys2Proof.Machine.execBeat prog s
  | .beatDoorbell host q sch value chk pick => Sys2Proof.Machine.execBeatDoorbell host q sch value chk pick s
  | .instancePlaced host q sch step pick => Sys2Proof.Machine.execInstancePlaced host q sch step pick s
  | .deadlineExpiry host q sch step pick => Sys2Proof.Machine.execDeadlineExpiry host q sch step pick s
  | .scheduleTakeover lantern pick => Sys2Proof.Machine.execScheduleTakeover lantern pick s
  | .supplyRange vin => Sys2Proof.Machine.execSupplyRange vin s
  | .supplySag vin => Sys2Proof.Machine.execSupplySag vin s
  | .sagEnd vin => Sys2Proof.Machine.execSagEnd vin s
  | .sagTimerReset => Sys2Proof.Machine.execSagTimerReset s
  | .rideThroughExpiry => Sys2Proof.Machine.execRideThroughExpiry s
  | .overvoltage vin => Sys2Proof.Machine.execOvervoltage vin s
  | .overcurrent => Sys2Proof.Machine.execOvercurrent s
  | .pilotDuskTimeout => Sys2Proof.Machine.execPilotDuskTimeout s
  | .duskFlushEnd => Sys2Proof.Machine.execDuskFlushEnd s
  | .inputStable => Sys2Proof.Machine.execInputStable s
  | .holdupMeasure joules ok => Sys2Proof.Machine.execHoldupMeasure joules ok s
  | .storeAdmitTimeout req pick => Sys2Proof.Machine.execStoreAdmitTimeout req pick s
  | .writebackEscalate => Sys2Proof.Machine.execWritebackEscalate s
  | .ledgerRequest entry ceil perm => Sys2Proof.Machine.execLedgerRequest entry ceil perm s
  | .ledgerGrant entry ceil perm => Sys2Proof.Machine.execLedgerGrant entry ceil perm s
  | .ledgerAck entry seq => Sys2Proof.Machine.execLedgerAck entry seq s
  | .ledgerForced entry => Sys2Proof.Machine.execLedgerForced entry s
  | .ledgerIdleLower entry => Sys2Proof.Machine.execLedgerIdleLower entry s
  | .hwWakeGrant entry => Sys2Proof.Machine.execHwWakeGrant entry s
  | .governorEstimate entry draw => Sys2Proof.Machine.execGovernorEstimate entry draw s
  | .capSample vin iin pin => Sys2Proof.Machine.execCapSample vin iin pin s
  | .trimIdleExpiry entry => Sys2Proof.Machine.execTrimIdleExpiry entry s
  | .bankIdleExpiry entry => Sys2Proof.Machine.execBankIdleExpiry entry s
  | .trimmedPermTimer tile => Sys2Proof.Machine.execTrimmedPermTimer tile s
  | .tileWakeDone tile lockOk => Sys2Proof.Machine.execTileWakeDone tile lockOk s
  | .thermalRead tjw tje inlet nand0 nand1 nand2 nand3 => Sys2Proof.Machine.execThermalRead tjw tje inlet nand0 nand1 nand2 nand3 s
  | .rcCalibrate factor => Sys2Proof.Machine.execRcCalibrate factor s
  | .crystalFail => Sys2Proof.Machine.execCrystalFail s
  | .fastRefFail ref => Sys2Proof.Machine.execFastRefFail ref s
  | .tilePllLockFail tile => Sys2Proof.Machine.execTilePllLockFail tile s
  | .stackPllLockFail stack => Sys2Proof.Machine.execStackPllLockFail stack s
  | .fenceSet bit cause set => Sys2Proof.Machine.execFenceSet bit cause set s
  | .fenceRecovery bit lost => Sys2Proof.Machine.execFenceRecovery bit lost s
  | .kevtAckWrite host value => Sys2Proof.Machine.execKevtAckWrite host value s
  | .kevtLostRead host => Sys2Proof.Machine.execKevtLostRead host s
  | .kevtCtlWrite host value => Sys2Proof.Machine.execKevtCtlWrite host value s
  | .eventVectorSpacing host => Sys2Proof.Machine.execEventVectorSpacing host s
  | .latchOpen => Sys2Proof.Machine.execLatchOpen s
  | .bridgeLinkFail => Sys2Proof.Machine.execBridgeLinkFail s
  | .wdpStart cfg => Sys2Proof.Machine.execWdpStart cfg s
  | .wdpService key => Sys2Proof.Machine.execWdpService key s
  | .wdpEarlyWarning => Sys2Proof.Machine.execWdpEarlyWarning s
  | .wdpTimeout => Sys2Proof.Machine.execWdpTimeout s
  | .wdpOscFail => Sys2Proof.Machine.execWdpOscFail s
  | .wdeService n key => Sys2Proof.Machine.execWdeService n key s
  | .wdeTimeout n => Sys2Proof.Machine.execWdeTimeout n s
  | .wdeClockMonitor n => Sys2Proof.Machine.execWdeClockMonitor n s
  | .wdeDisableKey n key => Sys2Proof.Machine.execWdeDisableKey n key s
  | .wdeEnable n cfg => Sys2Proof.Machine.execWdeEnable n cfg s
  | .wdeLock n cfg => Sys2Proof.Machine.execWdeLock n cfg s
  | .unitRestartDone n failed => Sys2Proof.Machine.execUnitRestartDone n failed s
  | .keepFlushDone => Sys2Proof.Machine.execKeepFlushDone s
  | .warmRestart via => Sys2Proof.Machine.execWarmRestart via s
  | .enterVigil via => Sys2Proof.Machine.execEnterVigil via s
  | .clearTries via => Sys2Proof.Machine.execClearTries via s
  | .powerOff via => Sys2Proof.Machine.execPowerOff via s
  | .powerOn via => Sys2Proof.Machine.execPowerOn via s
  | .resetButtonRelease ms => Sys2Proof.Machine.execResetButtonRelease ms s
  | .resetButton10s => Sys2Proof.Machine.execResetButton10s s
  | .resetFaulty => Sys2Proof.Machine.execResetFaulty s
  | .resetButtonRestored => Sys2Proof.Machine.execResetButtonRestored s
  | .coldStart => Sys2Proof.Machine.execColdStart s
  | .railFault => Sys2Proof.Machine.execRailFault s
  | .railRetry ok => Sys2Proof.Machine.execRailRetry ok s
  | .imageVerifyDone slot ok record pilotOk => Sys2Proof.Machine.execImageVerifyDone slot ok record pilotOk s
  | .selfTestDone found => Sys2Proof.Machine.execSelfTestDone found s
  | .selfTestTimeout unfinished => Sys2Proof.Machine.execSelfTestTimeout unfinished s
  | .trainComplete halves => Sys2Proof.Machine.execTrainComplete halves s
  | .chainHello link peer ok => Sys2Proof.Machine.execChainHello link peer ok s
  | .helloTimer => Sys2Proof.Machine.execHelloTimer s
  | .chainOffer link image ok => Sys2Proof.Machine.execChainOffer link image ok s
  | .chainData link seq chunk => Sys2Proof.Machine.execChainData link seq chunk s
  | .chainAck link seq free ok => Sys2Proof.Machine.execChainAck link seq free ok s
  | .chainNak link seq ok => Sys2Proof.Machine.execChainNak link seq ok s
  | .chainDone link ok entries verifies => Sys2Proof.Machine.execChainDone link ok entries verifies s
  | .chainAbort link ok => Sys2Proof.Machine.execChainAbort link ok s
  | .chainAckTimeout link seq => Sys2Proof.Machine.execChainAckTimeout link seq s
  | .chainLinkUp link => Sys2Proof.Machine.execChainLinkUp link s
  | .chainLinkLoss link => Sys2Proof.Machine.execChainLinkLoss link s
  | .chunkWritten seq => Sys2Proof.Machine.execChunkWritten seq s
  | .spiProgramFail => Sys2Proof.Machine.execSpiProgramFail s
  | .fwStageTimeout => Sys2Proof.Machine.execFwStageTimeout s
  | .activationPanicWaitEnd => Sys2Proof.Machine.execActivationPanicWaitEnd s
  | .activationVerifyDone ok => Sys2Proof.Machine.execActivationVerifyDone ok s
  | .probationTick => Sys2Proof.Machine.execProbationTick s
  | .settingsWrite => Sys2Proof.Machine.execSettingsWrite s
  | .setEndpointId eid => Sys2Proof.Machine.execSetEndpointId eid s
  | .getEndpointId => Sys2Proof.Machine.execGetEndpointId s
  | .getMctpVersionSupport ty => Sys2Proof.Machine.execGetMctpVersionSupport ty s
  | .getMessageTypeSupport => Sys2Proof.Machine.execGetMessageTypeSupport s
  | .getVendorDefinedMessageSupport sel => Sys2Proof.Machine.execGetVendorDefinedMessageSupport sel s
  | .spdmGetVersion on => Sys2Proof.Machine.execSpdmGetVersion on s
  | .spdmGetCapabilities on => Sys2Proof.Machine.execSpdmGetCapabilities on s
  | .spdmNegotiateAlgorithms on => Sys2Proof.Machine.execSpdmNegotiateAlgorithms on s
  | .spdmGetDigests on => Sys2Proof.Machine.execSpdmGetDigests on s
  | .spdmGetCertificate on slot => Sys2Proof.Machine.execSpdmGetCertificate on slot s
  | .spdmChallenge on slot => Sys2Proof.Machine.execSpdmChallenge on slot s
  | .spdmGetMeasurements on index => Sys2Proof.Machine.execSpdmGetMeasurements on index s
  | .spdmKeyExchange on => Sys2Proof.Machine.execSpdmKeyExchange on s
  | .spdmFinish session root => Sys2Proof.Machine.execSpdmFinish session root s
  | .spdmHeartbeat session => Sys2Proof.Machine.execSpdmHeartbeat session s
  | .spdmKeyUpdate session => Sys2Proof.Machine.execSpdmKeyUpdate session s
  | .spdmEndSession session => Sys2Proof.Machine.execSpdmEndSession session s
  | .identify => Sys2Proof.Machine.execIdentify s
  | .sensor ids => Sys2Proof.Machine.execSensor ids s
  | .regRead addr count => Sys2Proof.Machine.execRegRead addr count s
  | .regWrite addr value via => Sys2Proof.Machine.execRegWrite addr value via s
  | .eventRead ack max => Sys2Proof.Machine.execEventRead ack max s
  | .traceRead slot count => Sys2Proof.Machine.execTraceRead slot count s
  | .firmwareArm iseq via => Sys2Proof.Machine.execFirmwareArm iseq via s
  | .firmwareActivate via => Sys2Proof.Machine.execFirmwareActivate via s
  | .firmwareConfirm via => Sys2Proof.Machine.execFirmwareConfirm via s
  | .settingGet id => Sys2Proof.Machine.execSettingGet id s
  | .settingSet id value via => Sys2Proof.Machine.execSettingSet id value via s
  | .ownerEnrolRoot hash via => Sys2Proof.Machine.execOwnerEnrolRoot hash via s
  | .ownerLockSet via => Sys2Proof.Machine.execOwnerLockSet via s
  | .ownerLockClear via => Sys2Proof.Machine.execOwnerLockClear via s
  | .ownerEnrolSettingsKey key via => Sys2Proof.Machine.execOwnerEnrolSettingsKey key via s
  | .ownerRelease via => Sys2Proof.Machine.execOwnerRelease via s
  | .peerEnrol sled pbr via => Sys2Proof.Machine.execPeerEnrol sled pbr via s
  | .peerWithdraw sled via => Sys2Proof.Machine.execPeerWithdraw sled via s
  | .stats okind obj => Sys2Proof.Machine.execStats okind obj s
  | .lakeFormat sled via => Sys2Proof.Machine.execLakeFormat sled via s
  | .unsupportedCommand gcmd => Sys2Proof.Machine.execUnsupportedCommand gcmd s
  | .trcRestart => Sys2Proof.Machine.execTrcRestart s
  | .trcFreeze => Sys2Proof.Machine.execTrcFreeze s
  | .trcMarkWrite value => Sys2Proof.Machine.execTrcMarkWrite value s
  | .registerWrite host bar off bytes => Sys2Proof.Machine.execRegisterWrite host bar off bytes s
  | .holdupStoreExhausted written => Sys2Proof.Machine.execHoldupStoreExhausted written s
  | .holdupChargeComplete joules => Sys2Proof.Machine.execHoldupChargeComplete joules s
  | .ideKmMessage half start => Sys2Proof.Machine.execIdeKmMessage half start s
  | .peerMoveTimeout tag => Sys2Proof.Machine.execPeerMoveTimeout tag s
  | .linkPowerStateChange half link => Sys2Proof.Machine.execLinkPowerStateChange half link s
  | .lakeFormatDone => Sys2Proof.Machine.execLakeFormatDone s
  | .channelGroupWakeDone group => Sys2Proof.Machine.execChannelGroupWakeDone group s
  | .resetButtonPress => Sys2Proof.Machine.execResetButtonPress s

end Sys2Proof.Machine
end

