-- ==== Sys2Proof/Safety.lean ====
section
/-! DEFINITION. The terms claims use: a safe run, a request that reaches its line, a segment that stands ready in Pond, which bytes of
memory a state agrees on with another, which parts of the state stay as they were. -/

namespace Sys2Proof.Machine

/-- A step that neither faults nor refuses. -/
def StepsOn (s : State) : Prop := ∃ t, step s = .next t

/-- Memory in its canonical form: two states with the same bytes are the same data. -/
def MemSafe (s : State) : Prop := Memory.wf s.mem.bytes = true

/-- The Event Ring holds at most its 2,048 records and never more than were posted (01 R37). -/
def RingSafe (s : State) : Prop := s.evt.ring.length ≤ 2048 ∧ s.evt.ring.length ≤ s.evt.prod

/-- The trace pointer and count stay within the buffer of 32,768 records (18 R619). -/
def TraceSafe (s : State) : Prop := s.trc.wrptr < 32768 ∧ s.trc.held ≤ 32768

/-- A CXL.mem request on a half with a DPA reaches a line: the link carries it, a binding names its host, no reset of the host and no IDE
requirement stops it, an extent covers the DPA, and the region's entry is even and has its directory (01 R29; 07 R275, R280, R300, R306). -/
structure State.Mapped (s : State) (half : Fin 16) (spid : BitVec 12) (dpa : BitVec 48) (h : HostId) (g : Nat) (gr : Grant) (line : Nat) : Prop where
  link : s.linkOpen half.val = true
  host : s.hostAt half.val spid = some h
  live : s.inReset h = false
  ide : s.needsIde half.val = false
  found : s.lookup h dpa.toNat = some (g, gr, line)
  even : (s.ent gr.region).odd = false
  kept : (s.ent gr.region).dlost = false

/-- The directory asks nothing of a request for a line: its region is not a writable shared one, and the line is not lost (06 R245, R254). -/
structure State.Untracked (s : State) (r : RegionId) (line : Nat) : Prop where
  free : (s.ent r).tracked = false
  found : s.isLost r (BitVec.ofNat 40 line) = false

/-- A segment in OPEN form in Pond at a near address, well formed, on pseudo-channels in service that no retrain
holds, awake, in the map, with no move and no image (02 R57 to R62). -/
structure State.InPond (s : State) (r : RegionId) (seg a : Nat) : Prop where
  here : s.pageAway r seg = false
  good : s.malformed (s.sme r seg) = false
  opn : (s.sme r seg).st = .opn
  home : (s.sme r seg).home = some (.near false a)
  noImage : (s.sme r seg).image = none
  live : s.dead (.near false a) = false
  awake : s.asleep r seg = none
  ready : s.trainRun r seg = none
  still : s.moveOf r seg = none

/-- First byte of line j of a segment that stands in OPEN form at a near address, in the model's one address space. -/
def pondByte (a j : Nat) : Nat := (Loc.near false a).sector * 256 + j * 64

/-- The bytes of a line, byte 0 first. -/
def lineData (x : Line) : List Byte := (List.range 64).map (fun i => x.extractLsb' (8 * i) 8)

/-- The bytes of a line with a partial store laid over them (07 R285). -/
def maskedData (old : List Byte) (x : Line) (m : W64) : List Byte :=
  (List.range 64).map (fun i => if m.getLsbD i then x.extractLsb' (8 * i) 8 else old.getD i 0)

/-- Every byte outside n bytes from an address reads as before. -/
def State.MemKeptBut (s t : State) (a n : Nat) : Prop := ∀ x, x < a ∨ a + n ≤ x → readByte t.mem.bytes x = readByte s.mem.bytes x

/-- A post has entered the ring: a record with this code and object that bears the time of the state before (01 R37; 14 R495). -/
def State.Posted (s t : State) (code okind obj : Nat) : Prop :=
  s.evt.prod < t.evt.prod ∧ ∃ r ∈ t.evt.ring, r.code.toNat = code ∧ r.okind.toNat = okind ∧ r.obj.toNat = obj ∧ r.time = s.time

/-- A program that runs stands at an instruction that a test takes, with its extension word; its predicate lane is set, no store of its own is
pending and nothing has cancelled it (08 R327 to R334). -/
structure State.AtInstr (s : State) (p : Nat) (x : Prog) (sel : W64 → Bool) (w ext : W64) : Prop where
  prog : s.prog p = some x
  run : s.mayRun x = true
  cur : x.cur sel = .word w ext
  taken : (x.pred w).getLsbD 0 = true
  clean : x.stores = []
  free : x.cancel = none

/-- A program that runs stands at an instruction that a test takes, with its extension word, and nothing has cancelled it; its predicate and
its pending stores are any. -/
structure State.AtWord (s : State) (p : Nat) (x : Prog) (sel : W64 → Bool) (w ext : W64) : Prop where
  prog : s.prog p = some x
  run : s.mayRun x = true
  cur : x.cur sel = .word w ext
  free : x.cancel = none

/-- The block and the lamp words of a schedule stand in segments in OPEN form in Pond, in a region that no directory guards. -/
structure State.LampHome (s : State) (y : Sched) : Prop where
  free : (s.ent y.lregion).tracked = false
  here : ∀ j, y.loff / 4096 ≤ j → j ≤ (y.loff + y.span) / 4096 → ∃ a, s.InPond y.lregion j a

/-- The bytes of a segment in OPEN form at a near address, from a byte offset of its region on. -/
def State.pondBytes (s : State) (a off n : Nat) : List Byte := ((s.readRun (.near false a) 16).drop (off % 4096)).take n

/-- A program after its current instruction: it stands at the next word. -/
def Prog.onward (x : Prog) (y : Prog) : Prog := { y with pc := x.nextPc, wait := .run, served := [] }

/-- A program after a control instruction that has completed with OK and written register d. -/
def Prog.completed (x : Prog) (d : Nat) (v : W64) : Prog := x.onward { x.setG d v with lastSt := 0 }

/-- The completion ring of a queue takes an entry at once (08 R321, R351). -/
structure State.CanPost (s : State) (h : HostId) (q : QueueNo) : Prop where
  room : (s.queue h q).full = false
  none : (s.queue h q).heldCpl = []
  takes : (s.queue h q).err ≠ 6

/-- A program has left the machine and its completion entry was written (08 R325, R335). -/
def State.EndsWith (s t : State) (p : Nat) (x : Prog) (status : Byte) (detail : W16) (info : W64) : Prop :=
  t.prog p = none ∧
  .completion x.host x.q (s.queue x.host x.q).cqtail (s.queue x.host x.q).phase (s.queue x.host x.q).sqhead (x.cpl status detail info) ∈ t.out

/-- Nothing else waits in the sled: no held request, offer, revoke, narrowing change, control operation, program, schedule, read in
progress, window or peer move. -/
structure State.Calm (s : State) : Prop where
  held : s.dir.held = []
  offers : s.rt.offers = []
  revokes : s.rt.revokes = []
  drains : s.rt.drains = []
  ops : s.q.ops = []
  progs : s.q.progs = []
  sch : s.lamp.sch = []
  misses : s.lake.misses = []
  windows : s.rt.windows = []
  peers : s.ports.pmoves = [] ∧ s.ports.pwait = []

/-- A host ID has lost every host grant and waits for the end of its reset (07 R299, R300). -/
def State.HostDown (t : State) (h : HostId) : Prop := (∀ p ∈ t.rt.grants, p.2.host ≠ h) ∧ t.inReset h = true

/-- A host ID has been reset whole: it holds no host grant, and its queues, its function and its event reader hold their reset values
(07 R300 step 6). -/
def State.HostFresh (t : State) (h : HostId) : Prop :=
  (∀ p ∈ t.rt.grants, p.2.host ≠ h) ∧ t.inReset h = false ∧ (∀ q, t.queue h q = .reset) ∧ t.fnOf h = .reset ∧ t.reader h = Reader.at t.evt.prod

/-- The Pilot has commanded a Dusk flush: stores and dispatch stop, programs end or are marked to end, Lamplighter stops and moves are
aborted (13 R453 step 2). -/
structure State.FlushBegan (s t : State) (trigger : Nat) : Prop where
  st : t.sled.st = .duskFlush
  flush : t.sled.flush = some (.dusk trigger)
  cmd : t.sled.flushCmd = true
  stores : t.ports.stopStores = true
  dispatch : t.q.dispatching = false
  lamp : t.lamp.stopped = true
  progs : ∀ p x, t.prog p = some x → x.wait = .control ∧ x.cancel = some (eState, 1)
  moves : t.map.moves = []
  mem : t.mem = s.mem
  rt : t.rt = s.rt

/-- The rails have fallen: every volatile part is as at reset, regions are gone, identity stays, and only flash holds bytes (13 R453 step 6). -/
structure State.WentOff (s t : State) : Prop where
  st : t.sled.st = .off
  q : t.q = State.reset.q
  dir : t.dir = State.reset.dir
  lamp : t.lamp = State.reset.lamp
  map : t.map = { State.reset.map with forms := s.map.forms }
  grants : t.rt.grants = []
  freed : ∀ r, (t.ent r).st = .freed
  id : t.id = s.id
  mem : ∀ z, z < 3 * 2 ^ 68 ∨ 4 * 2 ^ 68 ≤ z → readByte t.mem.bytes z = 0

/-- A management command of the owner is served: the Pilot runs, the way in exists and carries the owner's authority (18 R605, R613, R629). -/
structure State.OwnerCmd (s : State) (v : Via) : Prop where
  awake : s.sled.st ≠ .off
  alive : s.sled.st ≠ .dead
  way : s.viaOpen v = true
  booted : s.sled.st = .boot → s.sled.boot = .selfTest
  going : s.inPause = false
  pilot : s.wd.pilotRestart = false
  owner : s.viaOwner v = true

/-- A management command without owner rights is served on the bus: the Pilot runs and no activation pauses it (18 R605, R606, R629). -/
structure State.BusCmd (s : State) : Prop where
  awake : s.sled.st ≠ .off
  alive : s.sled.st ≠ .dead
  booted : s.sled.st = .boot → s.sled.boot = .selfTest
  going : s.inPause = false
  pilot : s.wd.pilotRestart = false

/-- What an SPDM responder sends on a carrier: through the mailbox of a function, or on the management port (18 R611). -/
def carrierOut (c : Carrier) (words : List Nat) : Output :=
  match c with
  | .doe h => .mailbox h 0 (words.map (BitVec.ofNat 64))
  | _ => .mgmt 0 (words.map (BitVec.ofNat 64))

/-- A warm restart has begun: the boot ROM verifies, work is gone, regions are free and the ports are held (15 R536, R537; 16 R563). -/
structure State.Restarted (s t : State) (rcause : Nat) : Prop where
  st : t.sled.st = .boot
  boot : t.sled.boot = .verify
  warm : t.sled.warm = true
  flush : t.sled.flush = none
  cause : t.wd.rcause = BitVec.ofNat 4 rcause
  progs : t.q = State.reset.q
  map : t.map = { State.reset.map with forms := s.map.forms }
  freed : ∀ r, (t.ent r).st = .freed
  held : ∀ h, h < 16 → (t.halfReg h).hold = true
  slots : t.fw.slot0 = s.fw.slot0 ∧ t.fw.slot1 = s.fw.slot1
  fences : t.evt.fmap = s.evt.fmap

/-- What a command may change stays within the listed parts: those named here stay as they were. -/
structure State.DataKept (s t : State) : Prop where
  mem : t.mem = s.mem
  map : t.map = s.map
  rt : t.rt = s.rt
  dir : t.dir = s.dir
  lake : t.lake = s.lake

/-- What the sled says of an access without an extent: UNMAPPED_ACCESS, at most once per second per host ID (07 R282). -/
structure State.UnmappedTold (s t : State) (h : HostId) : Prop where
  quiet : ∀ a, s.ports.unmappedAt.find h.toNat = some a → s.clk.ms < a + 1000 → t.evt = s.evt
  told : (∀ a, s.ports.unmappedAt.find h.toNat = some a → a + 1000 ≤ s.clk.ms) → s.sled.st ≠ .off →
    s.Posted t 0x0502 2 h.toNat ∧ t.ports.unmappedAt.find h.toNat = some s.clk.ms

/-- Control, programs, power and the sled's own records stay as they were. -/
structure State.ControlKept (s t : State) : Prop where
  sled : t.sled = s.sled
  q : t.q = s.q
  lamp : t.lamp = s.lamp
  pwr : t.pwr = s.pwr
  wd : t.wd = s.wd
  fw : t.fw = s.fw
  chn : t.chn = s.chn
  mgt : t.mgt = s.mgt
  id : t.id = s.id

end Sys2Proof.Machine
end

