-- ==== Sys2Proof/Certificates/Slice0/Obligations.lean ====
section
/-! DEFINITION. The statements about the sled, from the numbered rules of the manual. A clause for a command ends in the next state that
its execution answers, and says what that state holds. -/

open Sys2Proof Sys2Proof.Machine

/-! ### Host loads and stores -/

/-- 07 R285; 02 R62; 06 R249; 03 R111: a load of a line that stands OPEN in Pond is answered with its 64 stored bytes; MemRdData and
MemInv make their host the line's EXCL holder; MemSpecRd is dropped. -/
def Obligations.HostLoadsAnswerTheStoredLine : Prop :=
  (∀ (s : State) (half : Fin 16) (spid : BitVec 12) (dpa : BitVec 48) (nocache : Bool) (chk : Chk) (h : HostId) (g line a : Nat) (gr : Grant),
    s.Mapped half spid dpa h g gr line → s.Untracked gr.region line → s.InPond gr.region (line / 64) a → chkFails chk = false →
    ∃ t, exec (.memRd half spid dpa nocache chk) s = .next t ∧
      t.out = .data h dpa (lineOfBytes ((s.readRun (.near false a) 16).drop (64 * (line % 64)))) :: s.out ∧
      t.mem = s.mem ∧ t.rt = s.rt ∧ t.dir = s.dir) ∧
  (∀ (s : State) (half : Fin 16) (spid : BitVec 12) (dpa : BitVec 48) (nocache : Bool) (chk : Chk) (h : HostId) (g line : Nat) (gr : Grant),
    s.Mapped half spid dpa h g gr line → s.Untracked gr.region line → s.pageAway gr.region (line / 64) = false →
    s.malformed (s.sme gr.region (line / 64)) = false → (s.sme gr.region (line / 64)).st = .zero →
    ∃ t, exec (.memRd half spid dpa nocache chk) s = .next t ∧ t.out = .data h dpa 0 :: s.out ∧ t.mem = s.mem) ∧
  (∀ (s : State) (half : Fin 16) (spid : BitVec 12) (dpa : BitVec 48) (chk : Chk) (h : HostId) (g line a : Nat) (gr : Grant),
    s.Mapped half spid dpa h g gr line → (s.ent gr.region).tracked = true → s.isLost gr.region (BitVec.ofNat 40 line) = false →
    s.dirEnt gr.region (BitVec.ofNat 40 line) = none → s.dirVictim gr.region (BitVec.ofNat 40 line) = none →
    s.InPond gr.region (line / 64) a → chkFails chk = false →
    ∃ t, exec (.memRdData half spid dpa chk) s = .next t ∧
      t.out = .data h dpa (lineOfBytes ((s.readRun (.near false a) 16).drop (64 * (line % 64)))) :: s.out ∧
      t.dirEnt gr.region (BitVec.ofNat 40 line) = some (exclEnt gr.region (BitVec.ofNat 40 line) h) ∧ t.mem = s.mem ∧ t.rt = s.rt) ∧
  (∀ (s : State) (half : Fin 16) (spid : BitVec 12) (dpa : BitVec 48) (h : HostId) (g line : Nat) (gr : Grant),
    s.Mapped half spid dpa h g gr line → (s.ent gr.region).tracked = true → s.isLost gr.region (BitVec.ofNat 40 line) = false →
    s.dirEnt gr.region (BitVec.ofNat 40 line) = none → s.dirVictim gr.region (BitVec.ofNat 40 line) = none →
    ∃ t, exec (.memInv half spid dpa) s = .next t ∧ t.out = .done h dpa :: s.out ∧
      t.dirEnt gr.region (BitVec.ofNat 40 line) = some (exclEnt gr.region (BitVec.ofNat 40 line) h) ∧
      t.mem = s.mem ∧ t.map = s.map ∧ t.rt = s.rt) ∧
  (∀ (s : State) (half : Fin 16) (spid : BitVec 12) (dpa : BitVec 48) (h : HostId), s.hostAt half.val spid = some h →
    exec (.memSpecRd half spid dpa) s = .next s)

/-- 02 R72; 07 R285; 03 R112; 06 R252; 13 R463: a store to a line that stands OPEN in Pond writes its 64 bytes in place, or those its mask names,
and no other byte of memory, and so does the modified line a snooped host answers with; the store that its host has poisoned changes no memory and
answers ERR_NONFATAL; a store held for admission gives its ZERO segment a Pond home once its 10 ms are over. -/
def Obligations.HostStoresWriteTheirBytesOnly : Prop :=
  (∀ (s : State) (half : Fin 16) (spid : BitVec 12) (dpa : BitVec 48) (data : Line) (keep : Bool) (chk : Chk) (pick : W32) (h : HostId)
    (g line a : Nat) (gr : Grant),
    s.Mapped half spid dpa h g gr line → s.Untracked gr.region line → s.InPond gr.region (line / 64) a → gr.rw = true →
    s.ports.stopStores = false → chkFails chk = false →
    ∃ t, exec (.memWr half spid dpa data false keep chk pick) s = .next t ∧ t.out = .done h dpa :: s.out ∧
      t.mem.bytes = writeBytes s.mem.bytes (pondByte a (line % 64)) (lineData data) ∧
      s.MemKeptBut t (pondByte a (line % 64)) 64 ∧ t.rt = s.rt) ∧
  (∀ (s : State) (half : Fin 16) (spid : BitVec 12) (dpa : BitVec 48) (data : Line) (mask : W64) (chk : Chk) (pick : W32) (h : HostId)
    (g line a : Nat) (gr : Grant),
    s.Mapped half spid dpa h g gr line → s.Untracked gr.region line → s.InPond gr.region (line / 64) a → gr.rw = true →
    s.ports.stopStores = false → chkFails chk = false →
    ∃ t, exec (.memWrPtl half spid dpa data mask false chk pick) s = .next t ∧ t.out = .done h dpa :: s.out ∧
      t.mem.bytes = writeBytes s.mem.bytes (pondByte a (line % 64))
        (maskedData (readBytes s.mem.bytes (pondByte a (line % 64)) 64) data mask) ∧
      s.MemKeptBut t (pondByte a (line % 64)) 64 ∧ t.rt = s.rt) ∧
  (∀ (s : State) (half : Fin 16) (spid : BitVec 12) (dpa : BitVec 48) (data : Line) (mask : W64) (keep : Bool) (chk : Chk) (pick : W32)
    (h : HostId), s.linkOpen half.val = true → s.hostAt half.val spid = some h → s.inReset h = false → s.ports.stopStores = false →
    exec (.memWr half spid dpa data true keep chk pick) s = .next ((s.send (.done h dpa)).send (.err half.val .nonfatal)) ∧
    exec (.memWrPtl half spid dpa data mask true chk pick) s = .next ((s.send (.done h dpa)).send (.err half.val .nonfatal))) ∧
  (∀ (s : State) (host : HostId) (region : RegionId) (line : BitVec 40) (data : Line) (chk : Chk) (pick : W32) (e : DEnt) (a : Nat),
    s.Calm → s.dir.snoops = [⟨region, line, host, .inv⟩] → s.dirEnt region line = some e →
    s.InPond region (line.toNat / 64) a → chkFails chk = false →
    ∃ t, exec (.biSnoopResponse host region line true data chk pick) s = .next t ∧ t.dir.snoops = [] ∧
      t.mem.bytes = writeBytes s.mem.bytes (pondByte a (line.toNat % 64)) (lineData data) ∧
      s.MemKeptBut t (pondByte a (line.toNat % 64)) 64) ∧
  (∀ (s : State) (req : Nat) (x : HReq) (g line b : Nat) (gr : Grant),
    s.dir.held.find? (fun x => x.no == req) = some x → x.why = .admission → x.kind = .wr → x.gnt = some (g, gr) → x.line.toNat = line →
    x.ent.odd = false → x.ent.dlost = false → gr.rw = true → s.Untracked gr.region line →
    s.pageAway gr.region (line / 64) = false → s.malformed (s.sme gr.region (line / 64)) = false →
    (s.sme gr.region (line / 64)).st = .zero → s.moveOf gr.region (line / 64) = none → s.admitDirty gr.region (line / 64) 16 = .hold →
    s.allocPond (s.anchorOf gr.region (line / 64)) 16 (s.useOf gr.region (line / 64) .store) 0 = some b →
    ∃ t, exec (.storeHoldTimeout req) s = .next t ∧ t.out = .done x.host x.dpa :: s.out ∧
      t.dir.held = s.dir.held.filter (fun y => y.no != req) ∧ (t.sme gr.region (line / 64)).st = .opn ∧
      (t.sme gr.region (line / 64)).w1 = BitVec.ofNat 64 b)

/-- 07 R282; 06 R243: a read of a DPA without an extent is poison, a write there is discarded, and UNMAPPED_ACCESS posts at most once per second
per host ID; a write to an extent held RO is discarded. -/
def Obligations.UnmappedAndReadOnlyAccesses : Prop :=
  (∀ (s : State) (half : Fin 16) (spid : BitVec 12) (dpa : BitVec 48) (nocache : Bool) (chk : Chk) (h : HostId),
    s.linkOpen half.val = true → s.hostAt half.val spid = some h → s.inReset h = false → s.needsIde half.val = false →
    s.lookup h dpa.toNat = none →
    (∃ t, exec (.memRd half spid dpa nocache chk) s = .next t ∧ .poison h dpa ∈ t.out ∧ s.DataKept t ∧ s.UnmappedTold t h) ∧
    (∃ t, exec (.memRdData half spid dpa chk) s = .next t ∧ .poison h dpa ∈ t.out ∧ s.DataKept t ∧ s.UnmappedTold t h) ∧
    (∀ data keep pick, s.ports.stopStores = false →
      ∃ t, exec (.memWr half spid dpa data false keep chk pick) s = .next t ∧ .done h dpa ∈ t.out ∧ s.DataKept t ∧ s.UnmappedTold t h) ∧
    (∀ data mask pick, s.ports.stopStores = false →
      ∃ t, exec (.memWrPtl half spid dpa data mask false chk pick) s = .next t ∧ .done h dpa ∈ t.out ∧ s.DataKept t ∧ s.UnmappedTold t h)) ∧
  (∀ (s : State) (half : Fin 16) (spid : BitVec 12) (dpa : BitVec 48) (data : Line) (mask : W64) (keep : Bool) (chk : Chk) (pick : W32)
    (h : HostId) (g line : Nat) (gr : Grant),
    s.Mapped half spid dpa h g gr line → gr.rw = false → s.ports.stopStores = false →
    (∃ t, exec (.memWr half spid dpa data false keep chk pick) s = .next t ∧ .done h dpa ∈ t.out ∧ t.mem = s.mem ∧ t.map = s.map ∧ t.dir = s.dir) ∧
    (∃ t, exec (.memWrPtl half spid dpa data mask false chk pick) s = .next t ∧ .done h dpa ∈ t.out ∧ t.mem = s.mem ∧ t.map = s.map ∧ t.dir = s.dir))

/-! ### Snoops and held requests -/

/-- 06 R249, R252, R253; 01 R29; 13 R463: the last snoop answer of a line ends its entry, makes its holder a sharer or leaves it, by kind; the
modified line it brings is stored; a host that does not answer loses every grant with a fatal error. A held load runs once its entry is even,
and a store held for admission is admitted beyond the ceiling after 10 ms. -/
def Obligations.SnoopAnswersAndHeldRequests : Prop :=
  (∀ (s : State) (host : HostId) (region : RegionId) (line : BitVec 40) (kind : SnpKind) (data : Line) (chk : Chk) (pick : W32) (e : DEnt),
    s.Calm → s.dir.snoops = [⟨region, line, host, kind⟩] → s.dirEnt region line = some e →
    ∃ t, exec (.biSnoopResponse host region line false data chk pick) s = .next t ∧ t.dir.snoops = [] ∧
      t.dirEnt region line = (match kind with
        | .inv => none
        | .data => some { (s.shareEnt region line host) with busy := false }
        | .cur => some { e with busy := false }) ∧
      t.mem = s.mem ∧ t.map = s.map ∧ t.rt = s.rt) ∧
  (∀ (s : State) (host : HostId) (region : RegionId) (line : BitVec 40) (data : Line) (chk : Chk) (pick : W32) (e : DEnt) (a : Nat),
    s.Calm → s.dir.snoops = [⟨region, line, host, .inv⟩] → s.dirEnt region line = some e →
    s.InPond region (line.toNat / 64) a → chkFails chk = false →
    ∃ t, exec (.biSnoopResponse host region line true data chk pick) s = .next t ∧ t.dirEnt region line = none ∧
      t.mem.bytes = writeBytes s.mem.bytes (pondByte a (line.toNat % 64)) (lineData data) ∧
      s.MemKeptBut t (pondByte a (line.toNat % 64)) 64) ∧
  (∀ (s : State) (host : HostId) (region : RegionId) (line : BitVec 40) (chk : Chk) (pick : W32) (n : Snoop),
    s.Calm → s.dir.snoops.find? (fun n => n.region == region && n.line == line && n.host == host) = some n →
    ∃ t, exec (.biSnoopTimeout host region line chk pick) s = .next t ∧ .err (s.halfOf host) .fatal ∈ t.out ∧
      (∀ p ∈ t.rt.grants, p.2.host ≠ host) ∧ t.mem = s.mem) ∧
  (∀ (s : State) (req : Nat) (chk : Chk) (pick : W32) (x : HReq) (g line a : Nat) (gr : Grant),
    s.dir.held.find? (fun x => x.no == req) = some x → x.why = .odd → x.kind = .rd → s.lookup x.host x.dpa.toNat = some (g, gr, line) →
    x.region = gr.region → (s.ent gr.region).odd = false → (s.ent gr.region).dlost = false → s.Untracked gr.region line →
    s.InPond gr.region (line / 64) a → chkFails chk = false →
    ∃ t, exec (.heldRequestResume req chk pick) s = .next t ∧
      t.out = .data x.host x.dpa (lineOfBytes ((s.readRun (.near false a) 16).drop (64 * (line % 64)))) :: s.out ∧
      t.dir.held = s.dir.held.filter (fun y => y.no != req) ∧ t.mem = s.mem ∧ t.rt = s.rt) ∧
  (∀ (s : State) (req : Nat) (x : HReq) (g line b : Nat) (gr : Grant),
    s.dir.held.find? (fun x => x.no == req) = some x → x.why = .admission → x.kind = .wr → x.gnt = some (g, gr) → x.line.toNat = line →
    x.ent.odd = false → x.ent.dlost = false → gr.rw = true → s.Untracked gr.region line →
    s.pageAway gr.region (line / 64) = false → s.malformed (s.sme gr.region (line / 64)) = false →
    (s.sme gr.region (line / 64)).st = .zero → s.moveOf gr.region (line / 64) = none → s.admitDirty gr.region (line / 64) 16 = .hold →
    s.allocPond (s.anchorOf gr.region (line / 64)) 16 (s.useOf gr.region (line / 64) .store) 0 = some b →
    ∃ t, exec (.storeHoldTimeout req) s = .next t ∧ t.out = .done x.host x.dpa :: s.out ∧
      t.dir.held = s.dir.held.filter (fun y => y.no != req) ∧ t.pwr.overadmit = satInc s.pwr.overadmit ∧
      (t.sme gr.region (line / 64)).st = .opn ∧ (t.sme gr.region (line / 64)).w1 = BitVec.ofNat 64 b)

/-- 01 R28, R29, R31, R32: the rollback of an odd entry restores its shadow at the next even generation, past the changes that waited for it, and posts
RT_ROLLBACK; a narrowing change whose earlier requests have gone lets its instruction complete; a load held on an odd entry is answered from the stored
line once the entry is even. -/
def Obligations.EntryChangesEndEven : Prop :=
  (∀ (s : State) (region : RegionId) (x : Stalled),
    s.rt.stalled.find? (fun x => x.region == region) = some x → x.revoke = none → x.prog = none → s.sled.st ≠ .off →
    ∃ t, exec (.rtRollback region) s = .next t ∧ t.ent region = { x.shadow with gen := x.shadow.gen + 2 + BitVec.ofNat 32 (2 * x.late) } ∧
      (∀ y ∈ t.rt.stalled, y.region ≠ region) ∧ s.Posted t 0x0405 1 region.toNat ∧ t.mem = s.mem ∧ t.map = s.map ∧ t.dir = s.dir) ∧
  (∀ (s : State) (region : RegionId) (d : Drain) (x : Prog),
    s.rt.drains = [d] → d.region = region → s.dir.held = [] → s.prog d.prog = some x → x.cancel = none →
    ∃ t, exec (.narrowingChangeDrained region) s = .next t ∧ t.rt.drains = [] ∧
      t.prog d.prog = some { x with lastSt := 0, pc := x.nextPc, wait := .run, served := [] } ∧ t.mem = s.mem ∧ t.map = s.map) ∧
  (∀ (s : State) (req : Nat) (chk : Chk) (pick : W32) (x : HReq) (g line a : Nat) (gr : Grant),
    s.dir.held.find? (fun x => x.no == req) = some x → x.why = .odd → x.kind = .rd → s.lookup x.host x.dpa.toNat = some (g, gr, line) →
    x.region = gr.region → (s.ent gr.region).odd = false → (s.ent gr.region).dlost = false → s.Untracked gr.region line →
    s.InPond gr.region (line / 64) a → chkFails chk = false →
    ∃ t, exec (.heldRequestResume req chk pick) s = .next t ∧ t.ent gr.region = s.ent gr.region ∧
      .data x.host x.dpa (lineOfBytes ((s.readRun (.near false a) 16).drop (64 * (line % 64)))) ∈ t.out ∧ (∀ y ∈ t.dir.held, y.no ≠ req))

/-! ### Moves and images -/

/-- 02 R68, R75, R76; 05 R218, R226; 07 R290: a verified copy commits the segment at its destination, which holds the source's bytes, and
frees the source afterwards; an image joins its home; a read that has come from Lake answers the load that waited for it. -/
def Obligations.MovesCommitTheCopiedBytes : Prop :=
  (∀ (s : State) (n : Nat) (pick : W32) (m : Move) (h : Loc) (spr : Bool) (b : Nat),
    s.Calm → s.map.moves.find n = some m → m.image = false → m.verified = false → m.sealing = false → m.why = .evict →
    m.dest = .near spr b → b < 2 ^ 32 → (s.sme m.region m.seg).home = some h → h.isLake = false → s.dead h = false → s.deadDest m.dest = false →
    s.epochOk h (s.sme m.region m.seg).cs = true → s.moveHeld m = false → (s.sme m.region m.seg).f.codec ∈ [2#3, 3#3, 4#3] →
    ∃ t, exec (.moveCopyDone n true (.first .ok) pick) s = .next t ∧ (t.sme m.region m.seg).home = some m.dest ∧
      t.mem.bytes = writeBytes s.mem.bytes (m.dest.sector * 256) (s.readRun h (s.sme m.region m.seg).cs) ∧
      s.MemKeptBut t (m.dest.sector * 256) (256 * (s.sme m.region m.seg).cs) ∧ t.rt = s.rt ∧ t.dir = s.dir) ∧
  (∀ (s : State) (rel : Nat) (x : Release), s.map.rel.find rel = some x → x.image = false → (∀ y ∈ s.dir.held, y.why ≠ .space) →
    exec (.moveSourceRelease rel) s = .next { s with map := { s.map with rel := s.map.rel.del rel } }) ∧
  (∀ (s : State) (n : Nat) (pick : W32) (m : Move) (f sec : Nat) (spr : Bool) (b : Nat),
    s.Calm → s.map.moves.find n = some m → m.image = true → m.why = .demand → m.dest = .near spr b → b < 2 ^ 32 →
    s.deadDest m.dest = false → (s.sme m.region m.seg).home = some (.flash f sec) → (s.sme m.region m.seg).image = none → s.moveHeld m = false →
    (s.sb (sbOf f)).reads.getD (f % 32 * 4 + f / 1024 % 4) 0 + 1 < 50000 →
    ∃ t, exec (.imagePlaced n ⟨true, .first .ok⟩ pick) s = .next t ∧ (t.sme m.region m.seg).image = some m.dest ∧
      (t.sme m.region m.seg).home = some (.flash f sec) ∧
      t.mem.bytes = writeBytes s.mem.bytes (m.dest.sector * 256) (s.readRun (.flash f sec) m.len) ∧ t.rt = s.rt ∧ t.dir = s.dir) ∧
  (∀ (s : State) (rel : Nat) (x : Release), s.map.rel.find rel = some x → x.image = true → (∀ y ∈ s.dir.held, y.why ≠ .space) →
    exec (.imageRelease rel) s = .next { s with map := { s.map with rel := s.map.rel.del rel } }) ∧
  (∀ (s : State) (region : RegionId) (seg f sec : Nat) (pick : W32) (x : HReq) (b : List Byte),
    s.lake.misses = [(segKey region seg, none)] → s.missServed region seg = true → s.pageAway region seg = false → s.q.progs = [] →
    (s.sme region seg).home = some (.flash f sec) → (s.sb (sbOf f)).reads.getD (f % 32 * 4 + f / 1024 % 4) 0 + 1 < 50000 →
    s.dir.held = [x] → missOf region seg x = true → x.kind = .rd → s.isLost region x.line = false →
    s.lineBytes (s.sme region seg) (some (.flash f sec)) (x.line.toNat % 64) = some b →
    ∃ t, exec (.lakeReadComplete region seg (.first .ok) pick) s = .next t ∧ .data x.host x.dpa (lineOfBytes b) ∈ t.out ∧
      t.dir.held = [] ∧ t.lake.misses = [] ∧ t.mem = s.mem) ∧
  (∀ (s : State) (region : RegionId) (seg w sec : Nat) (pick : W32) (x : HReq) (b : List Byte),
    s.lake.misses = [(segKey region seg, none)] → s.inPause = false → s.pageAway region seg = false → s.q.progs = [] →
    (s.sme region seg).home = some (.tarn w sec) → s.epochOk (.tarn w sec) (s.sme region seg).cs = true →
    (s.ports.np.any (fun n => n.2.region == region && n.2.seg == seg && s.issued n.1)) = true →
    s.dir.held = [x] → missOf region seg x = true → x.kind = .rd → s.isLost region x.line = false →
    s.lineBytes (s.sme region seg) (some (.tarn w sec)) (x.line.toNat % 64) = some b →
    ∃ t, exec (.tarnReadComplete region seg .ok pick) s = .next t ∧ .data x.host x.dpa (lineOfBytes b) ∈ t.out ∧
      t.dir.held = [] ∧ t.lake.misses = [] ∧ t.mem = s.mem)

/-! ### Clocks, sweeps and trials -/

/-- 02 R61, R73; 03 R129, R135: the clocks count by one, the sweep leaves no segment of the map cache more than 32,768 ticks behind, an OPEN
segment that has rested is submitted for a trial, and a trial gives the ZERO form to a segment of zeros and the stored form that fits to any
other, with the former sectors released. -/
def Obligations.ClocksSweepsAndTrials : Prop :=
  (∀ (s : State), s.sled.st ≠ .off → exec .ageClockTick s = .next { s with clk := { s.clk with age := s.clk.age + 1 } }) ∧
  (∀ (s : State), s.up = false →
    ∃ t, exec .storeClockTick s = .next t ∧ t.clk.ms = s.clk.ms + 1 ∧
      t.clk.store = (if s.sled.st = .off then s.clk.store else s.clk.store + 1) ∧
      t.pwr.ride = (if s.pwr.sag then s.pwr.ride + 1 else s.pwr.ride) ∧ t.clk.age = s.clk.age ∧ s.DataKept t) ∧
  (∀ (s : State), ∃ t, exec .ageSweep s = .next t ∧
    (∀ p ∈ t.map.sme, s.map.away.contains (pageKey (keyRegion p.1) (keySeg p.1)) = false → (s.clk.age - p.2.f.age).toNat ≤ 32768) ∧
    ((∀ p ∈ s.map.sme, s.malformed p.2 = false) →
      t = { s with map := { s.map with sme := t.map.sme }, rt := { s.rt with born := t.rt.born } } ∧ t.map.sme.length = s.map.sme.length ∧
      ∀ p ∈ s.regions, (s.clk.age - t.rt.born.getD p.1.toNat 0).toNat ≤ 32768)) ∧
  (∀ (s : State) (region : RegionId) (seg a n : Nat),
    s.up = true → s.InPond region seg a → s.map.trials.has (segKey region seg) = false → s.trialEngine (a / 2 ^ 23 / 32) = some n →
    s.serves (.region region) = true →
    s.pwr.packMs ≤ (s.clk.store - (s.sme region seg).f.aux.setWidth 31).toNat → (s.sme region seg).f.aux.getLsbD 31 = false →
    s.map.trialAfter.getD (segKey region seg) 0 ≤ s.clk.ms →
    exec (.packDelayExpiry region seg) s = .next { s with map := { s.map with
      trials := s.map.trials.put (segKey region seg) n, trialAfter := s.map.trialAfter.del (segKey region seg) } }) ∧
  (∀ (s : State) (region : RegionId) (seg a : Nat) (pick : W32),
    s.InPond region seg a → s.map.trials.has (segKey region seg) = true → s.pchPanic (a / 2 ^ 23) = false → allZero (s.readRun (.near false a) 16) = true →
    ∃ t, exec (.trialPackDone region seg none none .ok pick) s = .next t ∧ (t.sme region seg).st = .zero ∧ (t.sme region seg).home = none ∧
      t.map.trials.has (segKey region seg) = false ∧ t.map.rel.find s.map.relNo = some ⟨.near false a, 16, false⟩ ∧ t.mem = s.mem) ∧
  (∀ (s : State) (region : RegionId) (seg a d codec : Nat) (lzv exp : Option Packed) (x : Packed) (pick : W32),
    s.InPond region seg a → s.map.trials.has (segKey region seg) = true → s.pchPanic (a / 2 ^ 23) = false → s.q.ops = [] →
    lzv.all Packed.wf = true → exp.all Packed.wf = true →
    allZero (s.readRun (.near false a) 16) = false → isPattern (s.readRun (.near false a) 16) = false →
    s.bestForm region lzv exp (s.readRun (.near false a) 16) = some (codec, x) → d < 2 ^ 32 →
    s.allocPond (s.anchorOf region seg) x.csize (s.useOf region seg .store) pick = some d →
    ∃ t, exec (.trialPackDone region seg lzv exp .ok pick) s = .next t ∧ (t.sme region seg).st = .packed ∧
      (t.sme region seg).home = some (.near false d) ∧ (t.sme region seg).f.codec.toNat = codec ∧ (t.sme region seg).cs = x.csize ∧
      t.mem.bytes = writeBytes s.mem.bytes ((Loc.near false d).sector * 256) (x.run ++ zeros (x.csize * 256 - x.run.length))) ∧
  (∀ (s : State) (region : RegionId) (seg : Nat) (lzv exp : Option Packed) (chk : Chk) (pick : W32),
    ¬ (Instr.trialPackDone region seg lzv exp chk pick).wf = true →
    exec (.trialPackDone region seg lzv exp chk pick) s = .fault .illFormed)

/-- 02 R61, R73: each tick of the store clock advances it by one millisecond, whatever the sled does at the tick. -/
def Obligations.StoreClockAdvancesAtEveryTick : Prop :=
  ∀ (s : State), ∃ t, exec .storeClockTick s = .next t ∧ t.clk.ms = s.clk.ms + 1 ∧
    t.clk.store = (if s.sled.st = .off then s.clk.store else s.clk.store + 1) ∧ t.pending = s.pending

/-! ### Pond -/

/-- 04 R145, R146, R148, R150, R152, R154, R174: a request that reaches 50%, 75% or 100% of its port's target stands at level 1, 2 or 3,
level 3 counts its port's target miss, PANIC names and counts the pseudo-channels of the
read-ahead, a refresh under PANIC is postponed up to the limit and forced beyond it, a Steady refresh and a change of mode leave no debt, and an
idle SID enters power-down. Nothing else changes. -/
def Obligations.PondUrgencyAndRefresh : Prop :=
  (∀ (s : State) (pch : Fin 384) (port : PPort), s.pchWorks pch = true →
    exec (.urgencyThreshold pch port .p50) s = .next (s.ageReq pch port 1) ∧
    exec (.urgencyThreshold pch port .p75) s = .next (s.ageReq pch port 2) ∧
    exec (.urgencyThreshold pch port .p100) s = .next { s.ageReq pch port 3 with pond := { (s.ageReq pch port 3).pond with
      missHost := if port = .host then satInc s.pond.missHost else s.pond.missHost
      missWick := if port = .wick then satInc s.pond.missWick else s.pond.missWick
      missCodec := if port = .codec then satInc s.pond.missCodec else s.pond.missCodec
      missMove := if port = .move then satInc s.pond.missMove else s.pond.missMove } }) ∧
  (∀ (s : State) (half : Fin 16), s.pond.panic.has half = false → (∃ x ∈ s.ports.streams, x.half = half.val) →
    ∃ t, exec (.panicAssert half) s = .next t ∧ t.pond.panic.find half = some (s.aheadPchs half) ∧
      (∀ n ∈ s.aheadPchs half, t.pchPanic n = true) ∧
      t = { s with pond := { s.pond with panic := t.pond.panic, asserts := t.pond.asserts } }) ∧
  (∀ (s : State) (half : Fin 16) (l : List Nat), s.pond.panic = [(half.val, l)] →
    ∃ t, exec (.panicClear half) s = .next t ∧ t.pond.panic = [] ∧ (∀ n ∈ l, (t.pch n).debt = []) ∧
      t = { s with pond := { s.pond with panic := [], pch := t.pond.pch } }) ∧
  (∀ (s : State) (pch : Fin 384) (bank : Fin 64), s.pchWorks pch = true → (s.pch pch).steady = false → (s.pch pch).training = false →
    s.pchPanic pch = true → (s.pch pch).debt.getD bank 0 < s.postpone →
    exec (.refreshDue pch bank) s =
      .next (s.setPch pch { s.pch pch with debt := (s.pch pch).debt.put bank ((s.pch pch).debt.getD bank 0 + 1) })) ∧
  (∀ (s : State) (pch : Fin 384) (bank : Fin 64), s.pchWorks pch = true → (s.pch pch).steady = false → (s.pch pch).training = false →
    s.pchPanic pch = true → s.postpone ≤ (s.pch pch).debt.getD bank 0 →
    exec (.refreshDue pch bank) s = .next { s with pond := { s.pond with forced := satInc s.pond.forced } }) ∧
  (∀ (s : State) (pch : Fin 384), s.pchWorks pch = true → (s.pch pch).steady = true →
    exec (.steadyRefreshDue pch) s = .next (s.setPch pch { s.pch pch with debt := [] })) ∧
  (∀ (s : State) (pch : Fin 384), s.pchWorks pch = true → (s.pch pch).steady ≠ (s.pch pch).refMode → s.pchPanic pch = false →
    exec (.refModeBoundary pch) s = .next (s.setPch pch { s.pch pch with steady := (s.pch pch).refMode, debt := [] })) ∧
  (∀ (s : State) (pch : Fin 384) (sid : Fin 4), s.pchWorks pch = true → 1 ≤ (s.pch pch).pdTimer.toNat → (s.pch pch).pdTimer.toNat ≤ 256 →
    s.pdHeld pch = false → (s.pch pch).pd.contains sid.val = false →
    exec (.pdTimerExpiry pch sid) s = .next (s.setPch pch { s.pch pch with pd := (s.pch pch).pd ++ [sid.val] }))

/-- 04 R157 to R165, R173: a good reading becomes the stack's temperature and its highest, and a drift of 15 °C makes retrains due; a command
makes one due; a due retrain starts in its turn, or after 1 ms of PANIC, counts itself when it ends and records its temperature; a window of
corrections above the threshold makes a retrain due; two rejected commands in a row count one parity error. -/
def Obligations.PondTemperatureAndRetraining : Prop :=
  (∀ (s : State) (stack : Fin 12) (v : W16), s.sled.st ≠ .off → s.sled.st ≠ .dead → goodTemp (s.stk stack).last v = true →
    (s.stk stack).lost = false → v.toInt < 95 → s.pwr.thr.getD stack 0 = 0 → s.stackFenced stack = false →
    ∃ t, exec (.stackTempRead stack (some v)) s = .next t ∧ (t.stk stack).tNow = v ∧ (t.stk stack).valid = true ∧
      v.toInt ≤ (t.stk stack).tMax.toInt ∧ t.pwr.thr.getD stack 0 = 0 ∧
      (∀ n : Fin 384, n.val / 32 = stack.val → (s.pch n).svc = true → s.pchFenced n = false → (s.pch n).due = none →
        ((t.pch n).due.isSome = decide (15 ≤ v.toInt - (s.pch n).tTrain.toInt ∨ v.toInt - (s.pch n).tTrain.toInt ≤ -15))) ∧ s.DataKept t) ∧
  (∀ (s : State) (pch : Fin 384), (s.pch pch).svc = true → s.pchFenced pch = false → (s.pch pch).due = none →
    exec (.retrainRequest pch) s =
      .next (s.setPch pch { s.pch pch with due := some { cause := 4, err := false, forced := false, running := false } })) ∧
  (∀ (s : State) (pch : Fin 384) (d : Due), s.trainTurn pch = true → (s.pch pch).due = some d →
    exec (.retrainStart pch) s = .next (s.setPch pch { s.pch pch with due := some { d with running := true } })) ∧
  (∀ (s : State) (pch : Fin 384) (d : Due), (s.pch pch).due = some d → d.running = false → s.pchPanic pch = true →
    exec (.retrainPanicTimeout pch) s = .next (s.setPch pch { s.pch pch with
      due := some { d with forced := true, running := !s.stackTrains (pch.val / 32) && s.pchWorks pch } })) ∧
  (∀ (s : State) (pch : Fin 384) (d : Due), (s.pch pch).due = some d → d.running = true → (s.bankQ pch).reqs = [] →
    (s.bankQ pch).atPort = [] → (∀ x ∈ s.dir.held, x.why ≠ .bank) →
    ∃ t, exec (.retrainDone pch true) s = .next t ∧ (t.pch pch).due = none ∧ (t.pch pch).trainCnt = satInc (s.pch pch).trainCnt ∧
      (t.pch pch).cause = d.cause ∧ (t.pch pch).tTrain = (s.stk (pch.val / 32)).tNow.setWidth 8 ∧ (t.pch pch).parity = false ∧
      (∀ n, n ≠ pch.val → t.pch n = s.pch n) ∧ t = { s with pond := t.pond }) ∧
  (∀ (s : State) (pch : Fin 384), (s.pch pch).svc = true → s.pchFenced pch = false → (s.pch pch).due = none → s.sled.st ≠ .off →
    s.ceThresh < (s.pch pch).window → (s.pch pch).errRuns = 0 →
    ∃ t, exec (.ceWindowEnd pch) s = .next t ∧ (t.pch pch).window = 0 ∧
      (t.pch pch).due = some { cause := 2, err := true, forced := false, running := false } ∧ s.Posted t 0x0101 8 pch.val ∧ s.DataKept t) ∧
  (∀ (s : State) (pch : Fin 384), (s.pch pch).window ≤ s.ceThresh →
    exec (.ceWindowEnd pch) s = .next (s.setPch pch { s.pch pch with window := 0 })) ∧
  (∀ (s : State) (pch : Fin 384), s.pchWorks pch = true → (s.pch pch).parity = false →
    exec (.commandParityError pch) s = .next (s.setPch pch { s.pch pch with parity := true })) ∧
  (∀ (s : State) (pch : Fin 384), s.pchWorks pch = true → (s.pch pch).parity = true → (s.pch pch).due = none →
    exec (.commandParityError pch) s = .next (s.setPch pch { s.pch pch with
      parity := false, capar := satInc (s.pch pch).capar, due := some { cause := 3, err := false, forced := false, running := false } })) ∧
  (∀ (s : State) (pch : Fin 384) (sector : BitVec 23) (pick : W32) (k : Nat) (l : Loc), s.pchWorks pch = true →
    s.pchPanic pch = false → (s.pch pch).training = false →
    s.pond.errctl.extractLsb' 16 8 ≠ 0 → s.sectorUse (pch.val * 2 ^ 23 + sector.toNat) = some (k, l) → (s.pch pch).pd = [] →
    ∃ t, exec (.scrubDue pch sector (.corrected 1) pick) s = .next t ∧ (t.pch pch).ce1 = satInc (s.pch pch).ce1 ∧
      (t.pch pch).window = (s.pch pch).window + 1 ∧ t.mem = s.mem ∧ t.map = s.map ∧ t.rt = s.rt ∧ t.dir = s.dir)

/-- 04 R175 to R177; 14 R502 to R504; 16 R563: a stalled pseudo-channel, and a stack that does not initialise are
fenced with their causes; at the end of Pond training every pseudo-channel that is not fenced is in service. -/
def Obligations.PondFencesAndStart : Prop :=
  (∀ (s : State) (pch : Fin 384), s.pchWorks pch = true → (s.pch pch).training = false → s.sled.st ≠ .off →
    ∃ t, exec (.pchStall pch) s = .next t ∧ t.fenced (.pch pch) = true ∧ t.evt.fmap.find (148 + pch.val) = some 4 ∧
      s.Posted t 0x0104 8 pch.val ∧ t.mem = s.mem ∧ t.rt = s.rt ∧ t.map = s.map) ∧
  (∀ (s : State) (stack : Fin 12), s.sled.boot = .pond → s.sled.st ≠ .off → s.stackFenced stack = false →
    ∃ t, exec (.stackInitTimeout stack) s = .next t ∧ t.evt.fmap.find (532 + stack.val) = some 0x0A ∧
      (∀ y : Fin 32, t.fenced (.pch (32 * stack.val + y.val)) = true) ∧ s.Posted t 0x0106 9 stack.val ∧ t.mem = s.mem ∧ t.rt = s.rt) ∧
  (∀ (s : State) (failed : List (Fin 384)), s.sled.boot = .pond → s.evt.fmap = [] → failed = [] →
    ∃ t, exec (.pondStartupDone failed) s = .next t ∧ (∀ n : Fin 384, (t.pch n).svc = true ∧ (t.pch n).steady = (s.pch n).refMode) ∧
      t.sled.boot = (if s.hasLake then .mount else .ready) ∧ s.DataKept t) ∧
  (∀ (s : State) (failed : List (Fin 384)), s.sled.boot = .pond → s.sled.st ≠ .off → s.up = false → s.sled.st ≠ .duskFlush →
    64 < ((List.range 384).filter (fun n => decide (n ∈ failed.map (fun f => f.val)) || s.pchFenced n)).length →
    ∃ t, exec (.pondStartupDone failed) s = .next t ∧ t.sled.st = .vigil ∧ t.wd.vcause = 7)

/-! ### Lake -/

/-- 05 R193, R194, R199, R201 to R205: a stripe closes 2 ms after its first run and commits its verified moves once it is programmed, when its
free sectors read zero; a checkpoint holds the present Keep regions and frees the older journal; a superblock without valid runs becomes free
with one more erase; a patrol sample notes its time and counts one read of each of the 37 pages it samples of every block that is not
retired. -/
def Obligations.LakeStripesAndCollection : Prop :=
  (∀ (s : State) (n : Nat) (x : Stripe), s.lake.stripes.find n = some x →
    exec (.stripeTimer n) s = .next { s with lake := { s.lake with stripes := s.lake.stripes.put n { x with full := true } } }) ∧
  (∀ (s : State) (n k : Nat) (x : Stripe) (m : Move) (f sec : Nat) (h : Loc),
    s.Calm → s.nandStopped = false → s.lake.stripes.find n = some x → s.stripeDue x = true → x.moves = [k] → s.map.moves.find k = some m → m.verified = true →
    m.image = false → m.sealing = false → m.why = .evict → m.dest = .flash f sec → f < 2 ^ 40 → sec < 64 →
    (s.sme m.region m.seg).home = some h → (s.sme m.region m.seg).f.codec ∈ [2#3, 3#3, 4#3] →
    ∃ t, exec (.stripeProgrammed n []) s = .next t ∧ t.lake.stripes.find n = none ∧ t.map.moves.find k = none ∧
      (t.sme m.region m.seg).home = some (.flash f sec) ∧
      t.mem = { s.mem with bytes := s.mem.bytes.filter (fun c =>
        !(decide (3 * 2 ^ 68 ≤ c.1 ∧ c.1 < 4 * 2 ^ 68) && x.freeSector (c.1 / 256 - 3 * 2 ^ 60))) } ∧
      t.rt = s.rt ∧ t.dir = s.dir) ∧
  (∀ (s : State), s.lake.mounted = true → s.lake.wp = false → s.sled.flush = none → s.hasLake = true →
    ∃ t toc, exec .checkpointDue s = .next t ∧ t.lake.ckpt.ent = s.snapshot.ent ∧ t.lake.ckpt.sme = s.snapshot.sme ∧
      t.lake.ckpt.roots = t.lake.idxAt.filter (fun p => s.keeps (BitVec.ofNat 14 (p.1 / 2 ^ 17))) ∧ t.lake.ckpt.blocks = t.lake.btab ∧
      t.lake.ckptOld = s.lake.ckpt ∧ t.lake.jour = s.lake.jour.drop s.lake.jmark ++ [.checkpoint toc s.lake.wseq] ∧
      t.lake.jmark = t.lake.jour.length ∧ t.lake.jseq = s.lake.jseq + 1 ∧ t.rt = s.rt ∧ t.map.sme = s.map.sme ∧ t.dir = s.dir) ∧
  (∀ (s : State) (sb : Nat), s.gcFlags.gcMay sb = true → (s.sb sb).erase + 1 < 4500 → s.sbBusy sb = false →
    (∀ p ∈ s.map.sme, ∀ f sec, p.2.home = some (.flash f sec) → sbOf f ≠ sb) →
    ∃ t, exec (.gcSuperblockDone sb true) s = .next t ∧ (t.sb sb).st = .free ∧ (t.sb sb).erase = (s.sb sb).erase + 1 ∧ (t.sb sb).reads = [] ∧
      (t.sb sb).retired = (s.sb sb).retired ∧ t.mem = s.mem ∧ t.map = s.map ∧ t.rt = s.rt ∧ t.dir = s.dir) ∧
  (∀ (s : State) (sb : Nat), s.lake.mounted = true → s.lake.wp = false → s.lake.wear ≠ .spent → s.sled.flush = none → s.validOn sb ≠ 0 →
    s.clk.ms - (s.sb sb).progAt ≤ 180 * 86400000 → (∀ p ∈ ((s.samplePages sb).sb sb).reads, p.2 < 50000) →
    ∃ t, exec (.patrolDue sb false []) s = .next t ∧ (t.sb sb).sampleAt = s.clk.ms ∧
      (∀ m, m < 128 → m ∉ (s.sb sb).retired → (t.sb sb).reads.getD m 0 = (s.sb sb).reads.getD m 0 + 37) ∧
      t = s.setSb sb { s.sb sb with sampleAt := s.clk.ms, reads := (t.sb sb).reads })

/-- 05 R206 to R208, R215, R220, R227 to R229; 18 R610: a failed program or erase retires its block and counts it; wear moves to the phase
that its figures give; a failed die is fenced; a mount that reads a checkpoint brings back its Keep regions and one that reads none enters
VIGIL; a woken channel group is Lit; a format leaves no checkpointed region and restarts the sled. -/
def Obligations.LakeFailuresMountAndFormat : Prop :=
  (∀ (s : State) (n : Nat) (ch : Fin 32) (x : Stripe), s.lake.stripes.find n = some x → s.map.moves = [] →
    (∀ p ∈ s.map.sme, ∀ f sec, p.2.home ≠ some (.flash f sec)) → (s.sb x.sb).retired.contains (ch.val * 4 + x.idx % 4) = false →
    ∃ t, exec (.programFail n ch) s = .next t ∧ t.lake.progFail = satInc s.lake.progFail ∧ t.lake.retired = s.lake.retired + 1 ∧
      (t.sb x.sb).retired = (s.sb x.sb).retired ++ [ch.val * 4 + x.idx % 4] ∧ t.mem = s.mem ∧ t.map = s.map ∧ t.rt = s.rt) ∧
  (∀ (s : State) (sb : Nat) (member : Fin 128), (s.sb sb).st = .closed → s.validOn sb = 0 → s.lake.mounted = true → s.map.moves = [] →
    s.sbBusy sb = false →
    (∀ p ∈ s.map.sme, ∀ f sec, p.2.home ≠ some (.flash f sec)) → (s.sb sb).retired.contains member.val = false → (s.sb sb).erase + 1 < 4500 →
    ∃ t, exec (.eraseFail sb member) s = .next t ∧ t.lake.eraseFail = satInc s.lake.eraseFail ∧ (t.sb sb).st = .free ∧
      (t.sb sb).retired = (s.sb sb).retired ++ [member.val] ∧ t.mem = s.mem ∧ t.map = s.map ∧ t.rt = s.rt) ∧
  (∀ (s : State), s.lake.mounted = true → s.hasLake = true → s.lake.wear.code < s.wearNow.code →
    ∃ t, exec .wearEval s = .next t ∧ t.lake.wear = s.wearNow ∧ s.evt.prod ≤ t.evt.prod ∧ t.mem = s.mem ∧ t.map = s.map ∧ t.rt = s.rt) ∧
  (∀ (s : State) (die : Fin 1024), s.hasLake = true → die.val % 32 < s.id.variant.dies → s.up = true → s.fenced (.die die) = false →
    ∃ t, exec (.lakeDieFail die) s = .next t ∧ t.evt.fmap.find (560 + die.val) = some 0x0B ∧ s.Posted t 0x0204 11 die.val) ∧
  (∀ (s : State) (r : Nat) (e : REnt), s.sled.boot = .mount → s.lake.jour.drop s.lake.jmark = [] → s.sled.preserved = false →
    s.lake.ckpt.ent.sorted = true → s.lake.ckpt.ent.find r = some e →
    ∃ t, exec (.lakeMountDone .latest []) s = .next t ∧ t.sled.boot = .ready ∧ t.lake.mounted = true ∧ t.lake.wp = false ∧
      t.rt.ent.find r = some e.replayed) ∧
  (∀ (s : State), s.sled.boot = .mount → s.sled.st = .train →
    ∃ t, exec (.lakeMountDone .neither []) s = .next t ∧ t.sled.st = .vigil ∧ t.wd.vcause = 8) ∧
  (∀ (s : State) (group : Fin 4), (s.ledger (16 + group.val)).st ≠ .lit → (s.ledger (16 + group.val)).perm = 0 →
    ∃ t, exec (.channelGroupWakeDone group) s = .next t ∧ (t.ledger (16 + group.val)).st = .lit ∧
      (t.ledger (16 + group.val)).asks = false ∧ s.DataKept t) ∧
  (∀ (s : State), s.mgt.formatting = true →
    ∃ t, exec .lakeFormatDone s = .next t ∧ t.lake.ckpt = { Ckpt.empty with blocks := s.blockTable } ∧ t.lake.ckptOld = Ckpt.empty ∧ t.mgt.formatting = false ∧
      t.sled.st = .boot ∧ t.sled.boot = .verify ∧ t.wd.rcause = 3)

/-! ### Regions and grants -/

/-- 06 R233, R238 to R242; 02 R91; 03 R110; 09 R370: REGION.NEW writes the entry its operands give at the lowest free ID, NEW, owned by its host;
a host grant is offered and takes effect when its host accepts; a lent window and a peer grant are numbered and a window's epoch advances; an
offer that no host answers ends its program with E_TIMEOUT. -/
def Obligations.RegionsAreMadeAndGranted : Prop :=
  (∀ (s : State) (p : Nat) (list : List W16) (x : Prog) (w e : W64) (r : RegionId),
    s.AtInstr p x (isOp 0x20) w e → newCheck s x w e list = none → x.gr (fA w) = 0 → e.getLsbD 19 = false →
    (s.hasLake = true ∨ e.getLsbD 20 = true) → s.lake.wear ≠ .guttering → s.lake.wear ≠ .spent → s.freeId = some r →
    s.visible + (xf e 0 18 + 1) * 65536 * 4096 ≤ s.overcommit →
    ∃ t, exec (.regionNew p list false) s = .next t ∧
      (t.ent r).st = .new ∧ (t.ent r).owner = x.host ∧ (t.ent r).gen = (s.ent r).gen + 2 ∧ (t.ent r).sizeG = e.extractLsb' 0 18 ∧
      (t.ent r).shared = e.getLsbD 18 ∧ (t.ent r).ponly = false ∧ (t.ent r).back = e.getLsbD 20 ∧ (t.ent r).rt = e.getLsbD 21 ∧
      (t.ent r).hint = e.extractLsb' 24 4 ∧ (t.ent r).policy = e.extractLsb' 28 2 ∧ (t.ent r).keep = false ∧ (t.ent r).nhost = 0 ∧
      t.prog p = some (x.onward { x.setH (fD w) (BitVec.ofNat 64 (r.toNat + 2 ^ 63)) with lastSt := 0 }) ∧
      (∀ r2, r2 ≠ r → t.ent r2 = s.ent r2) ∧ t.rt.grants = s.rt.grants ∧ t.mem = s.mem ∧ t.map = s.map ∧ t.dir = s.dir ∧ t.lake = s.lake) ∧
  (∀ (s : State) (p : Nat) (x : Prog) (w e : W64) (g a : Nat),
    s.AtInstr p x (isGrant 0) w e → grantHostCheck s x w = none → s.token (hRegion (x.hr (fA w))) = false →
    s.grantErr x.host ((x.gr (fB w)).setWidth 10) (hRegion (x.hr (fA w))) (fModR w / 4 % 2 == 1) none = none →
    (s.allGrants.filter (fun q => q.2.host == (x.gr (fB w)).setWidth 10)).length < 512 → s.freeGrant = some g →
    s.freeDpa ((x.gr (fB w)).setWidth 10) (s.ent (hRegion (x.hr (fA w)))).shared (grantCount s x w * 2 ^ 28) = some a →
    ∃ t, exec (.regionGrantHost p) s = .next t ∧
      t.rt.offers.find g = some { grant := { host := (x.gr (fB w)).setWidth 10, region := hRegion (x.hr (fA w)), first := hBase (x.hr (fA w)) / 2 ^ 28,
                                             count := grantCount s x w, rw := fModR w / 4 % 2 == 1, dpa := a }, prog := p, d := fD w } ∧
      t.prog p = some { x with wait := .control } ∧ t.rt.grants = s.rt.grants ∧ t.rt.ent = s.rt.ent ∧
      t.mem = s.mem ∧ t.map = s.map ∧ t.dir = s.dir) ∧
  (∀ (s : State) (p : Nat) (x : Prog) (w e : W64) (i : Nat),
    s.AtInstr p x (isGrant 1) w e → fModR w % 4 = 1 → onlyBits w [uD, uB, uC, (36, 3)] = true → (x.gr (fB w)).toNat % 2 ^ 28 = 0 →
    (x.gr (fC w)).toNat % 2 ^ 28 = 0 → (x.gr (fC w)).toNat ≠ 0 → (x.gr (fC w)).toNat ≤ 2 ^ 46 → s.rt.windows.lowestFree 4096 0 = some i →
    ∃ t, exec (.regionGrantLend p) s = .next t ∧
      t.rt.windows.find i = some { host := x.host, base := (x.gr (fB w)).toNat, size := (x.gr (fC w)).toNat } ∧
      t.rt.epochs.find i = some (s.rt.epochs.getD i 0 + 1) ∧ t.prog p = some (x.completed (fD w) (BitVec.ofNat 64 (i + 2 ^ 16))) ∧
      t.rt.ent = s.rt.ent ∧ t.rt.grants = s.rt.grants ∧ t.mem = s.mem ∧ t.map = s.map ∧ t.dir = s.dir) ∧
  (∀ (s : State) (p : Nat) (x : Prog) (w e : W64) (i : Nat),
    s.AtInstr p x (isGrant 2) w e → fModR w % 4 = 2 → onlyBits w [uD, uA, uB, (36, 3)] = true → handleErr x (fA w) = none →
    hBase (x.hr (fA w)) % 2 ^ 28 = 0 → (x.gr (fB w)).toNat < 65536 → s.token (hRegion (x.hr (fA w))) = false →
    s.cell (hRegion (x.hr (fA w))) (if fModR w / 4 % 2 == 1 then cellWritable else cellLive) = none →
    s.ownerErr x.host (hRegion (x.hr (fA w))) = none → s.rt.peers.lowestFree 1024 0 = some i →
    ∃ t, exec (.regionGrantPeer p) s = .next t ∧
      t.rt.peers.find i = some { sled := (x.gr (fB w)).setWidth 16, region := hRegion (x.hr (fA w)), rw := fModR w / 4 % 2 == 1 } ∧
      t.prog p = some (x.completed (fD w) (BitVec.ofNat 64 (i + 2 ^ 17))) ∧ t.rt.ent = s.rt.ent ∧ t.rt.grants = s.rt.grants ∧ t.mem = s.mem ∧
      t.map = s.map ∧ t.dir = s.dir) ∧
  (∀ (s : State) (host : HostId) (g : Nat) (o : Offer) (x : Prog),
    s.barOpen host = true → s.rt.offers = [(g, o)] → s.rt.revokes = [] → o.grant.host = host → s.token o.grant.region = false →
    s.prog o.prog = some x → x.cancel = none → (s.ent o.grant.region).st = .new → (s.ent o.grant.region).odd = false →
    ∃ t, exec (.addDynamicCapacityResponse host g true false) s = .next t ∧ t.rt.grants.find g = some o.grant ∧ t.rt.offers = [] ∧
      (t.ent o.grant.region).st = .active ∧ (t.ent o.grant.region).gen = (s.ent o.grant.region).gen + 2 ∧
      t.prog o.prog = some (x.completed o.d (BitVec.ofNat 64 g)) ∧ .mailbox host 0 [] ∈ t.out ∧ t.mem = s.mem ∧ t.map = s.map) ∧
  (∀ (s : State) (host : HostId) (g : Nat) (o : Offer) (x : Prog),
    s.barOpen host = true → s.rt.offers.find g = some o → o.grant.host = host → s.prog o.prog = some x → x.mute = false → x.wait = .control →
    s.CanPost x.host x.q →
    ∃ t, exec (.addDynamicCapacityResponse host g false false) s = .next t ∧ t.rt.offers.find g = none ∧ t.rt.grants = s.rt.grants ∧
      s.EndsWith t o.prog x eRefused 1 0 ∧ .mailbox host 0 [] ∈ t.out ∧ t.mem = s.mem ∧ t.map = s.map) ∧
  (∀ (s : State) (g : Nat) (o : Offer) (x : Prog),
    s.rt.offers.find g = some o → s.prog o.prog = some x → x.mute = false → s.CanPost x.host x.q →
    ∃ t, exec (.grantOfferTimeout g) s = .next t ∧ t.rt.offers.find g = none ∧ t.rt.grants = s.rt.grants ∧
      s.EndsWith t o.prog x eTimeout 2 0 ∧ t.mem = s.mem ∧ t.map = s.map)

/-- 06 R232 to R235, R241, R243, R244; 02 R74, R90; 01 R31; 03 R131: a revoke asks its host for the extent; a release of the host, or its removal
by force after the limit, ends the grant and completes the revoke; a seal makes every grant RO, and first gives each OPEN segment its trial,
the region's entry standing as it did; Keep is the entry's bit; a freed region has no grant and
its ID returns once its storage is released. -/
def Obligations.RegionsAreRevokedSealedAndFreed : Prop :=
  (∀ (s : State) (p : Nat) (x : Prog) (w e : W64) (g : Nat) (gr : Grant),
    s.AtInstr p x (isOp 0x22) w e → onlyBits w [uA] = true → x.gr (fA w) = BitVec.ofNat 64 g → g < 65536 → s.rt.grants.find g = some gr →
    s.rt.revokes.find g = none → s.token gr.region = false → s.cell gr.region cellAny = none → s.ownerErr x.host gr.region = none →
    ∃ t, exec (.regionRevoke p) s = .next t ∧ t.rt.revokes.find g = some { progs := [p], stage := .waitRelease } ∧
      t.ports.dcLog.find gr.host.toNat = some (s.ports.dcLog.getD gr.host.toNat [] ++ [.release gr.region gr.first gr.count gr.dpa]) ∧
      t.prog p = some { x with wait := .control } ∧ t.rt.grants = s.rt.grants ∧ t.mem = s.mem ∧ t.map = s.map ∧ t.dir = s.dir) ∧
  (∀ (s : State) (g : Nat) (gr : Grant) (p : Nat) (x : Prog),
    s.rt.revokes = [(g, { progs := [p], stage := .waitRelease })] → s.rt.grants.find g = some gr → s.rt.offers = [] → s.dir.held = [] →
    s.lamp.sch = [] → (s.ent gr.region).tracked = false → s.token gr.region = false → s.prog p = some x → x.cancel = none → s.sled.st ≠ .off →
    ∃ t, exec (.revokeTimeout g false) s = .next t ∧ t.rt.grants.find g = none ∧ t.rt.revokes = [] ∧ t.prog p = some (x.completed 0 0) ∧
      s.Posted t 0x0401 1 gr.region.toNat ∧ t.mem = s.mem ∧ t.map = s.map) ∧
  (∀ (s : State) (host : HostId) (g : Nat) (gr : Grant) (p : Nat) (x : Prog),
    s.barOpen host = true → s.rt.revokes = [(g, { progs := [p], stage := .waitRelease })] → s.rt.grants.find g = some gr → gr.host = host →
    s.rt.gone.contains g = false → s.rt.offers = [] → s.dir.held = [] → s.lamp.sch = [] → (s.ent gr.region).tracked = false →
    s.token gr.region = false → s.prog p = some x → x.cancel = none →
    ∃ t, exec (.releaseDynamicCapacity host g false) s = .next t ∧ t.rt.grants.find g = none ∧ t.rt.revokes = [] ∧
      t.prog p = some (x.completed 0 0) ∧ .mailbox host 0 [] ∈ t.out ∧ t.mem = s.mem ∧ t.map = s.map) ∧
  (∀ (s : State) (p : Nat) (pick : W32) (x : Prog) (w e : W64) (r : RegionId),
    s.AtInstr p x (isOp 0x23) w e → onlyBits w [uA] = true → handleErr x (fA w) = none → hRegion (x.hr (fA w)) = r → s.token r = false →
    (∀ y ∈ s.sealErrs x r, y = none) → s.smes r = [] → s.map.moves = [] → s.dir.ent = [] → s.dir.held = [] → s.rt.offers = [] → s.rt.revokes = [] →
    s.lamp.sch = [] → s.q.ops = [] → (s.ent r).odd = false →
    ∃ t, exec (.regionSeal p false pick) s = .next t ∧ (t.ent r).st = .seald ∧ (t.ent r).gen = (s.ent r).gen + 2 ∧
      (∀ q ∈ t.rt.grants, q.2.region = r → q.2.rw = false) ∧ t.rt.grants.length = s.rt.grants.length ∧
      t.prog p = some (x.completed 0 0) ∧ t.mem = s.mem) ∧
  (∀ (s : State) (p : Nat) (stall : Bool) (pick : W32) (x : Prog) (w e : W64) (r : RegionId) (seg k : Nat),
    s.AtInstr p x (isOp 0x23) w e → onlyBits w [uA] = true → handleErr x (fA w) = none → hRegion (x.hr (fA w)) = r → s.token r = false →
    (∀ y ∈ s.sealErrs x r, y = none) → s.dir.ent = [] → s.openSegs r = [(seg, false)] → (s.sme r seg).st = .opn → s.moveOf r seg = none →
    s.map.trials.has (segKey r seg) = false → s.trialEngine (((s.sme r seg).home.bind Loc.tile).getD 0) = some k →
    ∃ t, exec (.regionSeal p stall pick) s = .next t ∧ t.map.trials.find (segKey r seg) = some k ∧ t.map.sme = s.map.sme ∧ t.rt = s.rt ∧
      t.prog p = some { x with wait := .control } ∧ t.mem = s.mem ∧ t.dir = s.dir) ∧
  (∀ (s : State) (p : Nat) (x : Prog) (w e : W64) (r : RegionId),
    s.AtInstr p x (isOp 0x24) w e → onlyBits w [uA, (26, 1)] = true → handleErr x (fA w) = none → hRegion (x.hr (fA w)) = r →
    s.token r = false → s.hasLake = true → s.cell r cellLive = none → (fModI w % 2 = 1 → (s.ent r).shared = false ∧ (s.ent r).back = false) →
    s.lake.wear ≠ .spent → s.ownerErr x.host r = none → 4 * (s.change r (fun y => { y with keep := true })).commitment ≤ 3 * (s.pwr.budget * 2 ^ 30) →
    s.rt.offers = [] → s.rt.revokes = [] → (s.ent r).odd = false →
    ∃ t, exec (.regionKeep p false) s = .next t ∧ (t.ent r).keep = (fModI w % 2 == 1) ∧ (t.ent r).gen = (s.ent r).gen + 2 ∧
      (t.ent r).st = (s.ent r).st ∧ t.prog p = some (x.completed 0 0) ∧ t.mem = s.mem ∧ t.map = s.map ∧ t.rt.grants = s.rt.grants) ∧
  (∀ (s : State) (p : Nat) (x : Prog) (w e : W64) (r : RegionId),
    s.AtInstr p x (isOp 0x25) w e → onlyBits w [uA] = true → handleErr x (fA w) = none → hRegion (x.hr (fA w)) = r →
    s.token r = false → (s.ent r).st = .new → s.ownerErr x.host r = none → s.dir.held = [] → s.rt.offers = [] → s.rt.revokes = [] →
    s.lamp.sch = [] →
    ∃ t, exec (.regionFree p false) s = .next t ∧ t.ent r = { REnt.freed with gen := (s.ent r).gen + 2 } ∧ t.rt.releasing.contains r.toNat = true ∧
      (∀ q ∈ t.rt.grants, q.2.region ≠ r) ∧ (∀ q ∈ t.rt.peers, q.2.region ≠ r) ∧ (∀ d ∈ t.dir.ent, d.region ≠ r) ∧
      t.prog p = some (x.completed 0 0) ∧ t.mem = s.mem) ∧
  (∀ (s : State) (r : RegionId), s.rt.releasing.contains r.toNat = true → (∀ d ∈ s.rt.drains, d.region ≠ r) →
    ∃ t, exec (.regionReleaseDone r) s = .next t ∧ t.rt.releasing.contains r.toNat = false ∧ t.smes r = [] ∧
      (∀ r2, r2 ≠ r → t.smes r2 = s.smes r2) ∧ t.rt.ent = s.rt.ent ∧ t.mem = s.mem)

/-! ### Moves by instruction, and peers -/

/-- 02 R86, R89; 09 R371, R372; 06 R262: PIN and UNPIN write the pin bit of every segment of their range, a tier move begins the move of a
segment that is not yet there, a fill makes every segment of its range PATTERN, and EVACUATE narrows the region and begins to copy it. -/
def Obligations.SegmentInstructionsActOnTheirRange : Prop :=
  (∀ (s : State) (p : Nat) (x : Prog) (w e : W64) (r : RegionId),
    s.AtInstr p x (isOp 0x26) w e → onlyBits w [uA, uB] = true → rangeErr s x w = none → hRegion (x.hr (fA w)) = r → s.token r = false →
    s.cell r cellLive = none → s.pinErr x w = none → (s.ent r).ponly = false → (s.ent r).keep = false → s.q.ops = [] → s.map.moves = [] →
    4 * (s.reservedSectors + 16 * s.unpinnedIn r (rangeSegs x w).1 (rangeSegs x w).2) ≤ 3 * s.pondSectors →
    (∀ i, i < (rangeSegs x w).2 → (s.sme r ((rangeSegs x w).1 + i)).home = none ∧ s.malformed (s.sme r ((rangeSegs x w).1 + i)) = false) →
    ∃ t, exec (.pin p) s = .next t ∧ (∀ i, i < (rangeSegs x w).2 → (t.sme r ((rangeSegs x w).1 + i)).f.pin = true) ∧
      t.prog p = some (x.completed 0 0) ∧ t.mem = s.mem ∧ t.rt = s.rt ∧ t.dir = s.dir) ∧
  (∀ (s : State) (p : Nat) (x : Prog) (w e : W64) (r : RegionId),
    s.AtInstr p x (isOp 0x27) w e → onlyBits w [uA, uB] = true → rangeErr s x w = none → hRegion (x.hr (fA w)) = r → s.token r = false →
    s.cell r cellAny = none → s.pinErr x w = none → s.map.sme.sorted = true →
    ∃ t, exec (.unpin p) s = .next t ∧ (∀ i, i < (rangeSegs x w).2 → (t.sme r ((rangeSegs x w).1 + i)).f.pin = false) ∧
      t.prog p = some (x.completed 0 0) ∧ t.mem = s.mem ∧ t.rt = s.rt ∧ t.dir = s.dir) ∧
  (∀ (s : State) (p : Nat) (x : Prog) (w e : W64) (r : RegionId) (seg f sec a : Nat) (sm : Sme),
    s.AtInstr p x (isOp 0x28) w e → moveKind e = 1 → onlyBits w [uD, uA, uB] = true → xf e 3 61 = 0 → rangeErr s x w = none →
    hRegion (x.hr (fA w)) = r → s.token r = false → s.cell r cellLive = none → s.moveRight x w = none → s.moveBusy = none →
    s.smes r = [(seg, sm)] → (rangeSegs x w).1 ≤ seg → seg < (rangeSegs x w).1 + (rangeSegs x w).2 → (s.sme r seg).st = .lake →
    (s.sme r seg).home = some (.flash f sec) → (s.sme r seg).image = none → s.malformed (s.sme r seg) = false → s.lends r seg = false →
    s.map.moves = [] → s.q.ops = [] →
    s.admitDirty r seg (s.sme r seg).cs = .yes → s.allocPond (s.anchorOf r seg) (s.sme r seg).cs (s.useOf r seg .place) 0 = some a →
    ∃ t, exec (.moveTier p) s = .next t ∧
      t.map.moves.find s.map.moveNo = some (mkMove r seg (.near false a) (s.sme r seg).cs false 3 (.op s.q.opNo)) ∧
      (t.sme r seg).st = .transit ∧ (t.sme r seg).home = some (.flash f sec) ∧ t.prog p = some { x with wait := .control } ∧
      t.mem = s.mem ∧ t.rt = s.rt ∧ t.dir = s.dir) ∧
  (∀ (s : State) (p : Nat) (x : Prog) (w e : W64) (r : RegionId),
    s.AtInstr p x (isOp 0x28) w e → moveKind e = 4 → onlyBits w [uD, uA, uB, uC] = true → xf e 3 61 = 0 → rangeErr s x w = none →
    hRegion (x.hr (fA w)) = r → s.token r = false → s.cell r cellWritable = none → s.moveRight x w = none → s.moveBusy = none →
    s.dir.ent = [] → s.map.moves = [] → x.gr (fC w) ≠ 0 →
    ∃ t, exec (.moveFill p) s = .next t ∧
      (∀ i, i < (rangeSegs x w).2 → (t.sme r ((rangeSegs x w).1 + i)).st = .pattern ∧ (t.sme r ((rangeSegs x w).1 + i)).w1 = x.gr (fC w)) ∧
      (∀ j, j < (rangeSegs x w).1 ∨ (rangeSegs x w).1 + (rangeSegs x w).2 ≤ j → t.sme r j = s.sme r j) ∧
      t.prog p = some (x.completed (fD w) (BitVec.ofNat 64 (rangeSegs x w).2)) ∧ t.mem = s.mem ∧ t.rt = s.rt) ∧
  (∀ (s : State) (p : Nat) (x : Prog) (w e : W64) (r : RegionId) (seg : Nat) (sm : Sme),
    s.AtInstr p x (isOp 0x29) w e → onlyBits w [uA, uB, uC] = true → handleErr x (fA w) = none → (x.gr (fB w)).toNat < 65536 →
    (x.gr (fC w)).toNat < 16384 → hRegion (x.hr (fA w)) = r → s.token r = false → s.cell r cellLive = none → s.ownerErr x.host r = none →
    s.smes r = [(seg, sm)] → s.sme r seg = sm → sm.st = .pattern → s.malformed sm = false → s.q.ops = [] → s.ports.pmoves = [] → s.ports.pwait = [] →
    s.dir.ent = [] → s.dir.lost = [] → s.dir.held = [] → s.rt.offers = [] → s.rt.revokes = [] → s.lamp.sch = [] →
    s.enrolled ((x.gr (fB w)).setWidth 16) = true → (s.ent r).odd = false →
    ∃ t, exec (.evacuate p .ok false) s = .next t ∧ (t.ent r).st = .evacuating ∧ (t.ent r).gen = (s.ent r).gen + 2 ∧
      (∀ q ∈ t.rt.grants, q.2.region = r → q.2.rw = false) ∧ t.prog p = some { x with wait := .control } ∧
      (∃ b, s.segBytes sm none = some b ∧
        .frame ((x.gr (fB w)).setWidth 16) .data ⟨s.id.sledId, BitVec.ofNat 32 s.q.opNo, (x.gr (fC w)).setWidth 14, BitVec.ofNat 34 seg, 0, 0, b⟩ ∈ t.out) ∧
      t.mem = s.mem)

/-- 06 R255, R260; 07 R293, R294, R309; 09 R371 to R373: a push sends its segments and then DONE, a pull asks its peer for them; a DATA frame
that may be written takes a new home with its bytes, a PULL that may be read is answered, the last ACK completes the push, a NAK has the frame sent
again once, DONE is acknowledged, and a peer that stays silent ends the move with E_TIMEOUT. -/
def Obligations.PeerMovesExchangeFrames : Prop :=
  (∀ (s : State) (p : Nat) (x : Prog) (w e : W64) (r : RegionId),
    s.AtInstr p x (isOp 0x28) w e → moveKind e = 5 → peerCheck 5 s x w e = none → hRegion (x.hr (fA w)) = r → s.token r = false →
    s.cell r cellAny = none → s.lacks x.host r (hBase (x.hr (fA w))) (x.gr (fB w)).toNat false = none → s.moveBusy = none →
    s.ports.pmoves = [] → s.dir.ent = [] → s.dir.lost = [] → (rangeSegs x w).2 = 1 → (s.sme r (rangeSegs x w).1).st = .zero →
    s.malformed (s.sme r (rangeSegs x w).1) = false → s.enrolled (BitVec.ofNat 16 (xf e 11 16)) = true → (s.ent r).odd = false →
    ∃ t, exec (.movePeerPush p ⟨.ok, .ok⟩) s = .next t ∧
      t.out = .frame (BitVec.ofNat 16 (xf e 11 16)) .done ⟨s.id.sledId, BitVec.ofNat 32 s.q.opNo, BitVec.ofNat 14 (xf e 27 14), 0, 0, 1, []⟩ ::
        .frame (BitVec.ofNat 16 (xf e 11 16)) .data ⟨s.id.sledId, BitVec.ofNat 32 s.q.opNo, BitVec.ofNat 14 (xf e 27 14),
          BitVec.ofNat 34 ((x.gr (fC w)).toNat / 4096), 0, 0, zeros 4096⟩ :: s.out ∧
      t.prog p = some { x with wait := .control } ∧ t.mem = s.mem ∧ t.rt = s.rt) ∧
  (∀ (s : State) (p : Nat) (x : Prog) (w e : W64) (r : RegionId),
    s.AtInstr p x (isOp 0x28) w e → moveKind e = 6 → peerCheck 6 s x w e = none → hRegion (x.hr (fA w)) = r → s.token r = false →
    s.cell r cellWritable = none → s.lacks x.host r (hBase (x.hr (fA w))) (x.gr (fB w)).toNat true = none → s.moveBusy = none →
    s.ports.pmoves = [] → s.enrolled (BitVec.ofNat 16 (xf e 11 16)) = true →
    ∃ t, exec (.movePeerPull p .ok) s = .next t ∧
      t.out = .frame (BitVec.ofNat 16 (xf e 11 16)) .pull ⟨s.id.sledId, BitVec.ofNat 32 s.q.opNo, BitVec.ofNat 14 (xf e 27 14),
        BitVec.ofNat 34 ((x.gr (fC w)).toNat / 4096), 0, BitVec.ofNat 32 (rangeSegs x w).2, []⟩ :: s.out ∧
      t.prog p = some { x with wait := .control } ∧ t.mem = s.mem ∧ t.rt = s.rt ∧ t.map = s.map ∧ t.dir = s.dir) ∧
  (∀ (s : State) (pbr : BitVec 12) (f : PFrame) (pick : W32) (p : W16) (a : Nat),
    f.whole = true → s.up = true → s.peerAt pbr = some p → s.ports.pmoves = [] → f.seq = 0 → s.peerMayWrite p f.region = true →
    f.seg.toNat < (s.ent f.region).segs → (s.ent f.region).odd = false → s.dir.ent = [] → s.pageAway f.region f.seg.toNat = false →
    s.malformed (s.sme f.region f.seg.toNat) = false → (s.sme f.region f.seg.toNat).st = .zero → s.moveOf f.region f.seg.toNat = none →
    s.admitDirty f.region f.seg.toNat 16 = .yes →
    s.allocPond (s.anchorOf f.region f.seg.toNat) 16 (s.useOf f.region f.seg.toNat .store) pick = some a →
    ∃ t, exec (.peerDataFrame pbr f true pick) s = .next t ∧ (t.sme f.region f.seg.toNat).st = .opn ∧
      (t.sme f.region f.seg.toNat).w1 = BitVec.ofNat 64 a ∧
      t.mem.bytes = writeBytes s.mem.bytes ((Loc.near false a).sector * 256) f.payload ∧
      s.MemKeptBut t ((Loc.near false a).sector * 256) 4096 ∧ t.rt = s.rt ∧ t.out = s.out) ∧
  (∀ (s : State) (pbr : BitVec 12) (f : PFrame) (crcOk : Bool) (pick : W32), ¬ (Instr.peerDataFrame pbr f crcOk pick).wf = true →
    exec (.peerDataFrame pbr f crcOk pick) s = .fault .illFormed) ∧
  (∀ (s : State) (pbr : BitVec 12) (f : PFrame) (p : W16),
    s.up = true → s.peerAt pbr = some p → s.ports.pmoves = [] → s.peerMayRead p f.region = true → f.count = 1 →
    f.seg.toNat < (s.ent f.region).segs → (s.ent f.region).odd = false → s.dir.ent = [] → s.dir.lost = [] →
    s.malformed (s.sme f.region f.seg.toNat) = false → (s.sme f.region f.seg.toNat).st = .zero →
    ∃ t, exec (.peerPullFrame pbr f ⟨true, .ok⟩) s = .next t ∧
      t.out = .frame p .done ⟨s.id.sledId, f.tag, f.region, 0, 0, 1, []⟩ :: .frame p .data ⟨s.id.sledId, f.tag, f.region, f.seg, 0, 0, zeros 4096⟩ :: s.out ∧
      t.mem = s.mem ∧ t.rt = s.rt ∧ t.q = s.q) ∧
  (∀ (s : State) (pbr : BitVec 12) (f : PFrame) (p : W16) (m : PMove) (n : Nat) (o : COp) (x : Prog),
    s.up = true → s.peerAt pbr = some p → s.ports.pmoves = [m] → s.ports.pwait = [] → m.isFor p f.tag true = true → m.op = some n →
    m.done = some m.count → m.seq = m.count → m.acked < m.count → f.seq.toNat + 1 = m.count → s.q.ops.find n = some o → o.kind = .push →
    o.failed = none → s.prog o.prog = some x → x.cancel = none →
    ∃ t, exec (.peerAckFrame pbr f ⟨true, .ok⟩) s = .next t ∧ t.ports.pmoves = [] ∧ t.q.ops.find n = none ∧
      t.prog o.prog = some (x.completed o.d (BitVec.ofNat 64 m.count)) ∧ s.DataKept t ∧ t.out = s.out) ∧
  (∀ (s : State) (pbr : BitVec 12) (f : PFrame) (p : W16) (m : PMove),
    s.up = true → s.peerAt pbr = some p → s.ports.pmoves = [m] → m.isFor p f.tag true = true → m.acked ≤ f.seq.toNat → f.seq.toNat < m.seq →
    m.retried.contains f.seq.toNat = false → (s.ent m.region).st ≠ .freed → (s.ent m.region).odd = false → (s.ent m.region).dlost = false → s.dir.ent = [] → s.dir.lost = [] →
    s.malformed (s.sme m.region (m.segAt f.seq.toNat)) = false → (s.sme m.region (m.segAt f.seq.toNat)).st = .zero →
    ∃ t, exec (.peerNakFrame pbr f true) s = .next t ∧
      t.out = .frame m.peer .data ⟨s.id.sledId, m.tag, (m.target f.seq.toNat).1, BitVec.ofNat 34 (m.target f.seq.toNat).2, f.seq, 0, zeros 4096⟩ :: s.out ∧
      t.ports.pmoves = [{ m with retried := f.seq.toNat :: m.retried }] ∧ t.mem = s.mem ∧ t.rt = s.rt ∧ t.q = s.q) ∧
  (∀ (s : State) (pbr : BitVec 12) (f : PFrame) (p : W16) (m : PMove),
    s.up = true → s.peerAt pbr = some p → s.ports.pmoves = [m] → s.ports.pwait = [] → m.isFor p f.tag false = true → m.op = none →
    f.count.toNat = m.seq →
    ∃ t, exec (.peerDoneFrame pbr f true) s = .next t ∧ t.ports.pmoves = [] ∧
      t.out = .frame m.peer .ack ⟨s.id.sledId, m.tag, m.region, 0, BitVec.ofNat 32 (m.seq - 1), 0, []⟩ :: s.out ∧ s.DataKept t ∧ t.q = s.q) ∧
  (∀ (s : State) (tag : W32) (m : PMove) (n : Nat) (o : COp) (x : Prog),
    s.ports.pmoves = [m] → s.ports.pwait = [] → m.tag = tag → m.op = some n → m.sends = true → s.q.ops.find n = some o → o.kind = .push →
    o.also = [] → s.prog o.prog = some x → x.mute = false → s.CanPost x.host x.q →
    ∃ t, exec (.peerMoveTimeout tag) s = .next t ∧ t.ports.pmoves = [] ∧
      s.EndsWith t o.prog (x.setG o.d (BitVec.ofNat 64 m.acked)) eTimeout 5 (BitVec.ofNat 64 (m.segAt m.acked * 4096)) ∧ t.mem = s.mem ∧ t.rt = s.rt)

/-! ### Profile and firmware instructions -/

/-- 13 R480, R481; 09 R374; 17 R580 to R584, R589: POWER.PROFILE begins a switch and completes when it ends with the profile's settings;
FW.STAGE begins a staging into the other slot, FW.ACTIVATE pauses the sled for the staged slot, FW.CONFIRM makes the slot on probation the
running one and raises the SVN counter. -/
def Obligations.OwnerInstructionsForPowerAndFirmware : Prop :=
  (∀ (s : State) (p : Nat) (x : Prog) (w e : W64),
    s.AtInstr p x (isOp 0x2A) w e → onlyBits w [uImm] = true → (fImm w).toNat ≤ 1 → s.isOwnerFn x.host = true → s.pwr.switching = none →
    ∃ t, exec (.powerProfile p) s = .next t ∧ t.pwr = { s.pwr with switching := some (p, if fImm w = 1 then .training else .serving) } ∧
      t.prog p = some { x with wait := .control } ∧ s.DataKept t ∧ t.out = s.out) ∧
  (∀ (s : State) (p : Nat) (f : Profile) (x : Prog), s.pwr.switching = some (p, f) → s.prog p = some x → x.cancel = none →
    ∃ t, exec .profileSwitchDone s = .next t ∧ t.pwr.profile = f ∧ t.pwr.switching = none ∧
      t.pwr.packMs = (if f = .training then 500 else 50) ∧ t.pwr.trimUs = (if f = .training then 20 else 200) ∧
      t.pwr.bankMs = (if f = .training then 1000 else 10000) ∧ t.pwr.w1 = (if f = .training then 4 else 8) ∧
      t.pwr.w2 = (if f = .training then 8 else 4) ∧ t.pwr.w3 = (if f = .training then 4 else 1) ∧
      t.prog p = some (x.completed 0 0) ∧ s.DataKept t) ∧
  (∀ (s : State) (p : Nat) (image : Image) (body : List Chunk) (x : Prog) (w e : W64),
    s.AtInstr p x (isOp 0x2B) w e → onlyBits w [uA, uB, (36, 1)] = true → fModR w % 2 = 1 → 65536 * (image.chunks + 1) = (x.gr (fB w)).toNat →
    131072 ≤ (x.gr (fB w)).toNat → (x.gr (fB w)).toNat ≤ 67108864 → s.isOwnerFn x.host = true → s.fw.stage = none → s.fw.wait = none →
    s.refuses image = none →
    ∃ t, exec (.fwStage p image ⟨body, true⟩) s = .next t ∧ t.fw.stage = some ⟨image, 0, false, some p, body⟩ ∧ (t.fw.slot s.otherSlot).st = .writing ∧
      t.fw.slot (1 - s.otherSlot) = s.fw.slot (1 - s.otherSlot) ∧ t.prog p = some { x with wait := .control } ∧ s.DataKept t) ∧
  (∀ (s : State) (p : Nat) (image : Image) (body : List Chunk) (readOk : Bool) (x : Prog) (w e : W64),
    s.AtInstr p x (isOp 0x2B) w e → onlyBits w [uA, uB, (36, 1)] = true → fModR w % 2 = 0 → s.isOwnerFn x.host = true → s.fw.stage = none →
    s.fw.wait = none → s.sledRefuses = none →
    ∃ t, exec (.fwStage p image ⟨body, readOk⟩) s = .next t ∧ t.chn.arm = x.gr (fA w) ∧ t.fw.wait = some (p, x.gr (fB w), s.clk.ms) ∧
      t.prog p = some { x with wait := .control } ∧ s.DataKept t) ∧
  (∀ (s : State) (p n : Nat) (x : Prog) (w e : W64),
    s.AtInstr p x (isOp 0x2C) w e → only [] w = none → s.fw.act = none → s.fw.inState .staged = some n → s.actRefuses n = none →
    s.isOwnerFn x.host = true → s.pond.panic = [] → s.rt.stalled = [] → s.lamp.sch = [] →
    ∃ t, exec (.fwActivate p) s = .next t ∧
      t.fw.act = some { slot := n, prog := some p, paused := true, pausedAt := s.clk.ms, cause := 0 } ∧ t.wd.held = true ∧
      t.prog p = some { x with wait := .control } ∧ s.DataKept t) ∧
  (∀ (s : State) (p n : Nat) (x : Prog) (w e : W64),
    s.AtInstr p x (isOp 0x2D) w e → only [] w = none → s.onProbation = some n → n < 2 → s.isOwnerFn x.host = true → s.sled.st ≠ .off →
    ∃ t, exec (.fwConfirm p) s = .next t ∧ (t.fw.slot n).st = .running ∧ t.fw.svn = max s.fw.svn (s.fw.slot n).svn.toNat ∧
      t.prog p = some (x.completed 0 0) ∧ s.Posted t 0x0A04 0 0 ∧ s.DataKept t)

/-! ### The mailbox -/

/-- 07 R271, R272, R280, R283, R284: what the mailbox and the DOE answer to a host that reaches its function; a command that R283 does not
list is answered as unsupported. Nothing else changes but the log that a clear empties. -/
def Obligations.MailboxAnswers : Prop :=
  (∀ (s : State) (host : HostId), s.barOpen host = true →
    exec (.getDynamicCapacityConfiguration host) s = .next (s.send (.mailbox host 0 [2, 0, 0x800000000000#64, 0x800000000000#64,
      0x800000000000#64, 0x10000000#64, 512]))) ∧
  (∀ (s : State) (host : HostId) (g : Nat) (gr : Grant), s.barOpen host = true → s.rt.grants = [(g, gr)] → gr.host = host →
    s.rt.gone.contains g = false →
    exec (.getDynamicCapacityExtentList host) s = .next (s.send (.mailbox host 0 [1, BitVec.ofNat 64 gr.dpa, BitVec.ofNat 64 (gr.count * 2 ^ 28),
      BitVec.ofNat 64 gr.region.toNat]))) ∧
  (∀ (s : State) (host : HostId), s.barOpen host = true →
    ∃ l, exec (.identifyMemoryDevice host) s = .next (s.send (.mailbox host 0 (0x1000000000000#64 :: 0 :: l)))) ∧
  (∀ (s : State) (host : HostId) (v : DcEv), s.barOpen host = true → s.ports.dcLog.getD host.toNat [] = [v] →
    exec (.getEventRecords host) s = .next (s.send (.mailbox host 0 (1 :: v.words.map (BitVec.ofNat 64))))) ∧
  (∀ (s : State) (host : HostId), s.barOpen host = true →
    ∃ t, exec (.clearEventRecords host) s = .next t ∧ t.out = .mailbox host 0 [] :: s.out ∧ t.ports.dcLog.getD host.toNat [] = [] ∧
      (∀ h : HostId, h ≠ host → t.ports.dcLog.find h.toNat = s.ports.dcLog.find h.toNat) ∧ t = { s with out := t.out, ports := t.ports }) ∧
  (∀ (s : State) (host : HostId), s.barOpen host = true → ∃ l, exec (.getHealthInfo host) s = .next (s.send (.mailbox host 0 l))) ∧
  (∀ (s : State) (host : HostId), s.barOpen host = true → ∃ l, exec (.getSupportedLogs host) s = .next (s.send (.mailbox host 0 l))) ∧
  (∀ (s : State) (host : HostId) (opcode : W16), s.barOpen host = true →
    opcode.toNat ∉ [0x4800, 0x4801, 0x4802, 0x4803, 0x4000, 0x0100, 0x0101, 0x4200, 0x0400] →
    exec (.mailboxUnsupported host opcode) s = .next (s.send (.mailbox host 3 []))) ∧
  (∀ (s : State) (host : HostId), s.reach host = true →
    ∃ a b, exec (.doeCdat host) s = .next (s.send (.mailbox host 0 [0, 0, 0x800000000000#64, 1, 230, 230, a, b,
      1, 0x800000000000#64, 0x800000000000#64, 1, 230, 230, a, b])))

/-! ### Host resets, links and functions -/

/-- 06 R251; 07 R299 to R303, R307, R310: PERST#, hot reset and a lost link count themselves, take the half down and end every grant of the hosts
behind it, which then wait for the link; a reset of one function returns it to its reset values at once; a host that lets a snoop time out loses every
grant. -/
def Obligations.HostResetsEndGrants : Prop :=
  (∀ (s : State), ∃ t, exec .presenceSweep s = .next t ∧ t = { s with dir := { s.dir with pres := t.dir.pres } } ∧
    (∀ x, x ∈ t.dir.pres ↔ x ∈ s.dir.pres ∧ ∃ e ∈ s.dir.ent, e.region.toNat = x.2 ∧
      pchOfSet (s.dirSet e.region e.line).1 (s.dirSet e.region e.line).2 = x.1)) ∧
  (∀ (s : State) (pg : Fin 4), s.Calm → s.dir.ent = [] → s.ports.resets = [] → s.ports.perst.contains pg.val = false →
    ∃ t, exec (.perstAssert pg) s = .next t ∧ t.ports.perst = pg.val :: s.ports.perst ∧
      (∀ n ∈ s.perstHalves pg, (t.halfReg n).persts = satInc (s.halfReg n).persts ∧
        (t.halfReg n).link = (if (s.halfReg n).link = 8 then 8 else 0) ∧ (∀ h ∈ s.hostsOn n, t.HostDown h)) ∧ t.mem = s.mem) ∧
  (∀ (s : State) (pg : Fin 4), s.ports.perst.contains pg.val = true →
    ∃ t, exec (.perstRelease pg) s = .next t ∧ t.ports.perst.contains pg.val = false ∧ (∀ n ∈ s.perstHalves pg, (t.halfReg n).link = 1) ∧
      s.DataKept t ∧ t.out = s.out) ∧
  (∀ (s : State) (half : Fin 16), s.Calm → s.dir.ent = [] → s.ports.resets = [] → (s.halfReg half).hold = false → s.halfExists half = true →
    ∃ t, exec (.hotReset half) s = .next t ∧ (t.halfReg half).resets = satInc (s.halfReg half).resets ∧ (t.halfReg half).link = 0 ∧
      (∀ h ∈ s.hostsOn half, t.HostDown h) ∧ t.mem = s.mem) ∧
  (∀ (s : State) (half : Fin 16), s.Calm → s.dir.ent = [] → s.ports.resets = [] → (s.halfReg half).hold = false → s.halfExists half = true → (s.halfReg half).link ≠ 0 →
    ∃ t, exec (.linkDown half) s = .next t ∧ (t.halfReg half).linkdown = satInc (s.halfReg half).linkdown ∧ (t.halfReg half).link = 0 ∧
      (∀ h ∈ s.hostsOn half, t.HostDown h) ∧ t.mem = s.mem) ∧
  (∀ (s : State) (host : HostId), s.Calm → s.dir.ent = [] → (s.bindOf host).valid = true → (s.halfReg (s.halfOf host)).hold = false →
    s.inReset host = false →
    (∃ t, exec (.functionLevelReset host) s = .next t ∧ t.HostFresh host ∧
      (t.halfReg (s.halfOf host)).resets = satInc (s.halfReg (s.halfOf host)).resets ∧ t.bindOf host = s.bindOf host ∧ t.mem = s.mem) ∧
    (∃ t, exec (.cxlReset host) s = .next t ∧ t.HostFresh host ∧
      (t.halfReg (s.halfOf host)).resets = satInc (s.halfReg (s.halfOf host)).resets ∧ t.bindOf host = s.bindOf host ∧ t.mem = s.mem)) ∧
  (∀ (s : State) (host : HostId), s.Calm → s.dir.ent = [] → s.barOpen host = true → s.sled.st ≠ .off →
    ∃ t, exec (.freset host) s = .next t ∧ t.HostFresh host ∧ t.ports.half = s.ports.half ∧ t.bindOf host = s.bindOf host ∧
      s.Posted t 0x0504 2 host.toNat ∧ t.mem = s.mem) ∧
  (∀ (s : State) (host : HostId) (region : RegionId) (line : BitVec 40) (chk : Chk) (pick : W32) (n : Snoop),
    s.Calm → s.dir.snoops.find? (fun n => n.region == region && n.line == line && n.host == host) = some n →
    ∃ t, exec (.biSnoopTimeout host region line chk pick) s = .next t ∧ .err (s.halfOf host) .fatal ∈ t.out ∧
      (∀ p ∈ t.rt.grants, p.2.host ≠ host) ∧ t.mem = s.mem)

/-- 07 R275, R277, R292, R295, R297, R299, R300, R308: a binding write sets the binding its bits give, after a reset where it changes one in
force; D3cold resets its function, which returns in D0; D3hot holds vectors 0 and 1, which D0 sends; a returned link ends the wait of its hosts; a
host whose bus master is disabled loses its windows and what they stored. -/
def Obligations.BindingsAndFunctionPower : Prop :=
  (∀ (s : State) (host : HostId) (value : W32), (s.bindOf host).valid = false →
    ∃ t, exec (.kdevBindWrite host value) s = .next t ∧ (t.bindOf host).valid = value.getLsbD 0 ∧ (t.bindOf host).half = value.extractLsb' 1 4 ∧
      (t.bindOf host).func = value.extractLsb' 5 8 ∧ (∀ h : HostId, h ≠ host → t.bindOf h = s.bindOf h) ∧
      t = { s with ports := { s.ports with bind := t.ports.bind } }) ∧
  (∀ (s : State) (host : HostId) (value : W32), s.Calm → s.dir.ent = [] → (s.bindOf host).valid = true → s.inReset host = false →
    (s.bindOfWord host value).valid = false →
    ∃ t, exec (.kdevBindWrite host value) s = .next t ∧ t.HostFresh host ∧ t.bindOf host = s.bindOfWord host value ∧ t.mem = s.mem) ∧
  (∀ (s : State) (host : HostId), s.Calm → s.dir.ent = [] → (s.bindOf host).valid = true → (s.halfReg (s.halfOf host)).hold = false →
    s.inReset host = false → s.sled.st ≠ .off →
    ∃ t, exec (.d3coldEntry host) s = .next t ∧ t.HostDown host ∧ s.Posted t 0x0504 2 host.toNat ∧ t.mem = s.mem) ∧
  (∀ (s : State) (host : HostId), s.reach host = true → (s.fnOf host).d3 = false →
    ∃ t, exec (.d3hotEntry host) s = .next t ∧ (t.fnOf host).d3 = true ∧ 1 ∈ (t.fnOf host).msixPend ∧ t.out = s.out ∧
      t = { s with ports := { s.ports with fn := t.ports.fn } }) ∧
  (∀ (s : State) (host : HostId), s.reach host = true → (s.fnOf host).d3 = true →
    ∃ t, exec (.d0Entry host) s = .next t ∧ (t.fnOf host).d3 = false ∧ (t.fnOf host).msixPend = [] ∧
      (∀ v ∈ (s.fnOf host).msixPend, .msix host v ∈ t.out) ∧ t = { s with out := t.out, ports := { s.ports with fn := t.ports.fn } }) ∧
  (∀ (s : State) (host : HostId), s.ports.resets = [⟨host, false, true, none⟩] → (∀ p ∈ s.rt.grants, p.2.host ≠ host) →
    ∃ t, exec (.d0Entry host) s = .next t ∧ t.HostFresh host ∧ s.DataKept t) ∧
  (∀ (s : State) (half : Fin 16) (train : Train) (host : HostId), half.val % 2 = 0 → train.ok = true → s.up = true →
    (s.halfReg half).hold = false → (s.halfReg half).link = 1 → s.ports.perst = [] → s.fenced (.half half) = false → s.hostsOn half = [host] →
    s.ports.resets = [⟨host, true, false, none⟩] → (∀ p ∈ s.rt.grants, p.2.host ≠ host) →
    ∃ t, exec (.linkReturn half train) s = .next t ∧ (t.halfReg half).link = 2 ∧ (t.halfReg half).width = train.width ∧
      (t.halfReg half).speed = train.speed ∧ t.HostFresh host ∧ s.DataKept t) ∧
  (∀ (s : State) (host : HostId) (w : Nat) (v : Window), s.reach host = true → s.rt.windows = [(w, v)] → v.host = host → s.rt.revokes = [] →
    s.q.ops = [] → s.ports.np = [] → s.sled.st ≠ .off →
    ∃ t, exec (.busMasterDisable host) s = .next t ∧ t.rt.windows = [] ∧ (t.fnOf host).busMaster = false ∧
      (∀ (r : RegionId) (seg sec : Nat), seg < 2 ^ 34 → (s.sme r seg).home = some (.tarn w sec) → (t.sme r seg).st = .poisoned) ∧
      s.Posted t 0x0305 2 host.toNat ∧ t.mem = s.mem)

/-- 07 R271, R287, R291, R296, R298, R306, R310: an idle stream closes, a read without completion is repeated once, link power changes the link's
state, a corrected error is counted and reported, a malformed packet or a failed integrity check takes the link down with a fatal error, and a keyed
stream that starts establishes IDE. -/
def Obligations.LinkEventsAct : Prop :=
  (∀ (s : State) (half : Fin 16) (host : HostId) (region : RegionId),
    ∃ t, exec (.rtStreamIdle half host region) s = .next t ∧
      t.ports.streams = s.ports.streams.filter (fun x => !(x.half == half.val && x.host == host && x.region == region)) ∧
      ((∀ x ∈ t.ports.streams, x.half ≠ half.val) → t.pond.panic.has half = false) ∧ s.DataKept t ∧ s.ControlKept t ∧ t.out = s.out) ∧
  (∀ (s : State) (req : Nat) (n : NpReq), s.ports.np.find req = some n → n.retried = false → s.issued req = true →
    ∃ t, exec (.completionTimeout req) s = .next t ∧ t.out = .err (s.halfOf n.host) .nonfatal :: s.out ∧
      t.ports.np.find req = some { n with retried := true } ∧ s.DataKept t ∧ s.ControlKept t) ∧
  (∀ (s : State) (half : Fin 16), s.linkOpen half = true → (s.portCfg (half.val / 2)).l1Idle ≠ 0 → s.rtHalf half = false →
    exec (.l1IdleExpiry half) s = .next (s.setHalf half { s.halfReg half with link := 5 })) ∧
  (∀ (s : State) (half : Fin 16) (width : BitVec 3), s.linkOpen half = true → width ≤ (s.halfReg half).width → s.rtHalf half = false →
    exec (.l0pRequest half width) s = .next (s.setHalf half { s.halfReg half with link := if width = (s.halfReg half).width then 2 else 3 })) ∧
  (∀ (s : State) (half : Fin 16) (link : BitVec 4), (s.halfReg half).hold = false → s.up = true → link ∈ [5#4, 6#4, 7#4, 8#4] →
    (s.halfReg half).link ∈ [2#4, 3#4, 5#4, 6#4, 7#4, 8#4] →
    exec (.linkPowerStateChange half link) s = .next (s.setHalf half { s.halfReg half with link := link })) ∧
  (∀ (s : State) (half : Fin 16), (s.halfReg half).hold = false → s.up = true → (s.halfReg half).link = 2 → s.rtHalf half = false →
    (s.portCfg (half.val / 2)).l0pEn = true →
    exec (.linkPowerStateChange half 3) s = .next (s.setHalf half { s.halfReg half with link := 3 })) ∧
  (∀ (s : State) (half : Fin 16), (s.halfReg half).hold = false → s.up = true → (s.halfReg half).link ∈ [2#4, 3#4, 5#4, 6#4, 7#4, 8#4] →
    ∃ t, exec (.linkPowerStateChange half 2) s = .next t ∧ (t.halfReg half).link = 2 ∧ s.DataKept t) ∧
  (∀ (s : State) (half : Fin 16), s.linkOpen half = true →
    exec (.correctedLinkError half) s = .next ((s.setHalf half { s.halfReg half with cor := (s.halfReg half).cor + 1 }).send (.err half .cor))) ∧
  (∀ (s : State) (half : Fin 16), s.Calm → s.dir.ent = [] → s.ports.resets = [] → s.linkOpen half = true →
    ∃ t, exec (.malformedTlp half) s = .next t ∧ .err half .fatal ∈ t.out ∧ (t.halfReg half).link = 0 ∧
      (t.halfReg half).linkdown = satInc (s.halfReg half).linkdown ∧ (∀ h ∈ s.hostsOn half, t.HostDown h) ∧ t.mem = s.mem) ∧
  (∀ (s : State) (half : Fin 16), s.Calm → s.dir.ent = [] → s.ports.resets = [] → s.linkOpen half = true → (s.halfReg half).ide = true →
    ∃ t, exec (.ideCheckFail half) s = .next t ∧ .err half .fatal ∈ t.out ∧ (t.halfReg half).link = 0 ∧ (t.halfReg half).ide = false ∧
      (∀ h ∈ s.hostsOn half, t.HostDown h) ∧ t.mem = s.mem) ∧
  (∀ (s : State) (half : Fin 16), s.linkOpen half = true →
    exec (.ideKmMessage half true) s = .next (s.setHalf half { s.halfReg half with ide := true }))

/-! ### Queues -/

/-- 08 R319 to R322, R347, R350: a tail or a head write within the ring is taken, one outside it puts the queue into ERROR and posts
QUEUE_ERROR, and one during an activation is kept; a well-formed KQ_CFG enables a queue at empty rings, a reserved one does not; a queue
that is disabled drains and, with nothing left, is DISABLED. -/
def Obligations.QueuesAreRungEnabledAndDrained : Prop :=
  (∀ (s : State) (h : HostId) (q : QueueNo) (v : W32),
    s.barOpen h = true → s.inPause = false → (s.queue h q).st = .running → v.toNat % 4096 < (s.queue h q).size →
    ∃ t, exec (.sqTailWrite h q v) s = .next t ∧ t.queue h q = { s.queue h q with sqtail := v.toNat % 4096 } ∧
      (∀ h2 q2, qKey h2 q2 ≠ qKey h q → t.queue h2 q2 = s.queue h2 q2) ∧ s.DataKept t ∧ t.out = s.out ∧ t.evt = s.evt) ∧
  (∀ (s : State) (h : HostId) (q : QueueNo) (v : W32),
    s.barOpen h = true → s.inPause = false → (s.queue h q).st = .running → (s.queue h q).size ≤ v.toNat % 4096 → s.sled.st ≠ .off →
    ∃ t, exec (.sqTailWrite h q v) s = .next t ∧ t.queue h q = { s.queue h q with st := .error, err := 1 } ∧
      s.Posted t 0x0601 3 (q.toNat + h.toNat * 2 ^ 16) ∧ s.DataKept t) ∧
  (∀ (s : State) (h : HostId) (q : QueueNo) (v : W32),
    s.barOpen h = true → s.inPause = true →
    (∃ t, exec (.sqTailWrite h q v) s = .next t ∧ t.queue h q = { s.queue h q with keptTail := some v } ∧ s.DataKept t) ∧
    (∃ t, exec (.cqHeadWrite h q v) s = .next t ∧ t.queue h q = { s.queue h q with keptHead := some v } ∧ s.DataKept t)) ∧
  (∀ (s : State) (h : HostId) (q : QueueNo) (v : W32),
    s.barOpen h = true → s.inPause = false → (s.queue h q).st = .running → v.toNat % 4096 < (s.queue h q).size →
    (v.toNat % 4096 + (s.queue h q).size - (s.queue h q).cqhead) % (s.queue h q).size ≤
      ((s.queue h q).cqtail + (s.queue h q).size - (s.queue h q).cqhead) % (s.queue h q).size → (s.queue h q).heldCpl = [] →
    ∃ t, exec (.cqHeadWrite h q v) s = .next t ∧ t.queue h q = { s.queue h q with cqhead := v.toNat % 4096, heldBit := false } ∧
      (∀ h2 q2, qKey h2 q2 ≠ qKey h q → t.queue h2 q2 = s.queue h2 q2) ∧ s.DataKept t ∧ t.out = s.out ∧ t.evt = s.evt) ∧
  (∀ (s : State) (h : HostId) (q : QueueNo) (v : W32),
    s.barOpen h = true → s.inPause = false → (s.queue h q).st = .running → (s.queue h q).size ≤ v.toNat % 4096 → s.sled.st ≠ .off →
    ∃ t, exec (.cqHeadWrite h q v) s = .next t ∧ t.queue h q = { s.queue h q with st := .error, err := 2 } ∧
      s.Posted t 0x0601 3 (q.toNat + h.toNat * 2 ^ 16) ∧ s.DataKept t) ∧
  (∀ (s : State) (h : HostId) (q : QueueNo) (cfg : W64),
    s.barOpen h = true → s.up = true → (s.queue h q).enable = false → (s.queue h q).st = .disabled → cfgOk cfg = true →
    (s.queue h q).sqbase ≠ 0 → (s.queue h q).cqbase ≠ 0 → s.enabledQueues < 8192 → (s.queue h q).heldCpl = [] →
    ∃ t, exec (.queueEnable h q cfg) s = .next t ∧
      t.queue h q = { s.queue h q with
        kind := cfg.extractLsb' 1 2, bwclass := cfg.extractLsb' 3 2, group := cfg.extractLsb' 5 4, sizeM1 := cfg.extractLsb' 9 12,
        irqEn := cfg.getLsbD 21, runlim := cfg.extractLsb' 24 16,
        inflight := if 1 ≤ (cfg.extractLsb' 40 7).toNat ∧ (cfg.extractLsb' 40 7).toNat ≤ 64 then cfg.extractLsb' 40 7 else (s.queue h q).inflight,
        enable := true, st := .running, sqhead := 0, sqtail := 0, cqtail := 0, cqhead := 0, phase := true, heldBit := false, err := 0,
        ready := [], fetched := [] } ∧
      (∀ h2 q2, qKey h2 q2 ≠ qKey h q → t.queue h2 q2 = s.queue h2 q2) ∧ s.DataKept t ∧ t.out = s.out) ∧
  (∀ (s : State) (h : HostId) (q : QueueNo) (cfg : W64),
    s.barOpen h = true → s.up = true → (s.queue h q).enable = false → (s.queue h q).st = .disabled → cfgOk cfg = false →
    ∃ t, exec (.queueEnable h q cfg) s = .next t ∧ (t.queue h q).enable = false ∧ (t.queue h q).st = .disabled ∧ (t.queue h q).err = 3 ∧
      s.DataKept t) ∧
  (∀ (s : State) (h : HostId) (q : QueueNo), s.barOpen h = true → (s.queue h q).enable = true →
    ∃ t, exec (.queueDisable h q) s = .next t ∧ t.queue h q = { s.queue h q with enable := false, st := .draining } ∧
      (∀ h2 q2, qKey h2 q2 ≠ qKey h q → t.queue h2 q2 = s.queue h2 q2) ∧ s.DataKept t ∧ t.out = s.out ∧ t.evt = s.evt) ∧
  (∀ (s : State) (h : HostId) (q : QueueNo), (s.queue h q).st = .draining → s.progsOf h q = [] → (s.queue h q).heldCpl = [] → s.lamp.sch = [] →
    ∃ t, exec (.queueDrained h q) s = .next t ∧
      t.queue h q = { s.queue h q with st := .disabled, ready := [], fetched := [], heldBit := false } ∧
      (∀ h2 q2, qKey h2 q2 ≠ qKey h q → t.queue h2 q2 = s.queue h2 q2) ∧ s.DataKept t)

/-- 08 R318, R320, R323 to R327, R335, R338, R351; 10 R400, R402: a fetched descriptor waits with its program, its head moved on; a malformed
one completes with E_ARG; a failed fetch or post puts its queue into ERROR; a ready program starts on an idle Wick core or on its
Lantern with its arguments in g1 to g4; one past its run limit ends with E_TIMEOUT. -/
def Obligations.DescriptorsBecomePrograms : Prop :=
  (∀ (s : State) (h : HostId) (q : QueueNo) (d : Line) (words : List W64) (chk : Chk),
    s.up = true → (s.queue h q).st = .running → (s.queue h q).sqhead ≠ (s.queue h q).sqtail → descOk d = true →
    ((descWord d 0).extractLsb' 16 2).toNat < 2 →
    ∃ t, exec (.descriptorFetchDone h q d words chk) s = .next t ∧
      t.queue h q = { s.queue h q with
        sqhead := ((s.queue h q).sqhead + 1) % (s.queue h q).size
        fetched := []
        ready := (s.queue h q).ready ++ [{
          cid := (descWord d 0).extractLsb' 0 16, irq := (descWord d 0).getLsbD 24, order := (descWord d 0).getLsbD 25
          words := (List.range ((descWord d 0).extractLsb' 32 16).toNat).map (fun i =>
            if ((descWord d 0).extractLsb' 16 2).toNat = 0 then descWord d (i + 1) else words.getD i 0)
          args := if ((descWord d 0).extractLsb' 16 2).toNat = 0 then [] else [descWord d 2, descWord d 3, descWord d 4, descWord d 5]
          h0 := if ((descWord d 0).extractLsb' 16 2).toNat = 0 then 0 else descWord d 6 }] } ∧
      (∀ h2 q2, qKey h2 q2 ≠ qKey h q → t.queue h2 q2 = s.queue h2 q2) ∧ s.DataKept t ∧ t.out = s.out) ∧
  (∀ (s : State) (h : HostId) (q : QueueNo) (d : Line) (words : List W64) (chk : Chk) (off n a : Nat) (r : RegionId),
    s.up = true → (s.queue h q).st = .running → (s.queue h q).sqhead ≠ (s.queue h q).sqtail → descOk d = true →
    ((descWord d 0).extractLsb' 16 2).toNat = 2 → ((descWord d 0).extractLsb' 32 16).toNat = n →
    ((descWord d 1).extractLsb' 0 46).toNat = off → (descWord d 1).extractLsb' 46 14 = r → (s.ent r).odd = false → s.access h r off (8 * n) false = none →
    off % 64 + 8 * n ≤ 64 → s.InPond r (off / 64 / 64) a → (s.ent r).tracked = false → s.isLost r (BitVec.ofNat 40 (off / 64)) = false →
    chkFails chk = false →
    ∃ t, exec (.descriptorFetchDone h q d words chk) s = .next t ∧ t.mem = s.mem ∧ t.out = s.out ∧
      (t.queue h q).sqhead = ((s.queue h q).sqhead + 1) % (s.queue h q).size ∧
      (t.queue h q).ready = (s.queue h q).ready ++ [{
        cid := (descWord d 0).extractLsb' 0 16, irq := (descWord d 0).getLsbD 24, order := (descWord d 0).getLsbD 25
        words := wordsOf n (((s.readRun (.near false a) 16).drop (64 * (off / 64 % 64) + off % 64)).take (8 * n))
        args := [descWord d 2, descWord d 3, descWord d 4, descWord d 5]
        h0 := descWord d 6 }]) ∧
  (∀ (s : State) (h : HostId) (q : QueueNo) (d : Line) (words : List W64) (chk : Chk),
    s.up = true → (s.queue h q).st = .running → (s.queue h q).sqhead ≠ (s.queue h q).sqtail → descOk d = false → s.CanPost h q →
    ∃ t, exec (.descriptorFetchDone h q d words chk) s = .next t ∧
      .completion h q (s.queue h q).cqtail (s.queue h q).phase (((s.queue h q).sqhead + 1) % (s.queue h q).size)
        (descCpl ((descWord d 0).extractLsb' 0 16) ((descWord d 0).getLsbD 24) (argErr dBadDesc) 0) ∈ t.out ∧
      (t.queue h q).sqhead = ((s.queue h q).sqhead + 1) % (s.queue h q).size ∧ (t.queue h q).ready = (s.queue h q).ready ∧
      (t.queue h q).st = .running ∧ s.DataKept t) ∧
  (∀ (s : State) (h : HostId) (q : QueueNo), s.up = true → (s.queue h q).st = .running → (s.queue h q).sqhead ≠ (s.queue h q).sqtail →
    ∃ t, exec (.descriptorFetchFail h q) s = .next t ∧ t.queue h q = { s.queue h q with st := .error, err := 5 } ∧
      s.Posted t 0x0601 3 (q.toNat + h.toNat * 2 ^ 16) ∧ s.DataKept t) ∧
  (∀ (s : State) (h : HostId) (q : QueueNo), s.sled.st ≠ .off → (s.queue h q).st ≠ .disabled → (s.queue h q).err ≠ 6 →
    ∃ t, exec (.completionPostFail h q) s = .next t ∧ t.queue h q = { s.queue h q with st := .error, err := 6 } ∧
      s.Posted t 0x0601 3 (q.toNat + h.toNat * 2 ^ 16) ∧ s.DataKept t) ∧
  (∀ (s : State) (h : HostId) (q : QueueNo) (pick : W32) (r : Ready) (l : List Ready) (c : Nat),
    (s.queue h q).ready = r :: l → s.mayStart h q r = true → (s.queue h q).kind = 1 → s.eligible h (s.queue h q).group.toNat ≠ [] →
    s.chooseCore (s.eligible h (s.queue h q).group.toNat) pick = some c → s.map.sme = [] → s.map.rel = [] → s.map.moves = [] →
    ∃ t, exec (.programDispatch h q pick) s = .next t ∧ t.prog s.q.progNo = some (startProg h q .compute r c) ∧
      t.queue h q = { s.queue h q with ready := l } ∧ (∀ p, p ≠ s.q.progNo → t.prog p = s.prog p) ∧ t.rt = s.rt ∧ t.dir = s.dir ∧ t.lake = s.lake) ∧
  (∀ (s : State) (h : HostId) (q : QueueNo) (pick : W32) (r : Ready) (l : List Ready),
    (s.queue h q).ready = r :: l → s.mayStart h q r = true → (s.queue h q).kind = 0 ∨ (s.queue h q).kind = 2 →
    ∃ t, exec (.programDispatch h q pick) s = .next t ∧
      t.prog s.q.progNo = some (if (s.queue h q).kind = 0 then startProg h q .control r (256 + s.controlLantern (chipletOfHalf (s.halfOf h)))
        else startProg h q .schedule r (256 + s.lanternOf (hRegion r.h0))) ∧
      t.queue h q = { s.queue h q with ready := l } ∧ (∀ p, p ≠ s.q.progNo → t.prog p = s.prog p) ∧ s.DataKept t) ∧
  (∀ (s : State) (p : Nat) (x : Prog), s.prog p = some x → (s.queue x.host x.q).runlim ≠ 0 → x.wait = .run ∨ x.wait = .miss → x.mute = false →
    s.CanPost x.host x.q →
    ∃ t, exec (.runLimitExpiry p) s = .next t ∧ s.EndsWith t p x eTimeout 4 0 ∧ t.mem = s.mem ∧ t.map = s.map ∧ t.rt = s.rt ∧ t.dir = s.dir ∧
      t.lamp = s.lamp)
/-! ### Flow and scalar instructions -/

/-- 09 R364; 08 R333: BR goes on at its target and links, LOOP counts down to zero, FENCE with nothing pending returns OK and HALT ends the
program, OK or FALLBACK by its fallback count; a target that starts no instruction ends it with E_ARG. -/
def Obligations.FlowInstructionsMoveThePc : Prop :=
  (∀ (s : State) (p : Nat) (x : Prog) (w e : W64) (n : Nat), s.AtInstr p x (isOp 1) w e →
    (fModI w / 32 % 2 = 1 ∧ onlyBits w [uA, uModI] = true ∧ (x.gr (fA w)).toNat = n) ∨
      (fModI w / 32 % 2 = 0 ∧ onlyBits w [uModI, uImm] = true ∧ (x.pc : Int) + (fImm w).toInt = n) →
    (starts x.words).getD n false = true →
    exec (.br p) s = .next (s.setProg p { x.setG (fModI w % 32) (BitVec.ofNat 64 x.nextPc) with pc := n, served := [] })) ∧
  (∀ (s : State) (p : Nat) (x : Prog) (w e : W64), s.AtInstr p x (isOp 1) w e → onlyBits w [uA, uModI] = true → fModI w / 32 % 2 = 1 →
    (starts x.words).getD (x.gr (fA w)).toNat false = false → x.mute = false → s.CanPost x.host x.q →
    ∃ t, exec (.br p) s = .next t ∧ s.EndsWith t p x eArg 6 0) ∧
  (∀ (s : State) (p : Nat) (x : Prog) (w e : W64), s.AtInstr p x (isOp 2) w e → onlyBits w [uD, uImm] = true →
    (x.gr (fD w) = 0 → exec (.loop p) s = .next (s.setProg p (x.onward x))) ∧
    (x.gr (fD w) = 1 → exec (.loop p) s = .next (s.setProg p (x.onward (x.setG (fD w) 0)))) ∧
    (∀ n : Nat, 2 ≤ (x.gr (fD w)).toNat → (x.pc : Int) + (fImm w).toInt = n → (starts x.words).getD n false = true →
      exec (.loop p) s = .next (s.setProg p { x.setG (fD w) (x.gr (fD w) - 1) with pc := n, served := [] }))) ∧
  (∀ (s : State) (p : Nat) (x : Prog) (w e : W64), s.AtInstr p x (isOp 6) w e → onlyBits w [(26, 1)] = true →
    (fModI w = 1 → ∀ m ∈ x.pf, s.map.moves.find m = none) →
    ∃ t, exec (.fence p) s = .next t ∧
      t.prog p = some (x.onward { x with stores := [], log := [], pf := if fModI w = 1 then [] else x.pf, lastSt := 0, holdAt := none }) ∧
      t = { s with q := { s.q with progs := t.q.progs } }) ∧
  (∀ (s : State) (p : Nat) (x : Prog) (w e : W64),
    s.prog p = some x → s.mayRun x = true → x.cur (isOp 6) = .word w e → (x.pred w).getLsbD 0 = true → onlyBits w [(26, 1)] = true →
    x.stores ≠ [] → (∀ y ∈ x.stores, (s.ent y.region).tracked = false) →
    exec (.fence p) s = .next (s.setProg p { x with wait := .commit (if fModI w = 1 then .nextPf else .next) })) ∧
  (∀ (s : State) (p : Nat) (x : Prog) (w e : W64), s.AtInstr p x (isOp 7) w e → onlyBits w [] = true → x.mute = false → s.CanPost x.host x.q →
    ∃ t, exec (.halt p) s = .next t ∧ s.EndsWith t p x (if x.fbcnt = 0 then stOk else eFallback) 0 0 ∧
      t.mem = s.mem ∧ t.map = s.map ∧ t.rt = s.rt ∧ t.dir = s.dir)

/-- 09 R365, R366; 08 R335; 15 R527: the waits hold their program until their time, beat or count, at most for their bound; SIGNAL adds to a
counter of its host and wakes whom it satisfies; KICK serves the watchdog of its group or Lantern. -/
def Obligations.WaitsSignalsAndKicks : Prop :=
  (∀ (s : State) (p : Nat) (x : Prog) (w e : W64), s.AtInstr p x (isWait 0) w e → fModI w = 0 → onlyBits w [uImm] = true → 0 < (fImm w).toInt →
    ∃ t, exec (.waitTime p) s = .next t ∧ t.prog p = some { x with wait := .time } ∧ t = { s with q := { s.q with progs := t.q.progs } }) ∧
  (∀ (s : State) (p : Nat) (x : Prog) (w e : W64) (q : QueueNo) (n : Nat), s.AtInstr p x (isWait 1) w e → fModI w = 1 →
    onlyBits w [uD, uA, (26, 2), uImm] = true → 0 < (fImm w).toInt → x.gr (fA w) = BitVec.ofNat 64 (q.toNat * 256 + n) → n < 32 →
    s.schedQueue x.host q.toNat = true →
    ∃ t, exec (.waitBeat p) s = .next t ∧
      t.prog p = some (match s.sched (schKey x.host q n) with
        | some y => if y.armed = true ∧ (x.gr (fD w)).toNat ≤ y.beats then x.completed 0 0 else { x with wait := .beat q.toNat n (x.gr (fD w)) }
        | none => { x with wait := .beat q.toNat n (x.gr (fD w)) }) ∧
      t = { s with q := { s.q with progs := t.q.progs } }) ∧
  (∀ (s : State) (p : Nat) (x : Prog) (w e : W64), s.AtInstr p x (isWait 2) w e → fModI w % 4 = 2 → onlyBits w [uD, uModI, uImm] = true →
    0 < (fImm w).toInt →
    ∃ t, exec (.waitSignal p) s = .next t ∧
      t.prog p = some (if (x.gr (fD w)).toInt ≤ (s.sigOf x.host (fModI w / 4)).toInt then x.completed 0 0
        else { x with wait := .signal (fModI w / 4) (x.gr (fD w)) }) ∧
      t = { s with q := { s.q with progs := t.q.progs } }) ∧
  (∀ (s : State) (p : Nat) (x : Prog), s.prog p = some x → x.wait = .time → x.cancel = none →
    exec (.waitTimeout p) s = .next (s.setProg p (x.completed 0 0))) ∧
  (∀ (s : State) (p : Nat) (x : Prog) (c : Nat) (n : W64), s.prog p = some x → x.wait = .signal c n → x.mute = false → s.CanPost x.host x.q →
    ∃ t, exec (.waitTimeout p) s = .next t ∧ s.EndsWith t p x eTimeout 3 0 ∧ t.mem = s.mem ∧ t.rt = s.rt) ∧
  (∀ (s : State) (p : Nat) (x : Prog) (w e : W64), s.AtInstr p x (isOp 4) w e → onlyBits w [(26, 4), uImm] = true →
    (∀ y ∈ s.q.progs, ∀ c n, y.2.wait ≠ .signal c n) →
    ∃ t, exec (.signal p) s = .next t ∧ t.prog p = some (x.onward x) ∧
      t.sigOf x.host (fModI w) = s.sigOf x.host (fModI w) + (fImm w).signExtend 64 ∧
      (∀ h c, h.toNat * 16 + c ≠ x.host.toNat * 16 + fModI w → t.sigOf h c = s.sigOf h c) ∧
      t = { s with q := { s.q with progs := t.q.progs, sig := t.q.sig } }) ∧
  (∀ (s : State) (p p2 : Nat) (x x2 : Prog) (w e n : W64), s.AtInstr p x (isOp 4) w e → onlyBits w [(26, 4), uImm] = true → p < p2 →
    s.q.progs = [(p, x), (p2, x2)] → x2.host = x.host → x2.wait = .signal (fModI w) n → x2.cancel = none →
    n.toInt ≤ (s.sigOf x.host (fModI w) + (fImm w).signExtend 64).toInt →
    ∃ t, exec (.signal p) s = .next t ∧ t.prog p = some (x.onward x) ∧ t.prog p2 = some (x2.completed 0 0)) ∧
  (∀ (s : State) (p : Nat) (x : Prog) (w e : W64), s.AtInstr p x (isOp 5) w e → onlyBits w [] = true →
    ∃ t, exec (.kick p) s = .next t ∧ t.prog p = some (x.onward x) ∧
      t.wd.wde.find (if x.core < 96 then 4 + x.core / 8 else x.core - 256) =
        (s.wd.wde.find (if x.core < 96 then 4 + x.core / 8 else x.core - 256)).map (fun y => { y with elapsed := 0 }) ∧
      t = { s with q := { s.q with progs := t.q.progs }, wd := { s.wd with wde := t.wd.wde } })

/-- 09 R367; 08 R327 to R329: each form of MOVS writes its one destination: a special register, ROUND, a handle, a general register, a predicate;
the shifts take their count, the comparison is of signed numbers, and a handle's base may not pass 46 bits. -/
def Obligations.MovsComputesEveryForm : Prop :=
  (∀ (s : State) (p : Nat) (x : Prog) (w e : W64), s.AtInstr p x (isOp 8) w e → movsCheck s x w = none →
    ∃ t y, exec (.movs p) s = .next t ∧ t.prog p = some (x.onward y) ∧
      t = { s with q := { s.q with progs := t.q.progs, freeNo := t.q.freeNo } } ∧
      (fModI w = 0 → ∃ v, s.special x (fImm w).toNat = some v ∧ y = x.setG (fD w) v) ∧
      (fModI w = 1 → y = { x with round := (x.gr (fA w)).setWidth 2 }) ∧
      (fModI w = 2 → y = x.setH (fD w) (x.gr (fA w))) ∧
      (fModI w = 3 → y = x.setG (fD w) (x.hr (fA w))) ∧
      (fModI w = 4 → y = x.setG (fD w) ((fImm w).signExtend 64)) ∧
      (fModI w = 5 → y = x.setG (fD w) (fImm w ++ (x.gr (fD w)).setWidth 32)) ∧
      (fModI w = 6 → y = x.setG (fD w) (x.gr (fA w) + (fImm w).signExtend 64)) ∧
      (fModI w = 7 → y = x.setG (fD w) (x.gr (fA w) + x.gr ((fImm w).toNat % 32))) ∧
      (fModI w = 8 → y = x.setG (fD w) (x.gr (fA w) - x.gr ((fImm w).toNat % 32))) ∧
      (fModI w = 9 → y = x.setG (fD w) (x.gr (fA w) * x.gr ((fImm w).toNat % 32))) ∧
      (fModI w = 0xA → y = x.setG (fD w) (x.gr (fA w) <<< ((fImm w).toNat % 64))) ∧
      (fModI w = 0xB → y = x.setG (fD w) (x.gr (fA w) >>> ((fImm w).toNat % 64))) ∧
      (fModI w = 0xC → y = x.setG (fD w) (x.gr (fA w) &&& (fImm w).signExtend 64)) ∧
      (fModI w = 0xD → ∃ v, y = x.setH (fD w) v ∧ hBase v = hBase (x.hr (fA w)) + (x.gr ((fImm w).toNat % 32)).toNat ∧
        hRegion v = hRegion (x.hr (fA w)) ∧ hValid v = hValid (x.hr (fA w))) ∧
      (fModI w = 0xE → y = x.setP (fD w) (decide ((x.gr (fA w)).toInt < ((fImm w).signExtend 64).toInt))) ∧
      (fModI w = 0xF → y = x.setP (fD w) (x.gr (fA w) == (fImm w).signExtend 64)) ∧
      (fModI w = 0x10 → y = x.setP (fD w) (decide ((x.gr (fA w)).toInt < (x.gr ((fImm w).toNat % 32)).toInt)))) ∧
  (∀ (s : State) (p : Nat) (x : Prog) (w e : W64), s.AtInstr p x (isOp 8) w e → fModI w = 0 → fImm w = 4 → onlyBits w [uD, uModI, uImm] = true →
    ∃ t, exec (.movs p) s = .next t ∧ t.prog p = some (x.onward (x.setG (fD w) (Config.cycle s.q.freeNo))) ∧ t.q.freeNo = s.q.freeNo + 1) ∧
  (∀ (s : State) (p : Nat) (x : Prog) (w e : W64), s.AtWord p x (isOp 8) w e → movsCheck s x w = none → (x.pred w).getLsbD 0 = false →
    exec (.movs p) s = .next (s.setProg p (x.onward x))) ∧
  (∀ (s : State) (p : Nat) (x : Prog) (w e : W64), s.AtWord p x (isOp 8) w e → x.mute = false → s.CanPost x.host x.q →
    (0x11 ≤ fModI w ∨ (fModI w = 0 ∧ 12 ≤ (fImm w).toNat) ∨ (fModI w = 1 ∧ fImm w ≠ 10) ∨
      (fModI w = 2 ∧ hValid (x.gr (fA w)) = true ∧ ((x.gr (fA w)).extractLsb' 14 2 ≠ 0 ∨ (x.gr (fA w)).getLsbD 62 = true)) ∨
      (32 ≤ (fImm w).toNat ∧ fModI w ∈ [7, 8, 9, 0xD, 0x10]) → ∃ t, exec (.movs p) s = .next t ∧ s.EndsWith t p x eArg 2 0) ∧
    (fModI w = 0xD → onlyBits w [uD, uA, uModI, (32, 5)] = true → fD w < 8 → fA w < 8 →
      2 ^ 46 ≤ hBase (x.hr (fA w)) + (x.gr ((fImm w).toNat % 32)).toNat → ∃ t, exec (.movs p) s = .next t ∧ s.EndsWith t p x eArg 3 0))

/-- 08 R334; 10 R398; 02 R72: once a commit's log is checked, its pending bytes stand in memory and nowhere else, the program goes on with OK
and its log is empty; a read-ahead that falls idle leaves its core's feeder. -/
def Obligations.CommitsWriteThePendingBytes : Prop :=
  (∀ (s : State) (p : Nat) (chk : Chk) (pick : W32) (x : Prog) (r : RegionId) (off a : Nat) (bytes : List Byte) (rd : BitVec 2),
    s.prog p = some x → x.wait = .commit .next → x.cancel = none → x.stores = [⟨r, off, bytes, none, rd⟩] → bytes ≠ [] →
    off % 64 + bytes.length ≤ 64 → s.access x.host r off bytes.length true = none → (s.ent r).tracked = false →
    s.snoopsOf r (BitVec.ofNat 40 (off / 64)) = [] → (s.ent r).odd = false → s.InPond r (off / 4096) a → chkFails chk = false →
    ∃ t, exec (.commitWriteDone p chk pick) s = .next t ∧
      t.mem.bytes = writeBytes s.mem.bytes (pondByte a (off / 64 % 64) + off % 64) bytes ∧
      s.MemKeptBut t (pondByte a (off / 64 % 64) + off % 64) bytes.length ∧
      t.prog p = some (x.onward { x with stores := [], log := [], lastSt := 0, holdAt := none }) ∧ t.rt = s.rt ∧ t.out = s.out) ∧
  (∀ (s : State) (p : Nat) (chk : Chk) (pick : W32) (x : Prog) (a : AfterCommit) (y : PStore) (l : List PStore) (e : Err1),
    s.prog p = some x → x.wait = .commit a → x.stores = y :: l → s.access x.host y.region y.off y.bytes.length true = some e → x.mute = false →
    s.CanPost x.host x.q → (∀ z ∈ x.stores, s.dataReady z.region [(z.off, z.bytes.length)] = true) →
    ∃ t, exec (.commitWriteDone p chk pick) s = .next t ∧ s.EndsWith t p x e.status e.detail (s.infoOf e) ∧ t.mem = s.mem ∧ t.map = s.map) ∧
  (∀ (s : State) (p : Nat) (region : RegionId) (x : Prog), s.prog p = some x →
    ∃ t, exec (.feederStreamIdle p region) s = .next t ∧ t.prog p = some { x with feed := x.feed.filter (fun f => f.region != region) } ∧
      t = { s with q := { s.q with progs := t.q.progs } })
/-! ### Data instructions -/

/-- 09 R355, R356, R374, R375; 08 R334; 10 R391 to R393: LD fills its register from scratch, or from the stored bytes of its region with the
program's own pending stores laid over them; ST writes scratch at once and holds a region store until a commit point, in no byte of
memory; a store past the limit of pending lines ends the program with E_CAPACITY. -/
def Obligations.LoadsAndStoresOfPrograms : Prop :=
  (∀ (s : State) (p : Nat) (chk : Chk) (x : Prog) (w e : W64) (n off : Nat),
    s.AtWord p x (isOp 0x40) w e → (x.pred w).getLsbD 0 = true → ldstCheck s x w = none → isScratch w = true → accSize (accWidth w) = some n →
    x.effAddr w n = (off : Int) → chkFails chk = false →
    exec (.ld p chk) s = .next (s.setProg p (x.onward { x.loadInto w (readBytes s.mem.bytes (x.scratchAt off) n) with lastSt := 0 }))) ∧
  (∀ (s : State) (p : Nat) (chk : Chk) (x : Prog) (w e : W64) (n off a : Nat) (r : RegionId),
    s.AtWord p x (isOp 0x40) w e → (x.pred w).getLsbD 0 = true → ldstCheck s x w = none → isScratch w = false → accSize (accWidth w) = some n →
    x.effAddr w n = (off : Int) → hRegion (x.hr (fH w)) = r → s.dataAccess x.host r off n false = none → s.InPond r (off / 4096) a →
    (s.ent r).tracked = false → (s.ent r).odd = false → (∀ y ∈ s.dir.lost, y.2.1 ≠ r) → (accWidth w ≤ 3 ∧ chkFails chk = false) ∨ chk = .ok →
    ∃ t f, exec (.ld p chk) s = .next t ∧
      t.prog p = some { x.onward { x.loadInto w (x.sees r off (s.pondBytes a off n)) with lastSt := 0 } with feed := f } ∧
      t.mem = s.mem ∧ t.rt.ent = s.rt.ent ∧ t.rt.grants = s.rt.grants ∧ t.dir = s.dir ∧
      (accWidth w ≤ 4 → x.feed = [] → t.rt = s.rt ∧ t.out = s.out)) ∧
  (∀ (s : State) (p : Nat) (chk : Chk) (x : Prog) (w e : W64) (n : Nat) (er : Err1),
    s.AtWord p x (isOp 0x40) w e → (x.pred w).getLsbD 0 = true → ldstCheck s x w = none → isScratch w = false → accSize (accWidth w) = some n →
    s.dataReady (hRegion (x.hr (fH w))) [((x.effAddr w n).toNat, n)] = true →
    s.dataAccess x.host (hRegion (x.hr (fH w))) (x.effAddr w n) n false = some er → x.mute = false → s.CanPost x.host x.q →
    ∃ t, exec (.ld p chk) s = .next t ∧ s.EndsWith t p x er.status er.detail (s.infoOf er) ∧ t.mem = s.mem) ∧
  (∀ (s : State) (p : Nat) (x : Prog) (w e : W64) (n off : Nat),
    s.AtWord p x (isOp 0x41) w e → (x.pred w).getLsbD 0 = true → ldstCheck s x w = none → isScratch w = true → accSize (accWidth w) = some n →
    x.effAddr w n = (off : Int) →
    ∃ t, exec (.st p) s = .next t ∧ t.prog p = some (x.completed 0 0) ∧ t.mem.bytes = writeBytes s.mem.bytes (x.scratchAt off) (x.storeFrom w) ∧
      s.MemKeptBut t (x.scratchAt off) n ∧ t = { s with mem := t.mem, q := { s.q with progs := t.q.progs } }) ∧
  (∀ (s u : State) (p : Nat) (x : Prog) (w e : W64) (n off : Nat) (r : RegionId),
    s.AtWord p x (isOp 0x41) w e → (x.pred w).getLsbD 0 = true → ldstCheck s x w = none → isScratch w = false → accSize (accWidth w) = some n →
    x.effAddr w n = (off : Int) → hRegion (x.hr (fH w)) = r → (s.ent r).odd = false → s.dataAccess x.host r off n true = none →
    (96 ≤ x.core → (storeLines (x.stores ++ [⟨r, off, x.storeFrom w, none, x.round⟩])).length ≤ 1024 →
      exec (.st p) s = .next (s.setProg p (x.onward { x with stores := x.stores ++ [⟨r, off, x.storeFrom w, none, x.round⟩], lastSt := 0 }))) ∧
    (s.pend p [⟨r, off, x.storeFrom w, none, x.round⟩] = .wait u → exec (.st p) s = .next u) ∧
    (s.pend p [⟨r, off, x.storeFrom w, none, x.round⟩] = .ok u → ∃ t l, exec (.st p) s = .next t ∧
      t.prog p = some (x.onward { x with stores := x.stores ++ [⟨r, off, x.storeFrom w, none, x.round⟩], log := l, lastSt := 0 })) ∧
    (s.pend p [⟨r, off, x.storeFrom w, none, x.round⟩] = .full → x.mute = false → s.CanPost x.host x.q →
      ∃ t, exec (.st p) s = .next t ∧ s.EndsWith t p x eCapacity 6 0 ∧ t.mem = s.mem)) ∧
  (∀ (s : State) (p : Nat) (x : Prog) (w e : W64) (off : Nat) (r : RegionId),
    s.AtWord p x (isOp 0x44) w e → (x.pred w).getLsbD 0 = true → onlyBits w [uD, (26, 8), (38, 26)] = true → hValid (x.hr (fH w)) = true →
    hRegion (x.hr (fH w)) = r → (hBase (x.hr (fH w)) : Int) + (x.gr (fBM w)).toNat * 4096 + fOff w = (off : Int) → off % 4096 = 0 →
    off + (x.gr (fD w)).toNat ≤ (s.ent r).bytes → (s.ent r).odd = false → s.dataAccess x.host r off (x.gr (fD w)).toNat false = none →
    ∃ t f, exec (.prefetch p) s = .next t ∧ t.prog p = some { x.completed 0 0 with pf := x.pf ++ f } ∧
      (∀ m ∈ f, s.map.moveNo ≤ m ∧ m < t.map.moveNo) ∧ (s.smes r = [] → f = []) ∧ t.mem = s.mem ∧ t.dir = s.dir ∧ t.rt.grants = s.rt.grants)

/-- 09 R376, R377, R361; 10 R393: GATHER copies the rows that its indices name to scratch in the order of the indices, skipped rows left as they
are, or sums each bag; SCATTER holds one store or one addition per index, in order; a bad index fails before anything is written. -/
def Obligations.GatherAndScatterRows : Prop :=
  (∀ (s : State) (p : Nat) (x : Prog) (w e : W64) (y : Rows) (f : Int → Nat),
    s.AtInstr p x (isOp 0x42) w e → rowsCheck x w e false = none → x.rows w e = y → s.rowsErr x y (s.indices x y) false = none →
    (s.ent (hRegion y.handle)).tracked = false → (s.ent (hRegion y.handle)).odd = false → (∀ z ∈ s.dir.lost, z.2.1 ≠ hRegion y.handle) →
    (∀ k ∈ s.indices x y, 0 ≤ k → (hBase y.handle + k.toNat * y.stride) % 4096 + y.rowb ≤ 4096 ∧
      s.InPond (hRegion y.handle) ((hBase y.handle + k.toNat * y.stride) / 4096) (f k)) →
    ∃ t g, exec (.gather p .ok) s = .next t ∧ t.prog p = some { x.completed 0 0 with feed := g } ∧
      t.mem.bytes = (gatherOut x y ((s.indices x y).map (fun k =>
        if k < 0 then none else some (s.pondBytes (f k) (hBase y.handle + k.toNat * y.stride) y.rowb)))).foldl
          (fun m o => writeBytes m (x.scratchAt o.1) o.2) s.mem.bytes ∧
      t.rt.ent = s.rt.ent ∧ t.rt.grants = s.rt.grants ∧ t.dir = s.dir) ∧
  (∀ (s : State) (p : Nat) (chk : Chk) (x : Prog) (w e : W64) (er : Err1),
    s.AtInstr p x (isOp 0x42) w e → rowsCheck x w e false = none →
    s.dataReady (hRegion (x.rows w e).handle) ((x.rows w e).ranges (s.indices x (x.rows w e))) = true →
    s.rowsErr x (x.rows w e) (s.indices x (x.rows w e)) false = some er →
    x.mute = false → s.CanPost x.host x.q →
    ∃ t, exec (.gather p chk) s = .next t ∧ s.EndsWith t p x er.status er.detail (s.infoOf er) ∧ t.mem = s.mem) ∧
  (∀ (s u : State) (p : Nat) (x : Prog) (w e : W64) (y : Rows) (l : List PStore),
    s.AtInstr p x (isOp 0x43) w e → rowsCheck x w e true = none → x.rows w e = y → (s.ent (hRegion y.handle)).odd = false →
    s.rowsErr x y (s.indices x y) true = none →
    l = ((s.indices x y).zipIdx.filter (fun z => decide (0 ≤ z.1))).map (fun z =>
      ⟨hRegion y.handle, hBase y.handle + z.1.toNat * y.stride, s.scratchRead x (y.out + z.2 * y.rowb) y.rowb,
        if y.add then some (BitVec.ofNat 4 y.ety) else none, x.round⟩) →
    (s.pend p l = .wait u → exec (.scatter p) s = .next u) ∧
    (s.pend p l = .ok u → ∃ t g, exec (.scatter p) s = .next t ∧ t.prog p = some (x.onward { x with stores := l, log := g, lastSt := 0 })) ∧
    (s.pend p l = .full → x.mute = false → s.CanPost x.host x.q → ∃ t, exec (.scatter p) s = .next t ∧ s.EndsWith t p x eCapacity 6 0 ∧
      t.mem = s.mem)) ∧
  (∀ (s : State) (p : Nat) (x : Prog) (w e : W64) (er : Err1),
    s.AtInstr p x (isOp 0x43) w e → rowsCheck x w e true = none → (s.ent (hRegion (x.rows w e).handle)).odd = false → s.rowsErr x (x.rows w e) (s.indices x (x.rows w e)) true = some er →
    x.mute = false → s.CanPost x.host x.q →
    ∃ t, exec (.scatter p) s = .next t ∧ s.EndsWith t p x er.status er.detail (s.infoOf er) ∧ t.mem = s.mem)

/-! ### Compute instructions -/

/-- 09 R357, R358, R378 to R381, R385: VMAC, VDOT and CVT compute each element of their destination whose predicate bit is set, and leave the
others; DEQ scales every element under bit 0 of its predicate; all read their sources before they write. -/
def Obligations.VectorInstructionsComputeElementwise : Prop :=
  (∀ (s : State) (p : Nat) (x : Prog) (w e : W64) (m ty bits n : Nat), s.AtWord p x (isOp 0x60) w e → x.v.length = 32 → fModR w = m → m < 128 →
    m % 4 = ty → ty < 3 → elemBits ty = bits → m / 16 < 6 → onlyBits w [uD, uA, uB, uModR] = true → (if m / 4 % 2 = 1 then 8 else 1) = n →
    (m / 4 % 2 = 1 → fD w % 8 = 0 ∧ fA w % 8 = 0 ∧ (m / 8 % 2 = 0 → fB w % 8 = 0)) →
    ∃ y, exec (.vmac p) s = .next (s.setProg p (x.onward y)) ∧ y = { x with v := y.v } ∧
      (∀ j, j < fD w ∨ fD w + n ≤ j → y.vr j = x.vr j) ∧
      (∀ k, k < n → ∃ l : List Nat, y.vr (fD w + k) = regOf bits l ∧ l.length = 1024 / bits ∧
        ∀ i, i < 1024 / bits → l.getD i 0 = if (x.pred w).getLsbD i then
            (let a := ev ty (elemAt (x.vr (fA w + k)) bits i)
             let b0 := if m / 8 % 2 = 1 then (x.gr (fB w)).toNat % 2 ^ bits else elemAt (x.vr (fB w + k)) bits i
             let d := ev ty (elemAt (x.vr (fD w + k)) bits i)
             let f := toElem x.round.toNat ty
             if m / 16 = 0 then f (sumFV x.round.toNat [a.mul (ev ty b0), d])
             else if m / 16 = 1 then f (sumFV x.round.toNat [d, (a.mul (ev ty b0)).neg])
             else if m / 16 = 2 then f (a.mul (ev ty b0))
             else if m / 16 = 3 then f (sumFV x.round.toNat [a, ev ty b0])
             else vmacElem ty x.round.toNat (m / 16) (elemAt (x.vr (fA w + k)) bits i) b0 (elemAt (x.vr (fD w + k)) bits i))
          else elemAt (x.vr (fD w + k)) bits i)) ∧
  (∀ (s : State) (p : Nat) (x : Prog) (w e : W64) (m ty bits n : Nat), s.AtWord p x (isOp 0x61) w e → x.v.length = 32 → fModR w = m → m < 64 →
    m % 16 = ty → ty ≤ 5 → ty ≠ 2 → elemBits ty = bits → onlyBits w [uD, uA, uB, uModR] = true → (if m / 16 % 2 = 1 then 8 else 1) = n →
    (m / 16 % 2 = 1 → fD w % 8 = 0 ∧ fA w % 8 = 0 ∧ fB w % 8 = 0) →
    ∃ y, exec (.vdot p) s = .next (s.setProg p (x.onward y)) ∧ y = { x with v := y.v } ∧
      (∀ j, j < fD w ∨ fD w + n ≤ j → y.vr j = x.vr j) ∧
      (∀ k, k < n → ∃ l : List Nat, y.vr (fD w + k) = regOf 32 l ∧ l.length = 32 ∧
        ∀ i, i < 32 → l.getD i 0 = if (x.pred w).getLsbD i then
            (let d := if m / 32 = 1 then 0 else elemAt (x.vr (fD w + k)) 32 i
             let ab := (List.range (32 / bits)).map (fun j =>
               (elemAt (x.vr (fA w + k)) bits (i * (32 / bits) + j), elemAt (x.vr (fB w + k)) bits (i * (32 / bits) + j)))
             if ty = 5 then satInt 32 (signedOf 32 d + (ab.map (fun z => signedOf 8 z.1 * signedOf 8 z.2)).sum)
             else Fmt.fp32.encode x.round.toNat (sumFV x.round.toNat (Fmt.fp32.decode d :: ab.map (fun z => (ev ty z.1).mul (ev ty z.2)))))
          else elemAt (x.vr (fD w + k)) 32 i)) ∧
  (∀ (s : State) (p : Nat) (x : Prog) (w e : W64) (m bits : Nat), s.AtWord p x (isOp 0x62) w e → fModR w = m → m < 128 →
    deqType (m % 16) = true → elemBits (m % 16) = bits → onlyBits w [uD, uA, uB, uC, uModR] = true → fD w % deqSpan m = 0 →
    ((x.pred w).getLsbD 0 = false → exec (.deq p) s = .next (s.setProg p (x.onward x))) ∧
    ((x.pred w).getLsbD 0 = true → ∃ l : List Nat, l.length = 1024 / bits ∧
      exec (.deq p) s = .next (s.setProg p (x.onward (x.putSpan (fD w) (deqSpan m) (if m / 16 % 2 = 1 then 32 else 16) l))) ∧
      ∀ i, i < 1024 / bits → l.getD i 0 = toElem x.round.toNat (if m / 16 % 2 = 1 then 2 else 0)
        ((ev (m % 16) (elemAt (x.vr (fA w)) bits i)).mul (ev 0 (elemAt (x.vr (fB w)) 16
          (if m / 32 = 3 then (x.gr (fC w)).toNat % 64 else ((x.gr (fC w)).toNat + i / (32 * 2 ^ (m / 32))) % 64)))))) ∧
  (∀ (s : State) (p : Nat) (x : Prog) (w e : W64) (src dst : Nat), s.AtWord p x (isOp 0x66) w e → fModR w / 16 = src → fModR w % 16 = dst →
    cvtType src = true → cvtType dst = true → onlyBits w [uD, uA, uModR] = true → fA w % cvtSpan src dst = 0 → fD w % cvtSpan dst src = 0 →
    ∃ l : List Nat, exec (.cvt p) s = .next (s.setProg p (x.onward (x.putSpan (fD w) (cvtSpan dst src) (elemBits dst) l))) ∧
      ∀ i, i < 1024 / min (elemBits src) (elemBits dst) → l.getD i 0 =
        if (x.pred w).getLsbD i then
          (let v := (x.span (fA w) (cvtSpan src dst) (elemBits src)).getD i 0
           if src = dst then v else toElem x.round.toNat dst (ev src v))
        else (x.span (fD w) (cvtSpan dst src) (elemBits dst)).getD i 0)

/-- 09 R361, R362, R382 to R384: SMAXP takes one step of the online softmax, TOPK merges its candidates into the list, RED reduces the unmasked
elements in ascending order, exactly for integers, to one general register. -/
def Obligations.ReductionsTakeUnmaskedElements : Prop :=
  (∀ (s : State) (p : Nat) (x : Prog) (w e : W64) (n : Nat), s.AtWord p x (isOp 0x63) w e → x.v.length = 32 → x.g.length = 32 →
    onlyBits w [uD, uA, uB, uC, (40, 1)] = true → (if w.getLsbD 40 then 8 else 1) = n →
    (n = 8 → fD w % 8 = 0 ∧ fA w % 8 = 0 ∧ fB w % 8 = 0 ∧ 8 ≤ fB w ∧ fB w ≤ 24 ∧ fC w % 8 = 0 ∧ 8 ≤ fC w ∧ fC w ≤ 24) →
    ∃ y, exec (.smaxp p) s = .next (s.setProg p (x.onward y)) ∧ y = { x with v := y.v, g := y.g } ∧
      (∀ j, j < fD w ∨ fD w + n ≤ j → y.vr j = x.vr j) ∧
      (∀ j, (j < fB w ∨ fB w + n ≤ j) → (j < fC w ∨ fC w + n ≤ j) → y.gr j = x.gr j) ∧
      ∀ k, k < n → ∃ (a ps : List Nat) (mn al : Nat),
        a = (List.range 32).map (fun i => if (x.pred w).getLsbD i ∧ Fmt.fp32.decode (elemAt (x.vr (fA w + k)) 32 i) ≠ .nan
          then elemAt (x.vr (fA w + k)) 32 i else negInf) ∧
        mn = a.foldl maxF32 ((x.gr (fB w + k)).toNat % 2 ^ 32) ∧
        al = (if mn = negInf then 0x3F800000 else expF32 (subF32 0 ((x.gr (fB w + k)).toNat % 2 ^ 32) mn)) ∧
        ps = a.map (fun v => if v = negInf then 0 else expF32 (subF32 0 v mn)) ∧
        y.vr (fD w + k) = regOf 32 ps ∧
        (fC w ≠ fB w → fC w + k ≠ 0 → y.gr (fC w + k) = BitVec.ofNat 64 al) ∧
        (fB w + k ≠ 0 → y.gr (fB w + k) =
          BitVec.ofNat 64 (mn + ps.foldl (fun acc v => addF32 0 acc v) (mulF32 0 ((x.gr (fB w + k)).toNat / 2 ^ 32) al) * 2 ^ 32))) ∧
  (∀ (s : State) (p : Nat) (x : Prog) (w e : W64) (m k : Nat) (least : Bool), s.AtWord p x (isOp 0x64) w e → onlyBits w [uD, uA, uB, uModR] = true →
    fModR w = m → fD w % 2 = 0 → (m / 32 % 2 = 1 → fA w % 8 = 0) → m % 32 + 1 = k → (m / 64 % 2 == 1) = least →
    ∃ l : List (Nat × Nat), l.length ≤ k ∧
      (128 ≤ m → x.pred w = 0 → l = []) ∧ (128 ≤ m → l.Pairwise (fun a b => betterF32 least b.1 a.1 = false)) ∧
      (128 ≤ m → ∀ c ∈ l, ∃ j v, v ∈ groupOf (m / 32 % 2 == 1) (fA w) ∧ c.1 = elemAt (x.vr v) 32 (j % 32) ∧ (x.pred w).getLsbD (j % 32) = true ∧
        c.2 = ((x.gr (fB w)).toNat + j) % 2 ^ 32 ∧ Fmt.fp32.decode c.1 ≠ .nan) ∧
      exec (.topk p) s = .next (s.setProg p (x.onward ((x.setV (fD w) (regOf 32
        ((l ++ List.replicate (k - l.length) (if least then 0x7F800000 else negInf, 0xFFFFFFFF)).map Prod.fst ++
          (elems (x.vr (fD w)) 32).drop k))).setV (fD w + 1) (regOf 32
        ((l ++ List.replicate (k - l.length) (if least then 0x7F800000 else negInf, 0xFFFFFFFF)).map Prod.snd ++
          (elems (x.vr (fD w + 1)) 32).drop k)))))) ∧
  (∀ (s : State) (p : Nat) (x : Prog) (w e : W64) (m bits : Nat), s.AtWord p x (isOp 0x65) w e → onlyBits w [uD, uA, uModR] = true → fModR w = m →
    m < 128 → elemBits (m % 16) = bits → (m / 16 % 2 = 1 → fA w % 8 = 0) →
    (m % 16 = 5 ∨ m % 16 = 7 → ∃ l : List Int,
      l = ((groupOf (m / 16 % 2 == 1) (fA w)).flatMap (fun r => ((List.range (1024 / bits)).filter (fun i => (x.pred w).getLsbD i)).map (fun i =>
        signedOf bits (elemAt (x.vr r) bits i)))) ∧
      exec (.red p) s = .next (s.setProg p (x.onward (x.setG (fD w) (BitVec.ofInt 64
        (if m / 32 = 0 then l.sum else if m / 32 = 1 then l.foldl max (-(2 ^ 63)) else if m / 32 = 2 then l.foldl min (2 ^ 63 - 1)
         else (l.map (fun v => v * v)).sum)))))) ∧
    (m % 16 < 5 → ∃ l : List FV,
      l = ((groupOf (m / 16 % 2 == 1) (fA w)).flatMap (fun r => ((List.range (1024 / bits)).filter (fun i => (x.pred w).getLsbD i)).map (fun i =>
        ev (m % 16) (elemAt (x.vr r) bits i)))) ∧
      (l = [] → exec (.red p) s = .next (s.setProg p (x.onward (x.setG (fD w) (if m / 32 = 1 then 0xFF800000 else if m / 32 = 2 then 0x7F800000
        else 0))))) ∧
      (m / 32 = 0 → exec (.red p) s = .next (s.setProg p (x.onward (x.setG (fD w) (BitVec.ofNat 64
        (l.foldl (fun acc v => Fmt.fp32.encode x.round.toNat (sumFV x.round.toNat [Fmt.fp32.decode acc, v])) 0))))))))
/-! ### Schedules -/

/-- 08 R341, R345; 09 R386; 11 R408 to R410, R418, R419, R427, R428: SCHED.STEP appends a record, SCHED.LOAD loads a checked schedule or fails
with what the check found, SCHED.ARM clears its counts and writes every lamp word COLD and the block, disarming drops its instances. -/
def Obligations.SchedulesAreLoadedAndArmed : Prop :=
  (∀ (s : State) (p : Nat) (x : Prog) (w e : W64), s.AtInstr p x (isOp 0xA2) w e → onlyBits w [uA] = true → fA w % 4 = 0 → 4 ≤ fA w → fA w ≤ 28 →
    (x.stepBuf.length < 4096 → exec (.schedStep p) s = .next (s.setProg p (x.onward { x with
      stepBuf := x.stepBuf ++ [x.gr (fA w + 3) ++ x.gr (fA w + 2) ++ x.gr (fA w + 1) ++ x.gr (fA w)], lastSt := 0 }))) ∧
    (4096 ≤ x.stepBuf.length → x.mute = false → s.CanPost x.host x.q →
      ∃ t, exec (.schedStep p) s = .next t ∧ s.EndsWith t p x eCapacity 0 0)) ∧
  (∀ (s : State) (p : Nat) (chk : Chk) (x : Prog) (w e : W64), s.AtInstr p x (isOp 0xA0) w e → fModR w = 0 →
    onlyBits w [uA, uB, uC, (36, 1)] = true → fB w < 8 → (x.gr (fA w)).toNat < 32 →
    (s.loadErr x.host (x.schKeyOf w) x.stepBuf = none →
      ∃ t, exec (.schedLoad p chk) s = .next t ∧
        t.sched (x.schKeyOf w) = some (loadedSched (x.stepBuf.headD 0) ((x.stepBuf.drop 1).map stepOf)) ∧
        (∀ k, k ≠ x.schKeyOf w → t.sched k = s.sched k) ∧ t.prog p = some (x.onward { x with stepBuf := [], lastSt := 0 }) ∧
        t = { s with q := { s.q with progs := t.q.progs }, lamp := { s.lamp with sch := t.lamp.sch } }) ∧
    (∀ er, s.loadErr x.host (x.schKeyOf w) x.stepBuf = some er → x.mute = false → s.CanPost x.host x.q →
      ∃ t, exec (.schedLoad p chk) s = .next t ∧ s.EndsWith t p x er.status er.detail (s.infoOf er) ∧ t.lamp = s.lamp)) ∧
  (∀ (s : State) (p : Nat) (chk : Chk) (x : Prog) (w e : W64) (n off a : Nat) (r : RegionId) (l : List (BitVec 256)),
    s.AtInstr p x (isOp 0xA0) w e → fModR w = 1 → onlyBits w [uA, uB, uC, (36, 1)] = true → fB w < 8 → (x.gr (fA w)).toNat < 32 →
    hValid (x.hr (fB w)) = true → (x.gr (fC w)).toNat = n → 2 ≤ n → n ≤ 4096 → hRegion (x.hr (fB w)) = r → hBase (x.hr (fB w)) = off →
    s.dataAccess x.host r off (32 * n) false = none → off % 4096 + 32 * n ≤ 4096 → s.InPond r (off / 4096) a → (s.ent r).tracked = false →
    (s.ent r).odd = false → (∀ z ∈ s.dir.lost, z.2.1 ≠ r) → chk = .ok → recordsOf n (s.pondBytes a off (32 * n)) = l → s.loadErr x.host (x.schKeyOf w) l = none →
    ∃ t, exec (.schedLoad p chk) s = .next t ∧ t.sched (x.schKeyOf w) = some (loadedSched (l.headD 0) ((l.drop 1).map stepOf)) ∧
      (∀ k, k ≠ x.schKeyOf w → t.sched k = s.sched k) ∧ t.prog p = some (x.completed 0 0) ∧ t.mem = s.mem ∧ t.rt = s.rt ∧ t.out = s.out) ∧
  (∀ (s : State) (p : Nat) (chk : Chk) (pick : W32) (x : Prog) (w e : W64) (k a : Nat) (y z : Sched),
    s.AtInstr p x (fun v => isOp 0xA1 v && fModI v % 2 == 0) w e → onlyBits w [uA, (26, 1)] = true → (x.gr (fA w)).toNat < 32 →
    x.schKeyOf w = k → s.sched k = some y → y.armed = false → y.steps ≠ [] → s.lampGranted k y = true → s.armedCount < 1024 →
    chkFails chk = false → MemSafe s → y.loff % 64 = 0 → y.loff % 4096 + y.span ≤ 4096 → s.InPond y.lregion (y.loff / 4096) a →
    (s.ent y.lregion).tracked = false → (s.ent y.lregion).st ≠ .freed → (s.ent y.lregion).isSealed = false → (s.ent y.lregion).dlost = false →
    (∀ st ∈ y.steps, y.window < st.dbeat + 1) →
    z = { y with armed := true, prog := some p, beats := 0, met := 0, miss := 0, altn := 0, directn := 0, coldn := 0, laten := 0, voidn := 0,
                 badbeat := 0, paused := 0, defer := 0, insts := [], kept := none, missAt := none, orphan := false } →
    ∃ t, exec (.schedArm p chk pick) s = .next t ∧ t.sched k = some z ∧ (∀ j, j ≠ k → t.sched j = s.sched j) ∧
      t.prog p = some (x.completed 0 0) ∧ readBytes t.mem.bytes (pondByte a 0 + y.loff % 4096) 64 = z.block ∧
      (∀ st ∈ y.steps, readBytes t.mem.bytes (pondByte a 0 + y.loff % 4096 + 64 + 8 * st.lamp) 8 = lampWord .cold false false 0xFFFFFFFF) ∧
      s.MemKeptBut t (pondByte a 0 + y.loff % 4096) y.span ∧ t.rt = s.rt) ∧
  (∀ (s : State) (p : Nat) (chk : Chk) (pick : W32) (x : Prog) (w e : W64), s.AtInstr p x (fun v => isOp 0xA1 v && fModI v % 2 == 0) w e →
    onlyBits w [uA, (26, 1)] = true → (x.gr (fA w)).toNat < 32 → s.sched (x.schKeyOf w) = none → x.mute = false → s.CanPost x.host x.q →
    ∃ t, exec (.schedArm p chk pick) s = .next t ∧ s.EndsWith t p x eState 0x31 (s.stateInfo none) ∧ t.mem = s.mem) ∧
  (∀ (s : State) (p : Nat) (chk : Chk) (pick : W32) (x : Prog) (w e : W64) (y : Sched),
    s.AtInstr p x (fun v => isOp 0xA1 v && fModI v % 2 == 1) w e → onlyBits w [uA, (26, 1)] = true → (x.gr (fA w)).toNat < 32 →
    s.sched (x.schKeyOf w) = some y → chkFails chk = false →
    (y.armed = false → exec (.schedDisarm p chk pick) s = .next (s.setProg p (x.completed 0 0))) ∧
    (y.armed = true → ∃ t, exec (.schedDisarm p chk pick) s = .next t ∧ t.prog p = some (x.completed 0 0) ∧
      t.sched (x.schKeyOf w) = some { y with armed := false, prog := none, insts := [], orphan := false } ∧
      (∀ j, j ≠ x.schKeyOf w → t.sched j = s.sched j)))

/-- 11 R411 to R413, R422, R425, R431: a beat advances an armed schedule one position and wakes who waits for it, one not below the period is
counted, a repeated one does nothing; an instance settles READY once it is placed, at its deadline at the latest to its fallback; a
taken over schedule goes on. -/
def Obligations.BeatsDriveInstances : Prop :=
  (∀ (s : State) (h : HostId) (q : QueueNo) (sch : Fin 32) (v : W64) (chk : Chk) (pick : W32) (k : Nat) (y : Sched),
    s.barOpen h = true → (s.queue h q).st = .running → schKey h q sch.val = k → s.sched k = some y → y.armed = true → y.orphan = false →
    s.lamp.stopped = false → chkFails chk = false → 2 ≤ y.period →
    (v.toNat % 2 ^ 16 = y.beats % y.period →
      (∀ st ∈ y.steps, st.dbeat ≠ (y.beats + y.window) % y.period ∧ st.dbeat ≠ y.beats % y.period ∧
        (y.beats ≠ 0 → st.dbeat ≠ (y.beats - 1) % y.period)) →
      ∃ t, exec (.beatDoorbell h q sch v chk pick) s = .next t ∧ t.sched k = some { y with beats := y.beats + 1 } ∧
        (∀ p x n, s.prog p = some x → x.host = h → x.wait = .beat q.toNat sch.val n → n.toNat ≤ y.beats + 1 → t.prog p = some (x.completed 0 0)) ∧
        (∀ p x, s.prog p = some x → (∀ q2 s2 n, x.wait ≠ .beat q2 s2 n) → t.prog p = some x)) ∧
    (y.period ≤ v.toNat % 2 ^ 16 →
      ∃ t, exec (.beatDoorbell h q sch v chk pick) s = .next t ∧ t.sched k = some { y with badbeat := satInc y.badbeat } ∧ t.q.progs = s.q.progs) ∧
    (v.toNat % 2 ^ 16 < y.period → (v.toNat % 2 ^ 16 + 1) % y.period = y.beats % y.period →
      exec (.beatDoorbell h q sch v chk pick) s = .next s)) ∧
  (∀ (s : State) (h : HostId) (q : QueueNo) (sch : Fin 32) (v : W64) (chk : Chk) (pick : W32),
    s.barOpen h = true → (s.queue h q).st ≠ .running → exec (.beatDoorbell h q sch v chk pick) s = .next s) ∧
  (∀ (s : State) (p : Nat) (x : Prog) (w e : W64) (k : Nat) (q : QueueNo) (y : Sched), s.AtInstr p x (isOp 0xA3) w e → onlyBits w [uA, uB, uC] = true →
    (x.gr (fA w)).toNat < 32 → x.gr (fB w) = q.setWidth 64 → s.schedQueue x.host q.toNat = true → (s.queue x.host q).st = .running →
    schKey x.host q (x.gr (fA w)).toNat = k → s.sched k = some y → y.armed = true → y.orphan = false → s.lamp.stopped = false →
    y.period ≤ (x.gr (fC w)).toNat % 2 ^ 16 →
    ∃ t, exec (.beat p) s = .next t ∧ t.prog p = some (x.completed 0 0) ∧ t.sched k = some { y with badbeat := satInc y.badbeat }) ∧
  (∀ (s : State) (p : Nat) (x : Prog) (w e : W64) (k : Nat) (q : QueueNo) (y : Sched), s.AtInstr p x (isOp 0xA3) w e → onlyBits w [uA, uB, uC] = true →
    (x.gr (fA w)).toNat < 32 → x.gr (fB w) = q.setWidth 64 → s.schedQueue x.host q.toNat = true → (s.queue x.host q).st = .running →
    schKey x.host q (x.gr (fA w)).toNat = k → s.sched k = some y → y.armed = true → y.orphan = false → s.lamp.stopped = false → 2 ≤ y.period →
    (x.gr (fC w)).toNat % 2 ^ 16 = y.beats % y.period →
    (∀ st ∈ y.steps, st.dbeat ≠ (y.beats + y.window) % y.period ∧ st.dbeat ≠ y.beats % y.period ∧
      (y.beats ≠ 0 → st.dbeat ≠ (y.beats - 1) % y.period)) →
    ∃ t, exec (.beat p) s = .next t ∧ t.prog p = some (x.completed 0 0) ∧ t.sched k = some { y with beats := y.beats + 1 }) ∧
  (∀ (s : State) (h : HostId) (q : QueueNo) (sch : Fin 32) (step : Nat) (pick : W32) (k : Nat) (y : Sched) (st : LStep) (i : Inst),
    schKey h q sch.val = k → s.lamp.sch = [(k, y)] → y.armed = true → y.orphan = false → s.lamp.stopped = false → y.steps[step]? = some st →
    y.insts = [i] → s.LampHome y → i.step = step → i.settled = none → i.stopped = false → i.deferred = false → s.placedStep st = true →
    (∃ t, exec (.instancePlaced h q sch step pick) s = .next t ∧ t.sched k = some { y with
        met := satInc y.met, insts := if i.d + 2 ≤ y.beats then [] else [{ i with settled := some .ready }] }) ∧
    (i.due = true → i.passed = false → ∃ t, exec (.deadlineExpiry h q sch step pick) s = .next t ∧ t.sched k = some { y with
        met := satInc y.met, insts := if i.d + 2 ≤ y.beats then [] else [{ i with settled := some .ready }] })) ∧
  (∀ (s : State) (h : HostId) (q : QueueNo) (sch : Fin 32) (step : Nat) (pick : W32) (k : Nat) (y : Sched) (st : LStep) (i : Inst),
    schKey h q sch.val = k → s.lamp.sch = [(k, y)] → y.armed = true → y.orphan = false → y.prog = none → s.lamp.stopped = false →
    y.steps[step]? = some st → st.fb = 0 → s.LampHome y → y.insts = [i] → i.step = step → i.settled = none → i.deferred = false → i.due = true → i.passed = false →
    y.missAt = none → s.placedStep st = false → s.sled.st ≠ .off →
    ∃ t, exec (.deadlineExpiry h q sch step pick) s = .next t ∧ s.Posted t 0x0602 4 (schObj k) ∧ t.sched k = some { y with
        miss := satInc y.miss, coldn := satInc y.coldn, missAt := some s.clk.ms
        insts := if i.d + 2 ≤ y.beats then [] else [{ i with settled := some .cold, stopped := true, late := false }] }) ∧
  (∀ (s : State) (h : HostId) (q : QueueNo) (sch : Fin 32) (step : Nat) (pick : W32) (k : Nat) (y : Sched) (i : Inst),
    schKey h q sch.val = k → s.sched k = some y → y.armed = true → s.lamp.stopped = true → y.insts = [i] → i.step = step → i.settled = none →
    i.due = true → i.passed = false →
    exec (.deadlineExpiry h q sch step pick) s = .next (s.setSched k { y with paused := satInc y.paused, insts := [] })) ∧
  (∀ (s : State) (lantern : Fin 4) (pick : W32) (k : Nat) (y : Sched), s.up = true → (∃ n, n < 4 ∧ n ≠ lantern.val ∧ s.fenced (.lantern n) = false) →
    s.lamp.sch = [(k, y)] → y.orphan = true → s.chipletOf y.lregion = lantern.val / 2 → (∀ i ∈ y.insts, i.passed = false) → y.kept = none →
    exec (.scheduleTakeover lantern pick) s = .next (s.setSched k { y with orphan := false }))
/-! ### Power: the input and the hold-up store -/

/-- 13 R450, R451, R489: the input's bands post SUPPLY_RANGE on entry; a sag posts SUPPLY_SAG and the timer keeps its value until the input has
stayed above 43.0 V; a sag of 20 ms, an overvoltage or an overcurrent begins the Dusk flush. -/
def Obligations.TheInputStartsTheDuskFlush : Prop :=
  (∀ (s : State) (vin : W16) (b : Nat), s.sled.st ≠ .off →
    b = (if 4200 ≤ vin.toNat ∧ vin.toNat < 4400 then 1 else if 5950 < vin.toNat ∧ vin.toNat ≤ 6050 then 2 else 0) →
    (b ≠ 0 → b ≠ s.pwr.band → ∃ t, exec (.supplyRange vin) s = .next t ∧ t.pwr = { s.pwr with vin := vin, band := b } ∧ s.Posted t 0x0801 0 0 ∧
      s.DataKept t) ∧
    (b = 0 ∨ b = s.pwr.band → exec (.supplyRange vin) s = .next { s with pwr := { s.pwr with vin := vin, band := b } })) ∧
  (∀ (s : State) (vin : W16), s.sled.st ≠ .off → vin.toNat < 4200 → s.pwr.sag = false →
    ∃ t, exec (.supplySag vin) s = .next t ∧ t.pwr = { s.pwr with vin := vin, band := 0, sag := true, lowVin := vin } ∧ s.Posted t 0x0802 0 0 ∧
      t.sled.st = s.sled.st ∧ s.DataKept t ∧ t.q = s.q) ∧
  (∀ (s : State) (vin : W16), s.sled.st ≠ .off → 4300 < vin.toNat → s.pwr.sag = true →
    exec (.sagEnd vin) s = .next { s with pwr := { s.pwr with vin := vin, sag := false, rides := satInc s.pwr.rides } }) ∧
  (∀ (s : State), (s.pwr.sag = true → exec .sagTimerReset s = .next s) ∧
    (s.pwr.sag = false → exec .sagTimerReset s = .next { s with pwr := { s.pwr with ride := 0 } })) ∧
  (∀ (s : State), s.up = true → s.wd.pilotRestart = false → s.inPause = false → s.lamp.sch = [] →
    (s.pwr.sag = true → ∃ t, exec .rideThroughExpiry s = .next t ∧ s.FlushBegan t 0 ∧ s.Posted t 0x0505 0 0) ∧
    (s.pwr.sag = false → exec .rideThroughExpiry s = .next s) ∧
    (∀ vin, 6050 < vin.toNat → ∃ t, exec (.overvoltage vin) s = .next t ∧ s.FlushBegan t 1 ∧ s.Posted t 0x0505 0 0 ∧ t.pwr.switchOpen = true) ∧
    (∃ t, exec .overcurrent s = .next t ∧ s.FlushBegan t 2 ∧ s.Posted t 0x0505 0 0 ∧ t.pwr.switchOpen = true))

/-- 01 R49; 02 R217; 13 R453 to R455, R490: a Pilot that does not command the flush in time is replaced by the island; a flush ends with the
sled OFF, its volatile state gone; a store that runs out ends it there; a stable input starts a sled that may start by itself. -/
def Obligations.FlushesEndInOff : Prop :=
  (∀ (s : State) (g : Nat), s.sled.flush = some (.dusk g) → s.sled.flushCmd = false → s.inPause = false → s.lamp.sch = [] → s.sled.st ≠ .off →
    ∃ t, exec .pilotDuskTimeout s = .next t ∧ s.FlushBegan t g ∧ s.Posted t 0x0505 0 0) ∧
  (∀ (s : State) (g : Nat), s.sled.flush = some (.dusk g) → s.sled.flushCmd = true →
    ∃ t, exec .duskFlushEnd s = .next t ∧ s.WentOff t ∧ t.sled.dark = s.inputOn ∧ t.sled.stayOff = (g == 4) ∧ t.pending = s.pending) ∧
  (∀ (s : State) (written : Nat) (f : Flush), s.sled.st ≠ .off → s.sled.flush = some f →
    ∃ t, exec (.holdupStoreExhausted written) s = .next t ∧ s.WentOff t ∧ t.sled.dark = s.inputOn) ∧
  (∀ (s : State) (written : Nat), s.sled.st ≠ .off → s.sled.flush = none →
    (s.pwr.sag = true → ∃ t, exec (.holdupStoreExhausted written) s = .next t ∧ s.WentOff t ∧ t.sled.dark = false) ∧
    (s.pwr.sag = false → exec (.holdupStoreExhausted written) s = .next s)) ∧
  (∀ (s : State), s.sled.st = .off → s.sled.stayOff = false →
    (s.autoOn = false → exec .inputStable s = .next { s with sled := { s.sled with dark := true } }) ∧
    (s.autoOn = true → s.wd.btn ≠ 1 → ∃ t, exec .inputStable s = .next t ∧ t.sled.st = .boot ∧ t.sled.boot = .rails ∧ t.sled.warm = false ∧
      t.sled.flush = none ∧ t.mem = s.mem ∧ t.lake = s.lake ∧ t.rt = s.rt))

/-- 13 R456 to R464: a measurement of the hold-up store at or below the last one counts at once, a higher one after two agree, three failures
take the energy to zero; a full charge ends the measurement; a store held 10 ms for admission is admitted beyond the ceiling, and
write-back moves to class C1. -/
def Obligations.TheHoldupStoreIsMeasured : Prop :=
  (∀ (s : State) (j : Nat), s.sled.st ≠ .off → s.pwr.full = true → s.pwr.sag = false → s.sled.flush = none → j ≠ 0 →
    ∃ t, exec (.holdupMeasure j true) s = .next t ∧ t.pwr.full = false ∧ t.pwr.measuring = some s.energy ∧ t.pwr.measFails = 0 ∧
      t.pwr.failed = false ∧
      (j ≤ s.pwr.eMeas ∨ s.pwr.eMeas = 0 → t.pwr.eMeas = j ∧ t.pwr.higher = none) ∧
      (s.pwr.eMeas < j → s.pwr.eMeas ≠ 0 → s.pwr.higher = none → t.pwr.eMeas = s.pwr.eMeas ∧ t.pwr.higher = some j) ∧
      (∀ h, s.pwr.eMeas < j → s.pwr.eMeas ≠ 0 → s.pwr.higher = some h → 50 * (max h j - min h j) ≤ max h j → t.pwr.eMeas = j) ∧
      (j < 3000 → s.pwr.weak = false → j ≤ s.pwr.eMeas → t.pwr.weak = true ∧ s.Posted t 0x0803 0 0) ∧ s.DataKept t) ∧
  (∀ (s : State) (j : Nat), s.sled.st ≠ .off → s.pwr.full = true → s.pwr.sag = false → s.sled.flush = none → s.pwr.failed = false →
    (s.pwr.measFails < 2 → ∃ t, exec (.holdupMeasure j false) s = .next t ∧ t.pwr.measFails = s.pwr.measFails + 1 ∧ t.pwr.failed = false ∧
      t.pwr.eMeas = s.pwr.eMeas) ∧
    (s.pwr.measFails = 2 → ∃ t, exec (.holdupMeasure j false) s = .next t ∧ t.pwr.failed = true ∧ t.energy = 0 ∧ t.pwr.budget = 0 ∧
      s.Posted t 0x0804 0 0)) ∧
  (∀ (s : State) (j : Nat), s.sled.st ≠ .off →
    ∃ t, exec (.holdupChargeComplete j) s = .next t ∧ t.pwr.full = true ∧ t.pwr.measuring = none ∧ t.pwr.eNow = j ∧ t.pwr.charge = 0 ∧
      t.pwr.eMeas = s.pwr.eMeas ∧ t.pwr.budget = t.budgetNow ∧ s.DataKept t) ∧
  (∀ (s : State) (req : Nat) (pick : W32) (x : HReq) (g line b : Nat) (gr : Grant),
    s.dir.held.find? (fun x => x.no == req) = some x → x.why = .admission → x.kind = .wr → x.gnt = some (g, gr) → x.line.toNat = line →
    x.ent.odd = false → x.ent.dlost = false → gr.rw = true → s.Untracked gr.region line →
    s.pageAway gr.region (line / 64) = false → s.malformed (s.sme gr.region (line / 64)) = false →
    (s.sme gr.region (line / 64)).st = .zero → s.moveOf gr.region (line / 64) = none → s.admitDirty gr.region (line / 64) 16 = .hold →
    s.allocPond (s.anchorOf gr.region (line / 64)) 16 (s.useOf gr.region (line / 64) .store) pick = some b →
    ∃ t, exec (.storeAdmitTimeout req pick) s = .next t ∧ t.out = .done x.host x.dpa :: s.out ∧
      t.dir.held = s.dir.held.filter (fun y => y.no != req) ∧ t.pwr.overadmit = satInc s.pwr.overadmit ∧ t.pwr.wb = 2 ∧
      (t.sme gr.region (line / 64)).st = .opn ∧ (t.sme gr.region (line / 64)).w1 = BitVec.ofNat 64 b) ∧
  (∀ (s : State), s.up = true → s.inPause = false →
    (s.pwr.budget * 2 ^ 30 < s.dirty → ∃ t, exec .writebackEscalate s = .next t ∧ t.pwr.wb = 2 ∧ t.mem = s.mem) ∧
    (s.dirty ≤ s.pwr.budget * 2 ^ 30 → exec .writebackEscalate s = .next s))
/-! ### Power: the Ledger, power states, temperatures and clocks -/

/-- 01 R34 to R36; 13 R467 to R474: a request is answered with what it asks within floor, maximum and cap; every grant takes the next number;
an acknowledged lowering stops counting unless the Pilot is stalled, an unacknowledged one forces the clock, an acknowledged Banked permission
puts a tile's stack in self-refresh; the Pilot lowers idle entries and, above the cap, every
entry above its floor. -/
def Obligations.LedgerGrantsFollowTheProtocol : Prop :=
  (∀ (s : State) (i : Fin 21) (ceil : W16) (perm : BitVec 2) (want : Nat), perm ≠ 3 → ceil.toNat ≤ 13500 → s.sled.st ≠ .off →
    (s.pilotGrants = false →
      exec (.ledgerRequest i ceil perm) s = .next (s.setLedger i { s.ledger i with rceil := ceil, rperm := perm, asks := true })) ∧
    (s.pilotGrants = true → (∀ j, j ≠ i.val → (s.ledger j).asks = false) →
      want = min (max ceil.toNat ((s.ledger i).floor i)) (maxCeil i) →
      want ≤ (s.ledger i).ceil.toNat ∨ want ≤ (s.ledger i).count i + s.capRoom →
      ∃ t, exec (.ledgerRequest i ceil perm) s = .next t ∧ (t.ledger i).ceil = BitVec.ofNat 16 want ∧
        (t.ledger i).perm = (if s.rtTile i = true then 0 else perm) ∧ (t.ledger i).seq = (s.ledger i).seq + 1 ∧
        (t.ledger i).rceil = ceil ∧ (t.ledger i).rperm = perm ∧ (t.ledger i).asks = false ∧ (∀ j, j ≠ i.val → t.ledger j = s.ledger j) ∧
        s.DataKept t)) ∧
  (∀ (s : State) (i : Fin 21) (ceil : W16) (perm : BitVec 2), s.pilotGrants = true →
    (s.grantFits i ceil.toNat perm = true →
      ∃ t, exec (.ledgerGrant i ceil perm) s = .next t ∧ (t.ledger i).ceil = ceil ∧ (t.ledger i).perm = perm ∧
        (t.ledger i).seq = (s.ledger i).seq + 1 ∧ (t.ledger i).ack = (s.ledger i).ack ∧ (s.ledger i).ceil ≤ (t.ledger i).counted ∧
        ceil ≤ (t.ledger i).counted ∧ (∀ j, j ≠ i.val → t.ledger j = s.ledger j) ∧ s.DataKept t) ∧
    (s.grantFits i ceil.toNat perm = false → exec (.ledgerGrant i ceil perm) s = .next s)) ∧
  (∀ (s : State) (i : Fin 21) (seq : Byte), s.pilotGrants = false ∨ (∀ j, (s.ledger j).asks = false) →
    (seq = (s.ledger i).seq → ∃ t, exec (.ledgerAck i seq) s = .next t ∧ (t.ledger i).ack = seq ∧
      (t.ledger i).counted = (if s.pilotStalled = true then (s.ledger i).counted else (s.ledger i).ceil) ∧
      (t.ledger i).forcedClk = false ∧ (t.ledger i).ceil = (s.ledger i).ceil ∧
      (t.ledger i).st = (if (s.ledger i).perm = 2 then .banked
        else if (s.ledger i).perm = 1 ∧ (s.ledger i).st = .lit then .trimmed
        else if (s.ledger i).perm = 0 ∧ 12 ≤ i.val ∧ i.val < 16 ∧ s.pgActive i = true then .lit else (s.ledger i).st) ∧
      (i.val < 12 → (s.ledger i).perm = 2 → (s.ledger i).st ≠ .banked →
        ∀ j, j < 32 → (s.pch (32 * i + j)).training = false → (t.pch (32 * i + j)).selfRef = true) ∧
      (∀ j, j ≠ i.val → t.ledger j = s.ledger j) ∧ s.DataKept t) ∧
    (seq ≠ (s.ledger i).seq → (s.ledger i).seq - seq < (s.ledger i).seq - (s.ledger i).ack →
      exec (.ledgerAck i seq) s = .next (s.setLedger i { s.ledger i with ack := seq }))) ∧
  (∀ (s : State) (i : Fin 21), s.sled.st ≠ .off → (s.ledger i).ack ≠ (s.ledger i).seq → (s.ledger i).lowering = true → (s.ledger i).forcedClk = false →
    ∃ t, exec (.ledgerForced i) s = .next t ∧ t.ledger i = { s.ledger i with forcedClk := true } ∧ s.Posted t 0x0708 12 i.val ∧
      t.pwr.forced = satInc s.pwr.forced ∧ s.DataKept t) ∧
  (∀ (s : State) (i : Fin 21), s.pilotGrants = true → 2 * (s.ledger i).draw.toNat < (s.ledger i).ceil.toNat →
    (s.ledger i).floor i < (s.ledger i).ceil.toNat → (s.ledger i).draw.toNat * 5 / 4 < (s.ledger i).ceil.toNat →
    ∃ t, exec (.ledgerIdleLower i) s = .next t ∧
      (t.ledger i).ceil = BitVec.ofNat 16 (max ((s.ledger i).floor i) ((s.ledger i).draw.toNat * 5 / 4)) ∧
      (t.ledger i).perm = (s.ledger i).perm ∧ (t.ledger i).seq = (s.ledger i).seq + 1 ∧ s.DataKept t) ∧
  (∀ (s : State) (i : Fin 21), (s.ledger i).asks = true → (s.ledger i).perm = 2 → (s.ledger i).rperm = 0 → s.up = true →
    ∃ t, exec (.hwWakeGrant i) s = .next t ∧ (t.ledger i).ceil = BitVec.ofNat 16 ((s.ledger i).floor i) ∧ (t.ledger i).perm = 0 ∧
      (t.ledger i).seq = (s.ledger i).seq + 1 ∧ (t.ledger i).asks = decide ((s.ledger i).floor i < (s.ledger i).rceil.toNat) ∧ s.DataKept t) ∧
  (∀ (s : State) (i : Fin 21) (draw : W16),
    exec (.governorEstimate i draw) s = .next (s.setLedger i { s.ledger i with draw := draw, gov := decide ((s.ledger i).ceil < draw) })) ∧
  (∀ (s : State) (vin iin pin : W16), s.sled.st ≠ .off →
    (100 * pin.toNat ≤ 102 * s.capDw → exec (.capSample vin iin pin) s = .next { s with pwr := { s.pwr with vin := vin, iin := iin, pin := pin } }) ∧
    (102 * s.capDw < 100 * pin.toNat → ∃ t, exec (.capSample vin iin pin) s = .next t ∧ s.Posted t 0x0806 0 0 ∧ s.DataKept t ∧
      (s.pilotGrants = true → ∀ i, i < 21 → (s.ledger i).floor i < (s.ledger i).ceil.toNat →
        (t.ledger i).ceil = BitVec.ofNat 16 (max ((s.ledger i).floor i) ((s.ledger i).ceil.toNat * 9 / 10)))))

/-- 13 R472, R477 to R482; 04 R156: a tile without work is Trimmed and then Banked, its stack in self-refresh, and wakes to Lit; readings of the
junctions, of the air and of the NAND dies set their limits, and 110 °C starts the Dusk flush. -/
def Obligations.PowerStatesFollowWorkAndHeat : Prop :=
  (∀ (s : State) (i : Fin 21), s.up = true → (s.ledger i).st = .lit →
    (s.mayTrim i = true → ∃ t, exec (.trimIdleExpiry i) s = .next t ∧ (t.ledger i).st = .trimmed ∧ (t.ledger i).ceil = (s.ledger i).ceil ∧
      (∀ j, j ≠ i.val → t.ledger j = s.ledger j) ∧ s.DataKept t) ∧
    (s.mayTrim i = false → exec (.trimIdleExpiry i) s = .next s)) ∧
  (∀ (s : State) (i : Fin 21), s.up = true → s.pilotGrants = true → (s.ledger i).st = .trimmed → s.mayBank i = true →
    ∃ t, exec (.bankIdleExpiry i) s = .next t ∧ (t.ledger i).st = .banked ∧ (t.ledger i).perm = 2 ∧ (t.ledger i).seq = (s.ledger i).seq + 1 ∧
      (t.ledger i).ack = (t.ledger i).seq ∧ (i.val < 12 → ∀ j, j < 32 → (s.pch (32 * i + j)).training = false →
        (t.pch (32 * i + j)).selfRef = true ∧ (t.pch (32 * i + j)).debt = []) ∧
      (∀ j, j ≠ i.val → t.ledger j = s.ledger j) ∧ s.DataKept t) ∧
  (∀ (s : State) (k : Fin 12), s.pwr.profile = .training → s.pilotGrants = true → s.up = true → (s.ledger k).st = .trimmed → (s.ledger k).perm = 0 →
    s.rtTile k = false →
    ∃ t, exec (.trimmedPermTimer k) s = .next t ∧ (t.ledger k).perm = 1 ∧ (t.ledger k).ceil = (s.ledger k).ceil ∧
      (t.ledger k).seq = (s.ledger k).seq + 1 ∧ s.DataKept t) ∧
  (∀ (s : State) (k : Fin 12), (s.ledger k).st ≠ .lit → (s.ledger k).perm = 0 → s.up = true → s.dir.held = [] →
    (∃ t, exec (.tileWakeDone k true) s = .next t ∧ (t.ledger k).st = .lit ∧
      ((s.ledger k).st = .banked → ∀ j, j < 32 → (t.pch (32 * k + j)).selfRef = false) ∧ s.DataKept t) ∧
    (∃ t, exec (.tileWakeDone k false) s = .next t ∧ s.evt.prod < t.evt.prod ∧
      (∀ j, j < 8 → t.fenced (.wick (8 * k + j)) = true) ∧ (∀ j, j < 4 → t.fenced (.codec (4 * k + j)) = true))) ∧
  (∀ (s : State) (tjw tje air : W16) (n : Fin 4 → Option W16), s.sled.st ≠ .off → tjw.toInt < 110 → tje.toInt < 110 →
    ∃ t, exec (.thermalRead (some tjw) (some tje) (some air) (n 0) (n 1) (n 2) (n 3)) s = .next t ∧ t.sled = s.sled ∧
      t.pwr.tjw = tjw ∧ t.pwr.tje = tje ∧ t.pwr.inlet = air ∧ t.pwr.tripped = s.pwr.tripped ∧
      (100 ≤ tjw.toInt → 0 ∈ t.pwr.chipHot) ∧ (tjw.toInt ≤ 95 → 0 ∉ t.pwr.chipHot) ∧
      (95 < tjw.toInt → tjw.toInt < 100 → (0 ∈ t.pwr.chipHot ↔ 0 ∈ s.pwr.chipHot)) ∧
      (100 ≤ tje.toInt → 1 ∈ t.pwr.chipHot) ∧ (tje.toInt ≤ 95 → 1 ∉ t.pwr.chipHot) ∧
      (40 ≤ air.toInt → s.pwr.inletHot = false → t.pwr.inletHot = true ∧ s.Posted t 0x080A 0 0) ∧ (air.toInt ≤ 38 → t.pwr.inletHot = false) ∧
      (∀ g : Fin 4, ∀ v, n g = some v → (85 ≤ v.toInt → t.pwr.nandLim.getD g 0 = 2) ∧
        (75 ≤ v.toInt → 1 ≤ t.pwr.nandLim.getD g 0) ∧
        (v.toInt ≤ 70 → s.pwr.badRead.getD (2 + g) 0 ≤ 1 → t.pwr.nandLim.getD g 0 = 0)) ∧
      (∀ g : Fin 4, n g = none → 1 ≤ t.pwr.nandLim.getD g 0) ∧ s.DataKept t) ∧
  (∀ (s : State) (tjw tje air n0 n1 n2 n3 : Option W16), s.up = true → s.wd.pilotRestart = false → s.inPause = false → s.lamp.sch = [] →
    s.pwr.tripped = false → (∃ v, tjw = some v ∧ 110 ≤ v.toInt) ∨ (∃ v, tje = some v ∧ 110 ≤ v.toInt) →
    ∃ t, exec (.thermalRead tjw tje air n0 n1 n2 n3) s = .next t ∧ s.FlushBegan t 3 ∧ t.pwr.tripped = true ∧ s.Posted t 0x0809 0 0 ∧
      s.Posted t 0x0505 0 0)

/-- 13 R475, R476, R490; 10 R402: the RC keeps its last factor; a lost crystal or fast reference is posted, the other reference takes over, and
without one the sled enters VIGIL; a PLL that does not lock fences the cores of its tile, or its stack. -/
def Obligations.ClockFaultsArePostedAndFenced : Prop :=
  (∀ (s : State) (factor : W16), s.sled.st ≠ .off →
    (s.clk.crystalOk = true → exec (.rcCalibrate factor) s = .next { s with clk := { s.clk with rcAt := s.clk.ms, rcFactor := factor } }) ∧
    (s.clk.crystalOk = false → exec (.rcCalibrate factor) s = .next s)) ∧
  (∀ (s : State), s.sled.st ≠ .off → s.clk.crystalOk = true →
    ∃ t, exec .crystalFail s = .next t ∧ t.clk = { s.clk with crystalOk := false } ∧ s.Posted t 0x080B 0 0 ∧ s.DataKept t) ∧
  (∀ (s : State), s.sled.st ≠ .off → s.clk.ref0Ok = true → s.clk.ref1Ok = true →
    (∃ t, exec (.fastRefFail 0) s = .next t ∧ t.clk.ref0Ok = false ∧ t.clk.ref1Ok = true ∧
      t.clk.refInUse = (if s.clk.refInUse = 0 then 1 else s.clk.refInUse) ∧ s.Posted t 0x080B 0 0 ∧ t.sled = s.sled ∧ s.DataKept t) ∧
    (∃ t, exec (.fastRefFail 1) s = .next t ∧ t.clk.ref0Ok = true ∧ t.clk.ref1Ok = false ∧
      t.clk.refInUse = (if s.clk.refInUse = 1 then 0 else s.clk.refInUse) ∧ s.Posted t 0x080B 0 0 ∧ t.sled = s.sled ∧ s.DataKept t)) ∧
  (∀ (s : State), s.up = true → s.clk.ref0Ok = false → s.clk.ref1Ok = true →
    ∃ t, exec (.fastRefFail 1) s = .next t ∧ t.clk.ref1Ok = false ∧ t.sled.st = .vigil) ∧
  (∀ (s : State) (k : Fin 12), s.sled.st ≠ .off →
    (∃ t, exec (.tilePllLockFail k) s = .next t ∧ s.evt.prod < t.evt.prod ∧
      (∀ j, j < 8 → t.fenced (.wick (8 * k + j)) = true) ∧ (∀ j, j < 4 → t.fenced (.codec (4 * k + j)) = true)) ∧
    (∃ t, exec (.stackPllLockFail k) s = .next t ∧ s.evt.prod < t.evt.prod ∧ t.fenced (.stack k) = true))
/-! ### Fences, event readers, the latch and the bridge -/

/-- 01 R41; 14 R502 to R510, R515, R517, R519: a fence sets its bit with its cause, and with a shared part the bits of every unit that shares it,
and a set bit stays; a recovery of Pond, or one whose unit holds no home any more, ends with FENCE_RECOVERED; the
open latch starts the Dusk flush, as does a bridge with fewer than five links, and a bridge with none enters VIGIL. -/
def Obligations.FencesLatchAndBridge : Prop :=
  (∀ (s : State) (bit : Fin 1584) (cause : Byte) (setter : BitVec 2) (whole : Bool), s.sled.st ≠ .off → 1 ≤ cause.toNat → cause.toNat ≤ 0x0F →
    cause ≠ 0x0D → cause ≠ 0x0E → setter ≠ 3 →
    (s.fenced (unitOfBit bit) = false → ∃ t, exec (.fenceSet bit cause ⟨setter, whole⟩) s = .next t ∧ t.fenced (unitOfBit bit) = true ∧
      t.evt.fmap.find bit = some cause ∧ s.evt.prod < t.evt.prod ∧ (∀ b c, s.evt.fmap.find b = some c → t.evt.fmap.find b = some c) ∧
      (whole = true → ∀ v ∈ s.sharing (unitOfBit bit), t.fenced v = true)) ∧
    (s.fenced (unitOfBit bit) = true → exec (.fenceSet bit cause ⟨setter, false⟩) s = .next s)) ∧
  (∀ (s : State) (bit : Fin 1584) (lost : List Nat) (v : Recov), s.inPause = false → s.sled.st ≠ .off →
    s.evt.recov.find? (fun v => v.unit == unitOfBit bit) = some v →
    (s.homesOn (unitOfBit bit) = [] ∨ (∃ n, unitOfBit bit = .pch n) ∨ ∃ k, unitOfBit bit = .stack k) →
    ∃ t, exec (.fenceRecovery bit lost) s = .next t ∧ s.Posted t 0x0704 (unitOfBit bit).obj.1 (unitOfBit bit).obj.2 ∧
      (∀ x ∈ t.evt.recov, x.unit ≠ unitOfBit bit) ∧ t.fenced (unitOfBit bit) = s.fenced (unitOfBit bit)) ∧
  (∀ (s : State), s.up = true → s.wd.pilotRestart = false → s.inPause = false → s.lamp.sch = [] → s.sled.latchOpen = false →
    ∃ t, exec .latchOpen s = .next t ∧ t.sled.latchOpen = true ∧ s.FlushBegan t (if s.safeNow then 4 else 5) ∧ s.Posted t 0x0907 0 0 ∧
      s.Posted t 0x0505 0 0) ∧
  (∀ (s : State), s.sled.latchOpen = true → exec .latchOpen s = .next s) ∧
  (∀ (s : State) (n : Nat), s.up = true → s.wd.pilotRestart = false → s.inPause = false → s.lamp.sch = [] → s.sled.bridge = n + 1 →
    s.sled.bridgeLost = false →
    (5 ≤ n → ∃ t, exec .bridgeLinkFail s = .next t ∧ t.sled = { s.sled with bridge := n } ∧ s.Posted t 0x0705 0 0 ∧ s.DataKept t) ∧
    (1 ≤ n → n < 5 → ∃ t, exec .bridgeLinkFail s = .next t ∧ t.sled.bridge = n ∧ t.sled.bridgeLost = true ∧ s.FlushBegan t 6 ∧
      s.Posted t 0x0706 0 0) ∧
    (n = 0 → ∃ t, exec .bridgeLinkFail s = .next t ∧ t.sled.bridge = 0 ∧ t.sled.st = .vigil ∧ s.evt.prod < t.evt.prod))

/-- 01 R37, R38; 14 R500, R501: an acknowledgement moves a function's read index past that many readable records, a read of the lost count clears
it, and vector 0 goes out at most once in its spacing, a held one at its end. -/
def Obligations.EventReadersAdvance : Prop :=
  (∀ (s : State) (h : HostId) (v : W32) (n : Nat), s.barOpen h = true → (v.extractLsb' 0 12).toNat = n →
    (s.avail h ≤ n → exec (.kevtAckWrite h v) s = .next (s.setReader h { s.reader h with idx := s.evt.prod })) ∧
    (n = 0 → 0 < s.avail h → exec (.kevtAckWrite h v) s = .next (s.setReader h (s.reader h))) ∧
    (∀ p, 0 < n → n < s.avail h → (s.readable h)[n - 1]? = some p →
      exec (.kevtAckWrite h v) s = .next (s.setReader h { s.reader h with idx := p.1 + 1 }))) ∧
  (∀ (s : State) (h : HostId), s.barOpen h = true →
    exec (.kevtLostRead h) s = .next ((s.setReader h { s.reader h with lost := 0 }).send (.regValue ((s.reader h).lost.setWidth 64)))) ∧
  (∀ (s : State) (h : HostId) (v : W32), s.barOpen h = true →
    ∃ t, exec (.kevtCtlWrite h v) s = .next t ∧ (t.reader h).notify = v.getLsbD 3 ∧
      (t.reader h).minsev = (if 5 < (v.extractLsb' 0 3).toNat then (s.reader h).minsev else v.extractLsb' 0 3) ∧
      (t.reader h).idx = (s.reader h).idx ∧ (t.reader h).lost = (s.reader h).lost ∧
      (v.getLsbD 3 = true → (s.reader h).notify = false → s.avail h ≠ 0 →
        ((s.reader h).spacing = false → .msix h 0 ∈ t.out ∧ (t.reader h).spacing = true) ∧
        ((s.reader h).spacing = true → t.out = s.out ∧ (t.reader h).heldSig = true)) ∧
      (v.getLsbD 3 = false ∨ (s.reader h).notify = true ∨ s.avail h = 0 → t.out = s.out) ∧ s.DataKept t ∧ s.ControlKept t) ∧
  (∀ (s : State) (h : HostId), (s.reader h).spacing = true →
    ((s.reader h).heldSig = false → exec (.eventVectorSpacing h) s = .next (s.setReader h { s.reader h with spacing := false })) ∧
    ((s.reader h).heldSig = true → (s.fnOf h).d3 = false →
      exec (.eventVectorSpacing h) s = .next ((s.setReader h { s.reader h with heldSig := false }).send (.msix h 0))))

/-! ### Watchdogs -/

/-- 15 R523 to R526, R533 to R536, R553, R554: the Pilot watchdog is started, served by its two keys, and trips on a wrong key or at its timeout;
the trips of the last hour choose the stage: the Pilot restarts, the sled restarts warm, or it enters VIGIL. -/
def Obligations.ThePilotWatchdogTrips : Prop :=
  (∀ (s : State) (cfg : W32), s.pilotRuns = true →
    (s.wd.run = false → exec (.wdpStart cfg) s = .next { s with wd := { s.wd with
      tout := if 9 < (cfg.extractLsb' 0 4).toNat then s.wd.tout else cfg.extractLsb' 0 4, run := cfg.getLsbD 4, elapsed := 0 } }) ∧
    (s.wd.run = true → exec (.wdpStart cfg) s = .next s)) ∧
  (∀ (s : State) (key : W32), s.pilotRuns = true → s.wd.run = true →
    (key.extractLsb' 0 16 = 0x6C61 → s.wd.half = false → exec (.wdpService key) s = .next { s with wd := { s.wd with half := true } }) ∧
    (key.extractLsb' 0 16 = 0x6D70 → s.wd.half = true → s.wd.held = false →
      exec (.wdpService key) s = .next { s with wd := { s.wd with half := false, warn := false, elapsed := 0 } }) ∧
    (key.extractLsb' 0 16 ≠ 0x6C61 → key.extractLsb' 0 16 ≠ 0x6D70 →
      ∃ t, exec (.wdpService key) s = .next t ∧ t.wd.badsvc = satInc s.wd.badsvc ∧ t.wd.trips = satInc s.wd.trips ∧ t.wd.last = 2 ∧
        t.wd.times = s.wd.times ++ [s.clk.ms])) ∧
  (∀ (s : State), s.wdpCounts = true →
    (s.wd.warn = false → ∃ t, exec .wdpEarlyWarning s = .next t ∧ t.wd = { s.wd with warn := true } ∧ s.Posted t 0x0901 14 0 ∧ s.DataKept t) ∧
    (∃ t, exec .wdpTimeout s = .next t ∧ t.wd.trips = satInc s.wd.trips ∧ t.wd.last = 1 ∧ t.wd.times = s.wd.times ++ [s.clk.ms])) ∧
  (∀ (s : State) (tries : Nat), s.wdpCounts = true → s.up = true → s.sled.flush = none → triesOf s.clk.ms (s.wd.times ++ [s.clk.ms]) = tries →
    ∃ t, exec .wdpTimeout s = .next t ∧
      (tries < s.wd.ntries.toNat → tries = 1 → t.wd.pilotRestart = true ∧ t.sled.st = s.sled.st ∧ s.DataKept t) ∧
      (tries < s.wd.ntries.toNat → tries ≠ 1 → s.noLantern = false → t.sled.st = .duskFlush ∧ t.sled.flush = some (.restart 1)) ∧
      (tries < s.wd.ntries.toNat → tries ≠ 1 → s.noLantern = true → t.sled.st = .vigil) ∧
      (s.wd.ntries.toNat ≤ tries → t.sled.st = .vigil)) ∧
  (∀ (s : State), s.sled.st ≠ .off → s.wd.oscfail = false →
    ∃ t, exec .wdpOscFail s = .next t ∧ t.wd = { s.wd with oscfail := true } ∧ s.DataKept t) ∧
  (∀ (s : State), s.wd.pilotRestart = true →
    (s.sled.flush = none → exec (.unitRestartDone 16 []) s = .next { s with wd := { s.wd with pilotRestart := false, elapsed := 0, half := false } }) ∧
    (∀ g, s.sled.flush = some (.dusk g) → s.sled.flushCmd = false → s.lamp.sch = [] →
      ∃ t, exec (.unitRestartDone 16 []) s = .next t ∧ s.FlushBegan t g) ∧
    (s.up = true → s.inPause = false → s.lamp.sch = [] → ∃ t, exec (.unitRestartDone 16 [0]) s = .next t ∧ s.FlushBegan t 4))

/-- 15 R527 to R536, R551: an engine watchdog is served by its key, disabled by three keys in order while unlocked, and trips on a wrong key, at its
timeout or on a clock fault: its unit restarts, or the ladder's next stage is taken; a stalled dispatcher goes to stage 2 at once. -/
def Obligations.EngineWatchdogsTrip : Prop :=
  (∀ (s : State) (n : Fin 16) (key : W32), s.sled.st ≠ .off → s.sled.st ≠ .dead →
    (key.extractLsb' 0 16 = 0xC4D1 → exec (.wdeService n key) s = .next (s.setWde n { s.wde n with elapsed := 0, dis := 0 })) ∧
    (key.extractLsb' 0 16 ≠ 0xC4D1 → (s.wde n).en = false →
      exec (.wdeService n key) s = .next (s.setWde n { s.wde n with badsvc := satInc (s.wde n).badsvc, dis := 0 })) ∧
    (key.extractLsb' 0 16 ≠ 0xC4D1 → (s.wde n).en = true → s.sled.st ≠ .vigil →
      ∃ t, exec (.wdeService n key) s = .next t ∧ (t.wde n).badsvc = satInc (s.wde n).badsvc ∧ (t.wde n).trips = satInc (s.wde n).trips)) ∧
  (∀ (s : State) (n : Fin 16) (tries : Nat), s.wdeCounts n = true → triesOf s.clk.ms ((s.wde n).times ++ [s.clk.ms]) = tries → s.up = true →
    s.sled.flush = none →
    ∃ t u, exec (.wdeTimeout n) s = .next t ∧ exec (.wdeClockMonitor n) s = .next u ∧ (t.wde n).trips = satInc (s.wde n).trips ∧
      (u.wde n).trips = satInc (s.wde n).trips ∧ (u.wde n).clkfail = true ∧ s.evt.prod < t.evt.prod ∧
      (tries < s.wd.ntries.toNat → tries = 1 → (t.wde n).restart = true ∧ t.sled.st = s.sled.st ∧
        s.Posted t 0x0902 (if n.val < 4 then 6 else 13) (if n.val < 4 then n.val else n.val - 4) ∧ t.mem = s.mem ∧ t.rt = s.rt) ∧
      (tries < s.wd.ntries.toNat → tries ≠ 1 → s.wd.pilotRestart = false → s.noLantern = false → t.sled.st = .duskFlush ∧ t.sled.flush = some (.restart 1)) ∧
      (s.wd.ntries.toNat ≤ tries → t.sled.st = .vigil)) ∧
  (∀ (s : State) (n : Fin 16) (key : W32), s.sled.st ≠ .off →
    ((s.wde n).lock = true → exec (.wdeDisableKey n key) s = .next s) ∧
    ((s.wde n).lock = false →
      ((s.wde n).dis = 0 → key.extractLsb' 0 16 = 0x3A5C → exec (.wdeDisableKey n key) s = .next (s.setWde n { s.wde n with dis := 1 })) ∧
      ((s.wde n).dis = 1 → key.extractLsb' 0 16 = 0x0FF1 → exec (.wdeDisableKey n key) s = .next (s.setWde n { s.wde n with dis := 2 })) ∧
      ((s.wde n).dis = 2 → key.extractLsb' 0 16 = 0xD15A →
        exec (.wdeDisableKey n key) s = .next (s.setWde n { s.wde n with dis := 0, en := false })) ∧
      (∀ k, (s.wde n).dis ≤ 2 → key.extractLsb' 0 16 = k → k ≠ 0x3A5C → k ≠ 0x0FF1 → k ≠ 0xD15A →
        exec (.wdeDisableKey n key) s = .next (s.setWde n { s.wde n with dis := 0 })))) ∧
  (∀ (s : State) (n : Fin 16) (cfg : W32), s.sled.st ≠ .off → (s.wde n).lock = false → (cfg.extractLsb' 0 16) ≠ 0 →
    (cfg.getLsbD 17 = true → cfg.getLsbD 18 = false → (s.wde n).en = false →
      exec (.wdeEnable n cfg) s = .next (s.setWde n { s.wde n with tout := cfg.extractLsb' 0 16, clksel := cfg.getLsbD 16, en := true, elapsed := 0 })) ∧
    (cfg.getLsbD 17 = false → cfg.getLsbD 18 = true →
      exec (.wdeLock n cfg) s = .next (s.setWde n { s.wde n with tout := cfg.extractLsb' 0 16, clksel := cfg.getLsbD 16, lock := true }))) ∧
  (∀ (s : State) (n : Fin 16) (cfg : W32), s.sled.st ≠ .off → (s.wde n).lock = true → (s.wde n).en = true → cfg.getLsbD 17 = true →
    exec (.wdeEnable n cfg) s = .next (s.setWde n (s.wde n))) ∧
  (∀ (s : State) (n : Fin 4) (failed : List Nat), (s.wde n).restart = true → s.lamp.sch = [] → s.rt.stalled = [] →
    exec (.unitRestartDone ⟨n, by omega⟩ []) s = .next (s.setWde n { s.wde n with restart := false, elapsed := 0 }) ∧
    (failed ≠ [] → ∃ t, exec (.unitRestartDone ⟨n, by omega⟩ failed) s = .next t ∧ t.fenced (.lantern n) = true)) ∧
  (∀ (s : State) (k : Fin 12) (failed : List Nat), (s.wde (4 + k)).restart = true → s.sled.st ≠ .off →
    ∃ t, exec (.unitRestartDone ⟨4 + k, by omega⟩ failed) s = .next t ∧ (t.wde (4 + k)).restart = false ∧
      (∀ i ∈ failed, i < 8 → t.fenced (.wick (8 * k + i)) = true)) ∧
  (∀ (s : State) (n : Nat), (List.range 4).find? (fun n => !s.fenced (.lantern n)) = some n → s.up = true → s.sled.flush = none →
    s.wd.pilotRestart = false → triesOf s.clk.ms ((s.wde n).times ++ [s.clk.ms]) < s.wd.ntries.toNat →
    ∃ t, exec .dispatcherStall s = .next t ∧ t.sled.st = .duskFlush ∧ t.sled.flush = some (.restart 1) ∧
      (t.wde n).trips = satInc (s.wde n).trips)
/-! ### Restarts, VIGIL, the RESET button and the start -/

/-- 13 R492; 15 R533, R536 to R541, R547, R552; 16 R563 to R568; 18 R605, R613: the owner restarts the sled warm, sends it to VIGIL, clears the tries,
turns it off and on; others learn that they need the owner; a Keep flush ends in the restart, in VIGIL or in OFF. -/
def Obligations.OwnersRestartAndPowerTheSled : Prop :=
  (∀ (s : State) (v : Via), s.OwnerCmd v → s.up = true → s.lamp.sch = [] →
    (∃ t, exec (.warmRestart v) s = .next t ∧ .mgmt 0 [] ∈ t.out ∧ t.sled.st = .duskFlush ∧ t.sled.flush = some (.restart 3) ∧
      t.sled.flushCmd = true ∧ t.mem = s.mem ∧ t.rt = s.rt) ∧
    (∃ t, exec (.enterVigil v) s = .next t ∧ .mgmt 0 [] ∈ t.out ∧ t.sled.st = .vigil ∧ t.wd.vcause = 5) ∧
    (∃ t, exec (.powerOff v) s = .next t ∧ .mgmt 0 [] ∈ t.out ∧ s.FlushBegan t 4)) ∧
  (∀ (s : State) (v : Via), s.OwnerCmd v → s.sled.st = .vigil → s.sled.vigilDone = true → s.sled.flush = none →
    (∃ t, exec (.warmRestart v) s = .next t ∧ .mgmt 0 [] ∈ t.out ∧ s.Restarted t 3) ∧
    (exec (.enterVigil v) s = .next (s.send (.mgmt 3 []))) ∧
    (∃ t, exec (.powerOff v) s = .next t ∧ s.WentOff t ∧ t.sled.stayOff = true)) ∧
  (∀ (s : State) (v : Via), s.OwnerCmd v →
    ∃ t, exec (.clearTries v) s = .next t ∧ t.out = .mgmt 0 [] :: s.out ∧ t.wd.times = [] ∧ (∀ n w, t.wd.wde.find n = some w → w.times = []) ∧
      s.DataKept t ∧ t.sled = s.sled) ∧
  (∀ (s : State) (v : Via), s.sled.st ≠ .off → s.sled.st ≠ .dead → s.sled.st ≠ .boot → s.viaOpen v = true → s.inPause = false →
    s.wd.pilotRestart = false → s.viaOwner v = false →
    exec (.clearTries v) s = .next (s.send (.mgmt 2 [])) ∧
    (s.up = true → exec (.warmRestart v) s = .next (s.send (.mgmt 2 [])) ∧ exec (.enterVigil v) s = .next (s.send (.mgmt 2 [])) ∧
      exec (.powerOff v) s = .next (s.send (.mgmt 2 [])))) ∧
  (∀ (s : State) (v : Via), s.sled.st = .off → s.viaOpen v = true → s.viaOwner v = true → s.wd.btn ≠ 1 →
    ∃ t, exec (.powerOn v) s = .next t ∧ .mgmt 0 [] ∈ t.out ∧ t.sled.st = .boot ∧ t.sled.boot = .rails ∧ t.sled.stayOff = false ∧ s.DataKept t) ∧
  (∀ (s : State) (rc : Nat), s.sled.flush = some (.restart rc) → s.sled.vigilNext = none →
    (s.sled.offNext = false → ∃ t, exec .keepFlushDone s = .next t ∧ s.Restarted t rc) ∧
    (s.sled.offNext = true → ∃ t, exec .keepFlushDone s = .next t ∧ s.WentOff t)) ∧
  (∀ (s : State), s.sled.flush = some .vigil → s.sled.offNext = false →
    ∃ t, exec .keepFlushDone s = .next t ∧ t.sled.flush = none ∧ t.sled.vigilDone = true ∧ t.sled.st = s.sled.st ∧ t.lake.wp = s.hasLake ∧
      (∀ i, i < 20 → (t.ledger i).st = .banked))

/-- 15 R543 to R545, R552: the press of the RESET button is classed by its length: logged, a warm restart, VIGIL at 10 s, faulty at 60 s. -/
def Obligations.TheResetButtonIsClassed : Prop :=
  (∀ (s : State), s.wd.btn = 0 →
    exec .resetButtonPress s = .next { s with wd := { s.wd with btn := 1, pressAt := s.clk.ms, pressed10 := false } }) ∧
  (∀ (s : State) (ms : Nat), s.wd.btn = 1 → s.wd.pressed10 = false → s.sled.st ≠ .off →
    (ms < 20 → exec (.resetButtonRelease ms) s = .next { s with wd := { s.wd with btn := 0, pressed10 := false } }) ∧
    (20 ≤ ms → ms < 2000 → ∃ t, exec (.resetButtonRelease ms) s = .next t ∧ s.Posted t 0x0904 0 0 ∧ t.wd.btn = 0 ∧ t.wd.cls = 0 ∧
      t.wd.press = BitVec.ofNat 16 (ms / 10) ∧ t.sled = s.sled ∧ s.DataKept t) ∧
    (2000 ≤ ms → ms < 10000 → s.up = true → s.lamp.sch = [] → ∃ t, exec (.resetButtonRelease ms) s = .next t ∧ s.Posted t 0x0904 0 0 ∧
      t.wd.cls = 1 ∧ t.wd.press = BitVec.ofNat 16 (ms / 10) ∧ t.sled.st = .duskFlush ∧ t.sled.flush = some (.restart 2))) ∧
  (∀ (s : State), s.wd.btn = 1 → s.wd.pressed10 = false → s.up = true →
    ∃ t, exec .resetButton10s s = .next t ∧ t.sled.st = .vigil ∧ t.wd.cls = 2 ∧ t.wd.vcause = 4 ∧ t.wd.press = 1000) ∧
  (∀ (s : State), s.wd.btn = 1 → s.sled.st ≠ .off →
    ∃ t, exec .resetFaulty s = .next t ∧ t.wd.btn = 2 ∧ t.wd.cls = 3 ∧ s.Posted t 0x0905 0 0 ∧ s.Posted t 0x0904 0 0 ∧ t.sled = s.sled ∧ s.DataKept t) ∧
  (∀ (s : State), s.wd.btn = 2 → exec .resetButtonRestored s = .next { s with wd := { s.wd with btn := 0 } })

/-- 15 R531, R555; 16 R556 to R561, R569; 17 R587 to R590: an inserted sled raises its rails, with one retry; the boot ROM runs an authentic slot, else
the other, else the sled is DEAD; failed units are fenced, and a sled that has trained is READY. -/
def Obligations.TheSledStartsInOrder : Prop :=
  (∀ (s : State), s.sled.st = .off → s.wd.btn ≠ 1 →
    ∃ t, exec .coldStart s = .next t ∧ t.sled.st = .boot ∧ t.sled.boot = .rails ∧ t.sled.latchOpen = false ∧ t.sled.warm = false ∧ t.mem = s.mem ∧
      t.fw.slot0 = s.fw.slot0 ∧ t.fw.slot1 = s.fw.slot1 ∧ t.lake = s.lake) ∧
  (∀ (s : State), s.sled.st ≠ .off → exec .coldStart s = .next s) ∧
  (∀ (s : State), s.sled.boot = .rails → exec .railFault s = .next { s with sled := { s.sled with boot := .retry } }) ∧
  (∀ (s : State), s.sled.boot = .retry →
    exec (.railRetry true) s = .next { s with sled := { s.sled with boot := .verify } } ∧
    (∃ t, exec (.railRetry false) s = .next t ∧ s.WentOff t ∧ t.sled.startFault = 1)) ∧
  (∀ (s : State) (slot : Fin 2) (record : RecRead), s.sled.boot = .verify → s.sled.warm = true → s.fw.tried = [] → s.fw.select = slot.val →
    (s.fw.slot slot).complete = true → (s.fw.slot slot).st ≠ .previous →
    (record ≠ .neither → (s.fw.slot slot).st ≠ .staged → ∃ t, exec (.imageVerifyDone slot true record true) s = .next t ∧ t.sled.boot = .selfTest ∧
      t.sled.st = s.sled.st ∧ t.fw.booted = slot.val ∧ (t.fw.slot slot).st = (s.fw.slot slot).st ∧ t.wd.run = true ∧
      (∀ n, n < 4 → s.fenced (.lantern n) = false → (t.wde n).en = true ∧ (t.wde n).lock = true) ∧
      ((s.fw.slot slot).setfmt = s.fw.fmt → t.fw.store = if record = .other then s.fw.prev else s.fw.store) ∧ s.DataKept t) ∧
    ((s.fw.slot slot).st = .staged → ∃ t, exec (.imageVerifyDone slot true .newer true) s = .next t ∧ t.sled.boot = .selfTest ∧
      (t.fw.slot slot).st = .probation ∧ (t.fw.slot (1 - slot.val)).st = .previous ∧ t.fw.booted = slot.val) ∧
    (record = .neither → s.sled.st ≠ .off → (s.fw.slot slot).st ≠ .staged → ∃ t, exec (.imageVerifyDone slot true record true) s = .next t ∧
      t.mgt.root = none ∧ t.mgt.lock = false ∧ t.fw.store = [] ∧ s.evt.prod < t.evt.prod) ∧
    (∃ t, exec (.imageVerifyDone slot true record false) s = .next t ∧ s.WentOff t ∧ t.sled.startFault = 4)) ∧
  (∀ (s : State) (slot : Fin 2) (record : RecRead) (pilotOk : Bool), s.sled.boot = .verify → s.fw.tried = [] → s.fw.select = slot.val →
    ((s.fw.slot (1 - slot.val)).complete = true → exec (.imageVerifyDone slot false record pilotOk) s =
      .next { s with fw := { s.fw with tried := [slot.val] }, sled := { s.sled with boot := .verify } }) ∧
    ((s.fw.slot (1 - slot.val)).complete = false → ∃ t, exec (.imageVerifyDone slot false record pilotOk) s = .next t ∧ t.sled.st = .dead ∧
      ∀ h, h < 16 → (t.halfReg h).hold = true)) ∧
  (∀ (s : State), s.sled.boot = .selfTest →
    (s.fencedIn 96 100 ≠ 4 → (∃ t, exec (.selfTestDone ⟨[], []⟩) s = .next t ∧ t.sled.st = .train ∧ t.sled.boot = .pond ∧ s.DataKept t) ∧
      (∃ t, exec (.selfTestTimeout []) s = .next t ∧ t.sled.st = .train ∧ t.sled.boot = .pond ∧ s.DataKept t)) ∧
    (s.fencedIn 96 100 = 4 → s.sled.st = .boot → ∃ t, exec (.selfTestDone ⟨[], []⟩) s = .next t ∧ t.sled.st = .vigil ∧ t.wd.vcause = 6) ∧
    (∀ (l : List (Fin 1584)) (buffers : List (Fin 8)), ∃ t u, exec (.selfTestDone ⟨l, buffers⟩) s = .next t ∧
      exec (.selfTestTimeout l) s = .next u ∧ (∀ b ∈ l, t.fenced (unitOfBit b) = true ∧ u.fenced (unitOfBit b) = true) ∧
      (∀ n ∈ buffers, t.fenced (.half (2 * n.val)) = true ∧ t.fenced (.half (2 * n.val + 1)) = true))) ∧
  (∀ (s : State) (halves : List Train), s.sled.st = .train → s.readyOk = true → (∀ x ∈ halves, x.ok = true) →
    ∃ t, exec (.trainComplete halves) s = .next t ∧ t.sled.st = .ready ∧ t.sled.boot = .none ∧ t.sled.startFault = 0 ∧ t.q.dispatching = true ∧
      s.evt.prod < t.evt.prod ∧ t.mem = s.mem ∧ t.rt = s.rt)
/-! ### The Chain and firmware -/

/-- 17 R571 to R573, R595, R597, R600: links greet each other, come up where they are enabled, and a lost one posts CHAIN_FAULT and ends what it
carried; a frame on a link that is down changes nothing, a damaged one is counted, and one on a link in bypass is repeated on the other. -/
def Obligations.ChainLinksGreetAndFail : Prop :=
  (∀ (s : State) (l : Fin 2) (peer : W16),
    ((s.link l).st = 2 → exec (.chainHello l peer true) s =
      .next (s.setLink l { s.link l with peerOk := true, peerId := peer, helloAt := s.clk.ms })) ∧
    ((s.link l).st = 2 → exec (.chainHello l peer false) s = .next (s.setLink l { s.link l with crcErr := satInc (s.link l).crcErr })) ∧
    (∀ ok, (s.link l).st ≠ 2 → (s.link l).st ≠ 3 → exec (.chainHello l peer ok) s = .next s) ∧
    ((s.link l).st = 3 → exec (.chainHello l peer true) s = .next (s.send (.repeated (1 - l.val) .hello [peer.toNat] none)) ∧
      exec (.chainHello l peer false) s = .next s)) ∧
  (∀ (s : State), s.sled.st ≠ .off → s.sled.st ≠ .dead →
    ∃ t, exec .helloTimer s = .next t ∧ t = { s with out := t.out } ∧
      (∀ l : Fin 2, (s.link l).st = 2 → .chain l .hello [0, 0, 0, s.id.sledId.toNat, s.sled.st.code, s.fw.booted, (s.fw.slot s.fw.booted).iseq.toNat] ∈ t.out) ∧
      ((s.link 0).st ≠ 2 → (s.link 1).st ≠ 2 → t.out = s.out)) ∧
  (∀ (s : State) (l : Fin 2), s.sled.st ≠ .off → s.sled.st ≠ .dead →
    (s.chn.ctl.getLsbD (3 + l.val) = true → exec (.chainLinkUp l) s = .next (s.setLink l { s.link l with st := 2 })) ∧
    (s.chn.ctl.getLsbD (3 + l.val) = false → exec (.chainLinkUp l) s = .next s)) ∧
  (∀ (s : State), s.sled.st ≠ .off → s.chn.dn.st = 2 → s.chn.tx = none →
    ∃ t, exec (.chainLinkLoss 1) s = .next t ∧ t.chn = { s.chn with dn := { s.chn.dn with st := 0, peerOk := false } } ∧ s.Posted t 0x0A06 0 0 ∧
      s.DataKept t ∧ t.fw = s.fw) ∧
  (∀ (s : State) (r : Rx), s.sled.st ≠ .off → s.chn.up.st = 2 → s.chn.rx = some r → s.chn.tx = none → s.fw.stage = none →
    (∃ t, exec (.chainLinkLoss 0) s = .next t ∧ t.chn.up.st = 0 ∧ t.chn.rx = none ∧ t.chn.xstate = 3 ∧ s.Posted t 0x0A06 0 0 ∧ s.DataKept t) ∧
    (exec (.chainAbort 0 true) s = .next { s with chn := { s.chn with rx := none, xstate := 3 } })) ∧
  (∀ (s : State) (l : Fin 2) (ok : Bool), (s.link l).st ≠ 2 → exec (.chainLinkLoss l) s = .next s ∧
    ((s.link l).st ≠ 3 → exec (.chainAbort l ok) s = .next s) ∧
    ((s.link l).st = 3 → exec (.chainAbort l true) s = .next (s.send (.repeated (1 - l.val) .abort [] none))))

/-- 17 R572 to R575, R581, R594: an offer is acknowledged and stored only where the sled is armed for it; chunks are acknowledged, or asked for
again when damaged; a sender resends twice, then aborts with CHAIN_FAULT, and ends with DONE; a complete verified bundle is applied. -/
def Obligations.ChainTransfersMoveChunks : Prop :=
  (∀ (s : State) (x : Image), s.chn.up.st = 2 → s.chn.rx = none → s.chn.arm = BitVec.allOnes 64 → s.chn.ctl.getLsbD 0 = false →
    ∃ t, exec (.chainOffer 0 x true) s = .next t ∧ t.chn.rx = some ⟨x, false, false, [], [], false⟩ ∧ t.chn.xstate = 0 ∧
      t.out = .chain 0 .ack [x.iseq.toNat, 0xFFFFFFFF, 8] :: s.out ∧ t.fw = s.fw ∧ s.DataKept t) ∧
  (∀ (s : State) (x : Image), s.chn.up.st = 2 → s.chn.rx = none → x.settings = false → s.chn.arm = x.iseq ∨ s.chn.arm = 0 → s.chn.arm ≠ BitVec.allOnes 64 →
    s.fw.wait = none → s.fw.stage = none → (s.fw.slot s.otherSlot).st ≠ .staged → s.pilotRuns = true → s.sled.flush = none → s.refuses x = none →
    s.chn.ctl.getLsbD 0 = false → s.fw.booted < 2 →
    ∃ t, exec (.chainOffer 0 x true) s = .next t ∧ t.chn.rx = some ⟨x, true, false, [], [], false⟩ ∧ t.fw.stage = some ⟨x, 0, true, none, []⟩ ∧
      t.chn.arm = BitVec.allOnes 64 ∧ (t.fw.slot s.otherSlot).st = .writing ∧ t.chn.xstate = 1 ∧ .chain 0 .ack [x.iseq.toNat, 0xFFFFFFFF, 8] ∈ t.out) ∧
  (∀ (s : State) (r : Rx) (k : Nat) (data : Chunk), s.chn.up.st = 2 → s.chn.rx = some r → s.chn.tx = none →
    (∃ t, exec (.chainData 0 k ⟨data, false⟩) s = .next t ∧ t.out = .chain 0 .nak [r.image.iseq.toNat, k, 0] :: s.out ∧ t.chn.rx = some r ∧
      t.chn.up.crcErr = satInc s.chn.up.crcErr) ∧
    (k < chunksOf r.image → k ∉ r.got → s.freeChunks.freeBufs ≠ 0 → r.done = false →
      ∃ t y, exec (.chainData 0 k ⟨data, true⟩) s = .next t ∧ t.chn.rx = some y ∧ y.got = r.got ++ [k] ∧ t.chn.rcvd = satInc s.chn.rcvd ∧
        (∀ g, r.storing = true → s.fw.stage = some g → g.chain = true → g.written ≤ k → y.bufs.find k = some data) ∧
        .chain 0 .ack [r.image.iseq.toNat, k, 8 - y.bufs.length] ∈ t.out ∧ t.fw = s.fw) ∧
    (k < chunksOf r.image → k ∈ r.got →
      exec (.chainData 0 k ⟨data, true⟩) s = .next (s.send (.chain 0 .ack [r.image.iseq.toNat, k, 8 - r.bufs.length])))) ∧
  (∀ (s : State) (x : Tx) (free : Nat), s.chn.dn.st = 2 → s.chn.rx = none → s.chn.tx = some x → x.doneSent = false →
    (x.accepted = false → x.origin = true → x.next = 0 → x.out = [] → free = 1 → ∃ t, exec (.chainAck 1 0xFFFFFFFF free true) s = .next t ∧
      t.chn.tx = some { x with accepted := true, credits := 1, next := 1, out := [0] } ∧
      t.out = .chunk x.image.iseq 0 (((s.fw.slot s.otherSlot).body.find 0).getD 0) :: s.out) ∧
    (∀ k : W32, x.accepted = true → x.origin = true → x.out = [k.toNat] → k ≠ 0xFFFFFFFF → chunksOf x.image ≤ x.next →
      ∃ t, exec (.chainAck 1 k free true) s = .next t ∧ t.chn.tx = some { x with out := [], credits := free, doneSent := true } ∧
        t.out = .chain 1 .done [x.image.iseq.toNat, 0, 0] :: s.out) ∧
    (∀ k, k ∈ x.out → x.fails.getD k 0 < 2 → ∃ t u, exec (.chainNak 1 k true) s = .next t ∧ exec (.chainAckTimeout 1 k) s = .next u ∧
      t.chn.tx = some { x with fails := x.fails.put k (x.fails.getD k 0 + 1) } ∧ u.chn.tx = t.chn.tx ∧ u.out = t.out ∧
      (x.origin = true → t.out = .chunk x.image.iseq k (((s.fw.slot s.otherSlot).body.find k).getD 0) :: s.out) ∧ t.chn.dn.resent = satInc s.chn.dn.resent) ∧
    (∀ k, k ∈ x.out → x.fails.getD k 0 = 2 → s.sled.st ≠ .off → ∃ t u, exec (.chainNak 1 k true) s = .next t ∧ exec (.chainAckTimeout 1 k) s = .next u ∧
      t.chn.tx = none ∧ t.chn.xstate = 3 ∧ s.Posted t 0x0A06 0 0 ∧ .chain 1 .abort [x.image.iseq.toNat, 0, 1] ∈ t.out ∧ u.chn = t.chn)) ∧
  (∀ (s : State) (r : Rx) (entries : List (W32 × W64)) (verifies : Bool), s.chn.up.st = 2 → s.chn.rx = some r → s.chn.tx = none → r.fwd = false →
    r.storing = false → r.image.settings = false →
    (r.got.length = chunksOf r.image → ∃ t, exec (.chainDone 0 true entries verifies) s = .next t ∧ t.chn.rx = none ∧
      t.out = .chain 0 .ack [r.image.iseq.toNat, 0xFFFFFFFF, 8] :: s.out ∧ s.DataKept t) ∧
    (r.got.length ≠ chunksOf r.image → exec (.chainDone 0 true entries verifies) s =
      .next { s with chn := { s.chn with rx := some { r with done := true } } })) ∧
  (∀ (s : State) (r : Rx) (v : Nat), s.chn.up.st = 2 → s.chn.rx = some r → s.chn.tx = none → r.fwd = false → r.storing = false → r.done = false →
    r.image.settings = true → r.got.length = chunksOf r.image → s.takesBundle [(0xFFFF0003#32, BitVec.ofNat 64 v)] true = true → 1 ≤ v → v ≤ 60 →
    ∃ t, exec (.chainDone 0 true [(0xFFFF0003#32, BitVec.ofNat 64 v)] true) s = .next t ∧ t.mgt.set.getD 3 5 = v ∧ t.chn.rx = none)

/-- 01 R46; 17 R581, R584 to R589, R592, R593, R601: a staged image is programmed chunk by chunk and its program completes; a failed device, or no
offer within an hour, ends it; an activation pauses, verifies and runs the new slot on probation, or falls back; probation counts ticks. -/
def Obligations.ImagesAreStagedAndActivated : Prop :=
  (∀ (s : State) (g : Stage), s.fw.stage = some g → g.chain = false → s.chn.rx = none → s.fw.booted < 2 →
    (g.written + 1 < chunksOf g.image → exec (.chunkWritten g.written) s = .next { s with
      fw := { s.fw.putChunk s.otherSlot g.written g.src[g.written]? with stage := some { g with written := g.written + 1 } } }) ∧
    (∀ p x, g.written + 1 = chunksOf g.image → g.prog = some p → s.prog p = some x → x.cancel = none → s.chn.ctl.getLsbD 1 = false → s.sled.st ≠ .off →
      ∃ t b, exec (.chunkWritten g.written) s = .next t ∧ t.fw.stage = none ∧
        t.fw.slot s.otherSlot = ⟨.staged, g.image.iseq, g.image.version, g.image.svn, g.image.setfmt, g.image.chunks, b⟩ ∧
        (∀ c, g.src[g.written]? = some c → b.find g.written = some c) ∧
        t.fw.slot (1 - s.otherSlot) = s.fw.slot (1 - s.otherSlot) ∧ s.Posted t 0x0A01 0 0 ∧ t.prog p = some (x.completed 0 0) ∧ s.DataKept t) ∧
    (∀ k, k ≠ g.written → exec (.chunkWritten k) s = .next s) ∧
    (∀ p x, g.prog = some p → s.prog p = some x → x.mute = false → s.CanPost x.host x.q →
      ∃ t, exec .spiProgramFail s = .next t ∧ t.fw.stage = none ∧ (t.fw.slot s.otherSlot).st = .failed ∧ s.EndsWith t p x eIntegrity 0 0)) ∧
  (∀ (s : State) (p ms : Nat) (len : W64) (x : Prog), s.fw.wait = some (p, len, ms) → s.prog p = some x → x.mute = false → s.CanPost x.host x.q →
    ∃ t, exec .fwStageTimeout s = .next t ∧ t.fw.wait = none ∧ t.chn.arm = BitVec.allOnes 64 ∧ s.EndsWith t p x eTimeout 0 0) ∧
  (∀ (s : State) (a : Act), s.fw.act = some a → a.paused = false → s.rt.stalled = [] →
    ∃ t, exec .activationPanicWaitEnd s = .next t ∧ t.fw.act = some { a with paused := true, pausedAt := s.clk.ms } ∧ t.wd.held = true ∧
      t.lamp.stopped = true ∧ (s.lamp.sch = [] → s.DataKept t)) ∧
  (∀ (s : State) (a : Act) (p : Nat) (x : Prog), s.fw.act = some a → a.paused = true → a.cause = 0 → a.slot < 2 → a.prog = some p → s.prog p = some x →
    s.q.progs = [(p, x)] → s.lamp.sch = [] → s.q.qs = [] → s.mgt.held = [] → s.sled.flush = none → s.sled.st ≠ .off →
    (x.cancel = none → ∃ t, exec (.activationVerifyDone true) s = .next t ∧ t.fw.act = none ∧ t.fw.booted = a.slot ∧ t.fw.boot = a.slot ∧
      (t.fw.slot a.slot).st = .probation ∧ (t.fw.slot (1 - a.slot)).st = .previous ∧ t.fw.probEl = 0 ∧ t.lamp.stopped = false ∧
      s.Posted t 0x0A03 0 0 ∧ t.prog p = some (x.completed 0 0) ∧ t.mgt.sess = [] ∧ s.DataKept t) ∧
    (x.mute = false → ∃ t, exec (.activationVerifyDone false) s = .next t ∧ t.fw.act = none ∧ t.fw.booted = s.fw.booted ∧
      (t.fw.slot a.slot).st = .failed ∧ t.fw.lastFb = 4 ∧ s.Posted t 0x0A05 0 0 ∧ t.prog p = none)) ∧
  (∀ (s : State), s.up = true → (s.fw.inState .probation).isSome = true →
    ((s.fw.inState .previous).isNone = true → exec .probationTick s = .next { s with fw := { s.fw with probEl := satInc s.fw.probEl, dseq := s.fw.dseq + 1 } }) ∧
    (∀ n, s.fw.inState .previous = some n → s.fw.act = none → s.fw.probH.toNat * 6 ≤ (satInc s.fw.probEl).toNat →
      ∃ t a, exec .probationTick s = .next t ∧ t.fw.act = some a ∧ a.slot = n ∧ a.cause = 1)) ∧
  (∀ (s : State), s.pilotRuns = true →
    (s.fw.dirty = true → ∃ t, exec .settingsWrite s = .next t ∧ t.fw.dirty = false ∧ t = { s with fw := { s.fw with store := t.fw.store, older := t.fw.older, rseq := s.fw.rseq + 1, prev := s.fw.store, dirty := false } } ∧
      t.fw.older.map Prod.snd = s.fw.older.map (fun _ => t.fw.store)) ∧
    (s.fw.dirty = false → exec .settingsWrite s = .next s))
/-! ### Management -/

/-- 18 R603, R611 to R613: the endpoint answers MCTP control messages in every state that has input power; SPDM states its versions and
algorithms, its certificates and measurements, and opens at most eight sessions, one of which may carry the owner's authority. -/
def Obligations.MctpAndSpdmAnswer : Prop :=
  (∀ (s : State), s.sled.st ≠ .off ∨ s.sled.dark = true →
    (∀ eid : Byte, eid ≠ 0 → eid ≠ 0xFF →
      exec (.setEndpointId eid) s = .next ({ s with mgt := { s.mgt with eid := eid } }.send (.mgmt 0 [0, 0, BitVec.ofNat 64 eid.toNat]))) ∧
    (∀ eid : Byte, eid = 0 ∨ eid = 0xFF → exec (.setEndpointId eid) s = .next (s.send (.mgmt 0 [2]))) ∧
    exec .getEndpointId s = .next (s.send (.mgmt 0 [0, BitVec.ofNat 64 s.mgt.eid.toNat])) ∧
    (∀ ty, ∃ ws, exec (.getMctpVersionSupport ty) s = .next (s.send (.mgmt 0 ws)) ∧
      (ws = [0x80] ↔ ty ≠ 0 ∧ ty ≠ 0xFF ∧ ty ≠ 0x05 ∧ ty ≠ 0x06 ∧ ty ≠ 0x7E)) ∧
    exec .getMessageTypeSupport s = .next (s.send (.mgmt 0 [0, 3, 0x05, 0x06, 0x7E])) ∧
    (∀ sel : Byte, ∃ ws, exec (.getVendorDefinedMessageSupport sel) s = .next (s.send (.mgmt 0 ws)) ∧ (sel ≠ 0 → ws = [2]) ∧
      (sel = 0 → ws.length = 4))) ∧
  (∀ (s : State) (c : Carrier), s.carrierOn c = true →
    exec (.spdmGetVersion c) s = .next (s.send (carrierOut c [0x04, 2, 0x12, 0x13])) ∧
    (∃ ws, exec (.spdmGetCapabilities c) s = .next (s.send (carrierOut c (0x61 :: ws)))) ∧
    (∃ ws, exec (.spdmNegotiateAlgorithms c) s = .next (s.send (carrierOut c (0x63 :: ws)))) ∧
    (∃ ws, exec (.spdmGetDigests c) s = .next (s.send (carrierOut c (0x01 :: 0x03 :: ws))) ∧ ws.length = 12) ∧
    (∀ slot : Byte, ∃ ws us, exec (.spdmGetCertificate c slot) s = .next (s.send (carrierOut c ws)) ∧
      exec (.spdmChallenge c slot) s = .next (s.send (carrierOut c us)) ∧
      (slot.toNat < 2 → ws.take 2 = [0x02, slot.toNat] ∧ us.take 2 = [0x03, slot.toNat]) ∧
      (2 ≤ slot.toNat → ws = [0x7F, 1] ∧ us = [0x7F, 1])) ∧
    (∀ i : Byte, ∃ ws, exec (.spdmGetMeasurements c i) s = .next (s.send (carrierOut c ws)) ∧ (i = 0 → ws = [0x60, 7]) ∧
      (1 ≤ i.toNat → i.toNat ≤ 7 → ws = [0x60, i.toNat] ++ s.measurement i.toNat) ∧ (7 < i.toNat → i ≠ 0xFF → ws = [0x7F, 1])) ∧
    (8 ≤ s.mgt.sess.length → exec (.spdmKeyExchange c) s = .next (s.send (carrierOut c [0x7F, 0x0A]))) ∧
    (∀ n, s.mgt.sess.length < 8 → s.mgt.sess.lowestFree 8 0 = some n → ∃ t ws, exec (.spdmKeyExchange c) s = .next t ∧
      t.mgt.sess.find n = some ⟨c, false, false, 0⟩ ∧ (∀ m, m ≠ n → t.mgt.sess.find m = s.mgt.sess.find m) ∧
      t.out = carrierOut c (0x64 :: n :: ws) :: s.out)) ∧
  (∀ (s : State) (n : Nat) (x : Sess), s.mgt.sess.find n = some x → s.carrierOn x.carrier = true →
    (∀ root : Option (BitVec 384), x.finished = false → ∃ t, exec (.spdmFinish n root) s = .next t ∧
      t.mgt.sess.find n = some { x with finished := true, owner := root.isSome && root == s.mgt.root } ∧ t.out = carrierOut x.carrier [0x65] :: s.out) ∧
    (x.finished = true → exec (.spdmHeartbeat n) s = .next (s.send (carrierOut x.carrier [0x68]))) ∧
    (x.finished = true → ∃ t, exec (.spdmKeyUpdate n) s = .next t ∧ t.mgt.sess.find n = some { x with keys := x.keys + 1 } ∧
      t.out = carrierOut x.carrier [0x69] :: s.out) ∧
    (x.finished = true → ∃ t, exec (.spdmEndSession n) s = .next t ∧ t.mgt.sess.find n = none ∧ t.out = carrierOut x.carrier [0x6C] :: s.out) ∧
    (x.finished = false → exec (.spdmHeartbeat n) s = .next (s.send (carrierOut x.carrier [0x7F, 4])))) ∧
  (∀ (s : State) (c : Carrier), s.carrierOn c = false → exec (.spdmGetVersion c) s = .next s ∧ exec (.spdmKeyExchange c) s = .next s)

/-- 18 R606 to R608, R616 to R618, R626; 14 R496; 19 R642: what the management port reads: identity in every state, sensors by ID, registers, the
oldest unread events after their acknowledgement, trace slots, settings and statistics; a bad argument is answered and changes nothing. -/
def Obligations.ManagementReadsState : Prop :=
  (∀ (s : State), s.sled.st ≠ .off ∨ s.sled.dark = true →
    exec .identify s = .next (s.send (.mgmt 0 [s.identWord, s.id.serial.setWidth 64, (s.id.serial >>> 64).setWidth 64,
      BitVec.ofNat 64 (s.bootedField (fun x => x.version.toNat)), BitVec.ofNat 64 s.sled.st.code, s.sled.startFault.setWidth 64,
      BitVec.ofNat 64 ((if s.mgt.root.isSome then 1 else 0) + (if s.mgt.lock then 2 else 0))]))) ∧
  (∀ (s : State) (ids : List W16), s.BusCmd →
    (ids ≠ [] → ids.length ≤ 64 → exec (.sensor ids) s = .next (s.send (.mgmt 0 (ids.map (fun i =>
      BitVec.ofNat 64 (i.toNat + (s.sensorOf i.toNat).1 * 2 ^ 16 + (s.sensorOf i.toNat).2 % 2 ^ 32 * 2 ^ 32)))))) ∧
    (ids = [] ∨ 64 < ids.length → exec (.sensor ids) s = .next (s.send (.mgmt 1 [])))) ∧
  (∀ (s : State), s.sensorOf 0x20 = (0, s.pwr.vin.toNat) ∧ s.sensorOf 0x40 = (0, s.pwr.eMeas) ∧ s.sensorOf 0x42 = (0, s.pwr.budget) ∧
    s.sensorOf 0x70 = (0, s.fencedIn 0 96) ∧ s.sensorOf 0x80 = (0, s.sled.st.code) ∧ (s.hasLake = false → (s.sensorOf 0x50).1 = 2) ∧
    (s.sensorOf 0xFFFF).1 = 3) ∧
  (∀ (s : State) (addr : W32) (count : Nat), s.BusCmd →
    (addr.toNat % 8 = 0 → addr.toNat < 0x800000 → 1 ≤ count → count ≤ 120 →
      exec (.regRead addr count) s = .next (s.send (.mgmt 0 ((List.range count).map (fun i => s.regRead (addr.toNat + 8 * i)))))) ∧
    (addr.toNat % 8 ≠ 0 ∨ 0x800000 ≤ addr.toNat ∨ count = 0 ∨ 120 < count → exec (.regRead addr count) s = .next (s.send (.mgmt 1 [])))) ∧
  (∀ (s : State) (ack max : Nat), s.BusCmd →
    (1 ≤ max → max ≤ 31 → ack < 65536 → ∃ t ws, exec (.eventRead ack max) s = .next t ∧ t.out = .mgmt 0 (s.evt.mgmt.lost.setWidth 64 :: ws) :: s.out ∧
      t.evt.mgmt.lost = 0 ∧ t.evt.ring = s.evt.ring ∧ ws.length ≤ 4 * max ∧
      ((s.recsFrom s.evt.mgmt.idx).length ≤ ack → t.evt.mgmt.idx = s.evt.prod) ∧
      (ack = 0 → s.recsFrom s.evt.mgmt.idx ≠ [] → t.evt.mgmt.idx = s.evt.mgmt.idx ∧
        ws = ((s.recsFrom s.evt.mgmt.idx).take max).flatMap (fun p => p.2.words)) ∧ s.DataKept t ∧ s.ControlKept t) ∧
    (max = 0 ∨ 31 < max ∨ 65536 ≤ ack → exec (.eventRead ack max) s = .next (s.send (.mgmt 1 [])))) ∧
  (∀ (s : State) (slot count : Nat), s.BusCmd →
    (1 ≤ count → count ≤ 62 → slot < 32768 → exec (.traceRead slot count) s = .next (s.send (.mgmt 0 (s.trc.stat ::
      (List.range count).flatMap (fun i => [(s.trcSlot ((slot + i) % 32768)).1, (s.trcSlot ((slot + i) % 32768)).2]))))) ∧
    (count = 0 ∨ 62 < count ∨ 32768 ≤ slot → exec (.traceRead slot count) s = .next (s.send (.mgmt 1 [])))) ∧
  (∀ (s : State) (id : W16), s.BusCmd → s.sled.st ≠ .duskFlush →
    (id.toNat = 0 ∨ 8 < id.toNat → exec (.settingGet id) s = .next (s.send (.mgmt 1 []))) ∧
    (id.toNat = 4 → exec (.settingGet id) s = .next (s.send (.mgmt 0 [BitVec.ofNat 64 s.pwr.w1]))) ∧
    (1 ≤ id.toNat → id.toNat ≤ 8 → id.toNat ≠ 4 → id.toNat ≠ 5 → id.toNat ≠ 6 →
      exec (.settingGet id) s = .next (s.send (.mgmt 0 [BitVec.ofNat 64 (s.mgt.set.getD id.toNat (s.settingDefault id.toNat))])))) ∧
  (∀ (s : State) (r : RegionId), s.BusCmd → s.up = true → (s.ent r).st ≠ .freed →
    ∃ a b, exec (.stats 1 (r.setWidth 32)) s = .next (s.send (.mgmt 0 ([a, b] ++ ((let c := s.rt.cnt.getD r.toNat ⟨0, 0, 0, 0, 0, 0⟩
      [c.poisoned, c.lostLines, c.poisonReads, c.discarded, c.codecFault, c.sectorTag]).map (BitVec.ofNat 64))))) ∧
      a = BitVec.ofNat 64 (s.ratioOf r).1) ∧
  (∀ (s : State) (gcmd : Byte), s.BusCmd → gcmd = 0 ∨ 0x0D < gcmd.toNat → exec (.unsupportedCommand gcmd) s = .next (s.send (.mgmt 6 [])))

/-- 17 R575, R586 to R588; 18 R606, R609, R612 to R615; 05 R225: the owner writes registers and settings, arms, activates and confirms firmware, enrols and
releases credentials, peers and a format; under the lock a kept field answers LOCKED to everyone else. -/
def Obligations.OwnerManagementCommands : Prop :=
  (∀ (s : State) (v : Via) (value : W64), s.OwnerCmd v → s.sled.st ≠ .duskFlush →
    (∀ addr : W32, addr.toNat % 8 ≠ 0 ∨ 0x800000 ≤ addr.toNat → exec (.regWrite addr value v) s = .next (s.send (.mgmt 1 []))) ∧
    (∃ t, exec (.regWrite 0xB0008 value v) s = .next t ∧ t.chn = { s.chn with arm := value } ∧ t.out = .mgmt 0 [] :: s.out ∧ s.DataKept t)) ∧
  (∀ (s : State) (v : Via) (addr : W32) (value : W64) (id : W16) (w : W32), s.BusCmd → s.viaOpen v = true → s.viaOwner v = false →
    s.sled.st ≠ .duskFlush →
    exec (.regWrite addr value v) s = .next (s.send (.mgmt (if s.mgt.lock = true ∧ keptMask addr.toNat ≠ 0 then 4 else 2) [])) ∧
    exec (.settingSet id w v) s = .next (s.send (.mgmt (if s.mgt.lock = true ∧ ¬(4 ≤ id.toNat ∧ id.toNat ≤ 6) then 4 else 2) [])) ∧
    (s.up = true → exec (.ownerLockSet v) s = .next (s.send (.mgmt 2 [])) ∧ exec (.ownerRelease v) s = .next (s.send (.mgmt 2 [])) ∧
      exec (.firmwareArm value v) s = .next (s.send (.mgmt 2 [])))) ∧
  (∀ (s : State) (v : Via) (id : W16) (w : W32), s.OwnerCmd v → s.sled.st ≠ .duskFlush →
    (id = 4 → 1 ≤ w.toNat → w.toNat ≤ 64 → exec (.settingSet id w v) s =
      .next ({ s with pwr := { s.pwr with w1 := w.toNat } }.send (.mgmt 0 [BitVec.ofNat 64 w.toNat]))) ∧
    (id = 2 → 1 ≤ w.toNat → w.toNat ≤ 100 → ∃ t, exec (.settingSet id w v) s = .next t ∧ t.mgt.set.getD 2 10 = w.toNat ∧
      t.out = .mgmt 0 [BitVec.ofNat 64 w.toNat] :: s.out ∧ s.DataKept t) ∧
    (id = 2 → w = 0 → exec (.settingSet id w v) s = .next (s.send (.mgmt 1 [])))) ∧
  (∀ (s : State) (v : Via), s.OwnerCmd v → s.up = true →
    (∀ iseq, exec (.firmwareArm iseq v) s = .next ({ s with chn := { s.chn with arm := iseq } }.send (.mgmt 0 []))) ∧
    (s.fw.inState .staged = none → exec (.firmwareActivate v) s = .next (s.send (.mgmt 3 []))) ∧
    (∀ n d, s.fw.inState .staged = some n → s.fw.act = none → s.actRefuses n = some d → ∃ t, exec (.firmwareActivate v) s = .next t ∧
      .mgmt 7 [d.setWidth 64] ∈ t.out ∧ s.Posted t 0x0A02 0 0 ∧ t.fw.act = none ∧ s.DataKept t) ∧
    (∀ n, s.fw.inState .staged = some n → s.fw.act = none → s.actRefuses n = none → ∃ t a, exec (.firmwareActivate v) s = .next t ∧
      .mgmt 0 [] ∈ t.out ∧ t.fw.act = some a ∧ a.slot = n ∧ a.prog = none ∧ a.cause = 0) ∧
    (∀ n, s.fw.act = none → s.fw.inState .probation = some n → ∃ t, exec (.firmwareConfirm v) s = .next t ∧ .mgmt 0 [] ∈ t.out ∧
      (t.fw.slot n).st = .running ∧ t.fw.svn = max s.fw.svn (s.fw.slot n).svn.toNat ∧ s.Posted t 0x0A04 0 0 ∧ s.DataKept t) ∧
    (s.fw.inState .probation = none → exec (.firmwareConfirm v) s = .next (s.send (.mgmt 3 []))) ∧
    (∀ hash, exec (.ownerEnrolRoot hash v) s = .next ({ s with mgt := { s.mgt with root := some hash } }.send (.mgmt 0 []))) ∧
    (∀ key, exec (.ownerEnrolSettingsKey key v) s = .next ({ s with mgt := { s.mgt with key := some key } }.send (.mgmt 0 []))) ∧
    (s.mgt.root.isSome = true → exec (.ownerLockSet v) s = .next ({ s with mgt := { s.mgt with lock := true } }.send (.mgmt 0 [])) ∧
      exec (.ownerLockClear v) s = .next ({ s with mgt := { s.mgt with lock := false } }.send (.mgmt 0 []))) ∧
    exec (.ownerRelease v) s = .next ({ s with mgt := { s.mgt with root := none, key := none, lock := false } }.send (.mgmt 0 [])) ∧
    (∀ sled pbr, s.mgt.lanes.lowestFree 64 0 = none → exec (.peerEnrol sled pbr v) s = .next (s.send (.mgmt 5 []))) ∧
    (∀ sled pbr n, s.mgt.lanes.lowestFree 64 0 = some n → exec (.peerEnrol sled pbr v) s =
      .next ({ s with mgt := { s.mgt with lanes := s.mgt.lanes.put n (sled, pbr) } }.send (.mgmt 0 [BitVec.ofNat 64 n]))) ∧
    (∀ sled, (∃ l ∈ s.mgt.lanes, l.2.1 = sled) → ∃ t, exec (.peerWithdraw sled v) s = .next t ∧ (∀ l ∈ t.mgt.lanes, l.2.1 ≠ sled) ∧
      (∀ l ∈ s.mgt.lanes, l.2.1 ≠ sled → l ∈ t.mgt.lanes) ∧ t.out = .mgmt 0 [] :: s.out ∧ s.DataKept t)) ∧
  (∀ (s : State) (v : Via) (sled : W16), s.OwnerCmd v → s.sled.st = .vigil → s.sled.vigilDone = true → s.wd.vcause = 8 → s.mgt.formatting = false →
    (sled = s.id.sledId → exec (.lakeFormat sled v) s = .next ({ s with mgt := { s.mgt with formatting := true } }.send (.mgmt 0 []))) ∧
    (sled ≠ s.id.sledId → exec (.lakeFormat sled v) s = .next (s.send (.mgmt 1 []))))

/-- 08 R319, R346; 14 R500; 18 R624 to R628; 19 R637 to R641: an aligned write through a BAR is the register's own command, a piece of another size
changes nothing; the trace restarts empty, stops while frozen, and takes marks. -/
def Obligations.RegisterWritesAndTheTrace : Prop :=
  (∀ (s : State) (h : HostId) (q : QueueNo) (v : W32), s.barOpen h = true →
    exec (.registerWrite h .bar2 (q.toNat * 0x1000) (toBytes 4 v.toNat)) s = exec (.sqTailWrite h q v) s ∧
    exec (.registerWrite h .bar2 (q.toNat * 0x1000 + 4) (toBytes 4 v.toNat)) s = exec (.cqHeadWrite h q v) s ∧
    exec (.registerWrite h .bar0 0x9008 (toBytes 4 v.toNat)) s = exec (.kevtAckWrite h v) s ∧
    exec (.registerWrite h .bar0 0x9018 (toBytes 4 v.toNat)) s = exec (.kevtCtlWrite h v) s) ∧
  (∀ (s : State) (h : HostId) (bar : Bar) (off : Nat) (b : Byte), exec (.registerWrite h bar off [b]) s = .next s) ∧
  (∀ (s : State) (h : HostId) (bar : Bar) (off : Nat) (bytes : List Byte), s.barOpen h = false → bar = .bar2 → off < 0x40000 → bytes.length ≤ 8 → off % 8 = 0 →
    exec (.registerWrite h bar off bytes) s = .next s) ∧
  (∀ (s : State) (h : HostId) (off : Nat) (bytes : List Byte), s.isOwnerFn h = false → exec (.registerWrite h .bar4 off bytes) s = .next s) ∧
  (∀ (s : State) (h : HostId) (q : QueueNo) (v : W64), s.barOpen h = true → (s.queue h q).enable = false →
    ∃ t, exec (.registerWrite h .bar0 (0x1000 + q.toNat * 0x40) (toBytes 8 v.toNat)) s = .next t ∧
      t.queue h q = { s.queue h q with sqbase := v &&& ~~~0xFFF#64 } ∧ s.DataKept t) ∧
  (∀ (s : State), s.sled.st ≠ .off → s.sled.st ≠ .dead →
    (∃ t, exec .trcRestart s = .next t ∧ t = { s with trc := t.trc } ∧ t.trc.buf = [] ∧ t.trc.wrptr = 0 ∧ t.trc.held = 0 ∧ t.trc.stopped = false ∧
      t.trc.frozen = false ∧ t.trc.wraps = 0 ∧ t.trc.dropped = 0) ∧
    (∃ t, exec .trcFreeze s = .next t ∧ t = { s with trc := t.trc } ∧ t.trc.frozen = true ∧ t.trc.buf = s.trc.buf ∧ t.trc.wrptr = s.trc.wrptr) ∧
    (∀ v, s.trc.srcEn.getLsbD 0 = true → s.trc.frozen = false → s.trc.stopped = false → s.trc.wrap = false →
      ∃ t r, exec (.trcMarkWrite v) s = .next t ∧ t.trc.buf.find s.trc.wrptr = some r ∧ r.src = 0 ∧ r.rtype = 7 ∧ r.data = v.setWidth 48 ∧
        t.trc.wrptr = (s.trc.wrptr + 1) % 32768 ∧ t.trc.held = min 32768 (s.trc.held + 1) ∧ s.DataKept t ∧ s.ControlKept t) ∧
    (∀ v, s.trc.srcEn.getLsbD 0 = true → s.trc.frozen = true → ∃ t, exec (.trcMarkWrite v) s = .next t ∧ t.trc.buf = s.trc.buf ∧
      t.trc.dropped = (if s.trc.dropped = 0xFFFF then s.trc.dropped else s.trc.dropped + 1)))
/-! ### The block as a whole -/

/-- A step runs the command at the front of the queue with the queue's rest, and a command put in front is the one that runs next. The table
gives no row any bits, so no word spells a command and none is put in front. With no command waiting the block idles, which is the model's choice (assumption log 2). -/
def Obligations.StepRunsTheFrontCommand : Prop :=
  (∀ (s : State) (c : Instr) (rest : List Instr), s.pending = c :: rest → step s = exec c { s with pending := rest }) ∧
  (∀ (s : State) (c : Instr), step (s.withCommand c) = exec c s) ∧
  (∀ (s : State) (nbits w : Nat), decodeTableWord nbits w = none ∧ s.withFetchWord nbits w = s) ∧
  (∀ (s : State), s.pending = [] → step s = .next s)

/-- 16 R556; 19 R645, R647; 08 R353; 06 R233; 01 R37; 18 R631: right after reset the sled is OFF with nothing waiting, its registers hold the
values of the register index, every queue is DISABLED, every region ID is FREED, and the Event Ring and the trace buffer are empty. The
memory lists nothing: an unlisted byte reads 0, which is the model's choice (assumption log 7). -/
def Obligations.ResetHoldsTheStatedValues : Prop :=
  State.reset.sled.st = .off ∧ State.reset.pending = [] ∧ State.reset.out = [] ∧ State.reset.evt.ring = [] ∧ State.reset.trc.buf = [] ∧
  (∀ h q, State.reset.queue h q = .reset) ∧ Queue.reset.st = .disabled ∧ Queue.reset.cfgWord = 0x00000800642001E8 ∧
  Queue.reset.sqbase = 0 ∧ Queue.reset.cqbase = 0 ∧ (∀ r, (State.reset.ent r).st = .freed ∧ (State.reset.ent r).gen = 0) ∧
  (∀ h, (State.reset.reader h).minsev = 3 ∧ (State.reset.reader h).notify = true ∧ (State.reset.reader h).lost = 0) ∧
  (∀ n, n < 8 → State.reset.regRead (8 * n) = 0x04102002 ∧ State.reset.regRead (0x2000 + 16 * n) = BitVec.ofNat 64 (1 + 4 * n)) ∧
  (∀ n, n < 25 → State.reset.regRead (0x10000 + 8 * n) = 0) ∧ State.reset.regRead 0x20000 = 0x00040D46 ∧ State.reset.regRead 0x20028 = 0 ∧
  (∀ n, n < 21 → State.reset.regRead (0x20100 + 8 * n) = (if n < 12 then 0x8C else if n < 16 then 0x3C else if n < 20 then 0x50 else 0xC8) ∧
    State.reset.regRead (0x20200 + 8 * n) = 0) ∧
  (∀ n, n < 384 → State.reset.regRead (0x40000 + 0x100 * n) = 0x800 ∧ State.reset.regRead (0x40010 + 0x100 * n) = 0 ∧
    State.reset.regRead (0x40018 + 0x100 * n) = 0) ∧
  State.reset.regRead 0x58000 = 0x0FA001E0014000A0 ∧ State.reset.regRead 0x58008 = 0x00043219 ∧ State.reset.regRead 0x58010 = 0x01180100 ∧
  State.reset.regRead 0x90000 = 4 ∧ State.reset.regRead 0x90010 = 0 ∧ State.reset.regRead 0x90018 = 0 ∧ State.reset.regRead 0x90020 = 3 ∧
  (∀ n, n < 16 → State.reset.regRead (0xA0000 + 0x20 * n) = (if n < 4 then 0x00030064 else 0x000301F4)) ∧
  State.reset.regRead 0xB0000 = 0x19 ∧ State.reset.regRead 0xB0008 = 0xFFFFFFFFFFFFFFFF ∧ State.reset.regRead 0xB0010 = 0 ∧
  State.reset.regRead 0xB0018 = 0 ∧ State.reset.regRead 0xB0020 = 0 ∧ State.reset.regRead 0xC0010 = 0x18 ∧
  State.reset.regRead 0xD0000 = 0x140 ∧ State.reset.regRead 0xD0008 = 0xFFFFFFFFFFFFFFFF ∧ State.reset.regRead 0xD0010 = 0 ∧
  (∀ k, k < 32768 → State.reset.trcSlot k = (0, 0xFF)) ∧
  MemSafe State.reset ∧ RingSafe State.reset ∧ TraceSafe State.reset

/-- 03 R110 with 02 R59: stored bytes are one canonical table, so that equal contents are equal data; every step keeps that form. -/
def Obligations.EveryStepKeepsMemoryCanonical : Prop :=
  ∀ (s t : State), MemSafe s → step s = .next t → MemSafe t

/-- 01 R37 and 14 R495 with 18 R619: the Event Ring never holds more than 2,048 records nor more than were posted, and the trace pointer and
count stay within the 32,768 slots, whatever command runs. -/
def Obligations.EveryStepKeepsTheRingAndTheTraceInBounds : Prop :=
  (∀ (s t : State), RingSafe s → step s = .next t → RingSafe t) ∧
  (∀ (s t : State), TraceSafe s → step s = .next t → TraceSafe t)

/-- No command reaches the queue of waiting commands, changes what the sled is, or takes back what it has sent. -/
def Obligations.CommandsLeaveTheQueueTheIdentityAndTheOutput : Prop :=
  ∀ (c : Instr) (s t : State), exec c s = .next t → t.pending = s.pending ∧ t.id = s.id ∧ ∃ sent, t.out = sent ++ s.out

/-- 02 R57 to R59: the fields of a Segment Map Entry and its word agree both ways, every state has its own code, and an entry put at a
location names that location as its home and no other, with its codec, size, pin and age kept. -/
def Obligations.SegmentMapEntriesSpellTheirHomes : Prop :=
  (∀ e : Sme, e.f.word = e.w0) ∧ (∀ (f : SmeF) (w : W64), Sme.f ⟨f.word, w⟩ = f) ∧
  (∀ st : SegSt, segSt st.code = st) ∧ (∀ b : BitVec 3, (segSt b).code = b) ∧
  (∀ (e : Sme) (spr : Bool) (a : Nat), a < 2 ^ 32 → (e.at (.near spr a)).home = some (.near spr a) ∧
    ((e.at (.near spr a)).st = .opn ↔ e.f.codec = 2) ∧ ((e.at (.near spr a)).st = .packed ↔ e.f.codec ≠ 2)) ∧
  (∀ (e : Sme) (f sec : Nat), f < 2 ^ 40 → sec < 64 → (e.at (.flash f sec)).home = some (.flash f sec) ∧ (e.at (.flash f sec)).st = .lake) ∧
  (∀ (e : Sme) (w sec : Nat), w < 4096 → sec < 2 ^ 40 → (e.at (.tarn w sec)).home = some (.tarn w sec) ∧ (e.at (.tarn w sec)).st = .tarn) ∧
  (∀ (e : Sme) (l : Loc), (e.at l).image = none ∧ (e.at l).cs = e.cs ∧ (e.at l).f.codec = e.f.codec ∧ (e.at l).f.pin = e.f.pin ∧
    (e.at l).f.age = e.f.age)
end

