-- ==== Sys2Proof/Laws/Tbl.lean ====
section
/-! SUPPORT. What a table holds after it is written (every table of State). -/

namespace Sys2Proof.Machine

@[simp] theorem Tbl.find_put_same {α : Type} (t : Tbl α) (n : Nat) (x : α) : (t.put n x).find n = some x := by
  induction t with
  | nil => simp [Tbl.put, Tbl.find]
  | cons p t ih =>
    obtain ⟨k, v⟩ := p
    simp only [Tbl.put]
    split_ifs with h1 h2 <;> simp_all [Tbl.find]

theorem Tbl.find_put_ne {α : Type} (t : Tbl α) {n m : Nat} (x : α) (h : m ≠ n) : (t.put n x).find m = t.find m := by
  induction t with
  | nil => simp [Tbl.put, Tbl.find, Ne.symm h]
  | cons p t ih =>
    obtain ⟨k, v⟩ := p
    simp only [Tbl.put]
    split_ifs with h1 h2
    · simp [Tbl.find, Ne.symm h]
    · subst h2; simp [Tbl.find, Ne.symm h]
    · simp only [Tbl.find, ih]

theorem Tbl.find_filter_ne {α : Type} (t : Tbl α) (n m : Nat) :
    Tbl.find (List.filter (fun p => p.1 != n) t) m = if m = n then none else t.find m := by
  induction t with
  | nil => simp [Tbl.find]
  | cons p t ih =>
    obtain ⟨k, v⟩ := p
    by_cases hk : k = n
    · subst hk
      simp only [List.filter, bne_self_eq_false, ih, Tbl.find]
      split_ifs <;> simp_all
    · simp only [List.filter, bne_iff_ne.mpr hk, Tbl.find, ih]
      split_ifs <;> simp_all

@[simp] theorem Tbl.find_del_same {α : Type} (t : Tbl α) (n : Nat) : (t.del n).find n = none := by
  simp [Tbl.del, Tbl.find_filter_ne]

theorem Tbl.find_del_ne {α : Type} (t : Tbl α) {n m : Nat} (h : m ≠ n) : (t.del n).find m = t.find m := by
  simp [Tbl.del, Tbl.find_filter_ne, h]

/-- What a table listed without its default reads as after a write. -/
@[simp] theorem Tbl.getD_set_same {α : Type} [DecidableEq α] (t : Tbl α) (n : Nat) (d x : α) : (t.set n d x).getD n d = x := by
  unfold Tbl.set Tbl.getD
  split_ifs with h
  · simp [h]
  · simp

theorem Tbl.getD_set_ne {α : Type} [DecidableEq α] (t : Tbl α) {n m : Nat} (d x e : α) (h : m ≠ n) :
    (t.set n d x).getD m e = t.getD m e := by
  unfold Tbl.set Tbl.getD
  split_ifs
  · rw [Tbl.find_del_ne t h]
  · rw [Tbl.find_put_ne t x h]

@[simp] theorem Tbl.getD_put_same {α : Type} (t : Tbl α) (n : Nat) (d x : α) : (t.put n x).getD n d = x := by
  simp [Tbl.getD]

theorem Tbl.getD_put_ne {α : Type} (t : Tbl α) {n m : Nat} (d x : α) (h : m ≠ n) : (t.put n x).getD m d = t.getD m d := by
  simp [Tbl.getD, Tbl.find_put_ne t x h]

theorem Tbl.find_mem {α : Type} {t : Tbl α} {n : Nat} {v : α} (h : t.find n = some v) : (n, v) ∈ t := by
  induction t with
  | nil => cases h
  | cons p t ih =>
    obtain ⟨k, w⟩ := p
    simp only [Tbl.find] at h
    split at h
    · cases h; simp_all
    · exact List.mem_cons_of_mem _ (ih h)

/-- An entry changed in place leaves every other entry and the set of keys. -/
theorem Tbl.find_upd {α : Type} (t : Tbl α) (n m : Nat) (f : α → α) :
    (t.upd n f).find m = if m = n then (t.find n).map f else t.find m := by
  unfold Tbl.upd
  cases h : t.find n with
  | none => by_cases hm : m = n <;> simp [hm, h]
  | some v =>
    by_cases hm : m = n
    · simp [hm]
    · simp [hm, Tbl.find_put_ne t _ hm]

end Sys2Proof.Machine
end

