-- ==== Sys2Proof/Laws/State.lean ====
section
/-! SUPPORT. What each update of one field of State leaves: one lemma per field, true by unfolding, so that no later proof unfolds a record
update; then what the updated field reads as. -/

namespace Sys2Proof.Machine

/-! ### `State.send` -/

@[simp] theorem State.send_id (s : State) (o : Output) : (s.send o).id = s.id := rfl
@[simp] theorem State.send_clk (s : State) (o : Output) : (s.send o).clk = s.clk := rfl
@[simp] theorem State.send_sled (s : State) (o : Output) : (s.send o).sled = s.sled := rfl
@[simp] theorem State.send_rt (s : State) (o : Output) : (s.send o).rt = s.rt := rfl
@[simp] theorem State.send_map (s : State) (o : Output) : (s.send o).map = s.map := rfl
@[simp] theorem State.send_mem (s : State) (o : Output) : (s.send o).mem = s.mem := rfl
@[simp] theorem State.send_dir (s : State) (o : Output) : (s.send o).dir = s.dir := rfl
@[simp] theorem State.send_pond (s : State) (o : Output) : (s.send o).pond = s.pond := rfl
@[simp] theorem State.send_lake (s : State) (o : Output) : (s.send o).lake = s.lake := rfl
@[simp] theorem State.send_ports (s : State) (o : Output) : (s.send o).ports = s.ports := rfl
@[simp] theorem State.send_q (s : State) (o : Output) : (s.send o).q = s.q := rfl
@[simp] theorem State.send_lamp (s : State) (o : Output) : (s.send o).lamp = s.lamp := rfl
@[simp] theorem State.send_pwr (s : State) (o : Output) : (s.send o).pwr = s.pwr := rfl
@[simp] theorem State.send_evt (s : State) (o : Output) : (s.send o).evt = s.evt := rfl
@[simp] theorem State.send_wd (s : State) (o : Output) : (s.send o).wd = s.wd := rfl
@[simp] theorem State.send_fw (s : State) (o : Output) : (s.send o).fw = s.fw := rfl
@[simp] theorem State.send_chn (s : State) (o : Output) : (s.send o).chn = s.chn := rfl
@[simp] theorem State.send_mgt (s : State) (o : Output) : (s.send o).mgt = s.mgt := rfl
@[simp] theorem State.send_trc (s : State) (o : Output) : (s.send o).trc = s.trc := rfl
@[simp] theorem State.send_pending (s : State) (o : Output) : (s.send o).pending = s.pending := rfl

/-! ### `State.setFn` -/

@[simp] theorem State.setFn_id (s : State) (h : HostId) (f : Fn) : (s.setFn h f).id = s.id := rfl
@[simp] theorem State.setFn_clk (s : State) (h : HostId) (f : Fn) : (s.setFn h f).clk = s.clk := rfl
@[simp] theorem State.setFn_sled (s : State) (h : HostId) (f : Fn) : (s.setFn h f).sled = s.sled := rfl
@[simp] theorem State.setFn_rt (s : State) (h : HostId) (f : Fn) : (s.setFn h f).rt = s.rt := rfl
@[simp] theorem State.setFn_map (s : State) (h : HostId) (f : Fn) : (s.setFn h f).map = s.map := rfl
@[simp] theorem State.setFn_mem (s : State) (h : HostId) (f : Fn) : (s.setFn h f).mem = s.mem := rfl
@[simp] theorem State.setFn_dir (s : State) (h : HostId) (f : Fn) : (s.setFn h f).dir = s.dir := rfl
@[simp] theorem State.setFn_pond (s : State) (h : HostId) (f : Fn) : (s.setFn h f).pond = s.pond := rfl
@[simp] theorem State.setFn_lake (s : State) (h : HostId) (f : Fn) : (s.setFn h f).lake = s.lake := rfl
@[simp] theorem State.setFn_ports_cfg (s : State) (h : HostId) (f : Fn) : (s.setFn h f).ports.cfg = s.ports.cfg := rfl
@[simp] theorem State.setFn_ports_bifur (s : State) (h : HostId) (f : Fn) : (s.setFn h f).ports.bifur = s.ports.bifur := rfl
@[simp] theorem State.setFn_ports_half (s : State) (h : HostId) (f : Fn) : (s.setFn h f).ports.half = s.ports.half := rfl
@[simp] theorem State.setFn_ports_bind (s : State) (h : HostId) (f : Fn) : (s.setFn h f).ports.bind = s.ports.bind := rfl
@[simp] theorem State.setFn_ports_perst (s : State) (h : HostId) (f : Fn) : (s.setFn h f).ports.perst = s.ports.perst := rfl
@[simp] theorem State.setFn_ports_streams (s : State) (h : HostId) (f : Fn) : (s.setFn h f).ports.streams = s.ports.streams := rfl
@[simp] theorem State.setFn_ports_runs (s : State) (h : HostId) (f : Fn) : (s.setFn h f).ports.runs = s.ports.runs := rfl
@[simp] theorem State.setFn_ports_dcLog (s : State) (h : HostId) (f : Fn) : (s.setFn h f).ports.dcLog = s.ports.dcLog := rfl
@[simp] theorem State.setFn_ports_stopStores (s : State) (h : HostId) (f : Fn) : (s.setFn h f).ports.stopStores = s.ports.stopStores := rfl
@[simp] theorem State.setFn_ports_unmappedAt (s : State) (h : HostId) (f : Fn) : (s.setFn h f).ports.unmappedAt = s.ports.unmappedAt := rfl
@[simp] theorem State.setFn_ports_unboundAt (s : State) (h : HostId) (f : Fn) : (s.setFn h f).ports.unboundAt = s.ports.unboundAt := rfl
@[simp] theorem State.setFn_ports_pmoves (s : State) (h : HostId) (f : Fn) : (s.setFn h f).ports.pmoves = s.ports.pmoves := rfl
@[simp] theorem State.setFn_ports_pwait (s : State) (h : HostId) (f : Fn) : (s.setFn h f).ports.pwait = s.ports.pwait := rfl
@[simp] theorem State.setFn_ports_resets (s : State) (h : HostId) (f : Fn) : (s.setFn h f).ports.resets = s.ports.resets := rfl
@[simp] theorem State.setFn_ports_np (s : State) (h : HostId) (f : Fn) : (s.setFn h f).ports.np = s.ports.np := rfl
@[simp] theorem State.setFn_ports_npNo (s : State) (h : HostId) (f : Fn) : (s.setFn h f).ports.npNo = s.ports.npNo := rfl
@[simp] theorem State.setFn_q (s : State) (h : HostId) (f : Fn) : (s.setFn h f).q = s.q := rfl
@[simp] theorem State.setFn_lamp (s : State) (h : HostId) (f : Fn) : (s.setFn h f).lamp = s.lamp := rfl
@[simp] theorem State.setFn_pwr (s : State) (h : HostId) (f : Fn) : (s.setFn h f).pwr = s.pwr := rfl
@[simp] theorem State.setFn_evt (s : State) (h : HostId) (f : Fn) : (s.setFn h f).evt = s.evt := rfl
@[simp] theorem State.setFn_wd (s : State) (h : HostId) (f : Fn) : (s.setFn h f).wd = s.wd := rfl
@[simp] theorem State.setFn_fw (s : State) (h : HostId) (f : Fn) : (s.setFn h f).fw = s.fw := rfl
@[simp] theorem State.setFn_chn (s : State) (h : HostId) (f : Fn) : (s.setFn h f).chn = s.chn := rfl
@[simp] theorem State.setFn_mgt (s : State) (h : HostId) (f : Fn) : (s.setFn h f).mgt = s.mgt := rfl
@[simp] theorem State.setFn_trc (s : State) (h : HostId) (f : Fn) : (s.setFn h f).trc = s.trc := rfl
@[simp] theorem State.setFn_out (s : State) (h : HostId) (f : Fn) : (s.setFn h f).out = s.out := rfl
@[simp] theorem State.setFn_pending (s : State) (h : HostId) (f : Fn) : (s.setFn h f).pending = s.pending := rfl

/-! ### `State.setHalf` -/

@[simp] theorem State.setHalf_id (s : State) (n : Nat) (h : Half) : (s.setHalf n h).id = s.id := rfl
@[simp] theorem State.setHalf_clk (s : State) (n : Nat) (h : Half) : (s.setHalf n h).clk = s.clk := rfl
@[simp] theorem State.setHalf_sled (s : State) (n : Nat) (h : Half) : (s.setHalf n h).sled = s.sled := rfl
@[simp] theorem State.setHalf_rt (s : State) (n : Nat) (h : Half) : (s.setHalf n h).rt = s.rt := rfl
@[simp] theorem State.setHalf_map (s : State) (n : Nat) (h : Half) : (s.setHalf n h).map = s.map := rfl
@[simp] theorem State.setHalf_mem (s : State) (n : Nat) (h : Half) : (s.setHalf n h).mem = s.mem := rfl
@[simp] theorem State.setHalf_dir (s : State) (n : Nat) (h : Half) : (s.setHalf n h).dir = s.dir := rfl
@[simp] theorem State.setHalf_pond (s : State) (n : Nat) (h : Half) : (s.setHalf n h).pond = s.pond := rfl
@[simp] theorem State.setHalf_lake (s : State) (n : Nat) (h : Half) : (s.setHalf n h).lake = s.lake := rfl
@[simp] theorem State.setHalf_ports_cfg (s : State) (n : Nat) (h : Half) : (s.setHalf n h).ports.cfg = s.ports.cfg := rfl
@[simp] theorem State.setHalf_ports_bifur (s : State) (n : Nat) (h : Half) : (s.setHalf n h).ports.bifur = s.ports.bifur := rfl
@[simp] theorem State.setHalf_ports_bind (s : State) (n : Nat) (h : Half) : (s.setHalf n h).ports.bind = s.ports.bind := rfl
@[simp] theorem State.setHalf_ports_fn (s : State) (n : Nat) (h : Half) : (s.setHalf n h).ports.fn = s.ports.fn := rfl
@[simp] theorem State.setHalf_ports_perst (s : State) (n : Nat) (h : Half) : (s.setHalf n h).ports.perst = s.ports.perst := rfl
@[simp] theorem State.setHalf_ports_streams (s : State) (n : Nat) (h : Half) : (s.setHalf n h).ports.streams = s.ports.streams := rfl
@[simp] theorem State.setHalf_ports_runs (s : State) (n : Nat) (h : Half) : (s.setHalf n h).ports.runs = s.ports.runs := rfl
@[simp] theorem State.setHalf_ports_dcLog (s : State) (n : Nat) (h : Half) : (s.setHalf n h).ports.dcLog = s.ports.dcLog := rfl
@[simp] theorem State.setHalf_ports_stopStores (s : State) (n : Nat) (h : Half) : (s.setHalf n h).ports.stopStores = s.ports.stopStores := rfl
@[simp] theorem State.setHalf_ports_unmappedAt (s : State) (n : Nat) (h : Half) : (s.setHalf n h).ports.unmappedAt = s.ports.unmappedAt := rfl
@[simp] theorem State.setHalf_ports_unboundAt (s : State) (n : Nat) (h : Half) : (s.setHalf n h).ports.unboundAt = s.ports.unboundAt := rfl
@[simp] theorem State.setHalf_ports_pmoves (s : State) (n : Nat) (h : Half) : (s.setHalf n h).ports.pmoves = s.ports.pmoves := rfl
@[simp] theorem State.setHalf_ports_pwait (s : State) (n : Nat) (h : Half) : (s.setHalf n h).ports.pwait = s.ports.pwait := rfl
@[simp] theorem State.setHalf_ports_resets (s : State) (n : Nat) (h : Half) : (s.setHalf n h).ports.resets = s.ports.resets := rfl
@[simp] theorem State.setHalf_ports_np (s : State) (n : Nat) (h : Half) : (s.setHalf n h).ports.np = s.ports.np := rfl
@[simp] theorem State.setHalf_ports_npNo (s : State) (n : Nat) (h : Half) : (s.setHalf n h).ports.npNo = s.ports.npNo := rfl
@[simp] theorem State.setHalf_q (s : State) (n : Nat) (h : Half) : (s.setHalf n h).q = s.q := rfl
@[simp] theorem State.setHalf_lamp (s : State) (n : Nat) (h : Half) : (s.setHalf n h).lamp = s.lamp := rfl
@[simp] theorem State.setHalf_pwr (s : State) (n : Nat) (h : Half) : (s.setHalf n h).pwr = s.pwr := rfl
@[simp] theorem State.setHalf_evt (s : State) (n : Nat) (h : Half) : (s.setHalf n h).evt = s.evt := rfl
@[simp] theorem State.setHalf_wd (s : State) (n : Nat) (h : Half) : (s.setHalf n h).wd = s.wd := rfl
@[simp] theorem State.setHalf_fw (s : State) (n : Nat) (h : Half) : (s.setHalf n h).fw = s.fw := rfl
@[simp] theorem State.setHalf_chn (s : State) (n : Nat) (h : Half) : (s.setHalf n h).chn = s.chn := rfl
@[simp] theorem State.setHalf_trc (s : State) (n : Nat) (h : Half) : (s.setHalf n h).trc = s.trc := rfl
@[simp] theorem State.setHalf_out (s : State) (n : Nat) (h : Half) : (s.setHalf n h).out = s.out := rfl
@[simp] theorem State.setHalf_pending (s : State) (n : Nat) (h : Half) : (s.setHalf n h).pending = s.pending := rfl

/-! ### `State.setEnt` -/

@[simp] theorem State.setEnt_id (s : State) (r : RegionId) (e : REnt) : (s.setEnt r e).id = s.id := rfl
@[simp] theorem State.setEnt_clk (s : State) (r : RegionId) (e : REnt) : (s.setEnt r e).clk = s.clk := rfl
@[simp] theorem State.setEnt_sled (s : State) (r : RegionId) (e : REnt) : (s.setEnt r e).sled = s.sled := rfl
@[simp] theorem State.setEnt_rt_slots (s : State) (r : RegionId) (e : REnt) : (s.setEnt r e).rt.slots = s.rt.slots := rfl
@[simp] theorem State.setEnt_rt_grants (s : State) (r : RegionId) (e : REnt) : (s.setEnt r e).rt.grants = s.rt.grants := rfl
@[simp] theorem State.setEnt_rt_offers (s : State) (r : RegionId) (e : REnt) : (s.setEnt r e).rt.offers = s.rt.offers := rfl
@[simp] theorem State.setEnt_rt_gone (s : State) (r : RegionId) (e : REnt) : (s.setEnt r e).rt.gone = s.rt.gone := rfl
@[simp] theorem State.setEnt_rt_revokes (s : State) (r : RegionId) (e : REnt) : (s.setEnt r e).rt.revokes = s.rt.revokes := rfl
@[simp] theorem State.setEnt_rt_windows (s : State) (r : RegionId) (e : REnt) : (s.setEnt r e).rt.windows = s.rt.windows := rfl
@[simp] theorem State.setEnt_rt_epochs (s : State) (r : RegionId) (e : REnt) : (s.setEnt r e).rt.epochs = s.rt.epochs := rfl
@[simp] theorem State.setEnt_rt_peers (s : State) (r : RegionId) (e : REnt) : (s.setEnt r e).rt.peers = s.rt.peers := rfl
@[simp] theorem State.setEnt_rt_tsets (s : State) (r : RegionId) (e : REnt) : (s.setEnt r e).rt.tsets = s.rt.tsets := rfl
@[simp] theorem State.setEnt_rt_stalled (s : State) (r : RegionId) (e : REnt) : (s.setEnt r e).rt.stalled = s.rt.stalled := rfl
@[simp] theorem State.setEnt_rt_drains (s : State) (r : RegionId) (e : REnt) : (s.setEnt r e).rt.drains = s.rt.drains := rfl
@[simp] theorem State.setEnt_rt_evac (s : State) (r : RegionId) (e : REnt) : (s.setEnt r e).rt.evac = s.rt.evac := rfl
@[simp] theorem State.setEnt_rt_releasing (s : State) (r : RegionId) (e : REnt) : (s.setEnt r e).rt.releasing = s.rt.releasing := rfl
@[simp] theorem State.setEnt_rt_cnt (s : State) (r : RegionId) (e : REnt) : (s.setEnt r e).rt.cnt = s.rt.cnt := rfl
@[simp] theorem State.setEnt_rt_born (s : State) (r : RegionId) (e : REnt) : (s.setEnt r e).rt.born = s.rt.born := rfl
@[simp] theorem State.setEnt_rt_roAt (s : State) (r : RegionId) (e : REnt) : (s.setEnt r e).rt.roAt = s.rt.roAt := rfl
@[simp] theorem State.setEnt_rt_pwAt (s : State) (r : RegionId) (e : REnt) : (s.setEnt r e).rt.pwAt = s.rt.pwAt := rfl
@[simp] theorem State.setEnt_map (s : State) (r : RegionId) (e : REnt) : (s.setEnt r e).map = s.map := rfl
@[simp] theorem State.setEnt_mem (s : State) (r : RegionId) (e : REnt) : (s.setEnt r e).mem = s.mem := rfl
@[simp] theorem State.setEnt_dir (s : State) (r : RegionId) (e : REnt) : (s.setEnt r e).dir = s.dir := rfl
@[simp] theorem State.setEnt_pond (s : State) (r : RegionId) (e : REnt) : (s.setEnt r e).pond = s.pond := rfl
@[simp] theorem State.setEnt_lake (s : State) (r : RegionId) (e : REnt) : (s.setEnt r e).lake = s.lake := rfl
@[simp] theorem State.setEnt_ports (s : State) (r : RegionId) (e : REnt) : (s.setEnt r e).ports = s.ports := rfl
@[simp] theorem State.setEnt_q (s : State) (r : RegionId) (e : REnt) : (s.setEnt r e).q = s.q := rfl
@[simp] theorem State.setEnt_lamp (s : State) (r : RegionId) (e : REnt) : (s.setEnt r e).lamp = s.lamp := rfl
@[simp] theorem State.setEnt_pwr (s : State) (r : RegionId) (e : REnt) : (s.setEnt r e).pwr = s.pwr := rfl
@[simp] theorem State.setEnt_evt (s : State) (r : RegionId) (e : REnt) : (s.setEnt r e).evt = s.evt := rfl
@[simp] theorem State.setEnt_wd (s : State) (r : RegionId) (e : REnt) : (s.setEnt r e).wd = s.wd := rfl
@[simp] theorem State.setEnt_fw (s : State) (r : RegionId) (e : REnt) : (s.setEnt r e).fw = s.fw := rfl
@[simp] theorem State.setEnt_chn (s : State) (r : RegionId) (e : REnt) : (s.setEnt r e).chn = s.chn := rfl
@[simp] theorem State.setEnt_mgt (s : State) (r : RegionId) (e : REnt) : (s.setEnt r e).mgt = s.mgt := rfl
@[simp] theorem State.setEnt_trc (s : State) (r : RegionId) (e : REnt) : (s.setEnt r e).trc = s.trc := rfl
@[simp] theorem State.setEnt_out (s : State) (r : RegionId) (e : REnt) : (s.setEnt r e).out = s.out := rfl
@[simp] theorem State.setEnt_pending (s : State) (r : RegionId) (e : REnt) : (s.setEnt r e).pending = s.pending := rfl

/-! ### `State.setReader` -/

@[simp] theorem State.setReader_id (s : State) (h : HostId) (r : Reader) : (s.setReader h r).id = s.id := rfl
@[simp] theorem State.setReader_clk (s : State) (h : HostId) (r : Reader) : (s.setReader h r).clk = s.clk := rfl
@[simp] theorem State.setReader_sled (s : State) (h : HostId) (r : Reader) : (s.setReader h r).sled = s.sled := rfl
@[simp] theorem State.setReader_rt (s : State) (h : HostId) (r : Reader) : (s.setReader h r).rt = s.rt := rfl
@[simp] theorem State.setReader_map (s : State) (h : HostId) (r : Reader) : (s.setReader h r).map = s.map := rfl
@[simp] theorem State.setReader_mem (s : State) (h : HostId) (r : Reader) : (s.setReader h r).mem = s.mem := rfl
@[simp] theorem State.setReader_dir (s : State) (h : HostId) (r : Reader) : (s.setReader h r).dir = s.dir := rfl
@[simp] theorem State.setReader_pond (s : State) (h : HostId) (r : Reader) : (s.setReader h r).pond = s.pond := rfl
@[simp] theorem State.setReader_lake (s : State) (h : HostId) (r : Reader) : (s.setReader h r).lake = s.lake := rfl
@[simp] theorem State.setReader_ports (s : State) (h : HostId) (r : Reader) : (s.setReader h r).ports = s.ports := rfl
@[simp] theorem State.setReader_q (s : State) (h : HostId) (r : Reader) : (s.setReader h r).q = s.q := rfl
@[simp] theorem State.setReader_lamp (s : State) (h : HostId) (r : Reader) : (s.setReader h r).lamp = s.lamp := rfl
@[simp] theorem State.setReader_pwr (s : State) (h : HostId) (r : Reader) : (s.setReader h r).pwr = s.pwr := rfl
@[simp] theorem State.setReader_evt_ring (s : State) (h : HostId) (r : Reader) : (s.setReader h r).evt.ring = s.evt.ring := rfl
@[simp] theorem State.setReader_evt_prod (s : State) (h : HostId) (r : Reader) : (s.setReader h r).evt.prod = s.evt.prod := rfl
@[simp] theorem State.setReader_evt_mgmt (s : State) (h : HostId) (r : Reader) : (s.setReader h r).evt.mgmt = s.evt.mgmt := rfl
@[simp] theorem State.setReader_evt_fmap (s : State) (h : HostId) (r : Reader) : (s.setReader h r).evt.fmap = s.evt.fmap := rfl
@[simp] theorem State.setReader_evt_recov (s : State) (h : HostId) (r : Reader) : (s.setReader h r).evt.recov = s.evt.recov := rfl
@[simp] theorem State.setReader_evt_advised (s : State) (h : HostId) (r : Reader) : (s.setReader h r).evt.advised = s.evt.advised := rfl
@[simp] theorem State.setReader_wd (s : State) (h : HostId) (r : Reader) : (s.setReader h r).wd = s.wd := rfl
@[simp] theorem State.setReader_fw (s : State) (h : HostId) (r : Reader) : (s.setReader h r).fw = s.fw := rfl
@[simp] theorem State.setReader_chn (s : State) (h : HostId) (r : Reader) : (s.setReader h r).chn = s.chn := rfl
@[simp] theorem State.setReader_mgt (s : State) (h : HostId) (r : Reader) : (s.setReader h r).mgt = s.mgt := rfl
@[simp] theorem State.setReader_trc (s : State) (h : HostId) (r : Reader) : (s.setReader h r).trc = s.trc := rfl
@[simp] theorem State.setReader_out (s : State) (h : HostId) (r : Reader) : (s.setReader h r).out = s.out := rfl
@[simp] theorem State.setReader_pending (s : State) (h : HostId) (r : Reader) : (s.setReader h r).pending = s.pending := rfl

/-! ### `State.setQueue` -/

@[simp] theorem State.setQueue_id (s : State) (h : HostId) (k : QueueNo) (x : Queue) : (s.setQueue h k x).id = s.id := rfl
@[simp] theorem State.setQueue_clk (s : State) (h : HostId) (k : QueueNo) (x : Queue) : (s.setQueue h k x).clk = s.clk := rfl
@[simp] theorem State.setQueue_sled (s : State) (h : HostId) (k : QueueNo) (x : Queue) : (s.setQueue h k x).sled = s.sled := rfl
@[simp] theorem State.setQueue_rt (s : State) (h : HostId) (k : QueueNo) (x : Queue) : (s.setQueue h k x).rt = s.rt := rfl
@[simp] theorem State.setQueue_map (s : State) (h : HostId) (k : QueueNo) (x : Queue) : (s.setQueue h k x).map = s.map := rfl
@[simp] theorem State.setQueue_mem (s : State) (h : HostId) (k : QueueNo) (x : Queue) : (s.setQueue h k x).mem = s.mem := rfl
@[simp] theorem State.setQueue_dir (s : State) (h : HostId) (k : QueueNo) (x : Queue) : (s.setQueue h k x).dir = s.dir := rfl
@[simp] theorem State.setQueue_pond (s : State) (h : HostId) (k : QueueNo) (x : Queue) : (s.setQueue h k x).pond = s.pond := rfl
@[simp] theorem State.setQueue_lake (s : State) (h : HostId) (k : QueueNo) (x : Queue) : (s.setQueue h k x).lake = s.lake := rfl
@[simp] theorem State.setQueue_ports (s : State) (h : HostId) (k : QueueNo) (x : Queue) : (s.setQueue h k x).ports = s.ports := rfl
@[simp] theorem State.setQueue_q_progs (s : State) (h : HostId) (k : QueueNo) (x : Queue) : (s.setQueue h k x).q.progs = s.q.progs := rfl
@[simp] theorem State.setQueue_q_progNo (s : State) (h : HostId) (k : QueueNo) (x : Queue) : (s.setQueue h k x).q.progNo = s.q.progNo := rfl
@[simp] theorem State.setQueue_q_ops (s : State) (h : HostId) (k : QueueNo) (x : Queue) : (s.setQueue h k x).q.ops = s.q.ops := rfl
@[simp] theorem State.setQueue_q_opNo (s : State) (h : HostId) (k : QueueNo) (x : Queue) : (s.setQueue h k x).q.opNo = s.q.opNo := rfl
@[simp] theorem State.setQueue_q_sig (s : State) (h : HostId) (k : QueueNo) (x : Queue) : (s.setQueue h k x).q.sig = s.q.sig := rfl
@[simp] theorem State.setQueue_q_dispatching (s : State) (h : HostId) (k : QueueNo) (x : Queue) : (s.setQueue h k x).q.dispatching = s.q.dispatching := rfl
@[simp] theorem State.setQueue_q_lastStart (s : State) (h : HostId) (k : QueueNo) (x : Queue) : (s.setQueue h k x).q.lastStart = s.q.lastStart := rfl
@[simp] theorem State.setQueue_q_idle (s : State) (h : HostId) (k : QueueNo) (x : Queue) : (s.setQueue h k x).q.idle = s.q.idle := rfl
@[simp] theorem State.setQueue_q_freeNo (s : State) (h : HostId) (k : QueueNo) (x : Queue) : (s.setQueue h k x).q.freeNo = s.q.freeNo := rfl
@[simp] theorem State.setQueue_lamp (s : State) (h : HostId) (k : QueueNo) (x : Queue) : (s.setQueue h k x).lamp = s.lamp := rfl
@[simp] theorem State.setQueue_pwr (s : State) (h : HostId) (k : QueueNo) (x : Queue) : (s.setQueue h k x).pwr = s.pwr := rfl
@[simp] theorem State.setQueue_evt (s : State) (h : HostId) (k : QueueNo) (x : Queue) : (s.setQueue h k x).evt = s.evt := rfl
@[simp] theorem State.setQueue_wd (s : State) (h : HostId) (k : QueueNo) (x : Queue) : (s.setQueue h k x).wd = s.wd := rfl
@[simp] theorem State.setQueue_fw (s : State) (h : HostId) (k : QueueNo) (x : Queue) : (s.setQueue h k x).fw = s.fw := rfl
@[simp] theorem State.setQueue_chn (s : State) (h : HostId) (k : QueueNo) (x : Queue) : (s.setQueue h k x).chn = s.chn := rfl
@[simp] theorem State.setQueue_mgt (s : State) (h : HostId) (k : QueueNo) (x : Queue) : (s.setQueue h k x).mgt = s.mgt := rfl
@[simp] theorem State.setQueue_trc (s : State) (h : HostId) (k : QueueNo) (x : Queue) : (s.setQueue h k x).trc = s.trc := rfl
@[simp] theorem State.setQueue_out (s : State) (h : HostId) (k : QueueNo) (x : Queue) : (s.setQueue h k x).out = s.out := rfl
@[simp] theorem State.setQueue_pending (s : State) (h : HostId) (k : QueueNo) (x : Queue) : (s.setQueue h k x).pending = s.pending := rfl

/-! ### `State.setProg` -/

@[simp] theorem State.setProg_id (s : State) (p : Nat) (x : Prog) : (s.setProg p x).id = s.id := rfl
@[simp] theorem State.setProg_clk (s : State) (p : Nat) (x : Prog) : (s.setProg p x).clk = s.clk := rfl
@[simp] theorem State.setProg_sled (s : State) (p : Nat) (x : Prog) : (s.setProg p x).sled = s.sled := rfl
@[simp] theorem State.setProg_rt (s : State) (p : Nat) (x : Prog) : (s.setProg p x).rt = s.rt := rfl
@[simp] theorem State.setProg_map (s : State) (p : Nat) (x : Prog) : (s.setProg p x).map = s.map := rfl
@[simp] theorem State.setProg_mem (s : State) (p : Nat) (x : Prog) : (s.setProg p x).mem = s.mem := rfl
@[simp] theorem State.setProg_dir (s : State) (p : Nat) (x : Prog) : (s.setProg p x).dir = s.dir := rfl
@[simp] theorem State.setProg_pond (s : State) (p : Nat) (x : Prog) : (s.setProg p x).pond = s.pond := rfl
@[simp] theorem State.setProg_lake (s : State) (p : Nat) (x : Prog) : (s.setProg p x).lake = s.lake := rfl
@[simp] theorem State.setProg_ports (s : State) (p : Nat) (x : Prog) : (s.setProg p x).ports = s.ports := rfl
@[simp] theorem State.setProg_q_qs (s : State) (p : Nat) (x : Prog) : (s.setProg p x).q.qs = s.q.qs := rfl
@[simp] theorem State.setProg_q_progNo (s : State) (p : Nat) (x : Prog) : (s.setProg p x).q.progNo = s.q.progNo := rfl
@[simp] theorem State.setProg_q_ops (s : State) (p : Nat) (x : Prog) : (s.setProg p x).q.ops = s.q.ops := rfl
@[simp] theorem State.setProg_q_opNo (s : State) (p : Nat) (x : Prog) : (s.setProg p x).q.opNo = s.q.opNo := rfl
@[simp] theorem State.setProg_q_sig (s : State) (p : Nat) (x : Prog) : (s.setProg p x).q.sig = s.q.sig := rfl
@[simp] theorem State.setProg_q_dispatching (s : State) (p : Nat) (x : Prog) : (s.setProg p x).q.dispatching = s.q.dispatching := rfl
@[simp] theorem State.setProg_q_lastStart (s : State) (p : Nat) (x : Prog) : (s.setProg p x).q.lastStart = s.q.lastStart := rfl
@[simp] theorem State.setProg_q_idle (s : State) (p : Nat) (x : Prog) : (s.setProg p x).q.idle = s.q.idle := rfl
@[simp] theorem State.setProg_q_freeNo (s : State) (p : Nat) (x : Prog) : (s.setProg p x).q.freeNo = s.q.freeNo := rfl
@[simp] theorem State.setProg_lamp (s : State) (p : Nat) (x : Prog) : (s.setProg p x).lamp = s.lamp := rfl
@[simp] theorem State.setProg_pwr (s : State) (p : Nat) (x : Prog) : (s.setProg p x).pwr = s.pwr := rfl
@[simp] theorem State.setProg_evt (s : State) (p : Nat) (x : Prog) : (s.setProg p x).evt = s.evt := rfl
@[simp] theorem State.setProg_wd (s : State) (p : Nat) (x : Prog) : (s.setProg p x).wd = s.wd := rfl
@[simp] theorem State.setProg_fw (s : State) (p : Nat) (x : Prog) : (s.setProg p x).fw = s.fw := rfl
@[simp] theorem State.setProg_chn (s : State) (p : Nat) (x : Prog) : (s.setProg p x).chn = s.chn := rfl
@[simp] theorem State.setProg_mgt (s : State) (p : Nat) (x : Prog) : (s.setProg p x).mgt = s.mgt := rfl
@[simp] theorem State.setProg_trc (s : State) (p : Nat) (x : Prog) : (s.setProg p x).trc = s.trc := rfl
@[simp] theorem State.setProg_out (s : State) (p : Nat) (x : Prog) : (s.setProg p x).out = s.out := rfl
@[simp] theorem State.setProg_pending (s : State) (p : Nat) (x : Prog) : (s.setProg p x).pending = s.pending := rfl

/-! ### `State.setLedger` -/

@[simp] theorem State.setLedger_id (s : State) (i : Nat) (e : Entry) : (s.setLedger i e).id = s.id := rfl
@[simp] theorem State.setLedger_clk (s : State) (i : Nat) (e : Entry) : (s.setLedger i e).clk = s.clk := rfl
@[simp] theorem State.setLedger_sled (s : State) (i : Nat) (e : Entry) : (s.setLedger i e).sled = s.sled := rfl
@[simp] theorem State.setLedger_rt (s : State) (i : Nat) (e : Entry) : (s.setLedger i e).rt = s.rt := rfl
@[simp] theorem State.setLedger_map (s : State) (i : Nat) (e : Entry) : (s.setLedger i e).map = s.map := rfl
@[simp] theorem State.setLedger_mem (s : State) (i : Nat) (e : Entry) : (s.setLedger i e).mem = s.mem := rfl
@[simp] theorem State.setLedger_dir (s : State) (i : Nat) (e : Entry) : (s.setLedger i e).dir = s.dir := rfl
@[simp] theorem State.setLedger_pond (s : State) (i : Nat) (e : Entry) : (s.setLedger i e).pond = s.pond := rfl
@[simp] theorem State.setLedger_lake (s : State) (i : Nat) (e : Entry) : (s.setLedger i e).lake = s.lake := rfl
@[simp] theorem State.setLedger_ports (s : State) (i : Nat) (e : Entry) : (s.setLedger i e).ports = s.ports := rfl
@[simp] theorem State.setLedger_q (s : State) (i : Nat) (e : Entry) : (s.setLedger i e).q = s.q := rfl
@[simp] theorem State.setLedger_lamp (s : State) (i : Nat) (e : Entry) : (s.setLedger i e).lamp = s.lamp := rfl
@[simp] theorem State.setLedger_pwr_vin (s : State) (i : Nat) (e : Entry) : (s.setLedger i e).pwr.vin = s.pwr.vin := rfl
@[simp] theorem State.setLedger_pwr_iin (s : State) (i : Nat) (e : Entry) : (s.setLedger i e).pwr.iin = s.pwr.iin := rfl
@[simp] theorem State.setLedger_pwr_pin (s : State) (i : Nat) (e : Entry) : (s.setLedger i e).pwr.pin = s.pwr.pin := rfl
@[simp] theorem State.setLedger_pwr_band (s : State) (i : Nat) (e : Entry) : (s.setLedger i e).pwr.band = s.pwr.band := rfl
@[simp] theorem State.setLedger_pwr_sag (s : State) (i : Nat) (e : Entry) : (s.setLedger i e).pwr.sag = s.pwr.sag := rfl
@[simp] theorem State.setLedger_pwr_ride (s : State) (i : Nat) (e : Entry) : (s.setLedger i e).pwr.ride = s.pwr.ride := rfl
@[simp] theorem State.setLedger_pwr_lowVin (s : State) (i : Nat) (e : Entry) : (s.setLedger i e).pwr.lowVin = s.pwr.lowVin := rfl
@[simp] theorem State.setLedger_pwr_switchOpen (s : State) (i : Nat) (e : Entry) : (s.setLedger i e).pwr.switchOpen = s.pwr.switchOpen := rfl
@[simp] theorem State.setLedger_pwr_cap (s : State) (i : Nat) (e : Entry) : (s.setLedger i e).pwr.cap = s.pwr.cap := rfl
@[simp] theorem State.setLedger_pwr_charge (s : State) (i : Nat) (e : Entry) : (s.setLedger i e).pwr.charge = s.pwr.charge := rfl
@[simp] theorem State.setLedger_pwr_profile (s : State) (i : Nat) (e : Entry) : (s.setLedger i e).pwr.profile = s.pwr.profile := rfl
@[simp] theorem State.setLedger_pwr_switching (s : State) (i : Nat) (e : Entry) : (s.setLedger i e).pwr.switching = s.pwr.switching := rfl
@[simp] theorem State.setLedger_pwr_packMs (s : State) (i : Nat) (e : Entry) : (s.setLedger i e).pwr.packMs = s.pwr.packMs := rfl
@[simp] theorem State.setLedger_pwr_trimUs (s : State) (i : Nat) (e : Entry) : (s.setLedger i e).pwr.trimUs = s.pwr.trimUs := rfl
@[simp] theorem State.setLedger_pwr_bankMs (s : State) (i : Nat) (e : Entry) : (s.setLedger i e).pwr.bankMs = s.pwr.bankMs := rfl
@[simp] theorem State.setLedger_pwr_w1 (s : State) (i : Nat) (e : Entry) : (s.setLedger i e).pwr.w1 = s.pwr.w1 := rfl
@[simp] theorem State.setLedger_pwr_w2 (s : State) (i : Nat) (e : Entry) : (s.setLedger i e).pwr.w2 = s.pwr.w2 := rfl
@[simp] theorem State.setLedger_pwr_w3 (s : State) (i : Nat) (e : Entry) : (s.setLedger i e).pwr.w3 = s.pwr.w3 := rfl
@[simp] theorem State.setLedger_pwr_eMeas (s : State) (i : Nat) (e : Entry) : (s.setLedger i e).pwr.eMeas = s.pwr.eMeas := rfl
@[simp] theorem State.setLedger_pwr_eNow (s : State) (i : Nat) (e : Entry) : (s.setLedger i e).pwr.eNow = s.pwr.eNow := rfl
@[simp] theorem State.setLedger_pwr_measuring (s : State) (i : Nat) (e : Entry) : (s.setLedger i e).pwr.measuring = s.pwr.measuring := rfl
@[simp] theorem State.setLedger_pwr_higher (s : State) (i : Nat) (e : Entry) : (s.setLedger i e).pwr.higher = s.pwr.higher := rfl
@[simp] theorem State.setLedger_pwr_measFails (s : State) (i : Nat) (e : Entry) : (s.setLedger i e).pwr.measFails = s.pwr.measFails := rfl
@[simp] theorem State.setLedger_pwr_weak (s : State) (i : Nat) (e : Entry) : (s.setLedger i e).pwr.weak = s.pwr.weak := rfl
@[simp] theorem State.setLedger_pwr_failed (s : State) (i : Nat) (e : Entry) : (s.setLedger i e).pwr.failed = s.pwr.failed := rfl
@[simp] theorem State.setLedger_pwr_full (s : State) (i : Nat) (e : Entry) : (s.setLedger i e).pwr.full = s.pwr.full := rfl
@[simp] theorem State.setLedger_pwr_budget (s : State) (i : Nat) (e : Entry) : (s.setLedger i e).pwr.budget = s.pwr.budget := rfl
@[simp] theorem State.setLedger_pwr_admission (s : State) (i : Nat) (e : Entry) : (s.setLedger i e).pwr.admission = s.pwr.admission := rfl
@[simp] theorem State.setLedger_pwr_overadmit (s : State) (i : Nat) (e : Entry) : (s.setLedger i e).pwr.overadmit = s.pwr.overadmit := rfl
@[simp] theorem State.setLedger_pwr_wb (s : State) (i : Nat) (e : Entry) : (s.setLedger i e).pwr.wb = s.pwr.wb := rfl
@[simp] theorem State.setLedger_pwr_thr (s : State) (i : Nat) (e : Entry) : (s.setLedger i e).pwr.thr = s.pwr.thr := rfl
@[simp] theorem State.setLedger_pwr_tjw (s : State) (i : Nat) (e : Entry) : (s.setLedger i e).pwr.tjw = s.pwr.tjw := rfl
@[simp] theorem State.setLedger_pwr_tje (s : State) (i : Nat) (e : Entry) : (s.setLedger i e).pwr.tje = s.pwr.tje := rfl
@[simp] theorem State.setLedger_pwr_inlet (s : State) (i : Nat) (e : Entry) : (s.setLedger i e).pwr.inlet = s.pwr.inlet := rfl
@[simp] theorem State.setLedger_pwr_inletHot (s : State) (i : Nat) (e : Entry) : (s.setLedger i e).pwr.inletHot = s.pwr.inletHot := rfl
@[simp] theorem State.setLedger_pwr_tripped (s : State) (i : Nat) (e : Entry) : (s.setLedger i e).pwr.tripped = s.pwr.tripped := rfl
@[simp] theorem State.setLedger_pwr_nandLim (s : State) (i : Nat) (e : Entry) : (s.setLedger i e).pwr.nandLim = s.pwr.nandLim := rfl
@[simp] theorem State.setLedger_pwr_nandT (s : State) (i : Nat) (e : Entry) : (s.setLedger i e).pwr.nandT = s.pwr.nandT := rfl
@[simp] theorem State.setLedger_pwr_rides (s : State) (i : Nat) (e : Entry) : (s.setLedger i e).pwr.rides = s.pwr.rides := rfl
@[simp] theorem State.setLedger_pwr_dusks (s : State) (i : Nat) (e : Entry) : (s.setLedger i e).pwr.dusks = s.pwr.dusks := rfl
@[simp] theorem State.setLedger_pwr_forced (s : State) (i : Nat) (e : Entry) : (s.setLedger i e).pwr.forced = s.pwr.forced := rfl
@[simp] theorem State.setLedger_pwr_throttles (s : State) (i : Nat) (e : Entry) : (s.setLedger i e).pwr.throttles = s.pwr.throttles := rfl
@[simp] theorem State.setLedger_pwr_chipHot (s : State) (i : Nat) (e : Entry) : (s.setLedger i e).pwr.chipHot = s.pwr.chipHot := rfl
@[simp] theorem State.setLedger_pwr_badRead (s : State) (i : Nat) (e : Entry) : (s.setLedger i e).pwr.badRead = s.pwr.badRead := rfl
@[simp] theorem State.setLedger_evt (s : State) (i : Nat) (e : Entry) : (s.setLedger i e).evt = s.evt := rfl
@[simp] theorem State.setLedger_wd (s : State) (i : Nat) (e : Entry) : (s.setLedger i e).wd = s.wd := rfl
@[simp] theorem State.setLedger_fw (s : State) (i : Nat) (e : Entry) : (s.setLedger i e).fw = s.fw := rfl
@[simp] theorem State.setLedger_chn (s : State) (i : Nat) (e : Entry) : (s.setLedger i e).chn = s.chn := rfl
@[simp] theorem State.setLedger_mgt (s : State) (i : Nat) (e : Entry) : (s.setLedger i e).mgt = s.mgt := rfl
@[simp] theorem State.setLedger_trc (s : State) (i : Nat) (e : Entry) : (s.setLedger i e).trc = s.trc := rfl
@[simp] theorem State.setLedger_out (s : State) (i : Nat) (e : Entry) : (s.setLedger i e).out = s.out := rfl
@[simp] theorem State.setLedger_pending (s : State) (i : Nat) (e : Entry) : (s.setLedger i e).pending = s.pending := rfl

/-! ### `State.setSched` -/

@[simp] theorem State.setSched_id (s : State) (k : Nat) (x : Sched) : (s.setSched k x).id = s.id := rfl
@[simp] theorem State.setSched_clk (s : State) (k : Nat) (x : Sched) : (s.setSched k x).clk = s.clk := rfl
@[simp] theorem State.setSched_sled (s : State) (k : Nat) (x : Sched) : (s.setSched k x).sled = s.sled := rfl
@[simp] theorem State.setSched_rt (s : State) (k : Nat) (x : Sched) : (s.setSched k x).rt = s.rt := rfl
@[simp] theorem State.setSched_map (s : State) (k : Nat) (x : Sched) : (s.setSched k x).map = s.map := rfl
@[simp] theorem State.setSched_mem (s : State) (k : Nat) (x : Sched) : (s.setSched k x).mem = s.mem := rfl
@[simp] theorem State.setSched_dir (s : State) (k : Nat) (x : Sched) : (s.setSched k x).dir = s.dir := rfl
@[simp] theorem State.setSched_pond (s : State) (k : Nat) (x : Sched) : (s.setSched k x).pond = s.pond := rfl
@[simp] theorem State.setSched_lake (s : State) (k : Nat) (x : Sched) : (s.setSched k x).lake = s.lake := rfl
@[simp] theorem State.setSched_ports (s : State) (k : Nat) (x : Sched) : (s.setSched k x).ports = s.ports := rfl
@[simp] theorem State.setSched_q (s : State) (k : Nat) (x : Sched) : (s.setSched k x).q = s.q := rfl
@[simp] theorem State.setSched_lamp_stopped (s : State) (k : Nat) (x : Sched) : (s.setSched k x).lamp.stopped = s.lamp.stopped := rfl
@[simp] theorem State.setSched_pwr (s : State) (k : Nat) (x : Sched) : (s.setSched k x).pwr = s.pwr := rfl
@[simp] theorem State.setSched_evt (s : State) (k : Nat) (x : Sched) : (s.setSched k x).evt = s.evt := rfl
@[simp] theorem State.setSched_wd (s : State) (k : Nat) (x : Sched) : (s.setSched k x).wd = s.wd := rfl
@[simp] theorem State.setSched_fw (s : State) (k : Nat) (x : Sched) : (s.setSched k x).fw = s.fw := rfl
@[simp] theorem State.setSched_chn (s : State) (k : Nat) (x : Sched) : (s.setSched k x).chn = s.chn := rfl
@[simp] theorem State.setSched_mgt (s : State) (k : Nat) (x : Sched) : (s.setSched k x).mgt = s.mgt := rfl
@[simp] theorem State.setSched_trc (s : State) (k : Nat) (x : Sched) : (s.setSched k x).trc = s.trc := rfl
@[simp] theorem State.setSched_out (s : State) (k : Nat) (x : Sched) : (s.setSched k x).out = s.out := rfl
@[simp] theorem State.setSched_pending (s : State) (k : Nat) (x : Sched) : (s.setSched k x).pending = s.pending := rfl

/-! ### `State.updSched` -/

@[simp] theorem State.updSched_id (s : State) (k : Nat) (f : Sched → Sched) : (s.updSched k f).id = s.id := rfl
@[simp] theorem State.updSched_clk (s : State) (k : Nat) (f : Sched → Sched) : (s.updSched k f).clk = s.clk := rfl
@[simp] theorem State.updSched_sled (s : State) (k : Nat) (f : Sched → Sched) : (s.updSched k f).sled = s.sled := rfl
@[simp] theorem State.updSched_rt (s : State) (k : Nat) (f : Sched → Sched) : (s.updSched k f).rt = s.rt := rfl
@[simp] theorem State.updSched_map (s : State) (k : Nat) (f : Sched → Sched) : (s.updSched k f).map = s.map := rfl
@[simp] theorem State.updSched_mem (s : State) (k : Nat) (f : Sched → Sched) : (s.updSched k f).mem = s.mem := rfl
@[simp] theorem State.updSched_dir (s : State) (k : Nat) (f : Sched → Sched) : (s.updSched k f).dir = s.dir := rfl
@[simp] theorem State.updSched_pond (s : State) (k : Nat) (f : Sched → Sched) : (s.updSched k f).pond = s.pond := rfl
@[simp] theorem State.updSched_lake (s : State) (k : Nat) (f : Sched → Sched) : (s.updSched k f).lake = s.lake := rfl
@[simp] theorem State.updSched_ports (s : State) (k : Nat) (f : Sched → Sched) : (s.updSched k f).ports = s.ports := rfl
@[simp] theorem State.updSched_q (s : State) (k : Nat) (f : Sched → Sched) : (s.updSched k f).q = s.q := rfl
@[simp] theorem State.updSched_lamp_stopped (s : State) (k : Nat) (f : Sched → Sched) : (s.updSched k f).lamp.stopped = s.lamp.stopped := rfl
@[simp] theorem State.updSched_pwr (s : State) (k : Nat) (f : Sched → Sched) : (s.updSched k f).pwr = s.pwr := rfl
@[simp] theorem State.updSched_evt (s : State) (k : Nat) (f : Sched → Sched) : (s.updSched k f).evt = s.evt := rfl
@[simp] theorem State.updSched_wd (s : State) (k : Nat) (f : Sched → Sched) : (s.updSched k f).wd = s.wd := rfl
@[simp] theorem State.updSched_fw (s : State) (k : Nat) (f : Sched → Sched) : (s.updSched k f).fw = s.fw := rfl
@[simp] theorem State.updSched_chn (s : State) (k : Nat) (f : Sched → Sched) : (s.updSched k f).chn = s.chn := rfl
@[simp] theorem State.updSched_mgt (s : State) (k : Nat) (f : Sched → Sched) : (s.updSched k f).mgt = s.mgt := rfl
@[simp] theorem State.updSched_trc (s : State) (k : Nat) (f : Sched → Sched) : (s.updSched k f).trc = s.trc := rfl
@[simp] theorem State.updSched_out (s : State) (k : Nat) (f : Sched → Sched) : (s.updSched k f).out = s.out := rfl
@[simp] theorem State.updSched_pending (s : State) (k : Nat) (f : Sched → Sched) : (s.updSched k f).pending = s.pending := rfl

/-! ### `State.setPch` -/

@[simp] theorem State.setPch_id (s : State) (n : Nat) (p : Pch) : (s.setPch n p).id = s.id := rfl
@[simp] theorem State.setPch_clk (s : State) (n : Nat) (p : Pch) : (s.setPch n p).clk = s.clk := rfl
@[simp] theorem State.setPch_sled (s : State) (n : Nat) (p : Pch) : (s.setPch n p).sled = s.sled := rfl
@[simp] theorem State.setPch_rt (s : State) (n : Nat) (p : Pch) : (s.setPch n p).rt = s.rt := rfl
@[simp] theorem State.setPch_map (s : State) (n : Nat) (p : Pch) : (s.setPch n p).map = s.map := rfl
@[simp] theorem State.setPch_mem (s : State) (n : Nat) (p : Pch) : (s.setPch n p).mem = s.mem := rfl
@[simp] theorem State.setPch_dir (s : State) (n : Nat) (p : Pch) : (s.setPch n p).dir = s.dir := rfl
@[simp] theorem State.setPch_pond_bq (s : State) (n : Nat) (p : Pch) : (s.setPch n p).pond.bq = s.pond.bq := rfl
@[simp] theorem State.setPch_pond_stk (s : State) (n : Nat) (p : Pch) : (s.setPch n p).pond.stk = s.pond.stk := rfl
@[simp] theorem State.setPch_pond_lat (s : State) (n : Nat) (p : Pch) : (s.setPch n p).pond.lat = s.pond.lat := rfl
@[simp] theorem State.setPch_pond_panicReg (s : State) (n : Nat) (p : Pch) : (s.setPch n p).pond.panicReg = s.pond.panicReg := rfl
@[simp] theorem State.setPch_pond_errctl (s : State) (n : Nat) (p : Pch) : (s.setPch n p).pond.errctl = s.pond.errctl := rfl
@[simp] theorem State.setPch_pond_panic (s : State) (n : Nat) (p : Pch) : (s.setPch n p).pond.panic = s.pond.panic := rfl
@[simp] theorem State.setPch_pond_missHost (s : State) (n : Nat) (p : Pch) : (s.setPch n p).pond.missHost = s.pond.missHost := rfl
@[simp] theorem State.setPch_pond_missWick (s : State) (n : Nat) (p : Pch) : (s.setPch n p).pond.missWick = s.pond.missWick := rfl
@[simp] theorem State.setPch_pond_missCodec (s : State) (n : Nat) (p : Pch) : (s.setPch n p).pond.missCodec = s.pond.missCodec := rfl
@[simp] theorem State.setPch_pond_missMove (s : State) (n : Nat) (p : Pch) : (s.setPch n p).pond.missMove = s.pond.missMove := rfl
@[simp] theorem State.setPch_pond_asserts (s : State) (n : Nat) (p : Pch) : (s.setPch n p).pond.asserts = s.pond.asserts := rfl
@[simp] theorem State.setPch_pond_forced (s : State) (n : Nat) (p : Pch) : (s.setPch n p).pond.forced = s.pond.forced := rfl
@[simp] theorem State.setPch_pond_trainNo (s : State) (n : Nat) (p : Pch) : (s.setPch n p).pond.trainNo = s.pond.trainNo := rfl
@[simp] theorem State.setPch_pond_sprCe (s : State) (n : Nat) (p : Pch) : (s.setPch n p).pond.sprCe = s.pond.sprCe := rfl
@[simp] theorem State.setPch_pond_sprUe (s : State) (n : Nat) (p : Pch) : (s.setPch n p).pond.sprUe = s.pond.sprUe := rfl
@[simp] theorem State.setPch_pond_odeFrom (s : State) (n : Nat) (p : Pch) : (s.setPch n p).pond.odeFrom = s.pond.odeFrom := rfl
@[simp] theorem State.setPch_lake (s : State) (n : Nat) (p : Pch) : (s.setPch n p).lake = s.lake := rfl
@[simp] theorem State.setPch_ports (s : State) (n : Nat) (p : Pch) : (s.setPch n p).ports = s.ports := rfl
@[simp] theorem State.setPch_q (s : State) (n : Nat) (p : Pch) : (s.setPch n p).q = s.q := rfl
@[simp] theorem State.setPch_lamp (s : State) (n : Nat) (p : Pch) : (s.setPch n p).lamp = s.lamp := rfl
@[simp] theorem State.setPch_pwr (s : State) (n : Nat) (p : Pch) : (s.setPch n p).pwr = s.pwr := rfl
@[simp] theorem State.setPch_evt (s : State) (n : Nat) (p : Pch) : (s.setPch n p).evt = s.evt := rfl
@[simp] theorem State.setPch_wd (s : State) (n : Nat) (p : Pch) : (s.setPch n p).wd = s.wd := rfl
@[simp] theorem State.setPch_fw (s : State) (n : Nat) (p : Pch) : (s.setPch n p).fw = s.fw := rfl
@[simp] theorem State.setPch_chn (s : State) (n : Nat) (p : Pch) : (s.setPch n p).chn = s.chn := rfl
@[simp] theorem State.setPch_mgt (s : State) (n : Nat) (p : Pch) : (s.setPch n p).mgt = s.mgt := rfl
@[simp] theorem State.setPch_trc (s : State) (n : Nat) (p : Pch) : (s.setPch n p).trc = s.trc := rfl
@[simp] theorem State.setPch_out (s : State) (n : Nat) (p : Pch) : (s.setPch n p).out = s.out := rfl
@[simp] theorem State.setPch_pending (s : State) (n : Nat) (p : Pch) : (s.setPch n p).pending = s.pending := rfl

/-! ### `State.setSb` -/

@[simp] theorem State.setSb_id (s : State) (n : Nat) (b : Sb) : (s.setSb n b).id = s.id := rfl
@[simp] theorem State.setSb_clk (s : State) (n : Nat) (b : Sb) : (s.setSb n b).clk = s.clk := rfl
@[simp] theorem State.setSb_sled (s : State) (n : Nat) (b : Sb) : (s.setSb n b).sled = s.sled := rfl
@[simp] theorem State.setSb_rt (s : State) (n : Nat) (b : Sb) : (s.setSb n b).rt = s.rt := rfl
@[simp] theorem State.setSb_map (s : State) (n : Nat) (b : Sb) : (s.setSb n b).map = s.map := rfl
@[simp] theorem State.setSb_mem (s : State) (n : Nat) (b : Sb) : (s.setSb n b).mem = s.mem := rfl
@[simp] theorem State.setSb_dir (s : State) (n : Nat) (b : Sb) : (s.setSb n b).dir = s.dir := rfl
@[simp] theorem State.setSb_pond (s : State) (n : Nat) (b : Sb) : (s.setSb n b).pond = s.pond := rfl
@[simp] theorem State.setSb_lake_wear (s : State) (n : Nat) (b : Sb) : (s.setSb n b).lake.wear = s.lake.wear := rfl
@[simp] theorem State.setSb_lake_mounted (s : State) (n : Nat) (b : Sb) : (s.setSb n b).lake.mounted = s.lake.mounted := rfl
@[simp] theorem State.setSb_lake_wp (s : State) (n : Nat) (b : Sb) : (s.setSb n b).lake.wp = s.lake.wp := rfl
@[simp] theorem State.setSb_lake_retired (s : State) (n : Nat) (b : Sb) : (s.setSb n b).lake.retired = s.lake.retired := rfl
@[simp] theorem State.setSb_lake_peMax (s : State) (n : Nat) (b : Sb) : (s.setSb n b).lake.peMax = s.lake.peMax := rfl
@[simp] theorem State.setSb_lake_hostOpen (s : State) (n : Nat) (b : Sb) : (s.setSb n b).lake.hostOpen = s.lake.hostOpen := rfl
@[simp] theorem State.setSb_lake_coldOpen (s : State) (n : Nat) (b : Sb) : (s.setSb n b).lake.coldOpen = s.lake.coldOpen := rfl
@[simp] theorem State.setSb_lake_metaOpen (s : State) (n : Nat) (b : Sb) : (s.setSb n b).lake.metaOpen = s.lake.metaOpen := rfl
@[simp] theorem State.setSb_lake_written (s : State) (n : Nat) (b : Sb) : (s.setSb n b).lake.written = s.lake.written := rfl
@[simp] theorem State.setSb_lake_summ (s : State) (n : Nat) (b : Sb) : (s.setSb n b).lake.summ = s.lake.summ := rfl
@[simp] theorem State.setSb_lake_mapAt (s : State) (n : Nat) (b : Sb) : (s.setSb n b).lake.mapAt = s.lake.mapAt := rfl
@[simp] theorem State.setSb_lake_idxAt (s : State) (n : Nat) (b : Sb) : (s.setSb n b).lake.idxAt = s.lake.idxAt := rfl
@[simp] theorem State.setSb_lake_idxDirty (s : State) (n : Nat) (b : Sb) : (s.setSb n b).lake.idxDirty = s.lake.idxDirty := rfl
@[simp] theorem State.setSb_lake_btab (s : State) (n : Nat) (b : Sb) : (s.setSb n b).lake.btab = s.lake.btab := rfl
@[simp] theorem State.setSb_lake_bbt (s : State) (n : Nat) (b : Sb) : (s.setSb n b).lake.bbt = s.lake.bbt := rfl
@[simp] theorem State.setSb_lake_stripes (s : State) (n : Nat) (b : Sb) : (s.setSb n b).lake.stripes = s.lake.stripes := rfl
@[simp] theorem State.setSb_lake_stripeNo (s : State) (n : Nat) (b : Sb) : (s.setSb n b).lake.stripeNo = s.lake.stripeNo := rfl
@[simp] theorem State.setSb_lake_resv (s : State) (n : Nat) (b : Sb) : (s.setSb n b).lake.resv = s.lake.resv := rfl
@[simp] theorem State.setSb_lake_misses (s : State) (n : Nat) (b : Sb) : (s.setSb n b).lake.misses = s.lake.misses := rfl
@[simp] theorem State.setSb_lake_wseq (s : State) (n : Nat) (b : Sb) : (s.setSb n b).lake.wseq = s.lake.wseq := rfl
@[simp] theorem State.setSb_lake_jseq (s : State) (n : Nat) (b : Sb) : (s.setSb n b).lake.jseq = s.lake.jseq := rfl
@[simp] theorem State.setSb_lake_mark (s : State) (n : Nat) (b : Sb) : (s.setSb n b).lake.mark = s.lake.mark := rfl
@[simp] theorem State.setSb_lake_jour (s : State) (n : Nat) (b : Sb) : (s.setSb n b).lake.jour = s.lake.jour := rfl
@[simp] theorem State.setSb_lake_jmark (s : State) (n : Nat) (b : Sb) : (s.setSb n b).lake.jmark = s.lake.jmark := rfl
@[simp] theorem State.setSb_lake_ckpt (s : State) (n : Nat) (b : Sb) : (s.setSb n b).lake.ckpt = s.lake.ckpt := rfl
@[simp] theorem State.setSb_lake_ckptOld (s : State) (n : Nat) (b : Sb) : (s.setSb n b).lake.ckptOld = s.lake.ckptOld := rfl
@[simp] theorem State.setSb_lake_duskUsed (s : State) (n : Nat) (b : Sb) : (s.setSb n b).lake.duskUsed = s.lake.duskUsed := rfl
@[simp] theorem State.setSb_lake_urgent (s : State) (n : Nat) (b : Sb) : (s.setSb n b).lake.urgent = s.lake.urgent := rfl
@[simp] theorem State.setSb_lake_bgc (s : State) (n : Nat) (b : Sb) : (s.setSb n b).lake.bgc = s.lake.bgc := rfl
@[simp] theorem State.setSb_lake_ctl (s : State) (n : Nat) (b : Sb) : (s.setSb n b).lake.ctl = s.lake.ctl := rfl
@[simp] theorem State.setSb_lake_hostPg (s : State) (n : Nat) (b : Sb) : (s.setSb n b).lake.hostPg = s.lake.hostPg := rfl
@[simp] theorem State.setSb_lake_nandPg (s : State) (n : Nat) (b : Sb) : (s.setSb n b).lake.nandPg = s.lake.nandPg := rfl
@[simp] theorem State.setSb_lake_retry (s : State) (n : Nat) (b : Sb) : (s.setSb n b).lake.retry = s.lake.retry := rfl
@[simp] theorem State.setSb_lake_recon (s : State) (n : Nat) (b : Sb) : (s.setSb n b).lake.recon = s.lake.recon := rfl
@[simp] theorem State.setSb_lake_rdReloc (s : State) (n : Nat) (b : Sb) : (s.setSb n b).lake.rdReloc = s.lake.rdReloc := rfl
@[simp] theorem State.setSb_lake_patReloc (s : State) (n : Nat) (b : Sb) : (s.setSb n b).lake.patReloc = s.lake.patReloc := rfl
@[simp] theorem State.setSb_lake_progFail (s : State) (n : Nat) (b : Sb) : (s.setSb n b).lake.progFail = s.lake.progFail := rfl
@[simp] theorem State.setSb_lake_eraseFail (s : State) (n : Nat) (b : Sb) : (s.setSb n b).lake.eraseFail = s.lake.eraseFail := rfl
@[simp] theorem State.setSb_lake_reconDies (s : State) (n : Nat) (b : Sb) : (s.setSb n b).lake.reconDies = s.lake.reconDies := rfl
@[simp] theorem State.setSb_ports (s : State) (n : Nat) (b : Sb) : (s.setSb n b).ports = s.ports := rfl
@[simp] theorem State.setSb_q (s : State) (n : Nat) (b : Sb) : (s.setSb n b).q = s.q := rfl
@[simp] theorem State.setSb_lamp (s : State) (n : Nat) (b : Sb) : (s.setSb n b).lamp = s.lamp := rfl
@[simp] theorem State.setSb_pwr (s : State) (n : Nat) (b : Sb) : (s.setSb n b).pwr = s.pwr := rfl
@[simp] theorem State.setSb_evt (s : State) (n : Nat) (b : Sb) : (s.setSb n b).evt = s.evt := rfl
@[simp] theorem State.setSb_wd (s : State) (n : Nat) (b : Sb) : (s.setSb n b).wd = s.wd := rfl
@[simp] theorem State.setSb_fw (s : State) (n : Nat) (b : Sb) : (s.setSb n b).fw = s.fw := rfl
@[simp] theorem State.setSb_chn (s : State) (n : Nat) (b : Sb) : (s.setSb n b).chn = s.chn := rfl
@[simp] theorem State.setSb_mgt (s : State) (n : Nat) (b : Sb) : (s.setSb n b).mgt = s.mgt := rfl
@[simp] theorem State.setSb_trc (s : State) (n : Nat) (b : Sb) : (s.setSb n b).trc = s.trc := rfl
@[simp] theorem State.setSb_out (s : State) (n : Nat) (b : Sb) : (s.setSb n b).out = s.out := rfl
@[simp] theorem State.setSb_pending (s : State) (n : Nat) (b : Sb) : (s.setSb n b).pending = s.pending := rfl

/-! ### `State.setWde` -/

@[simp] theorem State.setWde_id (s : State) (n : Nat) (w : Wde) : (s.setWde n w).id = s.id := rfl
@[simp] theorem State.setWde_clk (s : State) (n : Nat) (w : Wde) : (s.setWde n w).clk = s.clk := rfl
@[simp] theorem State.setWde_sled (s : State) (n : Nat) (w : Wde) : (s.setWde n w).sled = s.sled := rfl
@[simp] theorem State.setWde_rt (s : State) (n : Nat) (w : Wde) : (s.setWde n w).rt = s.rt := rfl
@[simp] theorem State.setWde_map (s : State) (n : Nat) (w : Wde) : (s.setWde n w).map = s.map := rfl
@[simp] theorem State.setWde_mem (s : State) (n : Nat) (w : Wde) : (s.setWde n w).mem = s.mem := rfl
@[simp] theorem State.setWde_dir (s : State) (n : Nat) (w : Wde) : (s.setWde n w).dir = s.dir := rfl
@[simp] theorem State.setWde_pond (s : State) (n : Nat) (w : Wde) : (s.setWde n w).pond = s.pond := rfl
@[simp] theorem State.setWde_lake (s : State) (n : Nat) (w : Wde) : (s.setWde n w).lake = s.lake := rfl
@[simp] theorem State.setWde_ports (s : State) (n : Nat) (w : Wde) : (s.setWde n w).ports = s.ports := rfl
@[simp] theorem State.setWde_q (s : State) (n : Nat) (w : Wde) : (s.setWde n w).q = s.q := rfl
@[simp] theorem State.setWde_lamp (s : State) (n : Nat) (w : Wde) : (s.setWde n w).lamp = s.lamp := rfl
@[simp] theorem State.setWde_pwr (s : State) (n : Nat) (w : Wde) : (s.setWde n w).pwr = s.pwr := rfl
@[simp] theorem State.setWde_evt (s : State) (n : Nat) (w : Wde) : (s.setWde n w).evt = s.evt := rfl
@[simp] theorem State.setWde_wd_tout (s : State) (n : Nat) (w : Wde) : (s.setWde n w).wd.tout = s.wd.tout := rfl
@[simp] theorem State.setWde_wd_run (s : State) (n : Nat) (w : Wde) : (s.setWde n w).wd.run = s.wd.run := rfl
@[simp] theorem State.setWde_wd_half (s : State) (n : Nat) (w : Wde) : (s.setWde n w).wd.half = s.wd.half := rfl
@[simp] theorem State.setWde_wd_warn (s : State) (n : Nat) (w : Wde) : (s.setWde n w).wd.warn = s.wd.warn := rfl
@[simp] theorem State.setWde_wd_oscfail (s : State) (n : Nat) (w : Wde) : (s.setWde n w).wd.oscfail = s.wd.oscfail := rfl
@[simp] theorem State.setWde_wd_elapsed (s : State) (n : Nat) (w : Wde) : (s.setWde n w).wd.elapsed = s.wd.elapsed := rfl
@[simp] theorem State.setWde_wd_trips (s : State) (n : Nat) (w : Wde) : (s.setWde n w).wd.trips = s.wd.trips := rfl
@[simp] theorem State.setWde_wd_badsvc (s : State) (n : Nat) (w : Wde) : (s.setWde n w).wd.badsvc = s.wd.badsvc := rfl
@[simp] theorem State.setWde_wd_last (s : State) (n : Nat) (w : Wde) : (s.setWde n w).wd.last = s.wd.last := rfl
@[simp] theorem State.setWde_wd_times (s : State) (n : Nat) (w : Wde) : (s.setWde n w).wd.times = s.wd.times := rfl
@[simp] theorem State.setWde_wd_pilotRestart (s : State) (n : Nat) (w : Wde) : (s.setWde n w).wd.pilotRestart = s.wd.pilotRestart := rfl
@[simp] theorem State.setWde_wd_held (s : State) (n : Nat) (w : Wde) : (s.setWde n w).wd.held = s.wd.held := rfl
@[simp] theorem State.setWde_wd_ntries (s : State) (n : Nat) (w : Wde) : (s.setWde n w).wd.ntries = s.wd.ntries := rfl
@[simp] theorem State.setWde_wd_rcause (s : State) (n : Nat) (w : Wde) : (s.setWde n w).wd.rcause = s.wd.rcause := rfl
@[simp] theorem State.setWde_wd_vcause (s : State) (n : Nat) (w : Wde) : (s.setWde n w).wd.vcause = s.wd.vcause := rfl
@[simp] theorem State.setWde_wd_btn (s : State) (n : Nat) (w : Wde) : (s.setWde n w).wd.btn = s.wd.btn := rfl
@[simp] theorem State.setWde_wd_press (s : State) (n : Nat) (w : Wde) : (s.setWde n w).wd.press = s.wd.press := rfl
@[simp] theorem State.setWde_wd_cls (s : State) (n : Nat) (w : Wde) : (s.setWde n w).wd.cls = s.wd.cls := rfl
@[simp] theorem State.setWde_wd_pressAt (s : State) (n : Nat) (w : Wde) : (s.setWde n w).wd.pressAt = s.wd.pressAt := rfl
@[simp] theorem State.setWde_wd_pressed10 (s : State) (n : Nat) (w : Wde) : (s.setWde n w).wd.pressed10 = s.wd.pressed10 := rfl
@[simp] theorem State.setWde_fw (s : State) (n : Nat) (w : Wde) : (s.setWde n w).fw = s.fw := rfl
@[simp] theorem State.setWde_chn (s : State) (n : Nat) (w : Wde) : (s.setWde n w).chn = s.chn := rfl
@[simp] theorem State.setWde_mgt (s : State) (n : Nat) (w : Wde) : (s.setWde n w).mgt = s.mgt := rfl
@[simp] theorem State.setWde_trc (s : State) (n : Nat) (w : Wde) : (s.setWde n w).trc = s.trc := rfl
@[simp] theorem State.setWde_out (s : State) (n : Nat) (w : Wde) : (s.setWde n w).out = s.out := rfl
@[simp] theorem State.setWde_pending (s : State) (n : Nat) (w : Wde) : (s.setWde n w).pending = s.pending := rfl

/-! ### `State.setBind` -/

@[simp] theorem State.setBind_id (s : State) (h : HostId) (b : Bind) : (s.setBind h b).id = s.id := rfl
@[simp] theorem State.setBind_clk (s : State) (h : HostId) (b : Bind) : (s.setBind h b).clk = s.clk := rfl
@[simp] theorem State.setBind_sled (s : State) (h : HostId) (b : Bind) : (s.setBind h b).sled = s.sled := rfl
@[simp] theorem State.setBind_rt (s : State) (h : HostId) (b : Bind) : (s.setBind h b).rt = s.rt := rfl
@[simp] theorem State.setBind_map (s : State) (h : HostId) (b : Bind) : (s.setBind h b).map = s.map := rfl
@[simp] theorem State.setBind_mem (s : State) (h : HostId) (b : Bind) : (s.setBind h b).mem = s.mem := rfl
@[simp] theorem State.setBind_dir (s : State) (h : HostId) (b : Bind) : (s.setBind h b).dir = s.dir := rfl
@[simp] theorem State.setBind_pond (s : State) (h : HostId) (b : Bind) : (s.setBind h b).pond = s.pond := rfl
@[simp] theorem State.setBind_lake (s : State) (h : HostId) (b : Bind) : (s.setBind h b).lake = s.lake := rfl
@[simp] theorem State.setBind_ports_cfg (s : State) (h : HostId) (b : Bind) : (s.setBind h b).ports.cfg = s.ports.cfg := rfl
@[simp] theorem State.setBind_ports_bifur (s : State) (h : HostId) (b : Bind) : (s.setBind h b).ports.bifur = s.ports.bifur := rfl
@[simp] theorem State.setBind_ports_half (s : State) (h : HostId) (b : Bind) : (s.setBind h b).ports.half = s.ports.half := rfl
@[simp] theorem State.setBind_ports_fn (s : State) (h : HostId) (b : Bind) : (s.setBind h b).ports.fn = s.ports.fn := rfl
@[simp] theorem State.setBind_ports_perst (s : State) (h : HostId) (b : Bind) : (s.setBind h b).ports.perst = s.ports.perst := rfl
@[simp] theorem State.setBind_ports_streams (s : State) (h : HostId) (b : Bind) : (s.setBind h b).ports.streams = s.ports.streams := rfl
@[simp] theorem State.setBind_ports_runs (s : State) (h : HostId) (b : Bind) : (s.setBind h b).ports.runs = s.ports.runs := rfl
@[simp] theorem State.setBind_ports_dcLog (s : State) (h : HostId) (b : Bind) : (s.setBind h b).ports.dcLog = s.ports.dcLog := rfl
@[simp] theorem State.setBind_ports_stopStores (s : State) (h : HostId) (b : Bind) : (s.setBind h b).ports.stopStores = s.ports.stopStores := rfl
@[simp] theorem State.setBind_ports_unmappedAt (s : State) (h : HostId) (b : Bind) : (s.setBind h b).ports.unmappedAt = s.ports.unmappedAt := rfl
@[simp] theorem State.setBind_ports_unboundAt (s : State) (h : HostId) (b : Bind) : (s.setBind h b).ports.unboundAt = s.ports.unboundAt := rfl
@[simp] theorem State.setBind_ports_pmoves (s : State) (h : HostId) (b : Bind) : (s.setBind h b).ports.pmoves = s.ports.pmoves := rfl
@[simp] theorem State.setBind_ports_pwait (s : State) (h : HostId) (b : Bind) : (s.setBind h b).ports.pwait = s.ports.pwait := rfl
@[simp] theorem State.setBind_ports_resets (s : State) (h : HostId) (b : Bind) : (s.setBind h b).ports.resets = s.ports.resets := rfl
@[simp] theorem State.setBind_ports_np (s : State) (h : HostId) (b : Bind) : (s.setBind h b).ports.np = s.ports.np := rfl
@[simp] theorem State.setBind_ports_npNo (s : State) (h : HostId) (b : Bind) : (s.setBind h b).ports.npNo = s.ports.npNo := rfl
@[simp] theorem State.setBind_q (s : State) (h : HostId) (b : Bind) : (s.setBind h b).q = s.q := rfl
@[simp] theorem State.setBind_lamp (s : State) (h : HostId) (b : Bind) : (s.setBind h b).lamp = s.lamp := rfl
@[simp] theorem State.setBind_pwr (s : State) (h : HostId) (b : Bind) : (s.setBind h b).pwr = s.pwr := rfl
@[simp] theorem State.setBind_evt (s : State) (h : HostId) (b : Bind) : (s.setBind h b).evt = s.evt := rfl
@[simp] theorem State.setBind_wd (s : State) (h : HostId) (b : Bind) : (s.setBind h b).wd = s.wd := rfl
@[simp] theorem State.setBind_fw (s : State) (h : HostId) (b : Bind) : (s.setBind h b).fw = s.fw := rfl
@[simp] theorem State.setBind_chn (s : State) (h : HostId) (b : Bind) : (s.setBind h b).chn = s.chn := rfl
@[simp] theorem State.setBind_mgt (s : State) (h : HostId) (b : Bind) : (s.setBind h b).mgt = s.mgt := rfl
@[simp] theorem State.setBind_trc (s : State) (h : HostId) (b : Bind) : (s.setBind h b).trc = s.trc := rfl
@[simp] theorem State.setBind_out (s : State) (h : HostId) (b : Bind) : (s.setBind h b).out = s.out := rfl
@[simp] theorem State.setBind_pending (s : State) (h : HostId) (b : Bind) : (s.setBind h b).pending = s.pending := rfl

/-! ### `State.setLink` -/

@[simp] theorem State.setLink_id (s : State) (l : Nat) (x : Link) : (s.setLink l x).id = s.id := rfl
@[simp] theorem State.setLink_clk (s : State) (l : Nat) (x : Link) : (s.setLink l x).clk = s.clk := rfl
@[simp] theorem State.setLink_sled (s : State) (l : Nat) (x : Link) : (s.setLink l x).sled = s.sled := rfl
@[simp] theorem State.setLink_rt (s : State) (l : Nat) (x : Link) : (s.setLink l x).rt = s.rt := rfl
@[simp] theorem State.setLink_map (s : State) (l : Nat) (x : Link) : (s.setLink l x).map = s.map := rfl
@[simp] theorem State.setLink_mem (s : State) (l : Nat) (x : Link) : (s.setLink l x).mem = s.mem := rfl
@[simp] theorem State.setLink_dir (s : State) (l : Nat) (x : Link) : (s.setLink l x).dir = s.dir := rfl
@[simp] theorem State.setLink_pond (s : State) (l : Nat) (x : Link) : (s.setLink l x).pond = s.pond := rfl
@[simp] theorem State.setLink_lake (s : State) (l : Nat) (x : Link) : (s.setLink l x).lake = s.lake := rfl
@[simp] theorem State.setLink_ports (s : State) (l : Nat) (x : Link) : (s.setLink l x).ports = s.ports := rfl
@[simp] theorem State.setLink_q (s : State) (l : Nat) (x : Link) : (s.setLink l x).q = s.q := rfl
@[simp] theorem State.setLink_lamp (s : State) (l : Nat) (x : Link) : (s.setLink l x).lamp = s.lamp := rfl
@[simp] theorem State.setLink_pwr (s : State) (l : Nat) (x : Link) : (s.setLink l x).pwr = s.pwr := rfl
@[simp] theorem State.setLink_evt (s : State) (l : Nat) (x : Link) : (s.setLink l x).evt = s.evt := rfl
@[simp] theorem State.setLink_wd (s : State) (l : Nat) (x : Link) : (s.setLink l x).wd = s.wd := rfl
@[simp] theorem State.setLink_fw (s : State) (l : Nat) (x : Link) : (s.setLink l x).fw = s.fw := rfl
@[simp] theorem State.setLink_mgt (s : State) (l : Nat) (x : Link) : (s.setLink l x).mgt = s.mgt := rfl
@[simp] theorem State.setLink_trc (s : State) (l : Nat) (x : Link) : (s.setLink l x).trc = s.trc := rfl
@[simp] theorem State.setLink_out (s : State) (l : Nat) (x : Link) : (s.setLink l x).out = s.out := rfl
@[simp] theorem State.setLink_pending (s : State) (l : Nat) (x : Link) : (s.setLink l x).pending = s.pending := rfl

/-! ### `State.putSme` -/

@[simp] theorem State.putSme_id (s : State) (r : RegionId) (seg : Nat) (e : Sme) : (s.putSme r seg e).id = s.id := rfl
@[simp] theorem State.putSme_clk (s : State) (r : RegionId) (seg : Nat) (e : Sme) : (s.putSme r seg e).clk = s.clk := rfl
@[simp] theorem State.putSme_sled (s : State) (r : RegionId) (seg : Nat) (e : Sme) : (s.putSme r seg e).sled = s.sled := rfl
@[simp] theorem State.putSme_rt (s : State) (r : RegionId) (seg : Nat) (e : Sme) : (s.putSme r seg e).rt = s.rt := rfl
@[simp] theorem State.putSme_map_moves (s : State) (r : RegionId) (seg : Nat) (e : Sme) : (s.putSme r seg e).map.moves = s.map.moves := rfl
@[simp] theorem State.putSme_map_moveNo (s : State) (r : RegionId) (seg : Nat) (e : Sme) : (s.putSme r seg e).map.moveNo = s.map.moveNo := rfl
@[simp] theorem State.putSme_map_trials (s : State) (r : RegionId) (seg : Nat) (e : Sme) : (s.putSme r seg e).map.trials = s.map.trials := rfl
@[simp] theorem State.putSme_map_trialAfter (s : State) (r : RegionId) (seg : Nat) (e : Sme) : (s.putSme r seg e).map.trialAfter = s.map.trialAfter := rfl
@[simp] theorem State.putSme_map_forms (s : State) (r : RegionId) (seg : Nat) (e : Sme) : (s.putSme r seg e).map.forms = s.map.forms := rfl
@[simp] theorem State.putSme_map_rel (s : State) (r : RegionId) (seg : Nat) (e : Sme) : (s.putSme r seg e).map.rel = s.map.rel := rfl
@[simp] theorem State.putSme_map_relNo (s : State) (r : RegionId) (seg : Nat) (e : Sme) : (s.putSme r seg e).map.relNo = s.map.relNo := rfl
@[simp] theorem State.putSme_map_lostRuns (s : State) (r : RegionId) (seg : Nat) (e : Sme) : (s.putSme r seg e).map.lostRuns = s.map.lostRuns := rfl
@[simp] theorem State.putSme_map_away (s : State) (r : RegionId) (seg : Nat) (e : Sme) : (s.putSme r seg e).map.away = s.map.away := rfl
@[simp] theorem State.putSme_map_low (s : State) (r : RegionId) (seg : Nat) (e : Sme) : (s.putSme r seg e).map.low = s.map.low := rfl
@[simp] theorem State.putSme_map_capWarn (s : State) (r : RegionId) (seg : Nat) (e : Sme) : (s.putSme r seg e).map.capWarn = s.map.capWarn := rfl
@[simp] theorem State.putSme_map_capCrit (s : State) (r : RegionId) (seg : Nat) (e : Sme) : (s.putSme r seg e).map.capCrit = s.map.capCrit := rfl
@[simp] theorem State.putSme_map_look (s : State) (r : RegionId) (seg : Nat) (e : Sme) : (s.putSme r seg e).map.look = s.map.look := rfl
@[simp] theorem State.putSme_mem (s : State) (r : RegionId) (seg : Nat) (e : Sme) : (s.putSme r seg e).mem = s.mem := rfl
@[simp] theorem State.putSme_dir (s : State) (r : RegionId) (seg : Nat) (e : Sme) : (s.putSme r seg e).dir = s.dir := rfl
@[simp] theorem State.putSme_pond (s : State) (r : RegionId) (seg : Nat) (e : Sme) : (s.putSme r seg e).pond = s.pond := rfl
@[simp] theorem State.putSme_lake (s : State) (r : RegionId) (seg : Nat) (e : Sme) : (s.putSme r seg e).lake = s.lake := rfl
@[simp] theorem State.putSme_ports (s : State) (r : RegionId) (seg : Nat) (e : Sme) : (s.putSme r seg e).ports = s.ports := rfl
@[simp] theorem State.putSme_q (s : State) (r : RegionId) (seg : Nat) (e : Sme) : (s.putSme r seg e).q = s.q := rfl
@[simp] theorem State.putSme_lamp (s : State) (r : RegionId) (seg : Nat) (e : Sme) : (s.putSme r seg e).lamp = s.lamp := rfl
@[simp] theorem State.putSme_pwr (s : State) (r : RegionId) (seg : Nat) (e : Sme) : (s.putSme r seg e).pwr = s.pwr := rfl
@[simp] theorem State.putSme_evt (s : State) (r : RegionId) (seg : Nat) (e : Sme) : (s.putSme r seg e).evt = s.evt := rfl
@[simp] theorem State.putSme_wd (s : State) (r : RegionId) (seg : Nat) (e : Sme) : (s.putSme r seg e).wd = s.wd := rfl
@[simp] theorem State.putSme_fw (s : State) (r : RegionId) (seg : Nat) (e : Sme) : (s.putSme r seg e).fw = s.fw := rfl
@[simp] theorem State.putSme_chn (s : State) (r : RegionId) (seg : Nat) (e : Sme) : (s.putSme r seg e).chn = s.chn := rfl
@[simp] theorem State.putSme_mgt (s : State) (r : RegionId) (seg : Nat) (e : Sme) : (s.putSme r seg e).mgt = s.mgt := rfl
@[simp] theorem State.putSme_trc (s : State) (r : RegionId) (seg : Nat) (e : Sme) : (s.putSme r seg e).trc = s.trc := rfl
@[simp] theorem State.putSme_out (s : State) (r : RegionId) (seg : Nat) (e : Sme) : (s.putSme r seg e).out = s.out := rfl
@[simp] theorem State.putSme_pending (s : State) (r : RegionId) (seg : Nat) (e : Sme) : (s.putSme r seg e).pending = s.pending := rfl

/-! ### `State.putPm` -/

@[simp] theorem State.putPm_id (s : State) (m : PMove) : (s.putPm m).id = s.id := rfl
@[simp] theorem State.putPm_clk (s : State) (m : PMove) : (s.putPm m).clk = s.clk := rfl
@[simp] theorem State.putPm_sled (s : State) (m : PMove) : (s.putPm m).sled = s.sled := rfl
@[simp] theorem State.putPm_rt (s : State) (m : PMove) : (s.putPm m).rt = s.rt := rfl
@[simp] theorem State.putPm_map (s : State) (m : PMove) : (s.putPm m).map = s.map := rfl
@[simp] theorem State.putPm_mem (s : State) (m : PMove) : (s.putPm m).mem = s.mem := rfl
@[simp] theorem State.putPm_dir (s : State) (m : PMove) : (s.putPm m).dir = s.dir := rfl
@[simp] theorem State.putPm_pond (s : State) (m : PMove) : (s.putPm m).pond = s.pond := rfl
@[simp] theorem State.putPm_lake (s : State) (m : PMove) : (s.putPm m).lake = s.lake := rfl
@[simp] theorem State.putPm_ports_cfg (s : State) (m : PMove) : (s.putPm m).ports.cfg = s.ports.cfg := rfl
@[simp] theorem State.putPm_ports_bifur (s : State) (m : PMove) : (s.putPm m).ports.bifur = s.ports.bifur := rfl
@[simp] theorem State.putPm_ports_half (s : State) (m : PMove) : (s.putPm m).ports.half = s.ports.half := rfl
@[simp] theorem State.putPm_ports_bind (s : State) (m : PMove) : (s.putPm m).ports.bind = s.ports.bind := rfl
@[simp] theorem State.putPm_ports_fn (s : State) (m : PMove) : (s.putPm m).ports.fn = s.ports.fn := rfl
@[simp] theorem State.putPm_ports_perst (s : State) (m : PMove) : (s.putPm m).ports.perst = s.ports.perst := rfl
@[simp] theorem State.putPm_ports_streams (s : State) (m : PMove) : (s.putPm m).ports.streams = s.ports.streams := rfl
@[simp] theorem State.putPm_ports_runs (s : State) (m : PMove) : (s.putPm m).ports.runs = s.ports.runs := rfl
@[simp] theorem State.putPm_ports_dcLog (s : State) (m : PMove) : (s.putPm m).ports.dcLog = s.ports.dcLog := rfl
@[simp] theorem State.putPm_ports_stopStores (s : State) (m : PMove) : (s.putPm m).ports.stopStores = s.ports.stopStores := rfl
@[simp] theorem State.putPm_ports_unmappedAt (s : State) (m : PMove) : (s.putPm m).ports.unmappedAt = s.ports.unmappedAt := rfl
@[simp] theorem State.putPm_ports_unboundAt (s : State) (m : PMove) : (s.putPm m).ports.unboundAt = s.ports.unboundAt := rfl
@[simp] theorem State.putPm_ports_pwait (s : State) (m : PMove) : (s.putPm m).ports.pwait = s.ports.pwait := rfl
@[simp] theorem State.putPm_ports_resets (s : State) (m : PMove) : (s.putPm m).ports.resets = s.ports.resets := rfl
@[simp] theorem State.putPm_ports_np (s : State) (m : PMove) : (s.putPm m).ports.np = s.ports.np := rfl
@[simp] theorem State.putPm_ports_npNo (s : State) (m : PMove) : (s.putPm m).ports.npNo = s.ports.npNo := rfl
@[simp] theorem State.putPm_q (s : State) (m : PMove) : (s.putPm m).q = s.q := rfl
@[simp] theorem State.putPm_lamp (s : State) (m : PMove) : (s.putPm m).lamp = s.lamp := rfl
@[simp] theorem State.putPm_pwr (s : State) (m : PMove) : (s.putPm m).pwr = s.pwr := rfl
@[simp] theorem State.putPm_evt (s : State) (m : PMove) : (s.putPm m).evt = s.evt := rfl
@[simp] theorem State.putPm_wd (s : State) (m : PMove) : (s.putPm m).wd = s.wd := rfl
@[simp] theorem State.putPm_fw (s : State) (m : PMove) : (s.putPm m).fw = s.fw := rfl
@[simp] theorem State.putPm_chn (s : State) (m : PMove) : (s.putPm m).chn = s.chn := rfl
@[simp] theorem State.putPm_mgt (s : State) (m : PMove) : (s.putPm m).mgt = s.mgt := rfl
@[simp] theorem State.putPm_trc (s : State) (m : PMove) : (s.putPm m).trc = s.trc := rfl
@[simp] theorem State.putPm_out (s : State) (m : PMove) : (s.putPm m).out = s.out := rfl
@[simp] theorem State.putPm_pending (s : State) (m : PMove) : (s.putPm m).pending = s.pending := rfl

/-! ### `State.mgmt` -/

@[simp] theorem State.mgmt_id (s : State) (code : Nat) (words : List W64) : (s.mgmt code words).id = s.id := rfl
@[simp] theorem State.mgmt_clk (s : State) (code : Nat) (words : List W64) : (s.mgmt code words).clk = s.clk := rfl
@[simp] theorem State.mgmt_sled (s : State) (code : Nat) (words : List W64) : (s.mgmt code words).sled = s.sled := rfl
@[simp] theorem State.mgmt_rt (s : State) (code : Nat) (words : List W64) : (s.mgmt code words).rt = s.rt := rfl
@[simp] theorem State.mgmt_map (s : State) (code : Nat) (words : List W64) : (s.mgmt code words).map = s.map := rfl
@[simp] theorem State.mgmt_mem (s : State) (code : Nat) (words : List W64) : (s.mgmt code words).mem = s.mem := rfl
@[simp] theorem State.mgmt_dir (s : State) (code : Nat) (words : List W64) : (s.mgmt code words).dir = s.dir := rfl
@[simp] theorem State.mgmt_pond (s : State) (code : Nat) (words : List W64) : (s.mgmt code words).pond = s.pond := rfl
@[simp] theorem State.mgmt_lake (s : State) (code : Nat) (words : List W64) : (s.mgmt code words).lake = s.lake := rfl
@[simp] theorem State.mgmt_ports (s : State) (code : Nat) (words : List W64) : (s.mgmt code words).ports = s.ports := rfl
@[simp] theorem State.mgmt_q (s : State) (code : Nat) (words : List W64) : (s.mgmt code words).q = s.q := rfl
@[simp] theorem State.mgmt_lamp (s : State) (code : Nat) (words : List W64) : (s.mgmt code words).lamp = s.lamp := rfl
@[simp] theorem State.mgmt_pwr (s : State) (code : Nat) (words : List W64) : (s.mgmt code words).pwr = s.pwr := rfl
@[simp] theorem State.mgmt_evt (s : State) (code : Nat) (words : List W64) : (s.mgmt code words).evt = s.evt := rfl
@[simp] theorem State.mgmt_wd (s : State) (code : Nat) (words : List W64) : (s.mgmt code words).wd = s.wd := rfl
@[simp] theorem State.mgmt_fw (s : State) (code : Nat) (words : List W64) : (s.mgmt code words).fw = s.fw := rfl
@[simp] theorem State.mgmt_chn (s : State) (code : Nat) (words : List W64) : (s.mgmt code words).chn = s.chn := rfl
@[simp] theorem State.mgmt_mgt (s : State) (code : Nat) (words : List W64) : (s.mgmt code words).mgt = s.mgt := rfl
@[simp] theorem State.mgmt_trc (s : State) (code : Nat) (words : List W64) : (s.mgmt code words).trc = s.trc := rfl
@[simp] theorem State.mgmt_pending (s : State) (code : Nat) (words : List W64) : (s.mgmt code words).pending = s.pending := rfl

/-! ### What the updated field reads as -/

@[simp] theorem State.send_out (s : State) (o : Output) : (s.send o).out = o :: s.out := rfl
@[simp] theorem State.mgmt_out (s : State) (code : Nat) (words : List W64) : (s.mgmt code words).out = .mgmt code words :: s.out := rfl

@[simp] theorem State.fnOf_setFn (s : State) (h : HostId) (f : Fn) : (s.setFn h f).fnOf h = f := by simp [State.fnOf, State.setFn]
theorem State.fnOf_setFn_ne (s : State) {h k : HostId} (f : Fn) (e : k ≠ h) : (s.setFn h f).fnOf k = s.fnOf k := by
  simp only [State.fnOf, State.setFn]
  exact Tbl.getD_set_ne _ _ _ _ (fun c => e (BitVec.eq_of_toNat_eq c))

@[simp] theorem State.halfReg_setHalf (s : State) (n : Nat) (h : Half) : (s.setHalf n h).halfReg n = h := by
  simp [State.halfReg, State.setHalf]
theorem State.halfReg_setHalf_ne (s : State) {n m : Nat} (h : Half) (e : m ≠ n) : (s.setHalf n h).halfReg m = s.halfReg m := by
  simp only [State.halfReg, State.setHalf]
  exact Tbl.getD_set_ne _ _ _ _ e

@[simp] theorem State.ent_setEnt (s : State) (r : RegionId) (e : REnt) : (s.setEnt r e).ent r = e := by simp [State.ent, State.setEnt]
theorem State.ent_setEnt_ne (s : State) {r k : RegionId} (x : REnt) (e : k ≠ r) : (s.setEnt r x).ent k = s.ent k := by
  simp only [State.ent, State.setEnt]
  exact Tbl.getD_set_ne _ _ _ _ (fun c => e (BitVec.eq_of_toNat_eq c))

@[simp] theorem State.reader_setReader (s : State) (h : HostId) (r : Reader) : (s.setReader h r).reader h = r := by
  simp [State.reader, State.setReader]
theorem State.reader_setReader_ne (s : State) {h k : HostId} (r : Reader) (e : k ≠ h) : (s.setReader h r).reader k = s.reader k := by
  simp only [State.reader, State.setReader]
  exact Tbl.getD_put_ne _ _ _ (fun c => e (BitVec.eq_of_toNat_eq c))

theorem qKey_inj {h k : HostId} {q r : QueueNo} (e : qKey h q = qKey k r) : h = k ∧ q = r := by
  unfold qKey at e
  have hq := q.isLt
  have hr := r.isLt
  constructor
  · apply BitVec.eq_of_toNat_eq; omega
  · apply BitVec.eq_of_toNat_eq; omega

@[simp] theorem State.queue_setQueue (s : State) (h : HostId) (q : QueueNo) (x : Queue) : (s.setQueue h q x).queue h q = x := by
  simp [State.queue, State.setQueue]
theorem State.queue_setQueue_ne (s : State) {h k : HostId} {q r : QueueNo} (x : Queue) (e : ¬ (k = h ∧ r = q)) :
    (s.setQueue h q x).queue k r = s.queue k r := by
  simp only [State.queue, State.setQueue]
  exact Tbl.getD_set_ne _ _ _ _ (fun c => e (qKey_inj c))

@[simp] theorem State.prog_setProg (s : State) (p : Nat) (x : Prog) : (s.setProg p x).prog p = some x := by simp [State.prog, State.setProg]
theorem State.prog_setProg_ne (s : State) {p r : Nat} (x : Prog) (e : r ≠ p) : (s.setProg p x).prog r = s.prog r := by
  simp [State.prog, State.setProg, Tbl.find_put_ne _ _ e]

@[simp] theorem State.ledger_setLedger (s : State) (i : Nat) (e : Entry) : (s.setLedger i e).ledger i = e := by
  simp [State.ledger, State.setLedger]
theorem State.ledger_setLedger_ne (s : State) {i j : Nat} (x : Entry) (e : j ≠ i) : (s.setLedger i x).ledger j = s.ledger j := by
  simp only [State.ledger, State.setLedger]
  exact Tbl.getD_put_ne _ _ _ e

@[simp] theorem State.sched_setSched (s : State) (k : Nat) (x : Sched) : (s.setSched k x).sched k = some x := by
  simp [State.sched, State.setSched]
theorem State.sched_setSched_ne (s : State) {k j : Nat} (x : Sched) (e : j ≠ k) : (s.setSched k x).sched j = s.sched j := by
  simp [State.sched, State.setSched, Tbl.find_put_ne _ _ e]
theorem State.sched_updSched (s : State) (k j : Nat) (f : Sched → Sched) :
    (s.updSched k f).sched j = if j = k then (s.sched k).map f else s.sched j := by
  simp [State.sched, State.updSched, Tbl.find_upd]

@[simp] theorem State.pch_setPch (s : State) (n : Nat) (p : Pch) : (s.setPch n p).pch n = p := by simp [State.pch, State.setPch]
theorem State.pch_setPch_ne (s : State) {n m : Nat} (p : Pch) (e : m ≠ n) : (s.setPch n p).pch m = s.pch m := by
  simp only [State.pch, State.setPch]
  exact Tbl.getD_set_ne _ _ _ _ e

@[simp] theorem State.sb_setSb (s : State) (n : Nat) (b : Sb) : (s.setSb n b).sb n = b := by simp [State.sb, State.setSb]
theorem State.sb_setSb_ne (s : State) {n m : Nat} (b : Sb) (e : m ≠ n) : (s.setSb n b).sb m = s.sb m := by
  simp only [State.sb, State.setSb]
  exact Tbl.getD_set_ne _ _ _ _ e

@[simp] theorem State.wde_setWde (s : State) (n : Nat) (w : Wde) : (s.setWde n w).wde n = w := by simp [State.wde, State.setWde, Tbl.getD]
theorem State.wde_setWde_ne (s : State) {n m : Nat} (w : Wde) (e : m ≠ n) : (s.setWde n w).wde m = s.wde m := by
  simp [State.wde, State.setWde, Tbl.getD, Tbl.find_put_ne _ _ e]

@[simp] theorem State.bindOf_setBind (s : State) (h : HostId) (b : Bind) : (s.setBind h b).bindOf h = b := by
  simp [State.bindOf, State.setBind]

@[simp] theorem State.link_setLink (s : State) (l : Fin 2) (x : Link) : (s.setLink l x).link l = x := by
  fin_cases l <;> simp [State.link, State.setLink]

@[simp] theorem State.sme_putSme (s : State) (r : RegionId) (seg : Nat) (e : Sme) : (s.putSme r seg e).sme r seg = e := by
  simp [State.sme, State.putSme, State.newSme]

end Sys2Proof.Machine
end

