-- ==== Sys2Proof/Laws/Events.lean ====
section
/-! SUPPORT. What posting an event and writing a trace record can do, said once (01 R37 to R39; 14 R495 to R501; 18 R619 to R625): they
change the Event Ring and its readers, the trace unit, the pending vectors of functions in D3hot and what has been sent, and nothing else. -/

namespace Sys2Proof.Machine

/-- A state after events were told in another. -/
structure State.OnlyTold (s t : State) : Prop where
  rest : t = { s with evt := t.evt, trc := t.trc, out := t.out, ports := { s.ports with fn := t.ports.fn } }
  sent : ∃ l, t.out = l ++ s.out
  posted : s.evt.prod ≤ t.evt.prod
  fmap : t.evt.fmap = s.evt.fmap
  recov : t.evt.recov = s.evt.recov
  advised : t.evt.advised = s.evt.advised
  ring : RingSafe s → RingSafe t
  trace : TraceSafe s → TraceSafe t

namespace State.OnlyTold

theorem refl (s : State) : s.OnlyTold s := ⟨rfl, ⟨[], rfl⟩, le_refl _, rfl, rfl, rfl, fun h => h, fun h => h⟩

theorem trans {s t u : State} (a : s.OnlyTold t) (b : t.OnlyTold u) : s.OnlyTold u := by
  refine ⟨?_, ?_, a.posted.trans b.posted, b.fmap.trans a.fmap, b.recov.trans a.recov, b.advised.trans a.advised, b.ring ∘ a.ring, b.trace ∘ a.trace⟩
  · have h := b.rest
    rw [a.rest] at h
    exact h
  · obtain ⟨l, hl⟩ := a.sent
    obtain ⟨k, hk⟩ := b.sent
    exact ⟨k ++ l, by rw [hk, hl, List.append_assoc]⟩

variable {s t : State} (h : s.OnlyTold t)
include h

theorem id_eq : t.id = s.id := by rw [h.rest]
theorem clk_eq : t.clk = s.clk := by rw [h.rest]
theorem sled_eq : t.sled = s.sled := by rw [h.rest]
theorem rt_eq : t.rt = s.rt := by rw [h.rest]
theorem map_eq : t.map = s.map := by rw [h.rest]
theorem mem_eq : t.mem = s.mem := by rw [h.rest]
theorem dir_eq : t.dir = s.dir := by rw [h.rest]
theorem pond_eq : t.pond = s.pond := by rw [h.rest]
theorem lake_eq : t.lake = s.lake := by rw [h.rest]
theorem q_eq : t.q = s.q := by rw [h.rest]
theorem lamp_eq : t.lamp = s.lamp := by rw [h.rest]
theorem pwr_eq : t.pwr = s.pwr := by rw [h.rest]
theorem wd_eq : t.wd = s.wd := by rw [h.rest]
theorem fw_eq : t.fw = s.fw := by rw [h.rest]
theorem chn_eq : t.chn = s.chn := by rw [h.rest]
theorem mgt_eq : t.mgt = s.mgt := by rw [h.rest]
theorem pending_eq : t.pending = s.pending := by rw [h.rest]
theorem bind_eq : t.ports.bind = s.ports.bind := by rw [h.rest]
theorem half_eq : t.ports.half = s.ports.half := by rw [h.rest]

end State.OnlyTold

/-- What holds after each of a list of tellings holds after all. -/
theorem State.OnlyTold.foldl {α : Type} (f : State → α → State) (hf : ∀ (s : State) a, s.OnlyTold (f s a)) (l : List α) (s : State) :
    s.OnlyTold (l.foldl f s) := by
  induction l generalizing s with
  | nil => exact .refl s
  | cons a l ih => exact (hf s a).trans (ih _)

theorem State.send_told (s : State) (o : Output) : s.OnlyTold (s.send o) := ⟨rfl, ⟨[o], rfl⟩, le_refl _, rfl, rfl, rfl, fun h => h, fun h => h⟩

theorem State.setFn_told (s : State) (h : HostId) (f : Fn) : s.OnlyTold (s.setFn h f) := ⟨rfl, ⟨[], rfl⟩, le_refl _, rfl, rfl, rfl, fun h => h, fun h => h⟩

theorem State.setReader_told (s : State) (h : HostId) (r : Reader) : s.OnlyTold (s.setReader h r) :=
  ⟨rfl, ⟨[], rfl⟩, le_refl _, rfl, rfl, rfl, fun h => h, fun h => h⟩

theorem State.signal_told (s : State) (h : HostId) (vec : Nat) : s.OnlyTold (s.signal h vec) := by
  unfold State.signal
  extract_lets f
  split_ifs
  · exact .refl s
  · exact s.setFn_told h _
  · exact s.send_told _

theorem State.notice_told (s : State) (h : HostId) : s.OnlyTold (s.notice h) := s.signal_told h 1

theorem State.notify0_told (s : State) (h : HostId) (r : EvRec) : s.OnlyTold (s.notify0 h r) := by
  unfold State.notify0
  extract_lets rd
  split_ifs
  · exact s.setReader_told h _
  · exact (s.setReader_told h _).trans (State.signal_told _ h 0)
  · exact .refl s

theorem State.postRec_told (s : State) (p : Post) : s.OnlyTold (s.postRec p) := by
  unfold State.postRec
  refine State.OnlyTold.trans (t := _) ?_ (State.OnlyTold.foldl (fun t h => t.notify0 h (p.toRec s.time)) (fun t h => t.notify0_told h _) _ _)
  by_cases hf : 2048 ≤ s.evt.ring.length
  · simp only [decide_eq_true hf, if_true]
    refine ⟨rfl, ⟨[], rfl⟩, Nat.le_succ _, rfl, rfl, rfl, ?_, fun h => h⟩
    rintro ⟨h1, h2⟩
    refine ⟨?_, ?_⟩ <;> simp only [List.length_append, List.length_drop, List.length_singleton] <;> omega
  · simp only [decide_eq_false hf]
    refine ⟨rfl, ⟨[], rfl⟩, Nat.le_succ _, rfl, rfl, rfl, ?_, fun h => h⟩
    rintro ⟨h1, h2⟩
    refine ⟨?_, ?_⟩ <;> simp only [List.length_append, List.length_singleton, if_false, Bool.false_eq_true] <;> omega

/-- One more record keeps the trace pointer and count within the buffer. -/
theorem TrcS.put_bounds (t : TrcS) (r : TRec) (h : t.wrptr < 32768 ∧ t.held ≤ 32768) : (t.put r).wrptr < 32768 ∧ (t.put r).held ≤ 32768 := by
  unfold TrcS.put
  split
  · unfold TrcS.lose
    exact h
  · exact ⟨Nat.mod_lt _ (by decide), Nat.min_le_left _ _⟩

theorem State.withTrc_told (s : State) (t : TrcS) (h : (s.trc.wrptr < 32768 ∧ s.trc.held ≤ 32768) → t.wrptr < 32768 ∧ t.held ≤ 32768) :
    s.OnlyTold { s with trc := t } := ⟨rfl, ⟨[], rfl⟩, le_refl _, rfl, rfl, rfl, fun h => h, h⟩

theorem State.traceEvent_told (s : State) (r : EvRec) : s.OnlyTold (s.traceEvent r) := by
  unfold State.traceEvent
  split
  · exact .refl s
  · refine s.withTrc_told _ (fun h => TrcS.put_bounds _ _ ?_)
    split <;> exact TrcS.put_bounds _ _ h

theorem State.traceCheck_told (s old : State) : s.OnlyTold (s.traceCheck old) := by
  unfold State.traceCheck
  split
  · exact (s.postRec_told _).trans (State.traceEvent_told _ _)
  · exact .refl s

/-- Everything posting one record can do. -/
theorem State.post_told (s : State) (p : Post) : s.OnlyTold (s.post p) := by
  unfold State.post
  split
  · exact .refl s
  · exact (s.postRec_told p).trans ((State.traceEvent_told _ _).trans (State.traceCheck_told _ _))

/-- Everything a trace record can do. -/
theorem State.trace_told (s : State) (src rtype data : Nat) : s.OnlyTold (s.trace src rtype data) := by
  unfold State.trace
  split
  · exact .refl s
  · exact (s.withTrc_told _ (fun h => TrcS.put_bounds _ _ h)).trans (State.traceCheck_told _ _)

theorem State.traceReset_told (s : State) (domain : Nat) : s.OnlyTold (s.traceReset domain) := s.trace_told _ _ _

theorem State.postAll_told (s : State) (l : List Post) : s.OnlyTold (s.postAll l) := by
  unfold State.postAll
  exact State.OnlyTold.foldl _ State.post_told _ _

/-- Everything a change of the sled state can do: the new state, then events and vector 1. -/
theorem State.setSled_told (s : State) (st : SledSt) : { s with sled := { s.sled with st := st } }.OnlyTold (s.setSled st) := by
  unfold State.setSled
  extract_lets
  split
  · rename_i h; rw [← h]; exact .refl s
  · exact (State.post_told _ _).trans ((State.trace_told _ _ _ _).trans (State.OnlyTold.foldl _ State.notice_told _ _))

end Sys2Proof.Machine
end

