-- ==== Sys2Proof/Laws/Memory.lean ====
section
/-! SUPPORT. The byte memory: its canonical form, and what a byte reads as after a write (03 R109 to R113). -/

namespace Sys2Proof.Machine

/-- The canonical form, as a property of the list: addresses strictly rising, no zero byte. -/
theorem Memory.wf_iff (m : List Host.Cell) :
    Memory.wf m = true ↔ m.Pairwise (fun c d => c.1 < d.1) ∧ ∀ c ∈ m, c.2 ≠ 0 := by
  induction m with
  | nil => simp [Memory.wf]
  | cons c t ih =>
    cases t with
    | nil => simp [Memory.wf]
    | cons d t =>
      simp only [Memory.wf, Bool.and_eq_true, bne_iff_ne, decide_eq_true_eq, ih]
      constructor
      · rintro ⟨⟨hc, hcd⟩, hp, hn⟩
        refine ⟨List.pairwise_cons.mpr ⟨?_, hp⟩, ?_⟩
        · intro e he
          rcases List.mem_cons.mp he with rfl | he
          · exact hcd
          · exact lt_trans hcd ((List.pairwise_cons.mp hp).1 e he)
        · intro e he
          rcases List.mem_cons.mp he with rfl | he
          · exact hc
          · exact hn e he
      · rintro ⟨hp, hn⟩
        obtain ⟨h1, h2⟩ := List.pairwise_cons.mp hp
        exact ⟨⟨hn c (by simp), h1 d (by simp)⟩, h2, fun e he => hn e (List.mem_cons_of_mem _ he)⟩

/-- The cells of a byte string lie within it and list no zero. -/
theorem mem_cellsOf {a : Nat} {l : List Byte} {c : Host.Cell} (h : c ∈ cellsOf a l) : a ≤ c.1 ∧ c.1 < a + l.length ∧ c.2 ≠ 0 := by
  induction l generalizing a with
  | nil => simp [cellsOf] at h
  | cons b t ih =>
    simp only [cellsOf] at h
    split_ifs at h with hb
    · obtain ⟨h1, h2, h3⟩ := ih h
      exact ⟨by omega, by simp only [List.length_cons]; omega, h3⟩
    · rcases List.mem_cons.mp h with e | h
      · rw [e]; exact ⟨le_refl _, by simp, hb⟩
      · obtain ⟨h1, h2, h3⟩ := ih h
        exact ⟨by omega, by simp only [List.length_cons]; omega, h3⟩

theorem cellsOf_pairwise (a : Nat) (l : List Byte) : (cellsOf a l).Pairwise (fun c d => c.1 < d.1) := by
  induction l generalizing a with
  | nil => simp [cellsOf]
  | cons b t ih =>
    simp only [cellsOf]
    split_ifs
    · exact ih _
    · exact List.pairwise_cons.mpr ⟨fun c hc => by have := mem_cellsOf hc; simp only; omega, ih _⟩

/-- Every write of bytes keeps the canonical form. -/
theorem writeBytes_wf (m : List Host.Cell) (a : Nat) (l : List Byte) (h : Memory.wf m = true) : Memory.wf (writeBytes m a l) = true := by
  rw [Memory.wf_iff] at h ⊢
  obtain ⟨hp, hn⟩ := h
  refine ⟨?_, ?_⟩
  · unfold writeBytes
    rw [List.pairwise_append, List.pairwise_append]
    refine ⟨⟨hp.filter _, cellsOf_pairwise a l, ?_⟩, hp.filter _, ?_⟩
    · intro c hc d hd
      have h1 := (List.mem_filter.mp hc).2
      have h2 := mem_cellsOf hd
      simp only [decide_eq_true_eq] at h1
      omega
    · intro c hc d hd
      have h2 := (List.mem_filter.mp hd).2
      simp only [decide_eq_true_eq] at h2
      rcases List.mem_append.mp hc with hc | hc
      · have h1 := (List.mem_filter.mp hc).2
        simp only [decide_eq_true_eq] at h1
        omega
      · have h1 := mem_cellsOf hc
        omega
  · intro c hc
    simp only [writeBytes, List.mem_append, List.mem_filter] at hc
    rcases hc with (hc | hc) | hc
    · exact hn c hc.1
    · exact (mem_cellsOf hc).2.2
    · exact hn c hc.1

theorem readByte_append (m n : List Host.Cell) (x : Nat) :
    readByte (m ++ n) x = if (∃ c ∈ m, c.1 = x) then readByte m x else readByte n x := by
  induction m with
  | nil => simp [readByte]
  | cons c t ih =>
    simp only [List.cons_append, readByte, ih, List.exists_mem_cons_iff]
    by_cases h : c.1 = x <;> simp [h]

theorem readByte_none {m : List Host.Cell} {x : Nat} (h : ∀ c ∈ m, c.1 ≠ x) : readByte m x = 0 := by
  induction m with
  | nil => rfl
  | cons c t ih => simp [readByte, h c (by simp), ih (fun d hd => h d (List.mem_cons_of_mem _ hd))]

theorem readByte_filter (m : List Host.Cell) (p : Nat → Bool) (x : Nat) :
    readByte (m.filter (fun c => p c.1)) x = if p x then readByte m x else 0 := by
  induction m with
  | nil => simp [readByte]
  | cons c t ih =>
    by_cases hc : p c.1 = true <;> simp only [List.filter, hc, readByte, ih] <;> by_cases h : c.1 = x <;> simp_all

theorem readByte_cellsOf (a : Nat) (l : List Byte) (i : Nat) (h : i < l.length) : readByte (cellsOf a l) (a + i) = l.getD i 0 := by
  induction l generalizing a i with
  | nil => simp at h
  | cons b t ih =>
    cases i with
    | zero =>
      simp only [cellsOf, Nat.add_zero, List.getD_cons_zero]
      split_ifs with hb
      · rw [hb]; exact readByte_none (fun c hc => by have := mem_cellsOf hc; omega)
      · simp [readByte]
    | succ i =>
      have e : a + (i + 1) = a + 1 + i := by omega
      simp only [cellsOf, List.getD_cons_succ]
      rw [e]
      split_ifs with hb
      · exact ih _ _ (by simpa using h)
      · rw [readByte, if_neg (by simp only; omega)]; exact ih _ _ (by simpa using h)

/-- A byte outside a write reads as before. -/
theorem readByte_writeBytes_out (m : List Host.Cell) (a x : Nat) (l : List Byte) (h : x < a ∨ a + l.length ≤ x) :
    readByte (writeBytes m a l) x = readByte m x := by
  have hl := readByte_filter m (fun k => decide (k < a)) x
  have hr := readByte_filter m (fun k => decide (a + l.length ≤ k)) x
  have hc : ∀ c ∈ cellsOf a l, c.1 ≠ x := fun c hc => by have := mem_cellsOf hc; omega
  have h0 : readByte (cellsOf a l) x = 0 := readByte_none hc
  unfold writeBytes
  rw [readByte_append, readByte_append]
  rcases h with h | h
  · have hz : readByte (m.filter (fun c => decide (a + l.length ≤ c.1))) x = 0 := by rw [hr]; simp; omega
    simp only [h, decide_true, if_true] at hl
    split_ifs with h1 h2
    · exact hl
    · rw [h0, ← hl]; exact (readByte_none (fun c hc e => h2 ⟨c, hc, e⟩)).symm
    · rw [hz, ← hl]; exact (readByte_none (fun c hc e => h1 ⟨c, List.mem_append_left _ hc, e⟩)).symm
  · have hn : ¬ ∃ c ∈ m.filter (fun c => decide (c.1 < a)) ++ cellsOf a l, c.1 = x := by
      rintro ⟨c, hm, e⟩
      rcases List.mem_append.mp hm with hm | hm
      · have := (List.mem_filter.mp hm).2; simp only [decide_eq_true_eq] at this; omega
      · exact hc c hm e
    rw [if_neg hn, hr]
    simp [h]

/-- A byte inside a write reads as the byte written. -/
theorem readByte_writeBytes_in (m : List Host.Cell) (a i : Nat) (l : List Byte) (h : i < l.length) :
    readByte (writeBytes m a l) (a + i) = l.getD i 0 := by
  have hc := readByte_cellsOf a l i h
  have h1 : ¬ ∃ c ∈ m.filter (fun c => decide (c.1 < a)), c.1 = a + i := by
    rintro ⟨c, hm, e⟩
    have := (List.mem_filter.mp hm).2; simp only [decide_eq_true_eq] at this; omega
  unfold writeBytes
  rw [readByte_append, readByte_append, if_neg h1]
  split_ifs with h2
  · exact hc
  · rw [← hc, readByte_none (fun c hm e => h2 ⟨c, List.mem_append_right _ hm, e⟩)]
    refine readByte_none (fun c hm => ?_)
    have := (List.mem_filter.mp hm).2; simp only [decide_eq_true_eq] at this; omega

theorem readSorted_eq {m : List Host.Cell} (hp : m.Pairwise (fun c d => c.1 < d.1)) (n a : Nat) (h : ∀ c ∈ m, a ≤ c.1) :
    readSorted n m a = (List.range n).map (fun i => readByte m (a + i)) := by
  induction n generalizing m a with
  | zero => cases m <;> simp [readSorted]
  | succ n ih =>
    rw [List.range_succ_eq_map, List.map_cons, List.map_map]
    cases m with
    | nil =>
      simp only [readSorted, readByte]
      rw [ih List.Pairwise.nil (a + 1) (by simp)]
      simp [readByte, Function.comp_def]
    | cons c t =>
      obtain ⟨h1, h2⟩ := List.pairwise_cons.mp hp
      simp only [readSorted]
      split_ifs with e
      · rw [ih h2 (a + 1) (fun d hd => by have := h1 d hd; omega)]
        simp only [readByte, Nat.add_zero, e, if_true, Function.comp_def]
        congr 1
        refine List.map_congr_left (fun i _ => ?_)
        rw [if_neg (by omega)]
        congr 1; omega
      · have hc := h c (by simp)
        rw [ih hp (a + 1) (fun d hd => by
          rcases List.mem_cons.mp hd with rfl | hd
          · omega
          · have := h1 d hd; omega)]
        have z : readByte (c :: t) a = 0 := readByte_none (fun d hd => by
          rcases List.mem_cons.mp hd with rfl | hd
          · omega
          · have := h1 d hd; omega)
        simp only [Nat.add_zero, z, Function.comp_def]
        congr 1
        exact List.map_congr_left (fun i _ => by congr 1; omega)

theorem readByte_dropWhile {m : List Host.Cell} (a x : Nat) (h : a ≤ x) :
    readByte (m.dropWhile (fun c => decide (c.1 < a))) x = readByte m x := by
  induction m with
  | nil => rfl
  | cons c t ih =>
    simp only [List.dropWhile, readByte]
    split
    · rename_i hc
      simp only [decide_eq_true_eq] at hc
      rw [ih, if_neg (by omega)]
    · rfl

/-- A read of n bytes is n reads of one byte. -/
theorem readBytes_eq {m : List Host.Cell} (hw : Memory.wf m = true) (a n : Nat) :
    readBytes m a n = (List.range n).map (fun i => readByte m (a + i)) := by
  have hp := ((Memory.wf_iff m).mp hw).1
  unfold readBytes
  have hd : ∀ c ∈ m.dropWhile (fun c => decide (c.1 < a)), a ≤ c.1 := by
    clear hw
    induction m with
    | nil => simp
    | cons c t ih =>
      obtain ⟨h1, h2⟩ := List.pairwise_cons.mp hp
      simp only [List.dropWhile]
      split
      · exact ih h2
      · rename_i hc
        simp only [decide_eq_false_iff_not, Nat.not_lt] at hc
        intro d hd
        rcases List.mem_cons.mp hd with rfl | hd
        · exact hc
        · have := h1 d hd; omega
  rw [readSorted_eq (hp.sublist (List.dropWhile_sublist _)) n a hd]
  exact List.map_congr_left (fun i _ => readByte_dropWhile a (a + i) (by omega))

@[simp] theorem readBytes_length {m : List Host.Cell} (hw : Memory.wf m = true) (a n : Nat) : (readBytes m a n).length = n := by
  simp [readBytes_eq hw]

/-- A filter of memory keeps its canonical form: what a power loss or a queue's end drops (13 R492, 08 R353). -/
theorem Memory.wf_filter (m : List Host.Cell) (p : Host.Cell → Bool) (h : Memory.wf m = true) : Memory.wf (m.filter p) = true := by
  rw [Memory.wf_iff] at h ⊢
  exact ⟨h.1.filter _, fun c hc => h.2 c (List.mem_filter.mp hc).1⟩

end Sys2Proof.Machine
end

