-- ==== Sys2Proof/Laws/Runs.lean ====
section
/-! SUPPORT. What writing the bytes of a run, releasing one and setting a Fence Map bit can do, said once (03 R113, R114; 04 R154; 02 R67;
14 R504). -/

namespace Sys2Proof.Machine

/-- Everything a write of a run can do: the run's bytes, the epochs of a Tarn run with its posted writes, a power-down that ends,
the bank queue that its requests pass through. -/
structure State.RunWritten (s t : State) (l : Loc) (b : List Byte) : Prop where
  rest : t = { s with mem := t.mem, pond := { s.pond with pch := t.pond.pch, bq := t.pond.bq }, out := t.out }
  bytes : t.mem.bytes = writeBytes s.mem.bytes (l.sector * 256) b
  sent : ∃ k, t.out = k ++ s.out
  near : (∀ w n, l ≠ .tarn w n) → t.mem.tarnEp = s.mem.tarnEp ∧ t.out = s.out

theorem State.sendTarn_rest (s : State) (w sec : Nat) (l : List Byte) (n : Nat) :
    s.sendTarn w sec l n = { s with mem := { s.mem with tarnEp := (s.sendTarn w sec l n).mem.tarnEp }, out := (s.sendTarn w sec l n).out } ∧
    ∃ k, (s.sendTarn w sec l n).out = k ++ s.out := by
  induction n with
  | zero => exact ⟨rfl, [], rfl⟩
  | succ n ih =>
    obtain ⟨h, k, hk⟩ := ih
    refine ⟨?_, _ :: k, congrArg (List.cons _) hk⟩
    conv_lhs => rw [State.sendTarn, h]
    rfl

theorem State.bankUse_rest (s : State) (a len : Nat) (p : PPort) (c : Nat) :
    s.bankUse a len p c = { s with pond := { s.pond with bq := (s.bankUse a len p c).pond.bq } } := rfl

theorem State.wakeSid_rest (s : State) (l : Loc) (len : Nat) (p : PPort) (c : Nat) :
    s.wakeSid l len p c = { s with pond := { s.pond with pch := (s.wakeSid l len p c).pond.pch, bq := (s.wakeSid l len p c).pond.bq } } := by
  cases l with
  | near b a =>
    cases b with
    | false =>
      simp only [State.wakeSid]
      split_ifs
      · rw [State.bankUse_rest]
      · rw [State.bankUse_rest]; rfl
    | true => rfl
  | flash f x => rfl
  | tarn w x => rfl

theorem State.writeRun_written (s : State) (l : Loc) (b : List Byte) : s.RunWritten (s.writeRun l b) l b := by
  unfold State.writeRun
  extract_lets _ s1
  have a (u : State) (c : Tbl Pch) (q : Tbl BankQ) (h : u = { s1 with pond := { s1.pond with pch := c, bq := q } }) : s.RunWritten u l b := by
    subst h
    exact ⟨rfl, rfl, ⟨[], rfl⟩, fun _ => ⟨rfl, rfl⟩⟩
  have d (u : State) (e : Tbl Byte) (o k : List Output) (h : u = { s1 with mem := { s1.mem with tarnEp := e }, out := o }) (hk : o = k ++ s1.out)
      (ht : ¬ ∀ w n, l ≠ .tarn w n) : s.RunWritten u l b := by
    subst h
    exact ⟨rfl, rfl, ⟨k, hk⟩, fun e => absurd e ht⟩
  split
  · rename_i w sec
    obtain ⟨h, k, hk⟩ := s1.sendTarn_rest w sec b (b.length / 256)
    exact d _ _ _ k h hk (fun e => e w sec rfl)
  · exact a _ _ _ (s1.wakeSid_rest _ _ _ _)

/-- Writing a run keeps memory canonical. -/
theorem State.writeRun_memSafe (s : State) (l : Loc) (b : List Byte) (h : MemSafe s) : MemSafe (s.writeRun l b) := by
  unfold MemSafe
  rw [(s.writeRun_written l b).bytes]
  exact writeBytes_wf _ _ _ h

/-- Writing a run leaves every byte outside it. -/
theorem State.writeRun_keeps (s : State) (l : Loc) (b : List Byte) : s.MemKeptBut (s.writeRun l b) (l.sector * 256) b.length := by
  intro x h
  rw [(s.writeRun_written l b).bytes]
  exact readByte_writeBytes_out _ _ _ _ h

/-- What was written to a run reads back. -/
theorem State.writeRun_read (s : State) (l : Loc) (b : List Byte) (i : Nat) (hi : i < b.length) :
    readByte (s.writeRun l b).mem.bytes (l.sector * 256 + i) = b.getD i 0 := by
  rw [(s.writeRun_written l b).bytes]
  exact readByte_writeBytes_in _ _ _ _ hi

/-- Everything releasing a run can do: one more run waits to be released. -/
theorem State.release_rest (s : State) (l : Loc) (len : Nat) (image : Bool) :
    s.release l len image = { s with map := { s.map with rel := (s.release l len image).map.rel, relNo := (s.release l len image).map.relNo } } := by
  unfold State.release
  split_ifs <;> rfl

/-- Everything setting one Fence Map bit can do: that bit, with its cause if it was clear, and its copy in the settings store. -/
theorem State.setBit_fenced (s : State) (u v : FUnit) (cause : Byte) :
    (s.setBit u cause).fenced v = (s.fenced v || v.bit == u.bit) := by
  unfold State.setBit State.fenced Tbl.has
  split_ifs with h
  · by_cases e : v.bit = u.bit
    · simp_all
    · simp [e]
  · by_cases e : v.bit = u.bit
    · simp [e]
    · simp [e, Tbl.find_put_ne _ _ e]

theorem State.setBit_rest (s : State) (u : FUnit) (cause : Byte) :
    s.setBit u cause = { s with evt := { s.evt with fmap := (s.setBit u cause).evt.fmap }, fw := (s.setBit u cause).fw } := by
  unfold State.setBit
  split_ifs <;> rfl

end Sys2Proof.Machine
end

