-- ==== Sys2Proof/Machine/BarRead.lean ====
section
/-! DEFINITION. What a host reads: the configuration values of a host function (07 R278) and the registers behind its BARs (00 R18; 07 R279,
R304 to R308; 08 R346 to R349; 14 R500; 19 R632 to R645). The table has no row for a read of these but KEVT_LOST_READ: they are functions of the
state, so that a statement can name what a read returns. -/

namespace Sys2Proof.Machine

/-! ### Configuration space (07 R275, R278) -/

/-- The capabilities a host function lists (07 R278). -/
inductive PciCap
  | pciExpress | powerManagement | msix | aer | doe | ide | l1Substates | flitLogging | ari
deriving DecidableEq, Repr

/-- The DVSECs a host function lists (07 R278). -/
inductive Dvsec
  | cxlDevice | flexBusPort | registerLocator
deriving DecidableEq, Repr

/-- Blocks that the register locator names (07 R278; 19 R633). -/
inductive RegBlock
  | component | device
deriving DecidableEq, Repr

/-- The configuration values and structures of a host function (07 R278). -/
structure PciConfig where
  vendor : W16
  device : W16
  cls : BitVec 24
  caps : List PciCap
  dvsecs : List Dvsec
  /-- register locator: block, BAR and offset. -/
  locator : List (RegBlock × Nat × Nat)
deriving DecidableEq, Repr

/-- What every host function presents; ARI in fabric mode only. -/
def State.pciConfig (s : State) (h : HostId) : PciConfig :=
  { vendor := Config.vendorId, device := 0x4B09, cls := 0x050210
    caps := [.pciExpress, .powerManagement, .msix, .aer, .doe, .ide, .l1Substates, .flitLogging] ++
      (if s.fabric (s.halfOf h) then [.ari] else [])
    dvsecs := [.cxlDevice, .flexBusPort, .registerLocator]
    locator := [(.component, 0, 0xA000), (.device, 0, 0xB000)] }

/-- Size in bytes of BAR0, BAR2 and BAR4 (07 R279). -/
def barSize : Bar → Nat
  | .bar0 => 2 ^ 16
  | .bar2 => 2 ^ 18
  | .bar4 => 2 ^ 24

/-! ### BAR0 (07 R304, R305; 08 R346 to R349; 14 R500; 19 R645) -/

/-- `KDEV_IDENT` of a host function. -/
def State.devIdent (s : State) (h : HostId) : W64 :=
  pack [(0, s.id.variant.code), (8, 0x10), (16, s.id.sledId.toNat), (32, h.toNat), (42, s.halfOf h), (46, bit (s.isOwnerFn h))]

/-- `KDEV_FCTL`: `FRESET` reads zero. -/
def State.fctl (s : State) (h : HostId) : W64 := pack [(1, bit (s.fnOf h).wakeEv)]

/-- `KDEV_FSTAT`. -/
def State.fstat (s : State) (h : HostId) : W64 :=
  pack [(0, s.sled.st.code), (3, bit (s.fnOf h).d3), (16, (s.grantsOfHost h).length)]

/-- `QSTATE` codes. -/
def QSt.code : QSt → Nat
  | .disabled => 0
  | .running => 1
  | .draining => 2
  | .error => 3

/-- `KQ_STAT` and `KQ_CNT`. -/
def State.queueStat (s : State) (h : HostId) (q : QueueNo) : W64 :=
  let x := s.queue h q
  pack [(0, x.st.code), (8, x.sqhead), (20, x.cqtail), (32, (s.progsOf h q).length), (39, bit x.heldBit), (40, x.err.toNat)]
def Queue.cntWord (x : Queue) : W64 := pack [(0, x.done.toNat), (32, x.notok.toNat)]

/-- A slot of a queue frame. -/
def State.queueSlot (s : State) (h : HostId) (q : QueueNo) (off : Nat) : W64 :=
  let x := s.queue h q
  match off with
  | 0 => x.sqbase
  | 8 => x.cqbase
  | 16 => x.cfgWord
  | 24 => s.queueStat h q
  | 32 => x.cntWord
  | _ => 0

/-- A slot of `KEVT_WIN`: slot j of 32 bytes holds readable record j + 1. -/
def State.evtWin (s : State) (h : HostId) (off : Nat) : W64 :=
  match (s.readable h)[off / 32]? with
  | some p => p.2.words.getD (off / 8 % 4) 0
  | none => 0

/-- The MSI-X pending bits of a function, vectors 0 to 65 (19 R633). -/
def Fn.pba (f : Fn) (w : Nat) : W64 := pack ((f.msixPend.filter (fun v => v / 64 == w)).map (fun v => (v % 64, 1)))

/-- A slot of BAR0, at a multiple of 8; write-only registers and reserved space read zero. -/
def State.bar0Read (s : State) (h : HostId) (a : Nat) : W64 :=
  if a = 0 then s.devIdent h
  else if a = 8 then s.fctl h
  else if a = 0x10 then s.fstat h
  else if 0x1000 ≤ a ∧ a < 0x2000 then s.queueSlot h (BitVec.ofNat 6 ((a - 0x1000) / 0x40)) (a % 0x40)
  else if 0x8000 ≤ a ∧ a < 0x9000 then s.evtWin h (a - 0x8000)
  else if a = 0x9000 then pack [(0, s.avail h)]
  else if a = 0x9010 then (s.reader h).lost.setWidth 64
  else if a = 0x9018 then pack [(0, (s.reader h).minsev.toNat), (3, bit (s.reader h).notify)]
  else if (0xA000 ≤ a ∧ a < 0xB100) ∨ (0xC000 ≤ a ∧ a < 0xC420) then (s.fnOf h).std.getD a (Config.stdPayload (0x10000 + a) 0)
  else if 0xE000 ≤ a ∧ a < 0xE010 then (s.fnOf h).pba ((a - 0xE000) / 8)
  else 0

/-- A slot of one BAR: the doorbells of BAR2 and the peer window read zero; BAR4 serves the sled-global space on the owner function alone (07
R279; 19 R635, R646). -/
def State.barSlot (s : State) (h : HostId) (bar : Bar) (a : Nat) : W64 :=
  match bar with
  | .bar0 => s.bar0Read h a
  | .bar2 => 0
  | .bar4 => if s.isOwnerFn h ∧ a < 0x800000 then s.regRead a else 0

/-- A host's read of n bytes of a BAR: the bytes, and the state after it, in which a read that covers `KEVT_LOST` has cleared it (19 R638,
R639). A function that is not reached answers nothing (19 R644, R651). -/
def State.barRead (s : State) (h : HostId) (bar : Bar) (off n : Nat) : Option (List Byte) × State :=
  if s.barOpen h = false then (none, s)
  else
    let b := (List.range n).map (fun i => ((s.barSlot h bar ((off + i) / 8 * 8)).extractLsb' (8 * ((off + i) % 8)) 8))
    let lost := bar == .bar0 && decide (off < 0x9014 ∧ 0x9010 < off + n)
    (some b, if lost then s.setReader h { s.reader h with lost := 0 } else s)

end Sys2Proof.Machine
end

