-- ==== Sys2Proof/Tests/Slice0.lean ====
section
/-! SUPPORT. Tests of the model: the smoke tests of well-formedness, a few worked values of the spec, and for each obligation the states and operands
that meet the hypotheses of its clauses. -/

set_option Elab.async false

namespace Sys2Proof.Tests
open Sys2Proof Sys2Proof.Machine

/-! ### Small states -/

/-- A sled in SERVE with nothing in it. -/
def up : State := { State.reset with sled := { State.reset.sled with st := .serve } }

/-- Half 0 has a link; host 0 is bound to it. -/
def linked : State := up.setHalf 0 { Half.reset with link := 2, hold := false, trained := true }

/-- Region 1 as NEW, whole and in service. -/
def ent1 : REnt := { REnt.freed with gen := 2, st := .active, owner := 0 }

/-- Region 1 with the DSHARED flag, so that its lines are tracked. -/
def ent1s : REnt := { ent1 with shared := true }

/-- A grant of the first granule of region 1 to host 0 at DPA 0. -/
def grant1 (rw : Bool) : Grant := { host := 0, region := 1, first := 0, count := 1, rw := rw, dpa := 0 }

/-- Host 0 reaches region 1. -/
def mapped (e : REnt) (rw : Bool) : State :=
  let s := linked.setEnt 1 e
  { s with rt := { s.rt with grants := [(0, grant1 rw)] } }

/-- An OPEN entry homed at near address a. -/
def opnAt (a : Nat) : Sme :=
  ⟨({ st := 2, spr := false, codec := 2, csize := 16, pin := false, lend := false, prior := 0, age := 0, aux := 0 } : SmeF).word, BitVec.ofNat 64 a⟩

/-- Segment 0 of region 1 in Pond at near address 256, with a byte that is not zero. -/
def inPond (s : State) : State :=
  let t := s.putSme 1 0 (opnAt 256)
  { t with mem := { t.mem with bytes := [(pondByte 256 0 + 3, 7)] } }

/-- A request of host 0 for DPA 0. -/
def req0 (k : ReqKind) (w : Held) : HReq :=
  { no := 0, host := 0, half := 0, dpa := 0, kind := k, nocache := false, region := 1, line := 0, gen := 2, ent := ent1, gnt := some (0, grant1 true), data := 5, mask := 1, poison := false, why := w }

def withHeld (s : State) (x : HReq) : State := { s with dir := { s.dir with held := [x], reqNo := 1 } }

def dEnt1 (busy : Bool) : DEnt := { line := 0, region := 1, st := .excl, coarse := false, vec := 0, busy := busy }

/-- A snoop of the one line of region 1 is in flight to host 0. -/
def snooped (s : State) (k : SnpKind) : State := { s with dir := { s.dir with ent := [dEnt1 true], snoops := [⟨1, 0, 0, k⟩] } }

def withMove (s : State) (m : Move) : State := { s with map := { s.map with moves := [(0, m)], moveNo := 1 } }

/-- A move of segment 0 of region 1. -/
def mv (d : Loc) (image : Bool) (why : MoveFor) : Move :=
  { region := 1, seg := 0, dest := d, len := 16, image := image, sealing := false, fails := 0, verified := false, cls := 3, why := why }

/-- A program of host 0 on queue 0, at the first of its words. -/
def prog0 (k : QKind) (core : Nat) (words : List W64) : Prog :=
  startProg 0 0 k { cid := 7, irq := false, order := false, words := words, args := [], h0 := 0 } core

/-- Queue 0 of host 0 runs. -/
def withQueue (s : State) : State := s.setQueue 0 0 { Queue.reset with enable := true, st := .running, sizeM1 := 15, kind := 1, sqbase := 0x1000, cqbase := 0x2000 }

def withProg (s : State) (x : Prog) : State := (withQueue s).setProg 0 x

/-- Segment 0 of region 1 as an OPEN entry in Lake, flash page 0. -/
def inLake (s : State) : State := s.putSme 1 0 { opnAt 0 with w0 := ({ (opnAt 0).f with st := 4 } : SmeF).word, w1 := (Loc.flash 0 0).word1 }

/-- Segment 0 of region 1 as an OPEN entry in window 0. -/
def inTarn (s : State) : State :=
  let t := s.putSme 1 0 { opnAt 0 with w0 := ({ (opnAt 0).f with st := 5 } : SmeF).word, w1 := (Loc.tarn 0 0).word1 }
  { t with mem := { t.mem with tarnEp := (List.range 16).map (fun i => (i, 0)) }, ports := { t.ports with np := [(0, { host := 0, region := 1, seg := 0, retried := false })] } }

def withMiss (s : State) : State := { s with lake := { s.lake with misses := [(segKey 1 0, none)] } }

def rested (s : State) : State := { s with clk := { s.clk with store := 60, ms := 60 } }

def onTrial (s : State) : State := { s with map := { s.map with trials := [(segKey 1 0, 0)] } }

/-- The LZV form of a segment of zeros but for byte 3. -/
def lzv1 : Packed := { csize := 1, run := [0x0B, 0, 0, 0x10, 0, 0x10, 0, 0x10, 3, 0, 0, 0, 0, 7, 0xFB, 0xD3, 0, 0, 0xC0] ++ List.replicate 237 0 }

def ent1k : REnt := { ent1 with keep := true }

/-- A store of a Keep region waits for admission: the budget is not zero, the level is. -/
def keepHeld : State := { withHeld (mapped ent1k true) (req0 .wr .admission) with pwr := { PwrS.reset with budget := 1 } }

def stalled1 : State := { up.setEnt 1 { ent1 with gen := 3 } with rt := { (up.setEnt 1 { ent1 with gen := 3 }).rt with stalled := [⟨1, ent1, none, none, 0⟩] } }

def ctlProg : Prog := { prog0 .control 256 [] with wait := .control }

def draining : State :=
  let s := withProg (up.setEnt 1 ent1) ctlProg
  { s with rt := { s.rt with drains := [⟨1, 2, 0⟩] } }

def releasing (image : Bool) : State := { up with map := { up.map with rel := [(0, ⟨.near false 256, 16, image⟩)] } }

def zeroInPond : State := { inPond (mapped ent1 true) with mem := State.reset.mem }

/-- Pseudo-channel 3 in service, with changes. -/
def pchOn (f : Pch → Pch) : State := up.setPch 3 (f { Pch.reset with svc := true })

def panicking (s : State) (l : List Nat) : State := { s with pond := { s.pond with panic := [(0, l)] } }

def streaming : State :=
  let s := inPond (mapped ent1 true)
  { s with ports := { s.ports with streams := [{ half := 0, host := 0, region := 1, last := 0 }] } }

/-- Segment 0 of region 1 in the first sectors of pseudo-channel 3. -/
def pond3 : State := (pchOn id).putSme 1 0 (opnAt (3 * 2 ^ 23))

def booting (b : Boot) (st : SledSt) : State := { State.reset with sled := { State.reset.sled with st := st, boot := b } }

def stripe0 (moves : List Nat) : Stripe := { sb := 9, idx := 0, strm := .host, fill := [(0, 16)], moves := moves, full := false }

def withStripe (s : State) (moves : List Nat) : State :=
  { s with lake := { s.lake with mounted := true, stripes := [(0, stripe0 moves)], stripeNo := 1 } }

def lakeMv : Move := { mv (.flash 5 3) false .evict with verified := true, len := 16 }

def mountedUp : State := { up with lake := { up.lake with mounted := true } }

def closedSb (n erase : Nat) : State := mountedUp.setSb n { Sb.reset with st := .closed, erase := erase }

def keptSb : State := (closedSb 0 0).putSme 1 0 { opnAt 0 with w0 := ({ (opnAt 0).f with st := 4 } : SmeF).word, w1 := (Loc.flash 0 0).word1 }

def mounting : State := { booting Boot.mount .train with lake := { State.reset.lake with ckpt := ⟨[(1, ent1k)], [], [], []⟩ } }

def bankedGroup : State := up.setLedger 16 { up.ledger 16 with st := .banked }

def formattingS : State := { booting Boot.none .vigil with mgt := { State.reset.mgt with formatting := true }, sled := { (booting Boot.none .vigil).sled with vigilDone := true } }

def collectable : State := { closedSb 600 4498 with pwr := { PwrS.reset with profile := .training } }

def worn : State := { mountedUp with lake := { mountedUp.lake with retired := mountedUp.id.variant.blocks } }

/-- A word: opcode, format, X, D, A, and the rest of its fields in place. -/
def ins (op fmt ext d a rest : Nat) : W64 := BitVec.ofNat 64 (op + ext * 2 ^ 8 + fmt * 2 ^ 13 + d * 2 ^ 16 + a * 2 ^ 21 + rest)

/-- A valid handle of region r at byte offset b. -/
def hnd (r b : Nat) : W64 := BitVec.ofNat 64 (r + b * 2 ^ 16 + 2 ^ 63)

/-- A program with general registers and handle register 0. -/
def regs (x : Prog) (g : List (Nat × W64)) (h : W64) : Prog := { g.foldl (fun y p => y.setG p.1 p.2) x with h := h :: List.replicate 7 0 }

/-- A control program of host 0. -/
def ctl (words : List W64) (g : List (Nat × W64)) : Prog := regs (prog0 .control 256 words) g (hnd 1 0)

/-- A control program runs on the sled with region 1. -/
def ctlS (x : Prog) : State := withProg (mapped ent1 true) x

def ownerS (x : Prog) : State := (ctlS x).setBind 0 { valid := true, half := 0, func := 0, spid := 0, owner := true }

def pNew : Prog := ctl [ins 0x20 0 1 0 0 0, 0x400000] []
def pGrantHost : Prog := ctl [ins 0x21 0 0 3 0 (1 * 2 ^ 26 + 2 * 2 ^ 31 + 4 * 2 ^ 36)] [(1, 0), (2, 1)]
def pGrantWindow : Prog := ctl [ins 0x21 0 0 3 0 (1 * 2 ^ 26 + 2 * 2 ^ 31 + 1 * 2 ^ 36)] [(1, 0), (2, 0x10000000)]
def pGrantPeer : Prog := ctl [ins 0x21 0 0 3 0 (1 * 2 ^ 26 + 6 * 2 ^ 36)] [(1, 5)]
def ent1n : REnt := { ent1 with st := .new }
def offer1 : Offer := { grant := { grant1 true with dpa := 2 ^ 28 }, prog := 0, d := 3 }
def offered : State :=
  let s := withProg (mapped ent1n true) ctlProg
  { s with rt := { s.rt with offers := [(1, offer1)] } }
def pRevoke : Prog := ctl [ins 0x22 1 0 0 1 0] [(1, 0)]
def revoking : State :=
  let s := withProg (mapped ent1 true) ctlProg
  { s with rt := { s.rt with revokes := [(0, { progs := [0], stage := .waitRelease })] } }
def pSeal : Prog := ctl [ins 0x23 1 0 0 0 0] []
def pKeep : Prog := ctl [ins 0x24 1 0 0 0 (1 * 2 ^ 26)] []
def pFree : Prog := ctl [ins 0x25 1 0 0 0 0] []
def freed1 : State := { up with rt := { up.rt with releasing := [1] } }
def pPin : Prog := ctl [ins 0x26 0 0 0 0 (1 * 2 ^ 26)] [(1, 8192)]
def pUnpin : Prog := ctl [ins 0x27 0 0 0 0 (1 * 2 ^ 26)] [(1, 8192)]
def eMove (kind : Nat) : W64 := BitVec.ofNat 64 kind
def pMove (e : W64) (c : Nat) : Prog := ctl [ins 0x28 0 1 3 0 (1 * 2 ^ 26 + c * 2 ^ 31), e] [(1, 4096), (2, 0x10000)]
def pEvac : Prog := ctl [ins 0x29 0 0 0 0 (1 * 2 ^ 26 + 2 * 2 ^ 31)] [(1, 5), (2, 2)]
def smePat : Sme := ⟨({ st := 1, spr := false, codec := 1, csize := 0, pin := false, lend := false, prior := 0, age := 0, aux := 0 } : SmeF).word, 0xAB⟩
def withPeer (s : State) : State :=
  { s with mgt := { s.mgt with lanes := [(0, (5, 9))] }, rt := { s.rt with peers := [(0, ⟨5, 1, true⟩)] } }
def frame1 : PFrame := { src := 5, tag := 1, region := 1, seg := 0, seq := 0, count := 1, payload := List.replicate 4096 7 }
def pmove1 (op : Option Nat) (sends : Bool) (done : Option Nat) : PMove :=
  { peer := 5, tag := 1, sends := sends, op := op, region := 1, first := 0, count := 1, segs := none, peerRegion := 2, peerSeg := 0, seq := 1,
    acked := 0, retried := [], slots := [], done := done, got := [] }
def op1 (k : OpKind) : COp :=
  { kind := k, prog := 0, also := [], region := 1, first := 0, count := 1, done := 0, failed := none, status := 0, detail := 0, d := 3,
    peerSled := 5, peerRegion := 2, peerSeg := 0, c3 := false, tier := .pond, aux := 0, resv := 0, owed := [], pick := 0 }
def peerMoving (m : PMove) : State :=
  let s := withPeer (withProg (mapped ent1 true) ctlProg)
  { s with ports := { s.ports with pmoves := [m] }, q := { s.q with ops := [(0, op1 .push)], opNo := 1 } }
def pProfile : Prog := ctl [ins 0x2A 1 0 0 0 (1 * 2 ^ 32)] []
def switching : State :=
  let s := ownerS ctlProg
  { s with pwr := { s.pwr with switching := some (0, .training) } }
def image1 : Image := { iseq := 2, svn := 0, version := 7, setfmt := 0, chunks := 1, formed := true, settings := false }
def pStage (m : Nat) : Prog := ctl [ins 0x2B 0 0 0 0 (1 * 2 ^ 26 + m * 2 ^ 36)] [(1, 131072)]
/-- A sled whose hold-up store allows a staging. -/
def charged (s : State) : State := { s with pwr := { s.pwr with eMeas := 4000000, eNow := 4000000, full := true } }
def slotIn (st : SlotSt) : Slot := { Slot.empty with st := st, iseq := 2, version := 7 }
def withSlot1 (s : State) (st : SlotSt) : State := { s with fw := { s.fw with slot1 := slotIn st } }
def pActivate : Prog := ctl [ins 0x2C 1 0 0 0 0] []
def pConfirm : Prog := ctl [ins 0x2D 1 0 0 0 0] []

def logged : State := { linked with ports := { linked.ports with dcLog := [(0, [.add 1 0 1 0])] } }
def perst0 : State := { linked with ports := { linked.ports with perst := [0] } }
def inD3 : State := linked.setFn 0 { Fn.reset with d3 := true, msixPend := [1] }
def awaiting (link cold : Bool) : State := { linked with ports := { linked.ports with resets := [⟨0, link, cold, none⟩] } }
def training0 : State :=
  let s := awaiting true false
  s.setHalf 0 { s.halfReg 0 with link := 1 }
def lent : State := { inTarn linked with rt := { linked.rt with windows := [(0, ⟨0, 0, 2 ^ 28⟩)] }, ports := linked.ports }
def reading0 : State := { linked with ports := { linked.ports with np := [(0, { host := 0, region := 1, seg := 0, retried := false })] } }
def keyed0 : State := linked.setHalf 0 { linked.halfReg 0 with ide := true }
def inActivation (s : State) : State := { s with fw := { s.fw with act := some ⟨1, none, true, 0, 0⟩ } }
def queued (f : Queue → Queue) : State :=
  let s := withQueue (inPond (mapped ent1 true))
  s.setQueue 0 0 (f (s.queue 0 0))
def bases : State := linked.setQueue 0 0 { Queue.reset with sqbase := 0x1000, cqbase := 0x2000 }
def cfg15 : W64 := 0x0000080064201FE9
/-- A descriptor: form, number of words, word 1, word 2. -/
def desc (form n w1 w2 : Nat) : Line := BitVec.ofNat 512 (7 + form * 2 ^ 16 + n * 2 ^ 32 + w1 * 2 ^ 64 + w2 * 2 ^ 128)
def ready1 : Ready := { cid := 7, irq := false, order := false, words := [ins 7 1 0 0 0 0], args := [], h0 := hnd 1 0 }
def dispatchable (k : BitVec 2) : State :=
  let s := linked.setQueue 0 0 { Queue.reset with enable := true, st := .running, sizeM1 := 15, kind := k, ready := [ready1] }
  { s with q := { s.q with dispatching := true } }

def halt : W64 := ins 7 1 0 0 0 0
/-- A compute program of host 0 on core 0, before HALT. -/
def comp (words : List W64) (g : List (Nat × W64)) : Prog := regs (prog0 .compute 0 (words ++ [halt])) g (hnd 1 0)
def compS (x : Prog) : State := withProg (inPond (mapped ent1 true)) x
def pBr : Prog := comp [ins 1 3 0 0 0 (2 * 2 ^ 26 + 1 * 2 ^ 32)] []
def pBrInd : Prog := comp [ins 1 3 0 0 1 (32 * 2 ^ 26)] [(1, 5)]
def pLoop (n : W64) : Prog := comp [ins 2 3 0 1 0 0] [(1, n)]
def pFence : Prog := comp [ins 6 1 0 0 0 (1 * 2 ^ 26)] []
def store1 : PStore := ⟨1, 3, [9, 8], none, 0⟩
def pFenceSt : Prog := { pFence with stores := [store1] }
def pHalt : Prog := comp [] []
def pWait (form d a : Nat) (g : List (Nat × W64)) : Prog := comp [ins 3 1 0 d a (form * 2 ^ 26 + 5 * 2 ^ 32)] g
def beatS (x : Prog) : State := (compS x).setQueue 0 1 { Queue.reset with enable := true, st := .running, kind := 2 }
def waiting (w : PWait) : Prog := { pHalt with wait := w }
def pSignal : Prog := comp [ins 4 1 0 0 0 (3 * 2 ^ 26 + 1 * 2 ^ 32)] []
def two (x y : Prog) : State := (compS x).setProg 1 y
def pKick : Prog := comp [ins 5 1 0 0 0 0] []
def pMovs (form imm : Nat) (g : List (Nat × W64)) : Prog := comp [ins 8 1 0 3 1 (form * 2 ^ 26 + imm * 2 ^ 32)] g
def pMovs0 : Prog := comp [ins 8 1 0 3 0 (4 * 2 ^ 32)] []
def pMovsP : Prog := comp [ins 8 1 0 3 1 (6 * 2 ^ 26 + 1 * 2 ^ 9 + 5 * 2 ^ 32)] []
def pHadd : Prog := comp [ins 8 1 0 3 0 (0xD * 2 ^ 26 + 1 * 2 ^ 32)] [(1, 0x400000000000)]
def pCommit (l : List PStore) : Prog := { pFence with stores := l, wait := .commit .next }
/-- LD or ST: opcode, D, MOD, H and OFF. -/
def pMem (op d mod off : Nat) (g : List (Nat × W64)) : Prog := comp [ins op 2 0 d 0 (mod * 2 ^ 34 + off * 2 ^ 38)] g
def pPrefetch : Prog := comp [ins 0x44 2 0 1 0 0] [(1, 4096)]
def pStCtl : Prog := regs (prog0 .control 256 [ins 0x41 2 0 1 0 0]) [(1, 5)] (hnd 1 0)
/-- GATHER or SCATTER of n rows of 64 B, indices at scratch 0, rows at scratch 4096. -/
def pRows (op n : Nat) : Prog := comp [ins op 0 1 1 2 (3 * 2 ^ 26 + 4 * 2 ^ 31), BitVec.ofNat 64 (64 + 64 * 2 ^ 16)] [(1, 4096), (2, 0), (3, BitVec.ofNat 64 n), (4, 0)]
def pScat (n : Nat) : Prog := comp [ins 0x43 0 1 1 2 (3 * 2 ^ 26), BitVec.ofNat 64 (64 + 64 * 2 ^ 16)] [(1, 4096), (2, 0), (3, BitVec.ofNat 64 n)]
def badIndex (x : Prog) : State :=
  let s := compS x
  s.scratchWrite x 0 [0xFF, 0xFF, 0xFF, 0xFF]
/-- A vector program: opcode, D, A, B, MOD. -/
def pVec (op d a b mod : Nat) (g : List (Nat × W64)) : Prog :=
  let x := comp [ins op 0 0 d a (b * 2 ^ 26 + mod * 2 ^ 36)] g
  { x with v := List.replicate 8 (BitVec.ofNat 1024 0x0040400040003C00) ++ List.replicate 24 (BitVec.ofNat 1024 0x3C003C00BC003C00) }

/-- The core's Spring is full of runs to be released. -/
def fullCore (s : State) : State := { s with map := { s.map with rel := [(0, ⟨.near true 0, 4096, false⟩)] } }
def pDeqOff : Prog := { pVec 0x62 16 0 8 3 [] with words := [ins 0x62 0 0 16 0 (8 * 2 ^ 26 + 3 * 2 ^ 36) + 0x200, halt] }
/-- A region with P-ONLY, which may hold lamp words. -/
def ent1p : REnt := { ent1 with ponly := true }
def lampUp (x : Prog) : State := withProg (inPond (mapped ent1p true)) x
def hdrRec : BitVec 256 := BitVec.ofNat 256 (1 + 0x800 * 2 ^ 16 + 8 * 2 ^ 64 + 2 * 2 ^ 248)
def stepRec : BitVec 256 := BitVec.ofNat 256 (1 + 2 * 2 ^ 80 + 100 * 2 ^ 96 + 1 * 2 ^ 216 + 1 * 2 ^ 248)
def sch1 : Sched := loadedSched hdrRec [stepOf stepRec]
def armed1 : Sched := { sch1 with armed := true }
/-- A schedule program of host 0 on queue 0. -/
def schedP (words : List W64) (g : List (Nat × W64)) : Prog := { comp words g with kind := .schedule }
def pStep (l : List (BitVec 256)) : Prog := { schedP [ins 0xA2 0 0 0 4 0] [(4, 1), (7, 2 ^ 56)] with stepBuf := l }
theorem pStep_buf (l : List (BitVec 256)) : (pStep l).stepBuf = l := rfl
def pSLoad (l : List (BitVec 256)) : Prog := { schedP [ins 0xA0 0 0 0 1 0] [] with stepBuf := l }
def pSLoadM : Prog := schedP [ins 0xA0 0 0 0 1 (2 * 2 ^ 31 + 1 * 2 ^ 36)] [(2, 2)]
/-- The two records stand at byte 0 of region 1: their bytes that are not zero. -/
def recsInPond (s : State) : State :=
  let b := pondByte 256 0
  { s with mem := { s.mem with bytes := [(b, 1), (b + 3, 8), (b + 8, 8), (b + 31, 2), (b + 32, 1), (b + 42, 2), (b + 44, 100), (b + 59, 1), (b + 63, 1)] } }
def pArm (m : Nat) : Prog := schedP [ins 0xA1 1 0 0 1 (m * 2 ^ 26)] []
def loaded (x : Prog) (y : Sched) : State := (lampUp x).setSched 0 y
/-- Queue 0 of host 0 takes beats. -/
def beating (y : Sched) : State :=
  let s := (inPond (mapped ent1p true)).setQueue 0 0 { Queue.reset with enable := true, st := .running, kind := 2 }
  s.setSched 0 y
def pBeat (v : W64) : Prog := schedP [ins 0xA3 0 0 0 1 (2 * 2 ^ 26 + 3 * 2 ^ 31)] [(3, v)]
def beatingProg (v : W64) : State := ((beating armed1).setProg 0 (pBeat v))
def inst1 : Inst := { step := 0, d := 2, due := true, settled := none, stopped := false, late := false, deferred := false, passed := false }
def withInst (i : Inst) (y : Sched) : Sched := { y with insts := [i], beats := 3 }
/-- The step's segment stands in Lake, the lamp words in region 2 in Pond. -/
def stepFar : State :=
  let s := inLake (mapped ent1p true)
  let t := (s.setEnt 2 ent1p).putSme 2 0 (opnAt 256)
  { t with sled := { t.sled with st := .serve } }
def armed2 : Sched := { armed1 with lregion := 2 }
def sch3 : Sched := { sch1 with steps := [{ stepOf stepRec with dbeat := 5 }] }
/-- The input has sagged. -/
def sagged : State := { up with pwr := { up.pwr with sag := true } }
def flushing (commanded : Bool) (g : Nat) : State := { up with sled := { up.sled with flush := some (.dusk g), flushCmd := commanded } }
def noAutoOn : State := { State.reset with fw := { State.reset.fw with store := [(0x20000, 0)] } }
/-- Entry i of the Power Ledger as changed. -/
def led (i : Nat) (f : Entry → Entry) : State := up.setLedger i (f (up.ledger i))
theorem up_asks (j : Nat) : (up.ledger j).asks = false := by
  have all : ∀ p ∈ up.pwr.entries, p.2.asks = false := by decide +kernel
  simp only [State.ledger, Tbl.getD]
  cases h : up.pwr.entries.find j with
  | none => rfl
  | some e => exact all _ (Tbl.find_mem h)
def coldClock (f : ClkS → ClkS) : State := { up with clk := f up.clk }
def fencedS : State := { up with evt := { up.evt with fmap := [(5, 3)], recov := [⟨.wick 5, 3, [], 0⟩] } }
def bridged (n : Nat) : State := { up with sled := { up.sled with bridge := n } }
def rec1 : EvRec := { code := 0x0801, sev := 3, plane := 0, okind := 0, obj := 0, time := 0, shost := 0, scope := 0, p0 := 0, p1 := 0, bad := false }
/-- Two records that host 0 may read. -/
def noticed : State := { linked with evt := { linked.evt with ring := [rec1, rec1], prod := 2 } }
def spaced (held : Bool) : State := linked.setReader 0 { linked.reader 0 with spacing := true, heldSig := held }
def wdp (f : WdS → WdS) : State := { up with wd := f { up.wd with run := true } }
def wdE (n : Nat) (f : Wde → Wde) : State := up.setWde n (f (up.wde n))
def inVigil : State := { up with sled := { up.sled with st := .vigil, vigilDone := true } }
def inDark : State := { State.reset with sled := { State.reset.sled with dark := true } }
def keepFlush (f : Flush) (off : Bool) : State := { up with sled := { up.sled with st := .duskFlush, flush := some f, flushCmd := true, offNext := off } }
def btn (b : BitVec 2) : State := { up with wd := { up.wd with btn := b } }
def verifying (st : SlotSt) : State :=
  let s := booting .verify .boot
  { s with sled := { s.sled with warm := true }, fw := { s.fw with slot0 := slotIn st, boot := 0 } }
def verifying2 : State := { verifying .running with fw := { (verifying .running).fw with slot1 := slotIn .previous } }
def chained (f : ChnS → ChnS) : State := { up with chn := f { up.chn with up := { Link.reset with st := 2 }, dn := { Link.reset with st := 2 } } }
def rx1 (got : List Nat) : Rx := ⟨image1, false, false, got, [], false⟩
def receiving (r : Rx) : State := chained (fun c => { c with rx := some r })
def tx1 : Tx := { image := image1, origin := true, accepted := false, next := 0, out := [], credits := 0, fails := [], doneSent := false }
def sending (x : Tx) : State := chained (fun c => { c with tx := some x })
def rxSet : Rx := { rx1 [0, 1] with image := { image1 with settings := true } }
def bundling : State :=
  let s := chained (fun c => { c with rx := some rxSet, ctl := 4 })
  { s with mgt := { s.mgt with key := some 1 } }
def staging (w : Nat) (prog : Option Nat) (s : State) : State := { s with fw := { s.fw with stage := some ⟨image1, w, false, prog, []⟩, slot1 := slotIn .writing } }
def noPass (s : State) : State := { s with chn := { s.chn with ctl := 0 } }
def waitStage : State := let s := ownerS (pStage 0); { s with fw := { s.fw with wait := some (0, 131072, 0) } }
def act0 (paused : Bool) : Act := ⟨1, some 0, paused, 0, 0⟩
def acting (paused : Bool) : State :=
  let s := up.setProg 0 pActivate
  { s with fw := { s.fw with act := some (act0 paused), slot1 := slotIn .staged } }
def probing (el : W16) : State := { up with fw := { up.fw with slot0 := slotIn .previous, slot1 := slotIn .probation, booted := 1, boot := 1, probEl := el } }
def dirtyS : State := { up with fw := { up.fw with dirty := true } }
def sess1 (fin : Bool) : Sess := ⟨.bus, fin, true, 0⟩
def inSession (fin : Bool) : State := { up with mgt := { up.mgt with sess := [(2, sess1 fin)] } }
def allSessions : State := { up with mgt := { up.mgt with sess := (List.range 8).map (fun i => (i, sess1 true)) } }
def rooted : State := { inSession true with mgt := { (inSession true).mgt with root := some 5 } }
def peered : State := withPeer up
def allLanes : State := { up with mgt := { up.mgt with lanes := (List.range 64).map (fun i => (i, (BitVec.ofNat 16 i, 9))) } }
def formatCall : State := { inVigil with wd := { inVigil.wd with vcause := 8 } }
def traced (f : TrcS → TrcS) : State := { up with trc := f up.trc }

/-- Where a request for log space ended. -/
def pendSt : PendEnd → State
  | .ok s => s
  | .wait s => s
  | .full => State.reset
def pendIs (k : Nat) : PendEnd → Bool
  | .ok _ => k == 0
  | .wait _ => k == 1
  | .full => k == 2
theorem pend_ok (e : PendEnd) (h : pendIs 0 e = true) : e = .ok (pendSt e) := by cases e <;> simp_all [pendIs, pendSt]
theorem pend_wait (e : PendEnd) (h : pendIs 1 e = true) : e = .wait (pendSt e) := by cases e <;> simp_all [pendIs, pendSt]
theorem pend_full (e : PendEnd) (h : pendIs 2 e = true) : e = .full := by cases e <;> simp_all [pendIs]
/-- The core's Spring is lost to runs that no operation frees. -/
def lostCore (s : State) : State := { s with map := { s.map with lostRuns := [(.near true 0, 4096)] } }
def pStore8 : Prog := pMem 0x41 1 2 8 [(1, 0x1234)]
def stored8 : List PStore := [⟨1, 8, pStore8.storeFrom (pStore8.words.getD 0 0), none, 0⟩]
def rows1 : List PStore := [⟨1, 0, List.replicate 64 0, none, 0⟩]
/-- Every Lantern is fenced. -/
def noLanterns (s : State) : State := { s with evt := { s.evt with fmap := [(96, 3), (97, 3), (98, 3), (99, 3)] } }
def passing : State := chained (fun c => { c with up := { Link.reset with st := 3 } })
/-- A stripe of one run that has been closed by its timer. -/
def closedStripe : Stripe := { stripe0 [0] with full := true }
def withClosed (s : State) : State := { s with lake := { s.lake with mounted := true, stripes := [(0, closedStripe)], stripeNo := 1 } }

/-! ### Ill-formed commands are refused -/

def shortForm : Packed := { csize := 2, run := List.replicate 256 0 }

theorem test_wf_trial_pack : (Instr.trialPackDone 1 0 none (some shortForm) .ok 0).wf = false := by decide +kernel
theorem test_wf_trial_pack_size : (Instr.trialPackDone 1 0 (some ⟨15, List.replicate 3840 0⟩) none .ok 0).wf = false := by decide +kernel
theorem test_wf_peer_frame : (Instr.peerDataFrame 0 { frame1 with payload := [1, 2, 3] } true 0).wf = false := by decide +kernel
theorem test_wf_peer_frame_whole : (Instr.peerDataFrame 0 frame1 true 0).wf = true := by decide +kernel

/-- An ill-formed command ends in the fault of that name. -/
theorem test_ill_formed_faults : exec (.trialPackDone 1 0 none (some shortForm) .ok 0) up = .fault .illFormed := by
  show execTrialPackDone 1 0 none (some shortForm) .ok 0 up = _
  unfold execTrialPackDone
  rw [if_pos]
  exact .inr (by decide +kernel)

/-! ### Values worked by hand from the spec -/

/-- 02 R58, R59: sector 5 of S1.PC2 is near address 34 x 2^23 + 5. -/
theorem test_near_address : (opnAt (34 * 2 ^ 23 + 5)).home = some (.near false 0x11000005) := by decide +kernel

/-- 09 R367: `MOVS` form 0xD adds FP32 1.0 and 1.0 to 2.0. -/
theorem test_fp32_add : addF32 0 0x3F800000 0x3F800000 = 0x40000000 := by decide +kernel

/-- 08 R333: a schedule instruction in a compute program is a class error. -/
theorem test_class_check : ({ pStep [] with kind := .compute } : Prog).cur (isOp 0xA2) = .bad (argErr dClass) := by decide +kernel

/-- No word spells a command. -/
theorem test_no_word : decodeTableWord 16 0xFFFF = none := rfl

/-! ### Hypotheses that are met -/

/-- States and operands that meet the hypotheses of each clause of `HostLoadsAnswerTheStoredLine`. -/
theorem witness_HostLoadsAnswerTheStoredLine :
    (¬ (∀ s : State, ∀ half : Fin 16, ∀ spid : BitVec 12, ∀ dpa : BitVec 48, ∀ chk : Chk, ∀ h : HostId, ∀ g : Nat, ∀ line : Nat, ∀ a : Nat,
      ∀ gr : Grant, (s.Mapped half spid dpa h g gr line) → (s.Untracked gr.region line) → (s.InPond gr.region (line / 64) a) →
      (chkFails chk = false) → False)) ∧
    (¬ (∀ s : State, ∀ half : Fin 16, ∀ spid : BitVec 12, ∀ dpa : BitVec 48, ∀ h : HostId, ∀ g : Nat, ∀ line : Nat, ∀ gr : Grant,
      (s.Mapped half spid dpa h g gr line) → (s.Untracked gr.region line) → (s.pageAway gr.region (line / 64) = false) →
      (s.malformed (s.sme gr.region (line / 64)) = false) → ((s.sme gr.region (line / 64)).st = .zero) → False)) ∧
    (¬ (∀ s : State, ∀ half : Fin 16, ∀ spid : BitVec 12, ∀ dpa : BitVec 48, ∀ chk : Chk, ∀ h : HostId, ∀ g : Nat, ∀ line : Nat, ∀ a : Nat,
      ∀ gr : Grant, (s.Mapped half spid dpa h g gr line) → ((s.ent gr.region).tracked = true) →
      (s.isLost gr.region (BitVec.ofNat 40 line) = false) → (s.dirEnt gr.region (BitVec.ofNat 40 line) = none) →
      (s.dirVictim gr.region (BitVec.ofNat 40 line) = none) → (s.InPond gr.region (line / 64) a) → (chkFails chk = false) → False)) ∧
    (¬ (∀ s : State, ∀ half : Fin 16, ∀ spid : BitVec 12, ∀ dpa : BitVec 48, ∀ h : HostId, ∀ g : Nat, ∀ line : Nat, ∀ gr : Grant,
      (s.Mapped half spid dpa h g gr line) → ((s.ent gr.region).tracked = true) → (s.isLost gr.region (BitVec.ofNat 40 line) = false) →
      (s.dirEnt gr.region (BitVec.ofNat 40 line) = none) → (s.dirVictim gr.region (BitVec.ofNat 40 line) = none) → False)) ∧
    (¬ (∀ s : State, ∀ half : Fin 16, ∀ spid : BitVec 12, ∀ h : HostId, (s.hostAt half.val spid = some h) → False)) :=
  ⟨fun h => by
      refine h (inPond (mapped ent1 false)) 0 0 0 (.ok) 0 0 0 256 (grant1 false) ?_ ?_ ?_ ?_
        <;> first | decide +kernel | (constructor <;> decide +kernel),
   fun h => by
      refine h (mapped ent1 false) 0 0 0 0 0 0 (grant1 false) ?_ ?_ ?_ ?_ ?_
        <;> first | decide +kernel | (constructor <;> decide +kernel),
   fun h => by
      refine h (inPond (mapped ent1s true)) 0 0 0 (.ok) 0 0 0 256 (grant1 true) ?_ ?_ ?_ ?_ ?_ ?_ ?_
        <;> first | decide +kernel | (constructor <;> decide +kernel),
   fun h => by
      refine h (inPond (mapped ent1s true)) 0 0 0 0 0 0 (grant1 true) ?_ ?_ ?_ ?_ ?_
        <;> first | decide +kernel | (constructor <;> decide +kernel),
   fun h => h linked 0 0 0 (by decide +kernel)⟩

/-- States and operands that meet the hypotheses of each clause of `HostStoresWriteTheirBytesOnly`. -/
theorem witness_HostStoresWriteTheirBytesOnly :
    (¬ (∀ s : State, ∀ half : Fin 16, ∀ spid : BitVec 12, ∀ dpa : BitVec 48, ∀ chk : Chk, ∀ h : HostId, ∀ g : Nat, ∀ line : Nat, ∀ a : Nat,
      ∀ gr : Grant, (s.Mapped half spid dpa h g gr line) → (s.Untracked gr.region line) → (s.InPond gr.region (line / 64) a) →
      (gr.rw = true) → (s.ports.stopStores = false) → (chkFails chk = false) → False)) ∧
    (¬ (∀ s : State, ∀ half : Fin 16, ∀ spid : BitVec 12, ∀ dpa : BitVec 48, ∀ chk : Chk, ∀ h : HostId, ∀ g : Nat, ∀ line : Nat, ∀ a : Nat,
      ∀ gr : Grant, (s.Mapped half spid dpa h g gr line) → (s.Untracked gr.region line) → (s.InPond gr.region (line / 64) a) →
      (gr.rw = true) → (s.ports.stopStores = false) → (chkFails chk = false) → False)) ∧
    (¬ (∀ s : State, ∀ half : Fin 16, ∀ spid : BitVec 12, ∀ h : HostId, (s.linkOpen half.val = true) → (s.hostAt half.val spid = some h) →
      (s.inReset h = false) → (s.ports.stopStores = false) → False)) ∧
    (¬ (∀ s : State, ∀ host : HostId, ∀ region : RegionId, ∀ line : BitVec 40, ∀ chk : Chk, ∀ e : DEnt, ∀ a : Nat, (s.Calm) →
      (s.dir.snoops = [⟨region, line, host, .inv⟩]) → (s.dirEnt region line = some e) → (s.InPond region (line.toNat / 64) a) →
      (chkFails chk = false) → False)) ∧
    (¬ (∀ s : State, ∀ req : Nat, ∀ x : HReq, ∀ g : Nat, ∀ line : Nat, ∀ b : Nat, ∀ gr : Grant,
      (s.dir.held.find? (fun x => x.no == req) = some x) → (x.why = .admission) → (x.kind = .wr) → (x.gnt = some (g, gr)) →
      (x.line.toNat = line) → (x.ent.odd = false) → (x.ent.dlost = false) → (gr.rw = true) → (s.Untracked gr.region line) →
      (s.pageAway gr.region (line / 64) = false) → (s.malformed (s.sme gr.region (line / 64)) = false) →
      ((s.sme gr.region (line / 64)).st = .zero) → (s.moveOf gr.region (line / 64) = none) →
      (s.admitDirty gr.region (line / 64) 16 = .hold) →
      (s.allocPond (s.anchorOf gr.region (line / 64)) 16 (s.useOf gr.region (line / 64) .store) 0 = some b) → False)) :=
  ⟨fun h => by
      refine h (inPond (mapped ent1 true)) 0 0 0 (.ok) 0 0 0 256 (grant1 true) ?_ ?_ ?_ ?_ ?_ ?_
        <;> first | decide +kernel | (constructor <;> decide +kernel),
   fun h => by
      refine h (inPond (mapped ent1 true)) 0 0 0 (.ok) 0 0 0 256 (grant1 true) ?_ ?_ ?_ ?_ ?_ ?_
        <;> first | decide +kernel | (constructor <;> decide +kernel),
   (fun h => by refine h linked 0 0 0 ?_ ?_ ?_ ?_ <;> decide +kernel),
   fun h => by
      refine h (snooped (inPond (mapped ent1s true)) .inv) 0 1 0 (.ok) (dEnt1 true) 256 ?_ ?_ ?_ ?_ ?_
        <;> first | decide +kernel | (constructor <;> decide +kernel),
   fun h => by
      refine h keepHeld 0 (req0 .wr .admission) 0 0 268435456 (grant1 true) ?_ ?_ ?_ ?_ ?_ ?_ ?_ ?_ ?_ ?_ ?_ ?_ ?_ ?_ ?_
        <;> first | decide +kernel | (constructor <;> decide +kernel)⟩

/-- States and operands that meet the hypotheses of each clause of `UnmappedAndReadOnlyAccesses`. -/
theorem witness_UnmappedAndReadOnlyAccesses :
    (¬ (∀ s : State, ∀ half : Fin 16, ∀ spid : BitVec 12, ∀ dpa : BitVec 48, ∀ h : HostId, (s.linkOpen half.val = true) →
      (s.hostAt half.val spid = some h) → (s.inReset h = false) → (s.needsIde half.val = false) → (s.lookup h dpa.toNat = none) → False)) ∧
    (¬ (∀ s : State, ∀ half : Fin 16, ∀ spid : BitVec 12, ∀ dpa : BitVec 48, ∀ h : HostId, (s.linkOpen half.val = true) →
      (s.hostAt half.val spid = some h) → (s.inReset h = false) → (s.needsIde half.val = false) → (s.lookup h dpa.toNat = none) →
      (s.ports.stopStores = false) → False)) ∧
    (¬ (∀ s : State, ∀ half : Fin 16, ∀ spid : BitVec 12, ∀ dpa : BitVec 48, ∀ h : HostId, (s.linkOpen half.val = true) →
      (s.hostAt half.val spid = some h) → (s.inReset h = false) → (s.needsIde half.val = false) → (s.lookup h dpa.toNat = none) →
      (s.ports.stopStores = false) → False)) ∧
    (¬ (∀ s : State, ∀ half : Fin 16, ∀ spid : BitVec 12, ∀ dpa : BitVec 48, ∀ h : HostId, ∀ g : Nat, ∀ line : Nat, ∀ gr : Grant,
      (s.Mapped half spid dpa h g gr line) → (gr.rw = false) → (s.ports.stopStores = false) → False)) :=
  ⟨(fun h => by refine h linked 0 0 0 0 ?_ ?_ ?_ ?_ ?_ <;> decide +kernel),
   (fun h => by refine h linked 0 0 0 0 ?_ ?_ ?_ ?_ ?_ ?_ <;> decide +kernel),
   (fun h => by refine h linked 0 0 0 0 ?_ ?_ ?_ ?_ ?_ ?_ <;> decide +kernel),
   fun h => by
      refine h (inPond (mapped ent1 false)) 0 0 0 0 0 0 (grant1 false) ?_ ?_ ?_
        <;> first | decide +kernel | (constructor <;> decide +kernel)⟩

/-- States and operands that meet the hypotheses of each clause of `SnoopAnswersAndHeldRequests`. -/
theorem witness_SnoopAnswersAndHeldRequests :
    (¬ (∀ s : State, ∀ host : HostId, ∀ region : RegionId, ∀ line : BitVec 40, ∀ kind : SnpKind, ∀ e : DEnt, (s.Calm) →
      (s.dir.snoops = [⟨region, line, host, kind⟩]) → (s.dirEnt region line = some e) → False)) ∧
    (¬ (∀ s : State, ∀ host : HostId, ∀ region : RegionId, ∀ line : BitVec 40, ∀ chk : Chk, ∀ e : DEnt, ∀ a : Nat, (s.Calm) →
      (s.dir.snoops = [⟨region, line, host, .inv⟩]) → (s.dirEnt region line = some e) → (s.InPond region (line.toNat / 64) a) →
      (chkFails chk = false) → False)) ∧
    (¬ (∀ s : State, ∀ host : HostId, ∀ region : RegionId, ∀ line : BitVec 40, ∀ n : Snoop, (s.Calm) →
      (s.dir.snoops.find? (fun n => n.region == region && n.line == line && n.host == host) = some n) → False)) ∧
    (¬ (∀ s : State, ∀ req : Nat, ∀ chk : Chk, ∀ x : HReq, ∀ g : Nat, ∀ line : Nat, ∀ a : Nat, ∀ gr : Grant,
      (s.dir.held.find? (fun x => x.no == req) = some x) → (x.why = .odd) → (x.kind = .rd) →
      (s.lookup x.host x.dpa.toNat = some (g, gr, line)) → (x.region = gr.region) → ((s.ent gr.region).odd = false) →
      ((s.ent gr.region).dlost = false) → (s.Untracked gr.region line) → (s.InPond gr.region (line / 64) a) → (chkFails chk = false) →
      False)) ∧
    (¬ (∀ s : State, ∀ req : Nat, ∀ x : HReq, ∀ g : Nat, ∀ line : Nat, ∀ b : Nat, ∀ gr : Grant,
      (s.dir.held.find? (fun x => x.no == req) = some x) → (x.why = .admission) → (x.kind = .wr) → (x.gnt = some (g, gr)) →
      (x.line.toNat = line) → (x.ent.odd = false) → (x.ent.dlost = false) → (gr.rw = true) → (s.Untracked gr.region line) →
      (s.pageAway gr.region (line / 64) = false) → (s.malformed (s.sme gr.region (line / 64)) = false) →
      ((s.sme gr.region (line / 64)).st = .zero) → (s.moveOf gr.region (line / 64) = none) →
      (s.admitDirty gr.region (line / 64) 16 = .hold) →
      (s.allocPond (s.anchorOf gr.region (line / 64)) 16 (s.useOf gr.region (line / 64) .store) 0 = some b) → False)) :=
  ⟨fun h => by
      refine h (snooped (mapped ent1s true) .inv) 0 1 0 (.inv) (dEnt1 true) ?_ ?_ ?_
        <;> first | decide +kernel | (constructor <;> decide +kernel),
   fun h => by
      refine h (snooped (inPond (mapped ent1s true)) .inv) 0 1 0 (.ok) (dEnt1 true) 256 ?_ ?_ ?_ ?_ ?_
        <;> first | decide +kernel | (constructor <;> decide +kernel),
   fun h => by
      refine h (snooped (inPond (mapped ent1s true)) .inv) 0 1 0 (⟨1, 0, 0, .inv⟩) ?_ ?_
        <;> first | decide +kernel | (constructor <;> decide +kernel),
   fun h => by
      refine h (withHeld (inPond (mapped ent1 true)) (req0 .rd .odd)) 0 (.ok) (req0 .rd .odd) 0 0 256 (grant1 true) ?_ ?_ ?_ ?_ ?_ ?_ ?_
        ?_ ?_ ?_
        <;> first | decide +kernel | (constructor <;> decide +kernel),
   fun h => by
      refine h keepHeld 0 (req0 .wr .admission) 0 0 268435456 (grant1 true) ?_ ?_ ?_ ?_ ?_ ?_ ?_ ?_ ?_ ?_ ?_ ?_ ?_ ?_ ?_
        <;> first | decide +kernel | (constructor <;> decide +kernel)⟩

/-- States and operands that meet the hypotheses of each clause of `EntryChangesEndEven`. -/
theorem witness_EntryChangesEndEven :
    (¬ (∀ s : State, ∀ region : RegionId, ∀ x : Stalled, (s.rt.stalled.find? (fun x => x.region == region) = some x) → (x.revoke = none) →
      (x.prog = none) → (s.sled.st ≠ .off) → False)) ∧
    (¬ (∀ s : State, ∀ region : RegionId, ∀ d : Drain, ∀ x : Prog, (s.rt.drains = [d]) → (d.region = region) → (s.dir.held = []) →
      (s.prog d.prog = some x) → (x.cancel = none) → False)) ∧
    (¬ (∀ s : State, ∀ req : Nat, ∀ chk : Chk, ∀ x : HReq, ∀ g : Nat, ∀ line : Nat, ∀ a : Nat, ∀ gr : Grant,
      (s.dir.held.find? (fun x => x.no == req) = some x) → (x.why = .odd) → (x.kind = .rd) →
      (s.lookup x.host x.dpa.toNat = some (g, gr, line)) → (x.region = gr.region) → ((s.ent gr.region).odd = false) →
      ((s.ent gr.region).dlost = false) → (s.Untracked gr.region line) → (s.InPond gr.region (line / 64) a) → (chkFails chk = false) →
      False)) :=
  ⟨(fun h => by refine h stalled1 1 (⟨1, ent1, none, none, 0⟩) ?_ ?_ ?_ ?_ <;> decide +kernel),
   (fun h => by refine h draining 1 (⟨1, 2, 0⟩) ctlProg ?_ ?_ ?_ ?_ ?_ <;> decide +kernel),
   fun h => by
      refine h (withHeld (inPond (mapped ent1 true)) (req0 .rd .odd)) 0 (.ok) (req0 .rd .odd) 0 0 256 (grant1 true) ?_ ?_ ?_ ?_ ?_ ?_ ?_
        ?_ ?_ ?_
        <;> first | decide +kernel | (constructor <;> decide +kernel)⟩

/-- States and operands that meet the hypotheses of each clause of `MovesCommitTheCopiedBytes`. -/
theorem witness_MovesCommitTheCopiedBytes :
    (¬ (∀ s : State, ∀ n : Nat, ∀ m : Move, ∀ h : Loc, ∀ spr : Bool, ∀ b : Nat, (s.Calm) → (s.map.moves.find n = some m) →
      (m.image = false) → (m.verified = false) → (m.sealing = false) → (m.why = .evict) → (m.dest = .near spr b) → (b < 2 ^ 32) →
      ((s.sme m.region m.seg).home = some h) → (h.isLake = false) → (s.dead h = false) → (s.deadDest m.dest = false) →
      (s.epochOk h (s.sme m.region m.seg).cs = true) → (s.moveHeld m = false) → ((s.sme m.region m.seg).f.codec ∈ [2#3, 3#3, 4#3]) →
      False)) ∧
    (¬ (∀ s : State, ∀ rel : Nat, ∀ x : Release, (s.map.rel.find rel = some x) → (x.image = false) → ((∀ y ∈ s.dir.held, y.why ≠ .space)) →
      False)) ∧
    (¬ (∀ s : State, ∀ n : Nat, ∀ m : Move, ∀ f : Nat, ∀ sec : Nat, ∀ spr : Bool, ∀ b : Nat, (s.Calm) → (s.map.moves.find n = some m) →
      (m.image = true) → (m.why = .demand) → (m.dest = .near spr b) → (b < 2 ^ 32) → (s.deadDest m.dest = false) →
      ((s.sme m.region m.seg).home = some (.flash f sec)) → ((s.sme m.region m.seg).image = none) → (s.moveHeld m = false) →
      ((s.sb (sbOf f)).reads.getD (f % 32 * 4 + f / 1024 % 4) 0 + 1 < 50000) → False)) ∧
    (¬ (∀ s : State, ∀ rel : Nat, ∀ x : Release, (s.map.rel.find rel = some x) → (x.image = true) → ((∀ y ∈ s.dir.held, y.why ≠ .space)) →
      False)) ∧
    (¬ (∀ s : State, ∀ region : RegionId, ∀ seg : Nat, ∀ f : Nat, ∀ sec : Nat, ∀ x : HReq, ∀ b : List Byte,
      (s.lake.misses = [(segKey region seg, none)]) → (s.missServed region seg = true) → (s.pageAway region seg = false) →
      (s.q.progs = []) → ((s.sme region seg).home = some (.flash f sec)) →
      ((s.sb (sbOf f)).reads.getD (f % 32 * 4 + f / 1024 % 4) 0 + 1 < 50000) → (s.dir.held = [x]) → (missOf region seg x = true) →
      (x.kind = .rd) → (s.isLost region x.line = false) →
      (s.lineBytes (s.sme region seg) (some (.flash f sec)) (x.line.toNat % 64) = some b) → False)) ∧
    (¬ (∀ s : State, ∀ region : RegionId, ∀ seg : Nat, ∀ w : Nat, ∀ sec : Nat, ∀ x : HReq, ∀ b : List Byte,
      (s.lake.misses = [(segKey region seg, none)]) → (s.inPause = false) → (s.pageAway region seg = false) → (s.q.progs = []) →
      ((s.sme region seg).home = some (.tarn w sec)) → (s.epochOk (.tarn w sec) (s.sme region seg).cs = true) →
      ((s.ports.np.any (fun n => n.2.region == region && n.2.seg == seg && s.issued n.1)) = true) → (s.dir.held = [x]) →
      (missOf region seg x = true) → (x.kind = .rd) → (s.isLost region x.line = false) →
      (s.lineBytes (s.sme region seg) (some (.tarn w sec)) (x.line.toNat % 64) = some b) → False)) :=
  ⟨fun h => by
      refine h (withMove (inPond (mapped ent1 true)) (mv (.near false 512) false .evict)) 0 (mv (.near false 512) false .evict)
        (.near false 256) false 512 ?_ ?_ ?_ ?_ ?_ ?_ ?_ ?_ ?_ ?_ ?_ ?_ ?_ ?_ ?_
        <;> first | decide +kernel | (constructor <;> decide +kernel),
   fun h => by
      refine h (releasing false) 0 (⟨.near false 256, 16, false⟩) ?_ ?_ (fun _ h => absurd h List.not_mem_nil)
        <;> decide +kernel,
   fun h => by
      refine h (withMove (inLake (mapped ent1 true)) (mv (.near false 512) true .demand)) 0 (mv (.near false 512) true .demand) 0 0 false
        512 ?_ ?_ ?_ ?_ ?_ ?_ ?_ ?_ ?_ ?_ ?_
        <;> first | decide +kernel | (constructor <;> decide +kernel),
   fun h => by
      refine h (releasing true) 0 (⟨.near false 256, 16, true⟩) ?_ ?_ (fun _ h => absurd h List.not_mem_nil)
        <;> decide +kernel,
   fun h => by
      refine h (withMiss (withHeld (inLake (mapped ent1 true)) (req0 .rd .miss))) 1 0 0 0 (req0 .rd .miss) (List.replicate 64 0) ?_ ?_ ?_
        ?_ ?_ ?_ ?_ ?_ ?_ ?_ ?_
        <;> decide +kernel,
   fun h => by
      refine h (withMiss (withHeld (inTarn (mapped ent1 true)) (req0 .rd .miss))) 1 0 0 0 (req0 .rd .miss) (List.replicate 64 0) ?_ ?_ ?_
        ?_ ?_ ?_ ?_ ?_ ?_ ?_ ?_ ?_
        <;> decide +kernel⟩

/-- States and operands that meet the hypotheses of each clause of `ClocksSweepsAndTrials`. -/
theorem witness_ClocksSweepsAndTrials :
    (¬ (∀ s : State, (s.sled.st ≠ .off) → False)) ∧
    (¬ (∀ s : State, (s.up = false) → False)) ∧
    (¬ (∀ s : State, ∀ region : RegionId, ∀ seg : Nat, ∀ a : Nat, ∀ n : Nat, (s.up = true) → (s.InPond region seg a) →
      (s.map.trials.has (segKey region seg) = false) → (s.trialEngine (a / 2 ^ 23 / 32) = some n) → (s.serves (.region region) = true) →
      (s.pwr.packMs ≤ (s.clk.store - (s.sme region seg).f.aux.setWidth 31).toNat) → ((s.sme region seg).f.aux.getLsbD 31 = false) →
      (s.map.trialAfter.getD (segKey region seg) 0 ≤ s.clk.ms) → False)) ∧
    (¬ (∀ s : State, ∀ region : RegionId, ∀ seg : Nat, ∀ a : Nat, (s.InPond region seg a) → (s.map.trials.has (segKey region seg) = true) →
      (s.pchPanic (a / 2 ^ 23) = false) → (allZero (s.readRun (.near false a) 16) = true) → False)) ∧
    (¬ (∀ s : State, ∀ region : RegionId, ∀ seg : Nat, ∀ a : Nat, ∀ d : Nat, ∀ codec : Nat, ∀ lzv : Option Packed, ∀ exp : Option Packed,
      ∀ x : Packed, ∀ pick : W32, (s.InPond region seg a) → (s.map.trials.has (segKey region seg) = true) →
      (s.pchPanic (a / 2 ^ 23) = false) → (s.q.ops = []) → (lzv.all Packed.wf = true) → (exp.all Packed.wf = true) →
      (allZero (s.readRun (.near false a) 16) = false) → (isPattern (s.readRun (.near false a) 16) = false) →
      (s.bestForm region lzv exp (s.readRun (.near false a) 16) = some (codec, x)) → (d < 2 ^ 32) →
      (s.allocPond (s.anchorOf region seg) x.csize (s.useOf region seg .store) pick = some d) → False)) ∧
    (¬ (∀ region : RegionId, ∀ seg : Nat, ∀ lzv : Option Packed, ∀ exp : Option Packed, ∀ chk : Chk, ∀ pick : W32,
      (¬ (Instr.trialPackDone region seg lzv exp chk pick).wf = true) → False)) :=
  ⟨fun h => h up (by decide +kernel),
   fun h => h (State.reset) (by decide +kernel),
   fun h => by
      refine h (rested (inPond (mapped ent1 true))) 1 0 256 0 ?_ ?_ ?_ ?_ ?_ ?_ ?_ ?_
        <;> first | decide +kernel | (constructor <;> decide +kernel),
   (fun h => by refine h (onTrial (zeroInPond)) 1 0 256 ?_ ?_ ?_ ?_ <;> first | decide +kernel | (constructor <;> decide +kernel)),
   fun h => by
      refine h (onTrial (inPond (mapped ent1 true))) 1 0 256 268435456 3 (some lzv1) none lzv1 0 ?_ ?_ ?_ ?_ ?_ ?_ ?_ ?_ ?_ ?_ ?_
        <;> first | decide +kernel | (constructor <;> decide +kernel),
   fun h => h 1 0 (some ⟨1, []⟩) none (.ok) 0 (by decide +kernel)⟩

/-- States and operands that meet the hypotheses of each clause of `PondUrgencyAndRefresh`. -/
theorem witness_PondUrgencyAndRefresh :
    (¬ (∀ s : State, ∀ pch : Fin 384, (s.pchWorks pch = true) → False)) ∧
    (¬ (∀ s : State, ∀ half : Fin 16, (s.pond.panic.has half = false) → ((∃ x ∈ s.ports.streams, x.half = half.val)) → False)) ∧
    (¬ (∀ s : State, ∀ half : Fin 16, ∀ l : List Nat, (s.pond.panic = [(half.val, l)]) → False)) ∧
    (¬ (∀ s : State, ∀ pch : Fin 384, ∀ bank : Fin 64, (s.pchWorks pch = true) → ((s.pch pch).steady = false) →
      ((s.pch pch).training = false) → (s.pchPanic pch = true) → ((s.pch pch).debt.getD bank 0 < s.postpone) → False)) ∧
    (¬ (∀ s : State, ∀ pch : Fin 384, ∀ bank : Fin 64, (s.pchWorks pch = true) → ((s.pch pch).steady = false) →
      ((s.pch pch).training = false) → (s.pchPanic pch = true) → (s.postpone ≤ (s.pch pch).debt.getD bank 0) → False)) ∧
    (¬ (∀ s : State, ∀ pch : Fin 384, (s.pchWorks pch = true) → ((s.pch pch).steady = true) → False)) ∧
    (¬ (∀ s : State, ∀ pch : Fin 384, (s.pchWorks pch = true) → ((s.pch pch).steady ≠ (s.pch pch).refMode) → (s.pchPanic pch = false) →
      False)) ∧
    (¬ (∀ s : State, ∀ pch : Fin 384, ∀ sid : Fin 4, (s.pchWorks pch = true) → (1 ≤ (s.pch pch).pdTimer.toNat) →
      ((s.pch pch).pdTimer.toNat ≤ 256) → (s.pdHeld pch = false) → ((s.pch pch).pd.contains sid.val = false) → False)) :=
  ⟨fun h => h (pchOn id) 3 (by decide +kernel),
   (fun h => by refine h streaming 0 ?_ ?_ <;> decide +kernel),
   fun h => h (panicking (pchOn (fun p => { p with debt := [(1, 2)] })) [3]) 0 ([3]) (by decide +kernel),
   (fun h => by refine h (panicking (pchOn id) [3]) 3 63 ?_ ?_ ?_ ?_ ?_ <;> decide +kernel),
   (fun h => by refine h (panicking (pchOn (fun p => { p with debt := [(63, 4)] })) [3]) 3 63 ?_ ?_ ?_ ?_ ?_ <;> decide +kernel),
   (fun h => by refine h (pchOn (fun p => { p with steady := true, debt := [(1, 1)] })) 3 ?_ ?_ <;> decide +kernel),
   (fun h => by refine h (pchOn (fun p => { p with refMode := true })) 3 ?_ ?_ ?_ <;> decide +kernel),
   (fun h => by refine h (pchOn id) 3 3 ?_ ?_ ?_ ?_ ?_ <;> decide +kernel)⟩

/-- States and operands that meet the hypotheses of each clause of `PondTemperatureAndRetraining`. -/
theorem witness_PondTemperatureAndRetraining :
    (¬ (∀ s : State, ∀ stack : Fin 12, ∀ v : W16, (s.sled.st ≠ .off) → (s.sled.st ≠ .dead) → (goodTemp (s.stk stack).last v = true) →
      ((s.stk stack).lost = false) → (v.toInt < 95) → (s.pwr.thr.getD stack 0 = 0) → (s.stackFenced stack = false) → False)) ∧
    (¬ (∀ s : State, ∀ pch : Fin 384, ((s.pch pch).svc = true) → (s.pchFenced pch = false) → ((s.pch pch).due = none) → False)) ∧
    (¬ (∀ s : State, ∀ pch : Fin 384, ∀ d : Due, (s.trainTurn pch = true) → ((s.pch pch).due = some d) → False)) ∧
    (¬ (∀ s : State, ∀ pch : Fin 384, ∀ d : Due, ((s.pch pch).due = some d) → (d.running = false) → (s.pchPanic pch = true) → False)) ∧
    (¬ (∀ s : State, ∀ pch : Fin 384, ∀ d : Due, ((s.pch pch).due = some d) → (d.running = true) → ((s.bankQ pch).reqs = []) →
      ((s.bankQ pch).atPort = []) → ((∀ x ∈ s.dir.held, x.why ≠ .bank)) → False)) ∧
    (¬ (∀ s : State, ∀ pch : Fin 384, ((s.pch pch).svc = true) → (s.pchFenced pch = false) → ((s.pch pch).due = none) → (s.sled.st ≠ .off) →
      (s.ceThresh < (s.pch pch).window) → ((s.pch pch).errRuns = 0) → False)) ∧
    (¬ (∀ s : State, ∀ pch : Fin 384, ((s.pch pch).window ≤ s.ceThresh) → False)) ∧
    (¬ (∀ s : State, ∀ pch : Fin 384, (s.pchWorks pch = true) → ((s.pch pch).parity = false) → False)) ∧
    (¬ (∀ s : State, ∀ pch : Fin 384, (s.pchWorks pch = true) → ((s.pch pch).parity = true) → ((s.pch pch).due = none) → False)) ∧
    (¬ (∀ s : State, ∀ pch : Fin 384, ∀ sector : BitVec 23, ∀ k : Nat, ∀ l : Loc, (s.pchWorks pch = true) → (s.pchPanic pch = false) →
      ((s.pch pch).training = false) → (s.pond.errctl.extractLsb' 16 8 ≠ 0) →
      (s.sectorUse (pch.val * 2 ^ 23 + sector.toNat) = some (k, l)) → ((s.pch pch).pd = []) → False)) :=
  ⟨(fun h => by refine h up 11 60 ?_ ?_ ?_ ?_ ?_ ?_ ?_ <;> decide +kernel),
   (fun h => by refine h (pchOn id) 3 ?_ ?_ ?_ <;> decide +kernel),
   fun h => by
      refine h (pchOn (fun p => { p with due := some { cause := 4, err := false, forced := false, running := false } })) 3
        ({ cause := 4, err := false, forced := false, running := false }) ?_ ?_
        <;> decide +kernel,
   fun h => by
      refine h (panicking (pchOn (fun p => { p with due := some { cause := 4, err := false, forced := false, running := false } })) [3])
        3 ({ cause := 4, err := false, forced := false, running := false }) ?_ ?_ ?_
        <;> decide +kernel,
   fun h => by
      refine h (pchOn (fun p => { p with due := some { cause := 4, err := false, forced := false, running := true } })) 3
        ({ cause := 4, err := false, forced := false, running := true }) ?_ ?_ ?_ ?_ (fun _ h => absurd h List.not_mem_nil)
        <;> decide +kernel,
   (fun h => by refine h (pchOn (fun p => { p with window := 257 })) 3 ?_ ?_ ?_ ?_ ?_ ?_ <;> decide +kernel),
   fun h => h (pchOn (fun p => { p with window := 256 })) 3 (by decide +kernel),
   (fun h => by refine h (pchOn id) 3 ?_ ?_ <;> decide +kernel),
   (fun h => by refine h (pchOn (fun p => { p with parity := true })) 3 ?_ ?_ ?_ <;> decide +kernel),
   (fun h => by refine h pond3 3 15 (segKey 1 0) (.near false (3 * 2 ^ 23)) ?_ ?_ ?_ ?_ ?_ ?_ <;> decide +kernel)⟩

/-- States and operands that meet the hypotheses of each clause of `PondFencesAndStart`. -/
theorem witness_PondFencesAndStart :
    (¬ (∀ s : State, ∀ pch : Fin 384, (s.pchWorks pch = true) → ((s.pch pch).training = false) → (s.sled.st ≠ .off) → False)) ∧
    (¬ (∀ s : State, ∀ stack : Fin 12, (s.sled.boot = .pond) → (s.sled.st ≠ .off) → (s.stackFenced stack = false) → False)) ∧
    (¬ (∀ s : State, ∀ failed : List (Fin 384), (s.sled.boot = .pond) → (s.evt.fmap = []) → (failed = []) → False)) ∧
    (¬ (∀ s : State, ∀ failed : List (Fin 384), (s.sled.boot = .pond) → (s.sled.st ≠ .off) → (s.up = false) → (s.sled.st ≠ .duskFlush) →
      (64 < ((List.range 384).filter (fun n => decide (n ∈ failed.map (fun f => f.val)) || s.pchFenced n)).length) → False)) :=
  ⟨(fun h => by refine h (pchOn id) 3 ?_ ?_ ?_ <;> decide +kernel),
   (fun h => by refine h (booting .pond .train) 11 ?_ ?_ ?_ <;> decide +kernel),
   (fun h => by refine h (booting .pond .train) ([]) ?_ ?_ ?_ <;> decide +kernel),
   (fun h => by refine h (booting .pond .train) ((List.finRange 384).take 65) ?_ ?_ ?_ ?_ ?_ <;> decide +kernel)⟩

/-- States and operands that meet the hypotheses of each clause of `LakeStripesAndCollection`. -/
theorem witness_LakeStripesAndCollection :
    (¬ (∀ s : State, ∀ n : Nat, ∀ x : Stripe, (s.lake.stripes.find n = some x) → False)) ∧
    (¬ (∀ s : State, ∀ n : Nat, ∀ k : Nat, ∀ x : Stripe, ∀ m : Move, ∀ f : Nat, ∀ sec : Nat, ∀ h : Loc, (s.Calm) → (s.nandStopped = false) →
      (s.lake.stripes.find n = some x) → (s.stripeDue x = true) → (x.moves = [k]) → (s.map.moves.find k = some m) → (m.verified = true) →
      (m.image = false) → (m.sealing = false) → (m.why = .evict) → (m.dest = .flash f sec) → (f < 2 ^ 40) → (sec < 64) →
      ((s.sme m.region m.seg).home = some h) → ((s.sme m.region m.seg).f.codec ∈ [2#3, 3#3, 4#3]) → False)) ∧
    (¬ (∀ s : State, (s.lake.mounted = true) → (s.lake.wp = false) → (s.sled.flush = none) → (s.hasLake = true) → False)) ∧
    (¬ (∀ s : State, ∀ sb : Nat, (s.gcFlags.gcMay sb = true) → ((s.sb sb).erase + 1 < 4500) → (s.sbBusy sb = false) →
      ((∀ p ∈ s.map.sme, ∀ f sec, p.2.home = some (.flash f sec) → sbOf f ≠ sb)) → False)) ∧
    (¬ (∀ s : State, ∀ sb : Nat, (s.lake.mounted = true) → (s.lake.wp = false) → (s.lake.wear ≠ .spent) → (s.sled.flush = none) →
      (s.validOn sb ≠ 0) → (s.clk.ms - (s.sb sb).progAt ≤ 180 * 86400000) → ((∀ p ∈ ((s.samplePages sb).sb sb).reads, p.2 < 50000)) →
      False)) :=
  ⟨fun h => h (withStripe up []) 0 (stripe0 []) (by decide +kernel),
   fun h => by
      refine h (withMove (withClosed (inPond (mapped ent1 true))) lakeMv) 0 0 closedStripe lakeMv 5 3 (.near false 256) ?_ ?_ ?_ ?_ ?_ ?_
        ?_ ?_ ?_ ?_ ?_ ?_ ?_ ?_ ?_
        <;> first | decide +kernel | (constructor <;> decide +kernel),
   (fun h => by refine h mountedUp ?_ ?_ ?_ ?_ <;> decide +kernel),
   (fun h => by refine h collectable 600 ?_ ?_ ?_ (fun _ h => absurd h List.not_mem_nil) <;> decide +kernel),
   (fun h => by refine h keptSb 0 ?_ ?_ ?_ ?_ ?_ ?_ ?_ <;> decide +kernel)⟩

/-- States and operands that meet the hypotheses of each clause of `LakeFailuresMountAndFormat`. -/
theorem witness_LakeFailuresMountAndFormat :
    (¬ (∀ s : State, ∀ n : Nat, ∀ ch : Fin 32, ∀ x : Stripe, (s.lake.stripes.find n = some x) → (s.map.moves = []) →
      ((∀ p ∈ s.map.sme, ∀ f sec, p.2.home ≠ some (.flash f sec))) → ((s.sb x.sb).retired.contains (ch.val * 4 + x.idx % 4) = false) →
      False)) ∧
    (¬ (∀ s : State, ∀ sb : Nat, ∀ member : Fin 128, ((s.sb sb).st = .closed) → (s.validOn sb = 0) → (s.lake.mounted = true) →
      (s.map.moves = []) → (s.sbBusy sb = false) → ((∀ p ∈ s.map.sme, ∀ f sec, p.2.home ≠ some (.flash f sec))) →
      ((s.sb sb).retired.contains member.val = false) → ((s.sb sb).erase + 1 < 4500) → False)) ∧
    (¬ (∀ s : State, (s.lake.mounted = true) → (s.hasLake = true) → (s.lake.wear.code < s.wearNow.code) → False)) ∧
    (¬ (∀ s : State, ∀ die : Fin 1024, (s.hasLake = true) → (die.val % 32 < s.id.variant.dies) → (s.up = true) →
      (s.fenced (.die die) = false) → False)) ∧
    (¬ (∀ s : State, ∀ r : Nat, ∀ e : REnt, (s.sled.boot = .mount) → (s.lake.jour.drop s.lake.jmark = []) → (s.sled.preserved = false) →
      (s.lake.ckpt.ent.sorted = true) → (s.lake.ckpt.ent.find r = some e) → False)) ∧
    (¬ (∀ s : State, (s.sled.boot = .mount) → (s.sled.st = .train) → False)) ∧
    (¬ (∀ s : State, ∀ group : Fin 4, ((s.ledger (16 + group.val)).st ≠ .lit) → ((s.ledger (16 + group.val)).perm = 0) → False)) ∧
    (¬ (∀ s : State, (s.mgt.formatting = true) → False)) :=
  ⟨(fun h => by refine h (withStripe up []) 0 31 (stripe0 []) ?_ ?_ (fun _ h => absurd h List.not_mem_nil) ?_ <;> decide +kernel),
   (fun h => by refine h (closedSb 0 4498) 0 127 ?_ ?_ ?_ ?_ ?_ (fun _ h => absurd h List.not_mem_nil) ?_ ?_ <;> decide +kernel),
   (fun h => by refine h worn ?_ ?_ ?_ <;> decide +kernel),
   (fun h => by refine h up 15 ?_ ?_ ?_ ?_ <;> decide +kernel),
   (fun h => by refine h mounting 1 ent1k ?_ ?_ ?_ ?_ ?_ <;> decide +kernel),
   (fun h => by refine h (booting .mount .train) ?_ ?_ <;> decide +kernel),
   (fun h => by refine h bankedGroup 0 ?_ ?_ <;> decide +kernel),
   fun h => h formattingS (by decide +kernel)⟩

/-- States and operands that meet the hypotheses of each clause of `RegionsAreMadeAndGranted`. -/
theorem witness_RegionsAreMadeAndGranted :
    (¬ (∀ s : State, ∀ p : Nat, ∀ list : List W16, ∀ x : Prog, ∀ w : W64, ∀ e : W64, ∀ r : RegionId, (s.AtInstr p x (isOp 0x20) w e) →
      (newCheck s x w e list = none) → (x.gr (fA w) = 0) → (e.getLsbD 19 = false) → ((s.hasLake = true ∨ e.getLsbD 20 = true)) →
      (s.lake.wear ≠ .guttering) → (s.lake.wear ≠ .spent) → (s.freeId = some r) →
      (s.visible + (xf e 0 18 + 1) * 65536 * 4096 ≤ s.overcommit) → False)) ∧
    (¬ (∀ s : State, ∀ p : Nat, ∀ x : Prog, ∀ w : W64, ∀ e : W64, ∀ g : Nat, ∀ a : Nat, (s.AtInstr p x (isGrant 0) w e) →
      (grantHostCheck s x w = none) → (s.token (hRegion (x.hr (fA w))) = false) →
      (s.grantErr x.host ((x.gr (fB w)).setWidth 10) (hRegion (x.hr (fA w))) (fModR w / 4 % 2 == 1) none = none) →
      ((s.allGrants.filter (fun q => q.2.host == (x.gr (fB w)).setWidth 10)).length < 512) → (s.freeGrant = some g) →
      (s.freeDpa ((x.gr (fB w)).setWidth 10) (s.ent (hRegion (x.hr (fA w)))).shared (grantCount s x w * 2 ^ 28) = some a) → False)) ∧
    (¬ (∀ s : State, ∀ p : Nat, ∀ x : Prog, ∀ w : W64, ∀ e : W64, ∀ i : Nat, (s.AtInstr p x (isGrant 1) w e) → (fModR w % 4 = 1) →
      (onlyBits w [uD, uB, uC, (36, 3)] = true) → ((x.gr (fB w)).toNat % 2 ^ 28 = 0) → ((x.gr (fC w)).toNat % 2 ^ 28 = 0) →
      ((x.gr (fC w)).toNat ≠ 0) → ((x.gr (fC w)).toNat ≤ 2 ^ 46) → (s.rt.windows.lowestFree 4096 0 = some i) → False)) ∧
    (¬ (∀ s : State, ∀ p : Nat, ∀ x : Prog, ∀ w : W64, ∀ e : W64, ∀ i : Nat, (s.AtInstr p x (isGrant 2) w e) → (fModR w % 4 = 2) →
      (onlyBits w [uD, uA, uB, (36, 3)] = true) → (handleErr x (fA w) = none) → (hBase (x.hr (fA w)) % 2 ^ 28 = 0) →
      ((x.gr (fB w)).toNat < 65536) → (s.token (hRegion (x.hr (fA w))) = false) →
      (s.cell (hRegion (x.hr (fA w))) (if fModR w / 4 % 2 == 1 then cellWritable else cellLive) = none) →
      (s.ownerErr x.host (hRegion (x.hr (fA w))) = none) → (s.rt.peers.lowestFree 1024 0 = some i) → False)) ∧
    (¬ (∀ s : State, ∀ host : HostId, ∀ g : Nat, ∀ o : Offer, ∀ x : Prog, (s.barOpen host = true) → (s.rt.offers = [(g, o)]) →
      (s.rt.revokes = []) → (o.grant.host = host) → (s.token o.grant.region = false) → (s.prog o.prog = some x) → (x.cancel = none) →
      ((s.ent o.grant.region).st = .new) → ((s.ent o.grant.region).odd = false) → False)) ∧
    (¬ (∀ s : State, ∀ host : HostId, ∀ g : Nat, ∀ o : Offer, ∀ x : Prog, (s.barOpen host = true) → (s.rt.offers.find g = some o) →
      (o.grant.host = host) → (s.prog o.prog = some x) → (x.mute = false) → (x.wait = .control) → (s.CanPost x.host x.q) → False)) ∧
    (¬ (∀ s : State, ∀ g : Nat, ∀ o : Offer, ∀ x : Prog, (s.rt.offers.find g = some o) → (s.prog o.prog = some x) → (x.mute = false) →
      (s.CanPost x.host x.q) → False)) :=
  ⟨fun h => by
      refine h (ctlS pNew) 0 ([]) pNew (pNew.words.getD 0 0) (pNew.words.getD 1 0) 0 ?_ ?_ ?_ ?_ ?_ ?_ ?_ ?_ ?_
        <;> first | decide +kernel | (constructor <;> decide +kernel),
   fun h => by
      refine h (ctlS pGrantHost) 0 pGrantHost (pGrantHost.words.getD 0 0) 0 1 (2 ^ 28) ?_ ?_ ?_ ?_ ?_ ?_ ?_
        <;> first | decide +kernel | (constructor <;> decide +kernel),
   fun h => by
      refine h (ctlS pGrantWindow) 0 pGrantWindow (pGrantWindow.words.getD 0 0) 0 0 ?_ ?_ ?_ ?_ ?_ ?_ ?_ ?_
        <;> first | decide +kernel | (constructor <;> decide +kernel),
   fun h => by
      refine h (ctlS pGrantPeer) 0 pGrantPeer (pGrantPeer.words.getD 0 0) 0 0 ?_ ?_ ?_ ?_ ?_ ?_ ?_ ?_ ?_ ?_
        <;> first | decide +kernel | (constructor <;> decide +kernel),
   (fun h => by refine h offered 0 1 offer1 ctlProg ?_ ?_ ?_ ?_ ?_ ?_ ?_ ?_ ?_ <;> decide +kernel),
   (fun h => by refine h offered 0 1 offer1 ctlProg ?_ ?_ ?_ ?_ ?_ ?_ ?_ <;> first | decide +kernel | (constructor <;> decide +kernel)),
   (fun h => by refine h offered 1 offer1 ctlProg ?_ ?_ ?_ ?_ <;> first | decide +kernel | (constructor <;> decide +kernel))⟩

/-- States and operands that meet the hypotheses of each clause of `RegionsAreRevokedSealedAndFreed`. -/
theorem witness_RegionsAreRevokedSealedAndFreed :
    (¬ (∀ s : State, ∀ p : Nat, ∀ x : Prog, ∀ w : W64, ∀ e : W64, ∀ g : Nat, ∀ gr : Grant, (s.AtInstr p x (isOp 0x22) w e) →
      (onlyBits w [uA] = true) → (x.gr (fA w) = BitVec.ofNat 64 g) → (g < 65536) → (s.rt.grants.find g = some gr) →
      (s.rt.revokes.find g = none) → (s.token gr.region = false) → (s.cell gr.region cellAny = none) →
      (s.ownerErr x.host gr.region = none) → False)) ∧
    (¬ (∀ s : State, ∀ g : Nat, ∀ gr : Grant, ∀ p : Nat, ∀ x : Prog, (s.rt.revokes = [(g, { progs := [p], stage := .waitRelease })]) →
      (s.rt.grants.find g = some gr) → (s.rt.offers = []) → (s.dir.held = []) → (s.lamp.sch = []) → ((s.ent gr.region).tracked = false) →
      (s.token gr.region = false) → (s.prog p = some x) → (x.cancel = none) → (s.sled.st ≠ .off) → False)) ∧
    (¬ (∀ s : State, ∀ host : HostId, ∀ g : Nat, ∀ gr : Grant, ∀ p : Nat, ∀ x : Prog, (s.barOpen host = true) →
      (s.rt.revokes = [(g, { progs := [p], stage := .waitRelease })]) → (s.rt.grants.find g = some gr) → (gr.host = host) →
      (s.rt.gone.contains g = false) → (s.rt.offers = []) → (s.dir.held = []) → (s.lamp.sch = []) → ((s.ent gr.region).tracked = false) →
      (s.token gr.region = false) → (s.prog p = some x) → (x.cancel = none) → False)) ∧
    (¬ (∀ s : State, ∀ p : Nat, ∀ x : Prog, ∀ w : W64, ∀ e : W64, ∀ r : RegionId, (s.AtInstr p x (isOp 0x23) w e) →
      (onlyBits w [uA] = true) → (handleErr x (fA w) = none) → (hRegion (x.hr (fA w)) = r) → (s.token r = false) →
      ((∀ y ∈ s.sealErrs x r, y = none)) → (s.smes r = []) → (s.map.moves = []) → (s.dir.ent = []) → (s.dir.held = []) →
      (s.rt.offers = []) → (s.rt.revokes = []) → (s.lamp.sch = []) → (s.q.ops = []) → ((s.ent r).odd = false) → False)) ∧
    (¬ (∀ s : State, ∀ p : Nat, ∀ x : Prog, ∀ w : W64, ∀ e : W64, ∀ r : RegionId, ∀ seg : Nat, ∀ k : Nat, (s.AtInstr p x (isOp 0x23) w e) →
      (onlyBits w [uA] = true) → (handleErr x (fA w) = none) → (hRegion (x.hr (fA w)) = r) → (s.token r = false) →
      ((∀ y ∈ s.sealErrs x r, y = none)) → (s.dir.ent = []) → (s.openSegs r = [(seg, false)]) → ((s.sme r seg).st = .opn) →
      (s.moveOf r seg = none) → (s.map.trials.has (segKey r seg) = false) →
      (s.trialEngine (((s.sme r seg).home.bind Loc.tile).getD 0) = some k) → False)) ∧
    (¬ (∀ s : State, ∀ p : Nat, ∀ x : Prog, ∀ w : W64, ∀ e : W64, ∀ r : RegionId, (s.AtInstr p x (isOp 0x24) w e) →
      (onlyBits w [uA, (26, 1)] = true) → (handleErr x (fA w) = none) → (hRegion (x.hr (fA w)) = r) → (s.token r = false) →
      (s.hasLake = true) → (s.cell r cellLive = none) → ((fModI w % 2 = 1 → (s.ent r).shared = false ∧ (s.ent r).back = false)) →
      (s.lake.wear ≠ .spent) → (s.ownerErr x.host r = none) →
      (4 * (s.change r (fun y => { y with keep := true })).commitment ≤ 3 * (s.pwr.budget * 2 ^ 30)) → (s.rt.offers = []) →
      (s.rt.revokes = []) → ((s.ent r).odd = false) → False)) ∧
    (¬ (∀ s : State, ∀ p : Nat, ∀ x : Prog, ∀ w : W64, ∀ e : W64, ∀ r : RegionId, (s.AtInstr p x (isOp 0x25) w e) →
      (onlyBits w [uA] = true) → (handleErr x (fA w) = none) → (hRegion (x.hr (fA w)) = r) → (s.token r = false) →
      ((s.ent r).st = .new) → (s.ownerErr x.host r = none) → (s.dir.held = []) → (s.rt.offers = []) → (s.rt.revokes = []) →
      (s.lamp.sch = []) → False)) ∧
    (¬ (∀ s : State, ∀ r : RegionId, (s.rt.releasing.contains r.toNat = true) → ((∀ d ∈ s.rt.drains, d.region ≠ r)) → False)) :=
  ⟨fun h => by
      refine h (ctlS pRevoke) 0 pRevoke (pRevoke.words.getD 0 0) 0 0 (grant1 true) ?_ ?_ ?_ ?_ ?_ ?_ ?_ ?_ ?_
        <;> first | decide +kernel | (constructor <;> decide +kernel),
   (fun h => by refine h revoking 0 (grant1 true) 0 ctlProg ?_ ?_ ?_ ?_ ?_ ?_ ?_ ?_ ?_ ?_ <;> decide +kernel),
   (fun h => by refine h revoking 0 0 (grant1 true) 0 ctlProg ?_ ?_ ?_ ?_ ?_ ?_ ?_ ?_ ?_ ?_ ?_ ?_ <;> decide +kernel),
   fun h => by
      refine h (ctlS pSeal) 0 pSeal (pSeal.words.getD 0 0) 0 1 ?_ ?_ ?_ ?_ ?_ ?_ ?_ ?_ ?_ ?_ ?_ ?_ ?_ ?_ ?_
        <;> first | decide +kernel | (constructor <;> decide +kernel),
   fun h => by
      refine h (inPond (ctlS pSeal)) 0 pSeal (pSeal.words.getD 0 0) 0 1 0 0 ?_ ?_ ?_ ?_ ?_ ?_ ?_ ?_ ?_ ?_ ?_ ?_
        <;> first | decide +kernel | (constructor <;> decide +kernel),
   fun h => by
      refine h (ctlS pKeep) 0 pKeep (pKeep.words.getD 0 0) 0 1 ?_ ?_ ?_ ?_ ?_ ?_ ?_ ?_ ?_ ?_ ?_ ?_ ?_ ?_
        <;> first | decide +kernel | (constructor <;> decide +kernel),
   fun h => by
      refine h (withProg (mapped ent1n true) pFree) 0 pFree (pFree.words.getD 0 0) 0 1 ?_ ?_ ?_ ?_ ?_ ?_ ?_ ?_ ?_ ?_ ?_
        <;> first | decide +kernel | (constructor <;> decide +kernel),
   fun h => h freed1 1 (by decide +kernel) (fun _ h => absurd h List.not_mem_nil)⟩

/-- States and operands that meet the hypotheses of each clause of `SegmentInstructionsActOnTheirRange`. -/
theorem witness_SegmentInstructionsActOnTheirRange :
    (¬ (∀ s : State, ∀ p : Nat, ∀ x : Prog, ∀ w : W64, ∀ e : W64, ∀ r : RegionId, (s.AtInstr p x (isOp 0x26) w e) →
      (onlyBits w [uA, uB] = true) → (rangeErr s x w = none) → (hRegion (x.hr (fA w)) = r) → (s.token r = false) →
      (s.cell r cellLive = none) → (s.pinErr x w = none) → ((s.ent r).ponly = false) → ((s.ent r).keep = false) → (s.q.ops = []) →
      (s.map.moves = []) → (4 * (s.reservedSectors + 16 * s.unpinnedIn r (rangeSegs x w).1 (rangeSegs x w).2) ≤ 3 * s.pondSectors) →
      ((∀ i, i < (rangeSegs x w).2 → (s.sme r ((rangeSegs x w).1 + i)).home = none ∧ s.malformed (s.sme r ((rangeSegs x w).1 + i)) = false)) →
      False)) ∧
    (¬ (∀ s : State, ∀ p : Nat, ∀ x : Prog, ∀ w : W64, ∀ e : W64, ∀ r : RegionId, (s.AtInstr p x (isOp 0x27) w e) →
      (onlyBits w [uA, uB] = true) → (rangeErr s x w = none) → (hRegion (x.hr (fA w)) = r) → (s.token r = false) →
      (s.cell r cellAny = none) → (s.pinErr x w = none) → (s.map.sme.sorted = true) → False)) ∧
    (¬ (∀ s : State, ∀ p : Nat, ∀ x : Prog, ∀ w : W64, ∀ e : W64, ∀ r : RegionId, ∀ seg : Nat, ∀ f : Nat, ∀ sec : Nat, ∀ a : Nat,
      ∀ sm : Sme, (s.AtInstr p x (isOp 0x28) w e) → (moveKind e = 1) → (onlyBits w [uD, uA, uB] = true) → (xf e 3 61 = 0) →
      (rangeErr s x w = none) → (hRegion (x.hr (fA w)) = r) → (s.token r = false) → (s.cell r cellLive = none) →
      (s.moveRight x w = none) → (s.moveBusy = none) → (s.smes r = [(seg, sm)]) → ((rangeSegs x w).1 ≤ seg) →
      (seg < (rangeSegs x w).1 + (rangeSegs x w).2) → ((s.sme r seg).st = .lake) → ((s.sme r seg).home = some (.flash f sec)) →
      ((s.sme r seg).image = none) → (s.malformed (s.sme r seg) = false) → (s.lends r seg = false) → (s.map.moves = []) →
      (s.q.ops = []) → (s.admitDirty r seg (s.sme r seg).cs = .yes) →
      (s.allocPond (s.anchorOf r seg) (s.sme r seg).cs (s.useOf r seg .place) 0 = some a) → False)) ∧
    (¬ (∀ s : State, ∀ p : Nat, ∀ x : Prog, ∀ w : W64, ∀ e : W64, ∀ r : RegionId, (s.AtInstr p x (isOp 0x28) w e) → (moveKind e = 4) →
      (onlyBits w [uD, uA, uB, uC] = true) → (xf e 3 61 = 0) → (rangeErr s x w = none) → (hRegion (x.hr (fA w)) = r) →
      (s.token r = false) → (s.cell r cellWritable = none) → (s.moveRight x w = none) → (s.moveBusy = none) → (s.dir.ent = []) →
      (s.map.moves = []) → (x.gr (fC w) ≠ 0) → False)) ∧
    (¬ (∀ s : State, ∀ p : Nat, ∀ x : Prog, ∀ w : W64, ∀ e : W64, ∀ r : RegionId, ∀ seg : Nat, ∀ sm : Sme, (s.AtInstr p x (isOp 0x29) w e) →
      (onlyBits w [uA, uB, uC] = true) → (handleErr x (fA w) = none) → ((x.gr (fB w)).toNat < 65536) → ((x.gr (fC w)).toNat < 16384) →
      (hRegion (x.hr (fA w)) = r) → (s.token r = false) → (s.cell r cellLive = none) → (s.ownerErr x.host r = none) →
      (s.smes r = [(seg, sm)]) → (s.sme r seg = sm) → (sm.st = .pattern) → (s.malformed sm = false) → (s.q.ops = []) →
      (s.ports.pmoves = []) → (s.ports.pwait = []) → (s.dir.ent = []) → (s.dir.lost = []) → (s.dir.held = []) → (s.rt.offers = []) →
      (s.rt.revokes = []) → (s.lamp.sch = []) → (s.enrolled ((x.gr (fB w)).setWidth 16) = true) → ((s.ent r).odd = false) → False)) :=
  ⟨fun h => by
      refine h (ctlS pPin) 0 pPin (pPin.words.getD 0 0) 0 1 ?_ ?_ ?_ ?_ ?_ ?_ ?_ ?_ ?_ ?_ ?_ ?_ ?_
        <;> first | decide +kernel | (constructor <;> decide +kernel),
   fun h => by
      refine h (ctlS pUnpin) 0 pUnpin (pUnpin.words.getD 0 0) 0 1 ?_ ?_ ?_ ?_ ?_ ?_ ?_ ?_
        <;> first | decide +kernel | (constructor <;> decide +kernel),
   fun h => by
      refine h (withProg (inLake (mapped ent1 true)) (pMove 1 0)) 0 (pMove 1 0) ((pMove 1 0).words.getD 0 0) 1 1 0 0 0 268435456
        ((inLake (mapped ent1 true)).sme 1 0) ?_ ?_ ?_ ?_ ?_ ?_ ?_ ?_ ?_ ?_ ?_ ?_ ?_ ?_ ?_ ?_ ?_ ?_ ?_ ?_ ?_ ?_
        <;> first | decide +kernel | (constructor <;> decide +kernel),
   fun h => by
      refine h (ctlS (pMove 4 2)) 0 (pMove 4 2) ((pMove 4 2).words.getD 0 0) 4 1 ?_ ?_ ?_ ?_ ?_ ?_ ?_ ?_ ?_ ?_ ?_ ?_ ?_
        <;> first | decide +kernel | (constructor <;> decide +kernel),
   fun h => by
      refine h (withPeer ((ctlS pEvac).putSme 1 0 smePat)) 0 pEvac (pEvac.words.getD 0 0) 0 1 0 smePat ?_ ?_ ?_ ?_ ?_ ?_ ?_ ?_ ?_ ?_ ?_
        ?_ ?_ ?_ ?_ ?_ ?_ ?_ ?_ ?_ ?_ ?_ ?_ ?_
        <;> first | decide +kernel | (constructor <;> decide +kernel)⟩

/-- States and operands that meet the hypotheses of each clause of `PeerMovesExchangeFrames`. -/
theorem witness_PeerMovesExchangeFrames :
    (¬ (∀ s : State, ∀ p : Nat, ∀ x : Prog, ∀ w : W64, ∀ e : W64, ∀ r : RegionId, (s.AtInstr p x (isOp 0x28) w e) → (moveKind e = 5) →
      (peerCheck 5 s x w e = none) → (hRegion (x.hr (fA w)) = r) → (s.token r = false) → (s.cell r cellAny = none) →
      (s.lacks x.host r (hBase (x.hr (fA w))) (x.gr (fB w)).toNat false = none) → (s.moveBusy = none) → (s.ports.pmoves = []) →
      (s.dir.ent = []) → (s.dir.lost = []) → ((rangeSegs x w).2 = 1) → ((s.sme r (rangeSegs x w).1).st = .zero) →
      (s.malformed (s.sme r (rangeSegs x w).1) = false) → (s.enrolled (BitVec.ofNat 16 (xf e 11 16)) = true) → ((s.ent r).odd = false) →
      False)) ∧
    (¬ (∀ s : State, ∀ p : Nat, ∀ x : Prog, ∀ w : W64, ∀ e : W64, ∀ r : RegionId, (s.AtInstr p x (isOp 0x28) w e) → (moveKind e = 6) →
      (peerCheck 6 s x w e = none) → (hRegion (x.hr (fA w)) = r) → (s.token r = false) → (s.cell r cellWritable = none) →
      (s.lacks x.host r (hBase (x.hr (fA w))) (x.gr (fB w)).toNat true = none) → (s.moveBusy = none) → (s.ports.pmoves = []) →
      (s.enrolled (BitVec.ofNat 16 (xf e 11 16)) = true) → False)) ∧
    (¬ (∀ s : State, ∀ pbr : BitVec 12, ∀ f : PFrame, ∀ pick : W32, ∀ p : W16, ∀ a : Nat, (f.whole = true) → (s.up = true) →
      (s.peerAt pbr = some p) → (s.ports.pmoves = []) → (f.seq = 0) → (s.peerMayWrite p f.region = true) →
      (f.seg.toNat < (s.ent f.region).segs) → ((s.ent f.region).odd = false) → (s.dir.ent = []) →
      (s.pageAway f.region f.seg.toNat = false) → (s.malformed (s.sme f.region f.seg.toNat) = false) →
      ((s.sme f.region f.seg.toNat).st = .zero) → (s.moveOf f.region f.seg.toNat = none) →
      (s.admitDirty f.region f.seg.toNat 16 = .yes) →
      (s.allocPond (s.anchorOf f.region f.seg.toNat) 16 (s.useOf f.region f.seg.toNat .store) pick = some a) → False)) ∧
    (¬ (∀ pbr : BitVec 12, ∀ f : PFrame, ∀ crcOk : Bool, ∀ pick : W32, (¬ (Instr.peerDataFrame pbr f crcOk pick).wf = true) → False)) ∧
    (¬ (∀ s : State, ∀ pbr : BitVec 12, ∀ f : PFrame, ∀ p : W16, (s.up = true) → (s.peerAt pbr = some p) → (s.ports.pmoves = []) →
      (s.peerMayRead p f.region = true) → (f.count = 1) → (f.seg.toNat < (s.ent f.region).segs) → ((s.ent f.region).odd = false) →
      (s.dir.ent = []) → (s.dir.lost = []) → (s.malformed (s.sme f.region f.seg.toNat) = false) →
      ((s.sme f.region f.seg.toNat).st = .zero) → False)) ∧
    (¬ (∀ s : State, ∀ pbr : BitVec 12, ∀ f : PFrame, ∀ p : W16, ∀ m : PMove, ∀ n : Nat, ∀ o : COp, ∀ x : Prog, (s.up = true) →
      (s.peerAt pbr = some p) → (s.ports.pmoves = [m]) → (s.ports.pwait = []) → (m.isFor p f.tag true = true) → (m.op = some n) →
      (m.done = some m.count) → (m.seq = m.count) → (m.acked < m.count) → (f.seq.toNat + 1 = m.count) → (s.q.ops.find n = some o) →
      (o.kind = .push) → (o.failed = none) → (s.prog o.prog = some x) → (x.cancel = none) → False)) ∧
    (¬ (∀ s : State, ∀ pbr : BitVec 12, ∀ f : PFrame, ∀ p : W16, ∀ m : PMove, (s.up = true) → (s.peerAt pbr = some p) →
      (s.ports.pmoves = [m]) → (m.isFor p f.tag true = true) → (m.acked ≤ f.seq.toNat) → (f.seq.toNat < m.seq) →
      (m.retried.contains f.seq.toNat = false) → ((s.ent m.region).st ≠ .freed) → ((s.ent m.region).odd = false) →
      ((s.ent m.region).dlost = false) → (s.dir.ent = []) → (s.dir.lost = []) →
      (s.malformed (s.sme m.region (m.segAt f.seq.toNat)) = false) → ((s.sme m.region (m.segAt f.seq.toNat)).st = .zero) → False)) ∧
    (¬ (∀ s : State, ∀ pbr : BitVec 12, ∀ f : PFrame, ∀ p : W16, ∀ m : PMove, (s.up = true) → (s.peerAt pbr = some p) →
      (s.ports.pmoves = [m]) → (s.ports.pwait = []) → (m.isFor p f.tag false = true) → (m.op = none) → (f.count.toNat = m.seq) → False)) ∧
    (¬ (∀ s : State, ∀ tag : W32, ∀ m : PMove, ∀ n : Nat, ∀ o : COp, ∀ x : Prog, (s.ports.pmoves = [m]) → (s.ports.pwait = []) →
      (m.tag = tag) → (m.op = some n) → (m.sends = true) → (s.q.ops.find n = some o) → (o.kind = .push) → (o.also = []) →
      (s.prog o.prog = some x) → (x.mute = false) → (s.CanPost x.host x.q) → False)) :=
  ⟨fun h => by
      refine h (withPeer (ctlS (pMove (5 + 5 * 2 ^ 11) 2))) 0 (pMove (5 + 5 * 2 ^ 11) 2) ((pMove (5 + 5 * 2 ^ 11) 2).words.getD 0 0)
        (5 + 5 * 2 ^ 11) 1 ?_ ?_ ?_ ?_ ?_ ?_ ?_ ?_ ?_ ?_ ?_ ?_ ?_ ?_ ?_ ?_
        <;> first | decide +kernel | (constructor <;> decide +kernel),
   fun h => by
      refine h (withPeer (ctlS (pMove (6 + 5 * 2 ^ 11) 2))) 0 (pMove (6 + 5 * 2 ^ 11) 2) ((pMove (6 + 5 * 2 ^ 11) 2).words.getD 0 0)
        (6 + 5 * 2 ^ 11) 1 ?_ ?_ ?_ ?_ ?_ ?_ ?_ ?_ ?_ ?_
        <;> first | decide +kernel | (constructor <;> decide +kernel),
   fun h => by
      refine h (withPeer (mapped ent1 true)) 9 frame1 0 5 268435456 ?_ ?_ ?_ ?_ ?_ ?_ ?_ ?_ ?_ ?_ ?_ ?_ ?_ ?_ ?_
        <;> decide +kernel,
   fun h => h 9 ({ frame1 with payload := [] }) true 0 (by decide +kernel),
   (fun h => by refine h (withPeer (mapped ent1 true)) 9 frame1 5 ?_ ?_ ?_ ?_ ?_ ?_ ?_ ?_ ?_ ?_ ?_ <;> decide +kernel),
   fun h => by
      refine h (peerMoving (pmove1 (some 0) true (some 1))) 9 frame1 5 (pmove1 (some 0) true (some 1)) 0 (op1 .push) ctlProg ?_ ?_ ?_ ?_
        ?_ ?_ ?_ ?_ ?_ ?_ ?_ ?_ ?_ ?_ ?_
        <;> decide +kernel,
   fun h => by
      refine h (peerMoving (pmove1 none true none)) 9 frame1 5 (pmove1 none true none) ?_ ?_ ?_ ?_ ?_ ?_ ?_ ?_ ?_ ?_ ?_ ?_ ?_ ?_
        <;> decide +kernel,
   fun h => by
      refine h (peerMoving (pmove1 none false none)) 9 frame1 5 (pmove1 none false none) ?_ ?_ ?_ ?_ ?_ ?_ ?_
        <;> decide +kernel,
   fun h => by
      refine h (peerMoving (pmove1 (some 0) true none)) 1 (pmove1 (some 0) true none) 0 (op1 .push) ctlProg ?_ ?_ ?_ ?_ ?_ ?_ ?_ ?_ ?_ ?_
        ?_
        <;> first | decide +kernel | (constructor <;> decide +kernel)⟩

/-- States and operands that meet the hypotheses of each clause of `OwnerInstructionsForPowerAndFirmware`. -/
theorem witness_OwnerInstructionsForPowerAndFirmware :
    (¬ (∀ s : State, ∀ p : Nat, ∀ x : Prog, ∀ w : W64, ∀ e : W64, (s.AtInstr p x (isOp 0x2A) w e) → (onlyBits w [uImm] = true) →
      ((fImm w).toNat ≤ 1) → (s.isOwnerFn x.host = true) → (s.pwr.switching = none) → False)) ∧
    (¬ (∀ s : State, ∀ p : Nat, ∀ f : Profile, ∀ x : Prog, (s.pwr.switching = some (p, f)) → (s.prog p = some x) → (x.cancel = none) → False)) ∧
    (¬ (∀ s : State, ∀ p : Nat, ∀ image : Image, ∀ x : Prog, ∀ w : W64, ∀ e : W64, (s.AtInstr p x (isOp 0x2B) w e) →
      (onlyBits w [uA, uB, (36, 1)] = true) → (fModR w % 2 = 1) → (65536 * (image.chunks + 1) = (x.gr (fB w)).toNat) →
      (131072 ≤ (x.gr (fB w)).toNat) → ((x.gr (fB w)).toNat ≤ 67108864) → (s.isOwnerFn x.host = true) → (s.fw.stage = none) →
      (s.fw.wait = none) → (s.refuses image = none) → False)) ∧
    (¬ (∀ s : State, ∀ p : Nat, ∀ x : Prog, ∀ w : W64, ∀ e : W64, (s.AtInstr p x (isOp 0x2B) w e) → (onlyBits w [uA, uB, (36, 1)] = true) →
      (fModR w % 2 = 0) → (s.isOwnerFn x.host = true) → (s.fw.stage = none) → (s.fw.wait = none) → (s.sledRefuses = none) → False)) ∧
    (¬ (∀ s : State, ∀ p : Nat, ∀ n : Nat, ∀ x : Prog, ∀ w : W64, ∀ e : W64, (s.AtInstr p x (isOp 0x2C) w e) → (only [] w = none) →
      (s.fw.act = none) → (s.fw.inState .staged = some n) → (s.actRefuses n = none) → (s.isOwnerFn x.host = true) → (s.pond.panic = []) →
      (s.rt.stalled = []) → (s.lamp.sch = []) → False)) ∧
    (¬ (∀ s : State, ∀ p : Nat, ∀ n : Nat, ∀ x : Prog, ∀ w : W64, ∀ e : W64, (s.AtInstr p x (isOp 0x2D) w e) → (only [] w = none) →
      (s.onProbation = some n) → (n < 2) → (s.isOwnerFn x.host = true) → (s.sled.st ≠ .off) → False)) :=
  ⟨fun h => by
      refine h (ownerS pProfile) 0 pProfile (pProfile.words.getD 0 0) 0 ?_ ?_ ?_ ?_ ?_
        <;> first | decide +kernel | (constructor <;> decide +kernel),
   (fun h => by refine h switching 0 (.training) ctlProg ?_ ?_ ?_ <;> decide +kernel),
   fun h => by
      refine h (charged (ownerS (pStage 1))) 0 image1 (pStage 1) ((pStage 1).words.getD 0 0) 0 ?_ ?_ ?_ ?_ ?_ ?_ ?_ ?_ ?_ ?_
        <;> first | decide +kernel | (constructor <;> decide +kernel),
   fun h => by
      refine h (charged (ownerS (pStage 0))) 0 (pStage 0) ((pStage 0).words.getD 0 0) 0 ?_ ?_ ?_ ?_ ?_ ?_ ?_
        <;> first | decide +kernel | (constructor <;> decide +kernel),
   fun h => by
      refine h (withSlot1 (charged (ownerS pActivate)) .staged) 0 1 pActivate (pActivate.words.getD 0 0) 0 ?_ ?_ ?_ ?_ ?_ ?_ ?_ ?_ ?_
        <;> first | decide +kernel | (constructor <;> decide +kernel),
   fun h => by
      refine h (withSlot1 (charged (ownerS pConfirm)) .probation) 0 1 pConfirm (pConfirm.words.getD 0 0) 0 ?_ ?_ ?_ ?_ ?_ ?_
        <;> first | decide +kernel | (constructor <;> decide +kernel)⟩

/-- States and operands that meet the hypotheses of each clause of `MailboxAnswers`. -/
theorem witness_MailboxAnswers :
    (¬ (∀ s : State, ∀ host : HostId, (s.barOpen host = true) → False)) ∧
    (¬ (∀ s : State, ∀ host : HostId, ∀ g : Nat, ∀ gr : Grant, (s.barOpen host = true) → (s.rt.grants = [(g, gr)]) → (gr.host = host) →
      (s.rt.gone.contains g = false) → False)) ∧
    (¬ (∀ s : State, ∀ host : HostId, ∀ v : DcEv, (s.barOpen host = true) → (s.ports.dcLog.getD host.toNat [] = [v]) → False)) ∧
    (¬ (∀ s : State, ∀ host : HostId, ∀ opcode : W16, (s.barOpen host = true) →
      (opcode.toNat ∉ [0x4800, 0x4801, 0x4802, 0x4803, 0x4000, 0x0100, 0x0101, 0x4200, 0x0400]) → False)) ∧
    (¬ (∀ s : State, ∀ host : HostId, (s.reach host = true) → False)) :=
  ⟨fun h => h linked 0 (by decide +kernel),
   (fun h => by refine h (mapped ent1 true) 0 0 (grant1 true) ?_ ?_ ?_ ?_ <;> decide +kernel),
   (fun h => by refine h logged 0 (.add 1 0 1 0) ?_ ?_ <;> decide +kernel),
   (fun h => by refine h linked 0 0x4804 ?_ ?_ <;> decide +kernel),
   fun h => h linked 0 (by decide +kernel)⟩

/-- States and operands that meet the hypotheses of each clause of `HostResetsEndGrants`. -/
theorem witness_HostResetsEndGrants :
    (¬ (∀ s : State, ∀ pg : Fin 4, (s.Calm) → (s.dir.ent = []) → (s.ports.resets = []) → (s.ports.perst.contains pg.val = false) → False)) ∧
    (¬ (∀ s : State, ∀ pg : Fin 4, (s.ports.perst.contains pg.val = true) → False)) ∧
    (¬ (∀ s : State, ∀ half : Fin 16, (s.Calm) → (s.dir.ent = []) → (s.ports.resets = []) → ((s.halfReg half).hold = false) →
      (s.halfExists half = true) → False)) ∧
    (¬ (∀ s : State, ∀ half : Fin 16, (s.Calm) → (s.dir.ent = []) → (s.ports.resets = []) → ((s.halfReg half).hold = false) →
      (s.halfExists half = true) → ((s.halfReg half).link ≠ 0) → False)) ∧
    (¬ (∀ s : State, ∀ host : HostId, (s.Calm) → (s.dir.ent = []) → ((s.bindOf host).valid = true) →
      ((s.halfReg (s.halfOf host)).hold = false) → (s.inReset host = false) → False)) ∧
    (¬ (∀ s : State, ∀ host : HostId, (s.Calm) → (s.dir.ent = []) → (s.barOpen host = true) → (s.sled.st ≠ .off) → False)) ∧
    (¬ (∀ s : State, ∀ host : HostId, ∀ region : RegionId, ∀ line : BitVec 40, ∀ n : Snoop, (s.Calm) →
      (s.dir.snoops.find? (fun n => n.region == region && n.line == line && n.host == host) = some n) → False)) :=
  ⟨(fun h => by refine h linked 0 ?_ ?_ ?_ ?_ <;> first | decide +kernel | (constructor <;> decide +kernel)),
   fun h => h perst0 0 (by decide +kernel),
   (fun h => by refine h linked 0 ?_ ?_ ?_ ?_ ?_ <;> first | decide +kernel | (constructor <;> decide +kernel)),
   (fun h => by refine h linked 0 ?_ ?_ ?_ ?_ ?_ ?_ <;> first | decide +kernel | (constructor <;> decide +kernel)),
   (fun h => by refine h linked 0 ?_ ?_ ?_ ?_ ?_ <;> first | decide +kernel | (constructor <;> decide +kernel)),
   (fun h => by refine h linked 0 ?_ ?_ ?_ ?_ <;> first | decide +kernel | (constructor <;> decide +kernel)),
   fun h => by
      refine h (snooped (inPond (mapped ent1s true)) .inv) 0 1 0 (⟨1, 0, 0, .inv⟩) ?_ ?_
        <;> first | decide +kernel | (constructor <;> decide +kernel)⟩

/-- States and operands that meet the hypotheses of each clause of `BindingsAndFunctionPower`. -/
theorem witness_BindingsAndFunctionPower :
    (¬ (∀ s : State, ∀ host : HostId, ((s.bindOf host).valid = false) → False)) ∧
    (¬ (∀ s : State, ∀ host : HostId, ∀ value : W32, (s.Calm) → (s.dir.ent = []) → ((s.bindOf host).valid = true) →
      (s.inReset host = false) → ((s.bindOfWord host value).valid = false) → False)) ∧
    (¬ (∀ s : State, ∀ host : HostId, (s.Calm) → (s.dir.ent = []) → ((s.bindOf host).valid = true) →
      ((s.halfReg (s.halfOf host)).hold = false) → (s.inReset host = false) → (s.sled.st ≠ .off) → False)) ∧
    (¬ (∀ s : State, ∀ host : HostId, (s.reach host = true) → ((s.fnOf host).d3 = false) → False)) ∧
    (¬ (∀ s : State, ∀ host : HostId, (s.reach host = true) → ((s.fnOf host).d3 = true) → False)) ∧
    (¬ (∀ s : State, ∀ host : HostId, (s.ports.resets = [⟨host, false, true, none⟩]) → ((∀ p ∈ s.rt.grants, p.2.host ≠ host)) → False)) ∧
    (¬ (∀ s : State, ∀ half : Fin 16, ∀ train : Train, ∀ host : HostId, (half.val % 2 = 0) → (train.ok = true) → (s.up = true) →
      ((s.halfReg half).hold = false) → ((s.halfReg half).link = 1) → (s.ports.perst = []) → (s.fenced (.half half) = false) →
      (s.hostsOn half = [host]) → (s.ports.resets = [⟨host, true, false, none⟩]) → ((∀ p ∈ s.rt.grants, p.2.host ≠ host)) → False)) ∧
    (¬ (∀ s : State, ∀ host : HostId, ∀ w : Nat, ∀ v : Window, (s.reach host = true) → (s.rt.windows = [(w, v)]) → (v.host = host) →
      (s.rt.revokes = []) → (s.q.ops = []) → (s.ports.np = []) → (s.sled.st ≠ .off) → False)) :=
  ⟨fun h => h linked 1 (by decide +kernel),
   (fun h => by refine h linked 0 0 ?_ ?_ ?_ ?_ ?_ <;> first | decide +kernel | (constructor <;> decide +kernel)),
   (fun h => by refine h linked 0 ?_ ?_ ?_ ?_ ?_ ?_ <;> first | decide +kernel | (constructor <;> decide +kernel)),
   (fun h => by refine h linked 0 ?_ ?_ <;> decide +kernel),
   (fun h => by refine h inD3 0 ?_ ?_ <;> decide +kernel),
   fun h => h (awaiting false true) 0 (by decide +kernel) (fun _ h => absurd h List.not_mem_nil),
   fun h => by
      refine h training0 0 ({ half := 0, ok := true, width := 4, speed := 5, flit := 1 }) 0 ?_ ?_ ?_ ?_ ?_ ?_ ?_ ?_ ?_
        (fun _ h => absurd h List.not_mem_nil)
        <;> decide +kernel,
   (fun h => by refine h lent 0 0 (⟨0, 0, 2 ^ 28⟩) ?_ ?_ ?_ ?_ ?_ ?_ ?_ <;> decide +kernel)⟩

/-- States and operands that meet the hypotheses of each clause of `LinkEventsAct`. -/
theorem witness_LinkEventsAct :
    (¬ (∀ s : State, ∀ req : Nat, ∀ n : NpReq, (s.ports.np.find req = some n) → (n.retried = false) → (s.issued req = true) → False)) ∧
    (¬ (∀ s : State, ∀ half : Fin 16, (s.linkOpen half = true) → ((s.portCfg (half.val / 2)).l1Idle ≠ 0) → (s.rtHalf half = false) → False)) ∧
    (¬ (∀ s : State, ∀ half : Fin 16, ∀ width : BitVec 3, (s.linkOpen half = true) → (width ≤ (s.halfReg half).width) →
      (s.rtHalf half = false) → False)) ∧
    (¬ (∀ s : State, ∀ half : Fin 16, ∀ link : BitVec 4, ((s.halfReg half).hold = false) → (s.up = true) → (link ∈ [5#4, 6#4, 7#4, 8#4]) →
      ((s.halfReg half).link ∈ [2#4, 3#4, 5#4, 6#4, 7#4, 8#4]) → False)) ∧
    (¬ (∀ s : State, ∀ half : Fin 16, ((s.halfReg half).hold = false) → (s.up = true) → ((s.halfReg half).link = 2) →
      (s.rtHalf half = false) → ((s.portCfg (half.val / 2)).l0pEn = true) → False)) ∧
    (¬ (∀ s : State, ∀ half : Fin 16, ((s.halfReg half).hold = false) → (s.up = true) →
      ((s.halfReg half).link ∈ [2#4, 3#4, 5#4, 6#4, 7#4, 8#4]) → False)) ∧
    (¬ (∀ s : State, ∀ half : Fin 16, (s.linkOpen half = true) → False)) ∧
    (¬ (∀ s : State, ∀ half : Fin 16, (s.Calm) → (s.dir.ent = []) → (s.ports.resets = []) → (s.linkOpen half = true) → False)) ∧
    (¬ (∀ s : State, ∀ half : Fin 16, (s.Calm) → (s.dir.ent = []) → (s.ports.resets = []) → (s.linkOpen half = true) →
      ((s.halfReg half).ide = true) → False)) :=
  ⟨(fun h => by refine h reading0 0 ({ host := 0, region := 1, seg := 0, retried := false }) ?_ ?_ ?_ <;> decide +kernel),
   (fun h => by refine h linked 0 ?_ ?_ ?_ <;> decide +kernel),
   (fun h => by refine h linked 0 0 ?_ ?_ ?_ <;> decide +kernel),
   (fun h => by refine h linked 0 8 ?_ ?_ ?_ ?_ <;> decide +kernel),
   (fun h => by refine h linked 0 ?_ ?_ ?_ ?_ ?_ <;> decide +kernel),
   (fun h => by refine h linked 0 ?_ ?_ ?_ <;> decide +kernel),
   fun h => h linked 0 (by decide +kernel),
   (fun h => by refine h keyed0 0 ?_ ?_ ?_ ?_ <;> first | decide +kernel | (constructor <;> decide +kernel)),
   (fun h => by refine h keyed0 0 ?_ ?_ ?_ ?_ ?_ <;> first | decide +kernel | (constructor <;> decide +kernel))⟩

/-- States and operands that meet the hypotheses of each clause of `QueuesAreRungEnabledAndDrained`. -/
theorem witness_QueuesAreRungEnabledAndDrained :
    (¬ (∀ s : State, ∀ h : HostId, ∀ q : QueueNo, ∀ v : W32, (s.barOpen h = true) → (s.inPause = false) → ((s.queue h q).st = .running) →
      (v.toNat % 4096 < (s.queue h q).size) → False)) ∧
    (¬ (∀ s : State, ∀ h : HostId, ∀ q : QueueNo, ∀ v : W32, (s.barOpen h = true) → (s.inPause = false) → ((s.queue h q).st = .running) →
      ((s.queue h q).size ≤ v.toNat % 4096) → (s.sled.st ≠ .off) → False)) ∧
    (¬ (∀ s : State, ∀ h : HostId, (s.barOpen h = true) → (s.inPause = true) → False)) ∧
    (¬ (∀ s : State, ∀ h : HostId, ∀ q : QueueNo, ∀ v : W32, (s.barOpen h = true) → (s.inPause = false) → ((s.queue h q).st = .running) →
      (v.toNat % 4096 < (s.queue h q).size) →
      ((v.toNat % 4096 + (s.queue h q).size - (s.queue h q).cqhead) % (s.queue h q).size ≤ ((s.queue h q).cqtail + (s.queue h q).size - (s.queue h q).cqhead) % (s.queue h q).size) →
      ((s.queue h q).heldCpl = []) → False)) ∧
    (¬ (∀ s : State, ∀ h : HostId, ∀ q : QueueNo, ∀ cfg : W64, (s.barOpen h = true) → (s.up = true) → ((s.queue h q).enable = false) →
      ((s.queue h q).st = .disabled) → (cfgOk cfg = true) → ((s.queue h q).sqbase ≠ 0) → ((s.queue h q).cqbase ≠ 0) →
      (s.enabledQueues < 8192) → ((s.queue h q).heldCpl = []) → False)) ∧
    (¬ (∀ s : State, ∀ h : HostId, ∀ q : QueueNo, ∀ cfg : W64, (s.barOpen h = true) → (s.up = true) → ((s.queue h q).enable = false) →
      ((s.queue h q).st = .disabled) → (cfgOk cfg = false) → False)) ∧
    (¬ (∀ s : State, ∀ h : HostId, ∀ q : QueueNo, (s.barOpen h = true) → ((s.queue h q).enable = true) → False)) ∧
    (¬ (∀ s : State, ∀ h : HostId, ∀ q : QueueNo, ((s.queue h q).st = .draining) → (s.progsOf h q = []) → ((s.queue h q).heldCpl = []) →
      (s.lamp.sch = []) → False)) :=
  ⟨(fun h => by refine h (queued id) 0 0 15 ?_ ?_ ?_ ?_ <;> decide +kernel),
   (fun h => by refine h (queued id) 0 0 16 ?_ ?_ ?_ ?_ ?_ <;> decide +kernel),
   (fun h => by refine h (inActivation (queued id)) 0 ?_ ?_ <;> decide +kernel),
   (fun h => by refine h (queued (fun x => { x with cqtail := 5 })) 0 0 5 ?_ ?_ ?_ ?_ ?_ ?_ <;> decide +kernel),
   (fun h => by refine h bases 0 0 cfg15 ?_ ?_ ?_ ?_ ?_ ?_ ?_ ?_ ?_ <;> decide +kernel),
   (fun h => by refine h bases 0 0 0x0000080064201FEF ?_ ?_ ?_ ?_ ?_ <;> decide +kernel),
   (fun h => by refine h (queued id) 0 0 ?_ ?_ <;> decide +kernel),
   (fun h => by refine h (queued (fun x => { x with st := .draining })) 0 0 ?_ ?_ ?_ ?_ <;> decide +kernel)⟩

/-- States and operands that meet the hypotheses of each clause of `DescriptorsBecomePrograms`. -/
theorem witness_DescriptorsBecomePrograms :
    (¬ (∀ s : State, ∀ h : HostId, ∀ q : QueueNo, ∀ d : Line, (s.up = true) → ((s.queue h q).st = .running) →
      ((s.queue h q).sqhead ≠ (s.queue h q).sqtail) → (descOk d = true) → (((descWord d 0).extractLsb' 16 2).toNat < 2) → False)) ∧
    (¬ (∀ s : State, ∀ h : HostId, ∀ q : QueueNo, ∀ d : Line, ∀ chk : Chk, ∀ off : Nat, ∀ n : Nat, ∀ a : Nat, ∀ r : RegionId,
      (s.up = true) → ((s.queue h q).st = .running) → ((s.queue h q).sqhead ≠ (s.queue h q).sqtail) → (descOk d = true) →
      (((descWord d 0).extractLsb' 16 2).toNat = 2) → (((descWord d 0).extractLsb' 32 16).toNat = n) →
      (((descWord d 1).extractLsb' 0 46).toNat = off) → ((descWord d 1).extractLsb' 46 14 = r) → ((s.ent r).odd = false) →
      (s.access h r off (8 * n) false = none) → (off % 64 + 8 * n ≤ 64) → (s.InPond r (off / 64 / 64) a) → ((s.ent r).tracked = false) →
      (s.isLost r (BitVec.ofNat 40 (off / 64)) = false) → (chkFails chk = false) → False)) ∧
    (¬ (∀ s : State, ∀ h : HostId, ∀ q : QueueNo, ∀ d : Line, (s.up = true) → ((s.queue h q).st = .running) →
      ((s.queue h q).sqhead ≠ (s.queue h q).sqtail) → (descOk d = false) → (s.CanPost h q) → False)) ∧
    (¬ (∀ s : State, ∀ h : HostId, ∀ q : QueueNo, (s.up = true) → ((s.queue h q).st = .running) →
      ((s.queue h q).sqhead ≠ (s.queue h q).sqtail) → False)) ∧
    (¬ (∀ s : State, ∀ h : HostId, ∀ q : QueueNo, (s.sled.st ≠ .off) → ((s.queue h q).st ≠ .disabled) → ((s.queue h q).err ≠ 6) → False)) ∧
    (¬ (∀ s : State, ∀ h : HostId, ∀ q : QueueNo, ∀ pick : W32, ∀ r : Ready, ∀ l : List Ready, ∀ c : Nat, ((s.queue h q).ready = r :: l) →
      (s.mayStart h q r = true) → ((s.queue h q).kind = 1) → (s.eligible h (s.queue h q).group.toNat ≠ []) →
      (s.chooseCore (s.eligible h (s.queue h q).group.toNat) pick = some c) → (s.map.sme = []) → (s.map.rel = []) → (s.map.moves = []) →
      False)) ∧
    (¬ (∀ s : State, ∀ h : HostId, ∀ q : QueueNo, ∀ r : Ready, ∀ l : List Ready, ((s.queue h q).ready = r :: l) →
      (s.mayStart h q r = true) → ((s.queue h q).kind = 0 ∨ (s.queue h q).kind = 2) → False)) ∧
    (¬ (∀ s : State, ∀ p : Nat, ∀ x : Prog, (s.prog p = some x) → ((s.queue x.host x.q).runlim ≠ 0) → (x.wait = .run ∨ x.wait = .miss) →
      (x.mute = false) → (s.CanPost x.host x.q) → False)) :=
  ⟨(fun h => by refine h (queued (fun x => { x with sqtail := 1 })) 0 0 (desc 0 1 0x2007 0) ?_ ?_ ?_ ?_ ?_ <;> decide +kernel),
   fun h => by
      refine h (queued (fun x => { x with sqtail := 1 })) 0 0 (desc 2 1 (1 * 2 ^ 46) 5) (.ok) 0 1 256 1 ?_ ?_ ?_ ?_ ?_ ?_ ?_ ?_ ?_ ?_ ?_
        ?_ ?_ ?_ ?_
        <;> first | decide +kernel | (constructor <;> decide +kernel),
   fun h => by
      refine h (queued (fun x => { x with sqtail := 1 })) 0 0 (desc 3 1 0 0) ?_ ?_ ?_ ?_ ?_
        <;> first | decide +kernel | (constructor <;> decide +kernel),
   (fun h => by refine h (queued (fun x => { x with sqtail := 1 })) 0 0 ?_ ?_ ?_ <;> decide +kernel),
   (fun h => by refine h (queued id) 0 0 ?_ ?_ ?_ <;> decide +kernel),
   (fun h => by refine h (dispatchable 1) 0 0 0 ready1 ([]) 0 ?_ ?_ ?_ ?_ ?_ ?_ ?_ ?_ <;> decide +kernel),
   (fun h => by refine h (dispatchable 2) 0 0 ready1 ([]) ?_ ?_ ?_ <;> decide +kernel),
   fun h => by
      refine h (withProg (mapped ent1 true) (prog0 .compute 0 [ins 7 1 0 0 0 0])) 0 (prog0 .compute 0 [ins 7 1 0 0 0 0]) ?_ ?_ ?_ ?_ ?_
        <;> first | decide +kernel | (constructor <;> decide +kernel)⟩

/-- States and operands that meet the hypotheses of each clause of `FlowInstructionsMoveThePc`. -/
theorem witness_FlowInstructionsMoveThePc :
    (¬ (∀ s : State, ∀ p : Nat, ∀ x : Prog, ∀ w : W64, ∀ e : W64, ∀ n : Nat, (s.AtInstr p x (isOp 1) w e) →
      ((fModI w / 32 % 2 = 1 ∧ onlyBits w [uA, uModI] = true ∧ (x.gr (fA w)).toNat = n) ∨ (fModI w / 32 % 2 = 0 ∧ onlyBits w [uModI, uImm] = true ∧ (x.pc : Int) + (fImm w).toInt = n)) →
      ((starts x.words).getD n false = true) → False)) ∧
    (¬ (∀ s : State, ∀ p : Nat, ∀ x : Prog, ∀ w : W64, ∀ e : W64, (s.AtInstr p x (isOp 1) w e) → (onlyBits w [uA, uModI] = true) →
      (fModI w / 32 % 2 = 1) → ((starts x.words).getD (x.gr (fA w)).toNat false = false) → (x.mute = false) → (s.CanPost x.host x.q) →
      False)) ∧
    (¬ (∀ s : State, ∀ p : Nat, ∀ x : Prog, ∀ w : W64, ∀ e : W64, (s.AtInstr p x (isOp 2) w e) → (onlyBits w [uD, uImm] = true) →
      (x.gr (fD w) = 0) → False)) ∧
    (¬ (∀ s : State, ∀ p : Nat, ∀ x : Prog, ∀ w : W64, ∀ e : W64, (s.AtInstr p x (isOp 2) w e) → (onlyBits w [uD, uImm] = true) →
      (x.gr (fD w) = 1) → False)) ∧
    (¬ (∀ s : State, ∀ p : Nat, ∀ x : Prog, ∀ w : W64, ∀ e : W64, (s.AtInstr p x (isOp 2) w e) → (onlyBits w [uD, uImm] = true) → ∀ n : Nat,
      (2 ≤ (x.gr (fD w)).toNat) → ((x.pc : Int) + (fImm w).toInt = n) → ((starts x.words).getD n false = true) → False)) ∧
    (¬ (∀ s : State, ∀ p : Nat, ∀ x : Prog, ∀ w : W64, ∀ e : W64, (s.AtInstr p x (isOp 6) w e) → (onlyBits w [(26, 1)] = true) →
      ((fModI w = 1 → ∀ m ∈ x.pf, s.map.moves.find m = none)) → False)) ∧
    (¬ (∀ s : State, ∀ p : Nat, ∀ x : Prog, ∀ w : W64, ∀ e : W64, (s.prog p = some x) → (s.mayRun x = true) → (x.cur (isOp 6) = .word w e) →
      ((x.pred w).getLsbD 0 = true) → (onlyBits w [(26, 1)] = true) → (x.stores ≠ []) →
      ((∀ y ∈ x.stores, (s.ent y.region).tracked = false)) → False)) ∧
    (¬ (∀ s : State, ∀ p : Nat, ∀ x : Prog, ∀ w : W64, ∀ e : W64, (s.AtInstr p x (isOp 7) w e) → (onlyBits w [] = true) → (x.mute = false) →
      (s.CanPost x.host x.q) → False)) :=
  ⟨fun h => by
      refine h (compS pBr) 0 pBr (pBr.words.getD 0 0) 0 1 ?_ ?_ ?_
        <;> first | decide +kernel | (constructor <;> decide +kernel),
   fun h => by
      refine h (compS pBrInd) 0 pBrInd (pBrInd.words.getD 0 0) 0 ?_ ?_ ?_ ?_ ?_ ?_
        <;> first | decide +kernel | (constructor <;> decide +kernel),
   fun h => by
      refine h (compS (pLoop 0)) 0 (pLoop 0) ((pLoop 0).words.getD 0 0) 0 ?_ ?_ ?_
        <;> first | decide +kernel | (constructor <;> decide +kernel),
   fun h => by
      refine h (compS (pLoop 1)) 0 (pLoop 1) ((pLoop 1).words.getD 0 0) 0 ?_ ?_ ?_
        <;> first | decide +kernel | (constructor <;> decide +kernel),
   fun h => by
      refine h (compS (pLoop 2)) 0 (pLoop 2) ((pLoop 2).words.getD 0 0) 0 ?_ ?_ 0 ?_ ?_ ?_
        <;> first | decide +kernel | (constructor <;> decide +kernel),
   fun h => by
      refine h (compS pFence) 0 pFence (pFence.words.getD 0 0) 0 ?_ ?_ ?_
        <;> first | decide +kernel | (constructor <;> decide +kernel),
   (fun h => by refine h (compS pFenceSt) 0 pFenceSt (pFenceSt.words.getD 0 0) 0 ?_ ?_ ?_ ?_ ?_ ?_ ?_ <;> decide +kernel),
   fun h => by
      refine h (compS pHalt) 0 pHalt (pHalt.words.getD 0 0) 0 ?_ ?_ ?_ ?_
        <;> first | decide +kernel | (constructor <;> decide +kernel)⟩

/-- States and operands that meet the hypotheses of each clause of `WaitsSignalsAndKicks`. -/
theorem witness_WaitsSignalsAndKicks :
    (¬ (∀ s : State, ∀ p : Nat, ∀ x : Prog, ∀ w : W64, ∀ e : W64, (s.AtInstr p x (isWait 0) w e) → (fModI w = 0) →
      (onlyBits w [uImm] = true) → (0 < (fImm w).toInt) → False)) ∧
    (¬ (∀ s : State, ∀ p : Nat, ∀ x : Prog, ∀ w : W64, ∀ e : W64, ∀ q : QueueNo, ∀ n : Nat, (s.AtInstr p x (isWait 1) w e) → (fModI w = 1) →
      (onlyBits w [uD, uA, (26, 2), uImm] = true) → (0 < (fImm w).toInt) → (x.gr (fA w) = BitVec.ofNat 64 (q.toNat * 256 + n)) →
      (n < 32) → (s.schedQueue x.host q.toNat = true) → False)) ∧
    (¬ (∀ s : State, ∀ p : Nat, ∀ x : Prog, ∀ w : W64, ∀ e : W64, (s.AtInstr p x (isWait 2) w e) → (fModI w % 4 = 2) →
      (onlyBits w [uD, uModI, uImm] = true) → (0 < (fImm w).toInt) → False)) ∧
    (¬ (∀ s : State, ∀ p : Nat, ∀ x : Prog, (s.prog p = some x) → (x.wait = .time) → (x.cancel = none) → False)) ∧
    (¬ (∀ s : State, ∀ p : Nat, ∀ x : Prog, ∀ c : Nat, ∀ n : W64, (s.prog p = some x) → (x.wait = .signal c n) → (x.mute = false) →
      (s.CanPost x.host x.q) → False)) ∧
    (¬ (∀ s : State, ∀ p : Nat, ∀ x : Prog, ∀ w : W64, ∀ e : W64, (s.AtInstr p x (isOp 4) w e) → (onlyBits w [(26, 4), uImm] = true) →
      ((∀ y ∈ s.q.progs, ∀ c n, y.2.wait ≠ .signal c n)) → False)) ∧
    (¬ (∀ s : State, ∀ p : Nat, ∀ p2 : Nat, ∀ x : Prog, ∀ x2 : Prog, ∀ w : W64, ∀ e : W64, ∀ n : W64, (s.AtInstr p x (isOp 4) w e) →
      (onlyBits w [(26, 4), uImm] = true) → (p < p2) → (s.q.progs = [(p, x), (p2, x2)]) → (x2.host = x.host) →
      (x2.wait = .signal (fModI w) n) → (x2.cancel = none) → (n.toInt ≤ (s.sigOf x.host (fModI w) + (fImm w).signExtend 64).toInt) →
      False)) ∧
    (¬ (∀ s : State, ∀ p : Nat, ∀ x : Prog, ∀ w : W64, ∀ e : W64, (s.AtInstr p x (isOp 5) w e) → (onlyBits w [] = true) → False)) :=
  ⟨fun h => by
      refine h (compS (pWait 0 0 0 [])) 0 (pWait 0 0 0 []) ((pWait 0 0 0 []).words.getD 0 0) 0 ?_ ?_ ?_ ?_
        <;> first | decide +kernel | (constructor <;> decide +kernel),
   fun h => by
      refine h (beatS (pWait 1 2 1 [(1, 0x11F), (2, 1)])) 0 (pWait 1 2 1 [(1, 0x11F), (2, 1)]) ((pWait 1 2 1 []).words.getD 0 0) 0 1 31
        ?_ ?_ ?_ ?_ ?_ ?_ ?_
        <;> first | decide +kernel | (constructor <;> decide +kernel),
   fun h => by
      refine h (compS (pWait 14 2 0 [(2, 1)])) 0 (pWait 14 2 0 [(2, 1)]) ((pWait 14 2 0 []).words.getD 0 0) 0 ?_ ?_ ?_ ?_
        <;> first | decide +kernel | (constructor <;> decide +kernel),
   (fun h => by refine h (compS (waiting .time)) 0 (waiting .time) ?_ ?_ ?_ <;> decide +kernel),
   fun h => by
      refine h (compS (waiting (.signal 3 5))) 0 (waiting (.signal 3 5)) 3 5 ?_ ?_ ?_ ?_
        <;> first | decide +kernel | (constructor <;> decide +kernel),
   fun h => by
      refine h (compS pSignal) 0 pSignal (pSignal.words.getD 0 0) 0 ?_ ?_ (fun _ h _ _ => (List.mem_singleton.mp h) ▸ nofun)
        <;> first | decide +kernel | (constructor <;> decide +kernel),
   fun h => by
      refine h (two pSignal (waiting (.signal 3 1))) 0 1 pSignal (waiting (.signal 3 1)) (pSignal.words.getD 0 0) 0 1 ?_ ?_ ?_ ?_ ?_ ?_
        ?_ ?_
        <;> first | decide +kernel | (constructor <;> decide +kernel),
   fun h => by
      refine h (compS pKick) 0 pKick (pKick.words.getD 0 0) 0 ?_ ?_
        <;> first | decide +kernel | (constructor <;> decide +kernel)⟩

/-- States and operands that meet the hypotheses of each clause of `MovsComputesEveryForm`. -/
theorem witness_MovsComputesEveryForm :
    (¬ (∀ s : State, ∀ p : Nat, ∀ x : Prog, ∀ w : W64, ∀ e : W64, (s.AtInstr p x (isOp 8) w e) → (movsCheck s x w = none) → False)) ∧
    (¬ (∀ s : State, ∀ p : Nat, ∀ x : Prog, ∀ w : W64, ∀ e : W64, (s.AtInstr p x (isOp 8) w e) → (fModI w = 0) → (fImm w = 4) →
      (onlyBits w [uD, uModI, uImm] = true) → False)) ∧
    (¬ (∀ s : State, ∀ p : Nat, ∀ x : Prog, ∀ w : W64, ∀ e : W64, (s.AtWord p x (isOp 8) w e) → (movsCheck s x w = none) →
      ((x.pred w).getLsbD 0 = false) → False)) ∧
    (¬ (∀ s : State, ∀ p : Nat, ∀ x : Prog, ∀ w : W64, ∀ e : W64, (s.AtWord p x (isOp 8) w e) → (x.mute = false) → (s.CanPost x.host x.q) →
      (0x11 ≤ fModI w ∨ (fModI w = 0 ∧ 12 ≤ (fImm w).toNat) ∨ (fModI w = 1 ∧ fImm w ≠ 10) ∨ (fModI w = 2 ∧ hValid (x.gr (fA w)) = true ∧ ((x.gr (fA w)).extractLsb' 14 2 ≠ 0 ∨ (x.gr (fA w)).getLsbD 62 = true)) ∨ (32 ≤ (fImm w).toNat ∧ fModI w ∈ [7, 8, 9, 0xD, 0x10])) →
      False)) ∧
    (¬ (∀ s : State, ∀ p : Nat, ∀ x : Prog, ∀ w : W64, ∀ e : W64, (s.AtWord p x (isOp 8) w e) → (x.mute = false) → (s.CanPost x.host x.q) →
      (fModI w = 0xD) → (onlyBits w [uD, uA, uModI, (32, 5)] = true) → (fD w < 8) → (fA w < 8) →
      (2 ^ 46 ≤ hBase (x.hr (fA w)) + (x.gr ((fImm w).toNat % 32)).toNat) → False)) :=
  ⟨fun h => by
      refine h (compS (pMovs 7 2 [(1, 4), (2, 5)])) 0 (pMovs 7 2 [(1, 4), (2, 5)]) ((pMovs 7 2 []).words.getD 0 0) 0 ?_ ?_
        <;> first | decide +kernel | (constructor <;> decide +kernel),
   fun h => by
      refine h (compS pMovs0) 0 pMovs0 (pMovs0.words.getD 0 0) 0 ?_ ?_ ?_ ?_
        <;> first | decide +kernel | (constructor <;> decide +kernel),
   fun h => by
      refine h (compS pMovsP) 0 pMovsP (pMovsP.words.getD 0 0) 0 ?_ ?_ ?_
        <;> first | decide +kernel | (constructor <;> decide +kernel),
   fun h => by
      refine h (compS (pMovs 7 32 [])) 0 (pMovs 7 32 []) ((pMovs 7 32 []).words.getD 0 0) 0 ?_ ?_ ?_ ?_
        <;> first | decide +kernel | (constructor <;> decide +kernel),
   fun h => by
      refine h (compS pHadd) 0 pHadd (pHadd.words.getD 0 0) 0 ?_ ?_ ?_ ?_ ?_ ?_ ?_ ?_
        <;> first | decide +kernel | (constructor <;> decide +kernel)⟩

/-- States and operands that meet the hypotheses of each clause of `CommitsWriteThePendingBytes`. -/
theorem witness_CommitsWriteThePendingBytes :
    (¬ (∀ s : State, ∀ p : Nat, ∀ chk : Chk, ∀ x : Prog, ∀ r : RegionId, ∀ off : Nat, ∀ a : Nat, ∀ bytes : List Byte, ∀ rd : BitVec 2,
      (s.prog p = some x) → (x.wait = .commit .next) → (x.cancel = none) → (x.stores = [⟨r, off, bytes, none, rd⟩]) → (bytes ≠ []) →
      (off % 64 + bytes.length ≤ 64) → (s.access x.host r off bytes.length true = none) → ((s.ent r).tracked = false) →
      (s.snoopsOf r (BitVec.ofNat 40 (off / 64)) = []) → ((s.ent r).odd = false) → (s.InPond r (off / 4096) a) → (chkFails chk = false) →
      False)) ∧
    (¬ (∀ s : State, ∀ p : Nat, ∀ x : Prog, ∀ a : AfterCommit, ∀ y : PStore, ∀ l : List PStore, ∀ e : Err1, (s.prog p = some x) →
      (x.wait = .commit a) → (x.stores = y :: l) → (s.access x.host y.region y.off y.bytes.length true = some e) → (x.mute = false) →
      (s.CanPost x.host x.q) → ((∀ z ∈ x.stores, s.dataReady z.region [(z.off, z.bytes.length)] = true)) → False)) ∧
    (¬ (∀ s : State, ∀ p : Nat, ∀ x : Prog, (s.prog p = some x) → False)) :=
  ⟨fun h => by
      refine h (compS (pCommit [store1])) 0 (.ok) (pCommit [store1]) 1 3 256 ([9, 8]) 0 ?_ ?_ ?_ ?_ ?_ ?_ ?_ ?_ ?_ ?_ ?_ ?_
        <;> first | decide +kernel | (constructor <;> decide +kernel),
   fun h => by
      refine h (compS (pCommit [{ store1 with region := 2 }])) 0 (pCommit [{ store1 with region := 2 }]) (.next)
        ({ store1 with region := 2 }) ([]) (((compS pHalt).access 0 2 3 2 true).getD (argErr 0)) ?_ ?_ ?_ ?_ ?_ ?_ ?_
        <;> first | decide +kernel | (constructor <;> decide +kernel),
   fun h => h (compS pHalt) 0 pHalt (by decide +kernel)⟩

/-- States and operands that meet the hypotheses of each clause of `LoadsAndStoresOfPrograms`. -/
theorem witness_LoadsAndStoresOfPrograms :
    (¬ (∀ s : State, ∀ p : Nat, ∀ chk : Chk, ∀ x : Prog, ∀ w : W64, ∀ e : W64, ∀ n : Nat, ∀ off : Nat, (s.AtWord p x (isOp 0x40) w e) →
      ((x.pred w).getLsbD 0 = true) → (ldstCheck s x w = none) → (isScratch w = true) → (accSize (accWidth w) = some n) →
      (x.effAddr w n = (off : Int)) → (chkFails chk = false) → False)) ∧
    (¬ (∀ s : State, ∀ p : Nat, ∀ chk : Chk, ∀ x : Prog, ∀ w : W64, ∀ e : W64, ∀ n : Nat, ∀ off : Nat, ∀ a : Nat, ∀ r : RegionId,
      (s.AtWord p x (isOp 0x40) w e) → ((x.pred w).getLsbD 0 = true) → (ldstCheck s x w = none) → (isScratch w = false) →
      (accSize (accWidth w) = some n) → (x.effAddr w n = (off : Int)) → (hRegion (x.hr (fH w)) = r) →
      (s.dataAccess x.host r off n false = none) → (s.InPond r (off / 4096) a) → ((s.ent r).tracked = false) → ((s.ent r).odd = false) →
      ((∀ y ∈ s.dir.lost, y.2.1 ≠ r)) → ((accWidth w ≤ 3 ∧ chkFails chk = false) ∨ chk = .ok) → False)) ∧
    (¬ (∀ s : State, ∀ p : Nat, ∀ x : Prog, ∀ w : W64, ∀ e : W64, ∀ n : Nat, ∀ er : Err1, (s.AtWord p x (isOp 0x40) w e) →
      ((x.pred w).getLsbD 0 = true) → (ldstCheck s x w = none) → (isScratch w = false) → (accSize (accWidth w) = some n) →
      (s.dataReady (hRegion (x.hr (fH w))) [((x.effAddr w n).toNat, n)] = true) →
      (s.dataAccess x.host (hRegion (x.hr (fH w))) (x.effAddr w n) n false = some er) → (x.mute = false) → (s.CanPost x.host x.q) → False)) ∧
    (¬ (∀ s : State, ∀ p : Nat, ∀ x : Prog, ∀ w : W64, ∀ e : W64, ∀ n : Nat, ∀ off : Nat, (s.AtWord p x (isOp 0x41) w e) →
      ((x.pred w).getLsbD 0 = true) → (ldstCheck s x w = none) → (isScratch w = true) → (accSize (accWidth w) = some n) →
      (x.effAddr w n = (off : Int)) → False)) ∧
    (¬ (∀ s : State, ∀ p : Nat, ∀ x : Prog, ∀ w : W64, ∀ e : W64, ∀ n : Nat, ∀ off : Nat, ∀ r : RegionId, (s.AtWord p x (isOp 0x41) w e) →
      ((x.pred w).getLsbD 0 = true) → (ldstCheck s x w = none) → (isScratch w = false) → (accSize (accWidth w) = some n) →
      (x.effAddr w n = (off : Int)) → (hRegion (x.hr (fH w)) = r) → ((s.ent r).odd = false) → (s.dataAccess x.host r off n true = none) →
      (96 ≤ x.core) → ((storeLines (x.stores ++ [⟨r, off, x.storeFrom w, none, x.round⟩])).length ≤ 1024) → False)) ∧
    (¬ (∀ s : State, ∀ u : State, ∀ p : Nat, ∀ x : Prog, ∀ w : W64, ∀ e : W64, ∀ n : Nat, ∀ off : Nat, ∀ r : RegionId,
      (s.AtWord p x (isOp 0x41) w e) → ((x.pred w).getLsbD 0 = true) → (ldstCheck s x w = none) → (isScratch w = false) →
      (accSize (accWidth w) = some n) → (x.effAddr w n = (off : Int)) → (hRegion (x.hr (fH w)) = r) → ((s.ent r).odd = false) →
      (s.dataAccess x.host r off n true = none) → (s.pend p [⟨r, off, x.storeFrom w, none, x.round⟩] = .wait u) → False)) ∧
    (¬ (∀ s : State, ∀ u : State, ∀ p : Nat, ∀ x : Prog, ∀ w : W64, ∀ e : W64, ∀ n : Nat, ∀ off : Nat, ∀ r : RegionId,
      (s.AtWord p x (isOp 0x41) w e) → ((x.pred w).getLsbD 0 = true) → (ldstCheck s x w = none) → (isScratch w = false) →
      (accSize (accWidth w) = some n) → (x.effAddr w n = (off : Int)) → (hRegion (x.hr (fH w)) = r) → ((s.ent r).odd = false) →
      (s.dataAccess x.host r off n true = none) → (s.pend p [⟨r, off, x.storeFrom w, none, x.round⟩] = .ok u) → False)) ∧
    (¬ (∀ s : State, ∀ p : Nat, ∀ x : Prog, ∀ w : W64, ∀ e : W64, ∀ n : Nat, ∀ off : Nat, ∀ r : RegionId, (s.AtWord p x (isOp 0x41) w e) →
      ((x.pred w).getLsbD 0 = true) → (ldstCheck s x w = none) → (isScratch w = false) → (accSize (accWidth w) = some n) →
      (x.effAddr w n = (off : Int)) → (hRegion (x.hr (fH w)) = r) → ((s.ent r).odd = false) → (s.dataAccess x.host r off n true = none) →
      (s.pend p [⟨r, off, x.storeFrom w, none, x.round⟩] = .full) → (x.mute = false) → (s.CanPost x.host x.q) → False)) ∧
    (¬ (∀ s : State, ∀ p : Nat, ∀ x : Prog, ∀ w : W64, ∀ e : W64, ∀ off : Nat, ∀ r : RegionId, (s.AtWord p x (isOp 0x44) w e) →
      ((x.pred w).getLsbD 0 = true) → (onlyBits w [uD, (26, 8), (38, 26)] = true) → (hValid (x.hr (fH w)) = true) →
      (hRegion (x.hr (fH w)) = r) → ((hBase (x.hr (fH w)) : Int) + (x.gr (fBM w)).toNat * 4096 + fOff w = (off : Int)) →
      (off % 4096 = 0) → (off + (x.gr (fD w)).toNat ≤ (s.ent r).bytes) → ((s.ent r).odd = false) →
      (s.dataAccess x.host r off (x.gr (fD w)).toNat false = none) → False)) :=
  ⟨fun h => by
      refine h (compS (pMem 0x40 1 7 8 [])) 0 (.ok) (pMem 0x40 1 7 8 []) ((pMem 0x40 1 7 8 []).words.getD 0 0) 0 8 8 ?_ ?_ ?_ ?_ ?_ ?_ ?_
        <;> first | decide +kernel | (constructor <;> decide +kernel),
   fun h => by
      refine h (compS (pMem 0x40 1 0 3 [])) 0 (.ok) (pMem 0x40 1 0 3 []) ((pMem 0x40 1 0 3 []).words.getD 0 0) 0 1 3 256 1 ?_ ?_ ?_ ?_ ?_
        ?_ ?_ ?_ ?_ ?_ ?_ (fun _ h => absurd h List.not_mem_nil) ?_
        <;> first | decide +kernel | (constructor <;> decide +kernel),
   fun h => by
      refine h (compS (regs (pMem 0x40 1 0 3 []) [] (hnd 2 0))) 0 (regs (pMem 0x40 1 0 3 []) [] (hnd 2 0))
        ((pMem 0x40 1 0 3 []).words.getD 0 0) 0 1 (((compS pHalt).dataAccess 0 2 3 1 false).getD (argErr 0)) ?_ ?_ ?_ ?_ ?_ ?_ ?_ ?_ ?_
        <;> first | decide +kernel | (constructor <;> decide +kernel),
   fun h => by
      refine h (compS (pMem 0x41 1 7 8 [(1, 0x1234)])) 0 (pMem 0x41 1 7 8 [(1, 0x1234)]) ((pMem 0x41 1 7 8 []).words.getD 0 0) 0 8 8 ?_
        ?_ ?_ ?_ ?_ ?_
        <;> first | decide +kernel | (constructor <;> decide +kernel),
   fun h => by
      refine h (withProg (inPond (mapped ent1 true)) pStCtl) 0 pStCtl (pStCtl.words.getD 0 0) 0 1 0 1 ?_ ?_ ?_ ?_ ?_ ?_ ?_ ?_ ?_ ?_ ?_
        <;> first | decide +kernel | (constructor <;> decide +kernel),
   fun h => by
      refine h (fullCore (compS pStore8)) (pendSt ((fullCore (compS pStore8)).pend 0 stored8)) 0 pStore8 (pStore8.words.getD 0 0) 0 2 8 1
        ?_ ?_ ?_ ?_ ?_ ?_ ?_ ?_ ?_ (pend_wait _ (by decide +kernel))
        <;> first | decide +kernel | (constructor <;> decide +kernel),
   fun h => by
      refine h (compS pStore8) (pendSt ((compS pStore8).pend 0 stored8)) 0 pStore8 (pStore8.words.getD 0 0) 0 2 8 1 ?_ ?_ ?_ ?_ ?_ ?_ ?_
        ?_ ?_ (pend_ok _ (by decide +kernel))
        <;> first | decide +kernel | (constructor <;> decide +kernel),
   fun h => by
      refine h (lostCore (compS pStore8)) 0 pStore8 (pStore8.words.getD 0 0) 0 2 8 1 ?_ ?_ ?_ ?_ ?_ ?_ ?_ ?_ ?_
        (pend_full _ (by decide +kernel)) ?_ ?_
        <;> first | decide +kernel | (constructor <;> decide +kernel),
   fun h => by
      refine h (compS pPrefetch) 0 pPrefetch (pPrefetch.words.getD 0 0) 0 0 1 ?_ ?_ ?_ ?_ ?_ ?_ ?_ ?_ ?_ ?_
        <;> first | decide +kernel | (constructor <;> decide +kernel)⟩

/-- States and operands that meet the hypotheses of each clause of `GatherAndScatterRows`. -/
theorem witness_GatherAndScatterRows :
    (¬ (∀ s : State, ∀ p : Nat, ∀ x : Prog, ∀ w : W64, ∀ e : W64, ∀ y : Rows, ∀ f : Int → Nat, (s.AtInstr p x (isOp 0x42) w e) →
      (rowsCheck x w e false = none) → (x.rows w e = y) → (s.rowsErr x y (s.indices x y) false = none) →
      ((s.ent (hRegion y.handle)).tracked = false) → ((s.ent (hRegion y.handle)).odd = false) →
      ((∀ z ∈ s.dir.lost, z.2.1 ≠ hRegion y.handle)) →
      ((∀ k ∈ s.indices x y, 0 ≤ k → (hBase y.handle + k.toNat * y.stride) % 4096 + y.rowb ≤ 4096 ∧ s.InPond (hRegion y.handle) ((hBase y.handle + k.toNat * y.stride) / 4096) (f k))) →
      False)) ∧
    (¬ (∀ s : State, ∀ p : Nat, ∀ x : Prog, ∀ w : W64, ∀ e : W64, ∀ er : Err1, (s.AtInstr p x (isOp 0x42) w e) →
      (rowsCheck x w e false = none) →
      (s.dataReady (hRegion (x.rows w e).handle) ((x.rows w e).ranges (s.indices x (x.rows w e))) = true) →
      (s.rowsErr x (x.rows w e) (s.indices x (x.rows w e)) false = some er) → (x.mute = false) → (s.CanPost x.host x.q) → False)) ∧
    (¬ (∀ s : State, ∀ u : State, ∀ p : Nat, ∀ x : Prog, ∀ w : W64, ∀ e : W64, ∀ y : Rows, ∀ l : List PStore,
      (s.AtInstr p x (isOp 0x43) w e) → (rowsCheck x w e true = none) → (x.rows w e = y) → ((s.ent (hRegion y.handle)).odd = false) →
      (s.rowsErr x y (s.indices x y) true = none) →
      (l = ((s.indices x y).zipIdx.filter (fun z => decide (0 ≤ z.1))).map (fun z => ⟨hRegion y.handle, hBase y.handle + z.1.toNat * y.stride, s.scratchRead x (y.out + z.2 * y.rowb) y.rowb, if y.add then some (BitVec.ofNat 4 y.ety) else none, x.round⟩)) →
      (s.pend p l = .wait u) → False)) ∧
    (¬ (∀ s : State, ∀ u : State, ∀ p : Nat, ∀ x : Prog, ∀ w : W64, ∀ e : W64, ∀ y : Rows, ∀ l : List PStore,
      (s.AtInstr p x (isOp 0x43) w e) → (rowsCheck x w e true = none) → (x.rows w e = y) → ((s.ent (hRegion y.handle)).odd = false) →
      (s.rowsErr x y (s.indices x y) true = none) →
      (l = ((s.indices x y).zipIdx.filter (fun z => decide (0 ≤ z.1))).map (fun z => ⟨hRegion y.handle, hBase y.handle + z.1.toNat * y.stride, s.scratchRead x (y.out + z.2 * y.rowb) y.rowb, if y.add then some (BitVec.ofNat 4 y.ety) else none, x.round⟩)) →
      (s.pend p l = .ok u) → False)) ∧
    (¬ (∀ s : State, ∀ p : Nat, ∀ x : Prog, ∀ w : W64, ∀ e : W64, ∀ y : Rows, ∀ l : List PStore, (s.AtInstr p x (isOp 0x43) w e) →
      (rowsCheck x w e true = none) → (x.rows w e = y) → ((s.ent (hRegion y.handle)).odd = false) →
      (s.rowsErr x y (s.indices x y) true = none) →
      (l = ((s.indices x y).zipIdx.filter (fun z => decide (0 ≤ z.1))).map (fun z => ⟨hRegion y.handle, hBase y.handle + z.1.toNat * y.stride, s.scratchRead x (y.out + z.2 * y.rowb) y.rowb, if y.add then some (BitVec.ofNat 4 y.ety) else none, x.round⟩)) →
      (s.pend p l = .full) → (x.mute = false) → (s.CanPost x.host x.q) → False)) ∧
    (¬ (∀ s : State, ∀ p : Nat, ∀ x : Prog, ∀ w : W64, ∀ e : W64, ∀ er : Err1, (s.AtInstr p x (isOp 0x43) w e) →
      (rowsCheck x w e true = none) → ((s.ent (hRegion (x.rows w e).handle)).odd = false) →
      (s.rowsErr x (x.rows w e) (s.indices x (x.rows w e)) true = some er) → (x.mute = false) → (s.CanPost x.host x.q) → False)) :=
  ⟨fun h => by
      refine h (compS (pRows 0x42 1)) 0 (pRows 0x42 1) ((pRows 0x42 1).words.getD 0 0) ((pRows 0x42 1).words.getD 1 0)
        ((pRows 0x42 1).rows ((pRows 0x42 1).words.getD 0 0) ((pRows 0x42 1).words.getD 1 0)) (fun _ => 256) ?_ ?_ ?_ ?_ ?_ ?_
        (fun _ h => absurd h List.not_mem_nil)
        (fun k h _ => (List.mem_singleton.mp (show k ∈ [(0 : Int)] from h)) ▸ ⟨by decide +kernel, by constructor <;> decide +kernel⟩)
        <;> first | decide +kernel | (constructor <;> decide +kernel),
   fun h => by
      refine h (badIndex (pRows 0x42 1)) 0 (pRows 0x42 1) ((pRows 0x42 1).words.getD 0 0) ((pRows 0x42 1).words.getD 1 0) (argErr 3) ?_
        ?_ ?_ ?_ ?_ ?_
        <;> first | decide +kernel | (constructor <;> decide +kernel),
   fun h => by
      refine h (fullCore (compS (pScat 1))) (pendSt ((fullCore (compS (pScat 1))).pend 0 rows1)) 0 (pScat 1) ((pScat 1).words.getD 0 0)
        ((pScat 1).words.getD 1 0) ((pScat 1).rows ((pScat 1).words.getD 0 0) ((pScat 1).words.getD 1 0)) rows1 ?_ ?_ ?_ ?_ ?_ ?_
        (pend_wait _ (by decide +kernel))
        <;> first | decide +kernel | (constructor <;> decide +kernel),
   fun h => by
      refine h (compS (pScat 1)) (pendSt ((compS (pScat 1)).pend 0 rows1)) 0 (pScat 1) ((pScat 1).words.getD 0 0)
        ((pScat 1).words.getD 1 0) ((pScat 1).rows ((pScat 1).words.getD 0 0) ((pScat 1).words.getD 1 0)) rows1 ?_ ?_ ?_ ?_ ?_ ?_
        (pend_ok _ (by decide +kernel))
        <;> first | decide +kernel | (constructor <;> decide +kernel),
   fun h => by
      refine h (lostCore (compS (pScat 1))) 0 (pScat 1) ((pScat 1).words.getD 0 0) ((pScat 1).words.getD 1 0)
        ((pScat 1).rows ((pScat 1).words.getD 0 0) ((pScat 1).words.getD 1 0)) rows1 ?_ ?_ ?_ ?_ ?_ ?_ (pend_full _ (by decide +kernel))
        ?_ ?_
        <;> first | decide +kernel | (constructor <;> decide +kernel),
   fun h => by
      refine h (badIndex (pScat 1)) 0 (pScat 1) ((pScat 1).words.getD 0 0) ((pScat 1).words.getD 1 0) (argErr 3) ?_ ?_ ?_ ?_ ?_ ?_
        <;> first | decide +kernel | (constructor <;> decide +kernel)⟩

/-- States and operands that meet the hypotheses of each clause of `VectorInstructionsComputeElementwise`. -/
theorem witness_VectorInstructionsComputeElementwise :
    (¬ (∀ s : State, ∀ p : Nat, ∀ x : Prog, ∀ w : W64, ∀ e : W64, ∀ m : Nat, ∀ ty : Nat, ∀ bits : Nat, ∀ n : Nat,
      (s.AtWord p x (isOp 0x60) w e) → (x.v.length = 32) → (fModR w = m) → (m < 128) → (m % 4 = ty) → (ty < 3) → (elemBits ty = bits) →
      (m / 16 < 6) → (onlyBits w [uD, uA, uB, uModR] = true) → ((if m / 4 % 2 = 1 then 8 else 1) = n) →
      ((m / 4 % 2 = 1 → fD w % 8 = 0 ∧ fA w % 8 = 0 ∧ (m / 8 % 2 = 0 → fB w % 8 = 0))) → False)) ∧
    (¬ (∀ s : State, ∀ p : Nat, ∀ x : Prog, ∀ w : W64, ∀ e : W64, ∀ m : Nat, ∀ ty : Nat, ∀ bits : Nat, ∀ n : Nat,
      (s.AtWord p x (isOp 0x61) w e) → (x.v.length = 32) → (fModR w = m) → (m < 64) → (m % 16 = ty) → (ty ≤ 5) → (ty ≠ 2) →
      (elemBits ty = bits) → (onlyBits w [uD, uA, uB, uModR] = true) → ((if m / 16 % 2 = 1 then 8 else 1) = n) →
      ((m / 16 % 2 = 1 → fD w % 8 = 0 ∧ fA w % 8 = 0 ∧ fB w % 8 = 0)) → False)) ∧
    (¬ (∀ s : State, ∀ p : Nat, ∀ x : Prog, ∀ w : W64, ∀ e : W64, ∀ m : Nat, ∀ bits : Nat, (s.AtWord p x (isOp 0x62) w e) → (fModR w = m) →
      (m < 128) → (deqType (m % 16) = true) → (elemBits (m % 16) = bits) → (onlyBits w [uD, uA, uB, uC, uModR] = true) →
      (fD w % deqSpan m = 0) → ((x.pred w).getLsbD 0 = false) → False)) ∧
    (¬ (∀ s : State, ∀ p : Nat, ∀ x : Prog, ∀ w : W64, ∀ e : W64, ∀ m : Nat, ∀ bits : Nat, (s.AtWord p x (isOp 0x62) w e) → (fModR w = m) →
      (m < 128) → (deqType (m % 16) = true) → (elemBits (m % 16) = bits) → (onlyBits w [uD, uA, uB, uC, uModR] = true) →
      (fD w % deqSpan m = 0) → ((x.pred w).getLsbD 0 = true) → False)) ∧
    (¬ (∀ s : State, ∀ p : Nat, ∀ x : Prog, ∀ w : W64, ∀ e : W64, ∀ src : Nat, ∀ dst : Nat, (s.AtWord p x (isOp 0x66) w e) →
      (fModR w / 16 = src) → (fModR w % 16 = dst) → (cvtType src = true) → (cvtType dst = true) → (onlyBits w [uD, uA, uModR] = true) →
      (fA w % cvtSpan src dst = 0) → (fD w % cvtSpan dst src = 0) → False)) :=
  ⟨fun h => by
      refine h (compS (pVec 0x60 16 0 8 0 [])) 0 (pVec 0x60 16 0 8 0 []) ((pVec 0x60 16 0 8 0 []).words.getD 0 0) 0 0 0 16 1 ?_ ?_ ?_ ?_
        ?_ ?_ ?_ ?_ ?_ ?_ ?_
        <;> first | decide +kernel | (constructor <;> decide +kernel),
   fun h => by
      refine h (compS (pVec 0x61 16 0 8 5 [])) 0 (pVec 0x61 16 0 8 5 []) ((pVec 0x61 16 0 8 5 []).words.getD 0 0) 0 5 5 8 1 ?_ ?_ ?_ ?_
        ?_ ?_ ?_ ?_ ?_ ?_ ?_
        <;> first | decide +kernel | (constructor <;> decide +kernel),
   fun h => by
      refine h (compS pDeqOff) 0 pDeqOff (pDeqOff.words.getD 0 0) 0 3 8 ?_ ?_ ?_ ?_ ?_ ?_ ?_ ?_
        <;> first | decide +kernel | (constructor <;> decide +kernel),
   fun h => by
      refine h (compS (pVec 0x62 16 0 8 3 [])) 0 (pVec 0x62 16 0 8 3 []) ((pVec 0x62 16 0 8 3 []).words.getD 0 0) 0 3 8 ?_ ?_ ?_ ?_ ?_ ?_
        ?_ ?_
        <;> first | decide +kernel | (constructor <;> decide +kernel),
   fun h => by
      refine h (compS (pVec 0x66 16 0 0 2 [])) 0 (pVec 0x66 16 0 0 2 []) ((pVec 0x66 16 0 0 2 []).words.getD 0 0) 0 0 2 ?_ ?_ ?_ ?_ ?_ ?_
        ?_ ?_
        <;> first | decide +kernel | (constructor <;> decide +kernel)⟩

/-- States and operands that meet the hypotheses of each clause of `ReductionsTakeUnmaskedElements`. -/
theorem witness_ReductionsTakeUnmaskedElements :
    (¬ (∀ s : State, ∀ p : Nat, ∀ x : Prog, ∀ w : W64, ∀ e : W64, ∀ n : Nat, (s.AtWord p x (isOp 0x63) w e) → (x.v.length = 32) →
      (x.g.length = 32) → (onlyBits w [uD, uA, uB, uC, (40, 1)] = true) → ((if w.getLsbD 40 then 8 else 1) = n) →
      ((n = 8 → fD w % 8 = 0 ∧ fA w % 8 = 0 ∧ fB w % 8 = 0 ∧ 8 ≤ fB w ∧ fB w ≤ 24 ∧ fC w % 8 = 0 ∧ 8 ≤ fC w ∧ fC w ≤ 24)) → False)) ∧
    (¬ (∀ s : State, ∀ p : Nat, ∀ x : Prog, ∀ w : W64, ∀ e : W64, ∀ m : Nat, ∀ k : Nat, ∀ least : Bool, (s.AtWord p x (isOp 0x64) w e) →
      (onlyBits w [uD, uA, uB, uModR] = true) → (fModR w = m) → (fD w % 2 = 0) → ((m / 32 % 2 = 1 → fA w % 8 = 0)) → (m % 32 + 1 = k) →
      ((m / 64 % 2 == 1) = least) → False)) ∧
    (¬ (∀ s : State, ∀ p : Nat, ∀ x : Prog, ∀ w : W64, ∀ e : W64, ∀ m : Nat, ∀ bits : Nat, (s.AtWord p x (isOp 0x65) w e) →
      (onlyBits w [uD, uA, uModR] = true) → (fModR w = m) → (m < 128) → (elemBits (m % 16) = bits) → ((m / 16 % 2 = 1 → fA w % 8 = 0)) →
      (m % 16 = 5 ∨ m % 16 = 7) → False)) ∧
    (¬ (∀ s : State, ∀ p : Nat, ∀ x : Prog, ∀ w : W64, ∀ e : W64, ∀ m : Nat, ∀ bits : Nat, (s.AtWord p x (isOp 0x65) w e) →
      (onlyBits w [uD, uA, uModR] = true) → (fModR w = m) → (m < 128) → (elemBits (m % 16) = bits) → ((m / 16 % 2 = 1 → fA w % 8 = 0)) →
      (m % 16 < 5) → False)) :=
  ⟨fun h => by
      refine h (compS (pVec 0x63 16 0 1 0 [])) 0 (pVec 0x63 16 0 1 0 []) ((pVec 0x63 16 0 1 0 []).words.getD 0 0) 0 1 ?_ ?_ ?_ ?_ ?_ ?_
        <;> first | decide +kernel | (constructor <;> decide +kernel),
   fun h => by
      refine h (compS (pVec 0x64 16 0 1 7 [])) 0 (pVec 0x64 16 0 1 7 []) ((pVec 0x64 16 0 1 7 []).words.getD 0 0) 0 7 8 false ?_ ?_ ?_ ?_
        ?_ ?_ ?_
        <;> first | decide +kernel | (constructor <;> decide +kernel),
   fun h => by
      refine h (compS (pVec 0x65 16 0 0 5 [])) 0 (pVec 0x65 16 0 0 5 []) ((pVec 0x65 16 0 0 5 []).words.getD 0 0) 0 5 8 ?_ ?_ ?_ ?_ ?_ ?_
        ?_
        <;> first | decide +kernel | (constructor <;> decide +kernel),
   fun h => by
      refine h (compS (pVec 0x65 16 0 0 2 [])) 0 (pVec 0x65 16 0 0 2 []) ((pVec 0x65 16 0 0 2 []).words.getD 0 0) 0 2 32 ?_ ?_ ?_ ?_ ?_
        ?_ ?_
        <;> first | decide +kernel | (constructor <;> decide +kernel)⟩

/-- States and operands that meet the hypotheses of each clause of `SchedulesAreLoadedAndArmed`. -/
theorem witness_SchedulesAreLoadedAndArmed :
    (¬ (∀ s : State, ∀ p : Nat, ∀ x : Prog, ∀ w : W64, ∀ e : W64, (s.AtInstr p x (isOp 0xA2) w e) → (onlyBits w [uA] = true) →
      (fA w % 4 = 0) → (4 ≤ fA w) → (fA w ≤ 28) → (x.stepBuf.length < 4096) → False)) ∧
    (¬ (∀ s : State, ∀ p : Nat, ∀ x : Prog, ∀ w : W64, ∀ e : W64, (s.AtInstr p x (isOp 0xA2) w e) → (onlyBits w [uA] = true) →
      (fA w % 4 = 0) → (4 ≤ fA w) → (fA w ≤ 28) → (4096 ≤ x.stepBuf.length) → (x.mute = false) → (s.CanPost x.host x.q) → False)) ∧
    (¬ (∀ s : State, ∀ p : Nat, ∀ x : Prog, ∀ w : W64, ∀ e : W64, (s.AtInstr p x (isOp 0xA0) w e) → (fModR w = 0) →
      (onlyBits w [uA, uB, uC, (36, 1)] = true) → (fB w < 8) → ((x.gr (fA w)).toNat < 32) →
      (s.loadErr x.host (x.schKeyOf w) x.stepBuf = none) → False)) ∧
    (¬ (∀ s : State, ∀ p : Nat, ∀ x : Prog, ∀ w : W64, ∀ e : W64, (s.AtInstr p x (isOp 0xA0) w e) → (fModR w = 0) →
      (onlyBits w [uA, uB, uC, (36, 1)] = true) → (fB w < 8) → ((x.gr (fA w)).toNat < 32) → ∀ er,
      (s.loadErr x.host (x.schKeyOf w) x.stepBuf = some er) → (x.mute = false) → (s.CanPost x.host x.q) → False)) ∧
    (¬ (∀ s : State, ∀ p : Nat, ∀ chk : Chk, ∀ x : Prog, ∀ w : W64, ∀ e : W64, ∀ n : Nat, ∀ off : Nat, ∀ a : Nat, ∀ r : RegionId,
      ∀ l : List (BitVec 256), (s.AtInstr p x (isOp 0xA0) w e) → (fModR w = 1) → (onlyBits w [uA, uB, uC, (36, 1)] = true) → (fB w < 8) →
      ((x.gr (fA w)).toNat < 32) → (hValid (x.hr (fB w)) = true) → ((x.gr (fC w)).toNat = n) → (2 ≤ n) → (n ≤ 4096) →
      (hRegion (x.hr (fB w)) = r) → (hBase (x.hr (fB w)) = off) → (s.dataAccess x.host r off (32 * n) false = none) →
      (off % 4096 + 32 * n ≤ 4096) → (s.InPond r (off / 4096) a) → ((s.ent r).tracked = false) → ((s.ent r).odd = false) →
      ((∀ z ∈ s.dir.lost, z.2.1 ≠ r)) → (chk = .ok) → (recordsOf n (s.pondBytes a off (32 * n)) = l) →
      (s.loadErr x.host (x.schKeyOf w) l = none) → False)) ∧
    (¬ (∀ s : State, ∀ p : Nat, ∀ chk : Chk, ∀ x : Prog, ∀ w : W64, ∀ e : W64, ∀ k : Nat, ∀ a : Nat, ∀ y : Sched, ∀ z : Sched,
      (s.AtInstr p x (fun v => isOp 0xA1 v && fModI v % 2 == 0) w e) → (onlyBits w [uA, (26, 1)] = true) → ((x.gr (fA w)).toNat < 32) →
      (x.schKeyOf w = k) → (s.sched k = some y) → (y.armed = false) → (y.steps ≠ []) → (s.lampGranted k y = true) →
      (s.armedCount < 1024) → (chkFails chk = false) → (MemSafe s) → (y.loff % 64 = 0) → (y.loff % 4096 + y.span ≤ 4096) →
      (s.InPond y.lregion (y.loff / 4096) a) → ((s.ent y.lregion).tracked = false) → ((s.ent y.lregion).st ≠ .freed) →
      ((s.ent y.lregion).isSealed = false) → ((s.ent y.lregion).dlost = false) → ((∀ st ∈ y.steps, y.window < st.dbeat + 1)) →
      (z = { y with armed := true, prog := some p, beats := 0, met := 0, miss := 0, altn := 0, directn := 0, coldn := 0, laten := 0, voidn := 0, badbeat := 0, paused := 0, defer := 0, insts := [], kept := none, missAt := none, orphan := false }) →
      False)) ∧
    (¬ (∀ s : State, ∀ p : Nat, ∀ x : Prog, ∀ w : W64, ∀ e : W64, (s.AtInstr p x (fun v => isOp 0xA1 v && fModI v % 2 == 0) w e) →
      (onlyBits w [uA, (26, 1)] = true) → ((x.gr (fA w)).toNat < 32) → (s.sched (x.schKeyOf w) = none) → (x.mute = false) →
      (s.CanPost x.host x.q) → False)) ∧
    (¬ (∀ s : State, ∀ p : Nat, ∀ chk : Chk, ∀ x : Prog, ∀ w : W64, ∀ e : W64, ∀ y : Sched,
      (s.AtInstr p x (fun v => isOp 0xA1 v && fModI v % 2 == 1) w e) → (onlyBits w [uA, (26, 1)] = true) → ((x.gr (fA w)).toNat < 32) →
      (s.sched (x.schKeyOf w) = some y) → (chkFails chk = false) → (y.armed = false) → False)) ∧
    (¬ (∀ s : State, ∀ p : Nat, ∀ chk : Chk, ∀ x : Prog, ∀ w : W64, ∀ e : W64, ∀ y : Sched,
      (s.AtInstr p x (fun v => isOp 0xA1 v && fModI v % 2 == 1) w e) → (onlyBits w [uA, (26, 1)] = true) → ((x.gr (fA w)).toNat < 32) →
      (s.sched (x.schKeyOf w) = some y) → (chkFails chk = false) → (y.armed = true) → False)) :=
  ⟨fun h => by
      refine h (lampUp (pStep [])) 0 (pStep []) ((pStep []).words.getD 0 0) 0 ?_ ?_ ?_ ?_ ?_ ?_
        <;> first | decide +kernel | (constructor <;> decide +kernel),
   fun h => by
      refine h (lampUp (pStep (List.replicate 4096 0))) 0 (pStep (List.replicate 4096 0)) ((pStep []).words.getD 0 0) 0
        (by constructor <;> rfl) ?_ ?_ ?_ ?_ (by rw [pStep_buf, List.length_replicate]) ?_ ?_
        <;> first | decide +kernel | (constructor <;> decide +kernel),
   fun h => by
      refine h (lampUp (pSLoad [hdrRec, stepRec])) 0 (pSLoad [hdrRec, stepRec]) ((pSLoad []).words.getD 0 0) 0 ?_ ?_ ?_ ?_ ?_ ?_
        <;> first | decide +kernel | (constructor <;> decide +kernel),
   fun h => by
      refine h (lampUp (pSLoad [])) 0 (pSLoad []) ((pSLoad []).words.getD 0 0) 0 ?_ ?_ ?_ ?_ ?_ (argErr dRange) ?_ ?_ ?_
        <;> first | decide +kernel | (constructor <;> decide +kernel),
   fun h => by
      refine h (recsInPond (lampUp pSLoadM)) 0 (.ok) pSLoadM (pSLoadM.words.getD 0 0) 0 2 0 256 1 ([hdrRec, stepRec]) ?_ ?_ ?_ ?_ ?_ ?_
        ?_ ?_ ?_ ?_ ?_ ?_ ?_ ?_ ?_ ?_ (fun _ h => absurd h List.not_mem_nil) ?_ ?_ ?_
        <;> first | decide +kernel | (constructor <;> decide +kernel),
   fun h => by
      refine h (loaded (pArm 0) sch3) 0 (.ok) (pArm 0) ((pArm 0).words.getD 0 0) 0 0 256 sch3
        ({ sch3 with armed := true, prog := some 0 }) ?_ ?_ ?_ ?_ ?_ ?_ ?_ ?_ ?_ ?_ (by unfold MemSafe; decide +kernel) ?_ ?_ ?_ ?_ ?_ ?_
        ?_ ?_ ?_
        <;> first | decide +kernel | (constructor <;> decide +kernel),
   fun h => by
      refine h (lampUp (pArm 0)) 0 (pArm 0) ((pArm 0).words.getD 0 0) 0 ?_ ?_ ?_ ?_ ?_ ?_
        <;> first | decide +kernel | (constructor <;> decide +kernel),
   fun h => by
      refine h (loaded (pArm 1) sch1) 0 (.ok) (pArm 1) ((pArm 1).words.getD 0 0) 0 sch1 ?_ ?_ ?_ ?_ ?_ ?_
        <;> first | decide +kernel | (constructor <;> decide +kernel),
   fun h => by
      refine h (loaded (pArm 1) armed1) 0 (.ok) (pArm 1) ((pArm 1).words.getD 0 0) 0 armed1 ?_ ?_ ?_ ?_ ?_ ?_
        <;> first | decide +kernel | (constructor <;> decide +kernel)⟩

/-- States and operands that meet the hypotheses of each clause of `BeatsDriveInstances`. -/
theorem witness_BeatsDriveInstances :
    (¬ (∀ s : State, ∀ h : HostId, ∀ q : QueueNo, ∀ sch : Fin 32, ∀ v : W64, ∀ chk : Chk, ∀ k : Nat, ∀ y : Sched, (s.barOpen h = true) →
      ((s.queue h q).st = .running) → (schKey h q sch.val = k) → (s.sched k = some y) → (y.armed = true) → (y.orphan = false) →
      (s.lamp.stopped = false) → (chkFails chk = false) → (2 ≤ y.period) → (v.toNat % 2 ^ 16 = y.beats % y.period) →
      ((∀ st ∈ y.steps, st.dbeat ≠ (y.beats + y.window) % y.period ∧ st.dbeat ≠ y.beats % y.period ∧ (y.beats ≠ 0 → st.dbeat ≠ (y.beats - 1) % y.period))) →
      False)) ∧
    (¬ (∀ s : State, ∀ h : HostId, ∀ q : QueueNo, ∀ sch : Fin 32, ∀ v : W64, ∀ chk : Chk, ∀ k : Nat, ∀ y : Sched, (s.barOpen h = true) →
      ((s.queue h q).st = .running) → (schKey h q sch.val = k) → (s.sched k = some y) → (y.armed = true) → (y.orphan = false) →
      (s.lamp.stopped = false) → (chkFails chk = false) → (2 ≤ y.period) → (y.period ≤ v.toNat % 2 ^ 16) → False)) ∧
    (¬ (∀ s : State, ∀ h : HostId, ∀ q : QueueNo, ∀ sch : Fin 32, ∀ v : W64, ∀ chk : Chk, ∀ k : Nat, ∀ y : Sched, (s.barOpen h = true) →
      ((s.queue h q).st = .running) → (schKey h q sch.val = k) → (s.sched k = some y) → (y.armed = true) → (y.orphan = false) →
      (s.lamp.stopped = false) → (chkFails chk = false) → (2 ≤ y.period) → (v.toNat % 2 ^ 16 < y.period) →
      ((v.toNat % 2 ^ 16 + 1) % y.period = y.beats % y.period) → False)) ∧
    (¬ (∀ s : State, ∀ h : HostId, ∀ q : QueueNo, (s.barOpen h = true) → ((s.queue h q).st ≠ .running) → False)) ∧
    (¬ (∀ s : State, ∀ p : Nat, ∀ x : Prog, ∀ w : W64, ∀ e : W64, ∀ k : Nat, ∀ q : QueueNo, ∀ y : Sched, (s.AtInstr p x (isOp 0xA3) w e) →
      (onlyBits w [uA, uB, uC] = true) → ((x.gr (fA w)).toNat < 32) → (x.gr (fB w) = q.setWidth 64) →
      (s.schedQueue x.host q.toNat = true) → ((s.queue x.host q).st = .running) → (schKey x.host q (x.gr (fA w)).toNat = k) →
      (s.sched k = some y) → (y.armed = true) → (y.orphan = false) → (s.lamp.stopped = false) →
      (y.period ≤ (x.gr (fC w)).toNat % 2 ^ 16) → False)) ∧
    (¬ (∀ s : State, ∀ p : Nat, ∀ x : Prog, ∀ w : W64, ∀ e : W64, ∀ k : Nat, ∀ q : QueueNo, ∀ y : Sched, (s.AtInstr p x (isOp 0xA3) w e) →
      (onlyBits w [uA, uB, uC] = true) → ((x.gr (fA w)).toNat < 32) → (x.gr (fB w) = q.setWidth 64) →
      (s.schedQueue x.host q.toNat = true) → ((s.queue x.host q).st = .running) → (schKey x.host q (x.gr (fA w)).toNat = k) →
      (s.sched k = some y) → (y.armed = true) → (y.orphan = false) → (s.lamp.stopped = false) → (2 ≤ y.period) →
      ((x.gr (fC w)).toNat % 2 ^ 16 = y.beats % y.period) →
      ((∀ st ∈ y.steps, st.dbeat ≠ (y.beats + y.window) % y.period ∧ st.dbeat ≠ y.beats % y.period ∧ (y.beats ≠ 0 → st.dbeat ≠ (y.beats - 1) % y.period))) →
      False)) ∧
    (¬ (∀ s : State, ∀ h : HostId, ∀ q : QueueNo, ∀ sch : Fin 32, ∀ step : Nat, ∀ k : Nat, ∀ y : Sched, ∀ st : LStep, ∀ i : Inst,
      (schKey h q sch.val = k) → (s.lamp.sch = [(k, y)]) → (y.armed = true) → (y.orphan = false) → (s.lamp.stopped = false) →
      (y.steps[step]? = some st) → (y.insts = [i]) → (s.LampHome y) → (i.step = step) → (i.settled = none) → (i.stopped = false) →
      (i.deferred = false) → (s.placedStep st = true) → False)) ∧
    (¬ (∀ s : State, ∀ h : HostId, ∀ q : QueueNo, ∀ sch : Fin 32, ∀ step : Nat, ∀ k : Nat, ∀ y : Sched, ∀ st : LStep, ∀ i : Inst,
      (schKey h q sch.val = k) → (s.lamp.sch = [(k, y)]) → (y.armed = true) → (y.orphan = false) → (s.lamp.stopped = false) →
      (y.steps[step]? = some st) → (y.insts = [i]) → (s.LampHome y) → (i.step = step) → (i.settled = none) → (i.stopped = false) →
      (i.deferred = false) → (s.placedStep st = true) → (i.due = true) → (i.passed = false) → False)) ∧
    (¬ (∀ s : State, ∀ h : HostId, ∀ q : QueueNo, ∀ sch : Fin 32, ∀ step : Nat, ∀ k : Nat, ∀ y : Sched, ∀ st : LStep, ∀ i : Inst,
      (schKey h q sch.val = k) → (s.lamp.sch = [(k, y)]) → (y.armed = true) → (y.orphan = false) → (y.prog = none) →
      (s.lamp.stopped = false) → (y.steps[step]? = some st) → (st.fb = 0) → (s.LampHome y) → (y.insts = [i]) → (i.step = step) →
      (i.settled = none) → (i.deferred = false) → (i.due = true) → (i.passed = false) → (y.missAt = none) → (s.placedStep st = false) →
      (s.sled.st ≠ .off) → False)) ∧
    (¬ (∀ s : State, ∀ h : HostId, ∀ q : QueueNo, ∀ sch : Fin 32, ∀ step : Nat, ∀ k : Nat, ∀ y : Sched, ∀ i : Inst,
      (schKey h q sch.val = k) → (s.sched k = some y) → (y.armed = true) → (s.lamp.stopped = true) → (y.insts = [i]) → (i.step = step) →
      (i.settled = none) → (i.due = true) → (i.passed = false) → False)) ∧
    (¬ (∀ s : State, ∀ lantern : Fin 4, ∀ k : Nat, ∀ y : Sched, (s.up = true) →
      ((∃ n, n < 4 ∧ n ≠ lantern.val ∧ s.fenced (.lantern n) = false)) → (s.lamp.sch = [(k, y)]) → (y.orphan = true) →
      (s.chipletOf y.lregion = lantern.val / 2) → ((∀ i ∈ y.insts, i.passed = false)) → (y.kept = none) → False)) :=
  ⟨fun h => by
      refine h (beating { armed1 with period := 64, beats := 9 }) 0 0 0 9 (.ok) 0 ({ armed1 with period := 64, beats := 9 }) ?_ ?_ ?_ ?_
        ?_ ?_ ?_ ?_ ?_ ?_ ?_
        <;> decide +kernel,
   (fun h => by refine h (beating armed1) 0 0 0 8 (.ok) 0 armed1 ?_ ?_ ?_ ?_ ?_ ?_ ?_ ?_ ?_ ?_ <;> decide +kernel),
   fun h => by
      refine h (beating { armed1 with beats := 3 }) 0 0 0 2 (.ok) 0 ({ armed1 with beats := 3 }) ?_ ?_ ?_ ?_ ?_ ?_ ?_ ?_ ?_ ?_ ?_
        <;> decide +kernel,
   (fun h => by refine h linked 0 0 ?_ ?_ <;> decide +kernel),
   fun h => by
      refine h (beatingProg 8) 0 (pBeat 8) ((pBeat 8).words.getD 0 0) 0 0 0 armed1 ?_ ?_ ?_ ?_ ?_ ?_ ?_ ?_ ?_ ?_ ?_ ?_
        <;> first | decide +kernel | (constructor <;> decide +kernel),
   fun h => by
      refine h ((beatingProg 5).setSched 0 { armed1 with beats := 5 }) 0 (pBeat 5) ((pBeat 8).words.getD 0 0) 0 0 0
        ({ armed1 with beats := 5 }) ?_ ?_ ?_ ?_ ?_ ?_ ?_ ?_ ?_ ?_ ?_ ?_ ?_ ?_
        <;> first | decide +kernel | (constructor <;> decide +kernel),
   (fun h => by
      refine h (beating (withInst { inst1 with due := false } armed1)) 0 0 0 0 0 (withInst { inst1 with due := false } armed1)
        (stepOf stepRec) ({ inst1 with due := false }) ?_ ?_ ?_ ?_ ?_ ?_ ?_
        (by refine ⟨by decide +kernel, fun j h1 h2 => ⟨256, ?_⟩⟩; obtain rfl : j = 0 := Nat.le_zero.mp h2; constructor <;> decide +kernel)
        ?_ ?_ ?_ ?_ ?_
        <;> decide +kernel),
   (fun h => by
      refine h (beating (withInst inst1 armed1)) 0 0 0 0 0 (withInst inst1 armed1) (stepOf stepRec) inst1 ?_ ?_ ?_ ?_ ?_ ?_ ?_
        (by refine ⟨by decide +kernel, fun j h1 h2 => ⟨256, ?_⟩⟩; obtain rfl : j = 0 := Nat.le_zero.mp h2; constructor <;> decide +kernel)
        ?_ ?_ ?_ ?_ ?_ ?_ ?_
        <;> decide +kernel),
   (fun h => by
      refine h (stepFar.setSched 0 (withInst inst1 armed2)) 0 0 0 0 0 (withInst inst1 armed2) (stepOf stepRec) inst1 ?_ ?_ ?_ ?_ ?_ ?_ ?_
        ?_
        (by refine ⟨by decide +kernel, fun j h1 h2 => ⟨256, ?_⟩⟩; obtain rfl : j = 0 := Nat.le_zero.mp h2; constructor <;> decide +kernel)
        ?_ ?_ ?_ ?_ ?_ ?_ ?_ ?_ ?_
        <;> decide +kernel),
   fun h => by
      refine h ({ beating (withInst inst1 armed1) with lamp := { (beating (withInst inst1 armed1)).lamp with stopped := true } }) 0 0 0 0
        0 (withInst inst1 armed1) inst1 ?_ ?_ ?_ ?_ ?_ ?_ ?_ ?_ ?_
        <;> decide +kernel,
   fun h => by
      refine h (beating { armed1 with orphan := true }) 0 0 ({ armed1 with orphan := true }) ?_ (⟨1, by decide +kernel⟩) ?_ ?_ ?_
        (fun _ h => absurd h List.not_mem_nil) ?_
        <;> decide +kernel⟩

/-- States and operands that meet the hypotheses of each clause of `TheInputStartsTheDuskFlush`. -/
theorem witness_TheInputStartsTheDuskFlush :
    (¬ (∀ s : State, ∀ vin : W16, ∀ b : Nat, (s.sled.st ≠ .off) →
      (b = (if 4200 ≤ vin.toNat ∧ vin.toNat < 4400 then 1 else if 5950 < vin.toNat ∧ vin.toNat ≤ 6050 then 2 else 0)) → (b ≠ 0) →
      (b ≠ s.pwr.band) → False)) ∧
    (¬ (∀ s : State, ∀ vin : W16, ∀ b : Nat, (s.sled.st ≠ .off) →
      (b = (if 4200 ≤ vin.toNat ∧ vin.toNat < 4400 then 1 else if 5950 < vin.toNat ∧ vin.toNat ≤ 6050 then 2 else 0)) →
      (b = 0 ∨ b = s.pwr.band) → False)) ∧
    (¬ (∀ s : State, ∀ vin : W16, (s.sled.st ≠ .off) → (vin.toNat < 4200) → (s.pwr.sag = false) → False)) ∧
    (¬ (∀ s : State, ∀ vin : W16, (s.sled.st ≠ .off) → (4300 < vin.toNat) → (s.pwr.sag = true) → False)) ∧
    (¬ (∀ s : State, (s.pwr.sag = true) → False)) ∧
    (¬ (∀ s : State, (s.pwr.sag = false) → False)) ∧
    (¬ (∀ s : State, (s.up = true) → (s.wd.pilotRestart = false) → (s.inPause = false) → (s.lamp.sch = []) → (s.pwr.sag = true) → False)) ∧
    (¬ (∀ s : State, (s.up = true) → (s.wd.pilotRestart = false) → (s.inPause = false) → (s.lamp.sch = []) → (s.pwr.sag = false) → False)) ∧
    (¬ (∀ s : State, (s.up = true) → (s.wd.pilotRestart = false) → (s.inPause = false) → (s.lamp.sch = []) → ∀ vin : W16,
      (6050 < vin.toNat) → False)) ∧
    (¬ (∀ s : State, (s.up = true) → (s.wd.pilotRestart = false) → (s.inPause = false) → (s.lamp.sch = []) → False)) :=
  ⟨(fun h => by refine h up 4300 1 ?_ ?_ ?_ ?_ <;> decide +kernel),
   (fun h => by refine h up 5400 0 ?_ ?_ ?_ <;> decide +kernel),
   (fun h => by refine h up 4000 ?_ ?_ ?_ <;> decide +kernel),
   (fun h => by refine h sagged 4301 ?_ ?_ ?_ <;> decide +kernel),
   fun h => h sagged (by decide +kernel),
   fun h => h up (by decide +kernel),
   (fun h => by refine h sagged ?_ ?_ ?_ ?_ ?_ <;> decide +kernel),
   (fun h => by refine h up ?_ ?_ ?_ ?_ ?_ <;> decide +kernel),
   (fun h => by refine h up ?_ ?_ ?_ ?_ 6051 ?_ <;> decide +kernel),
   (fun h => by refine h up ?_ ?_ ?_ ?_ <;> decide +kernel)⟩

/-- States and operands that meet the hypotheses of each clause of `FlushesEndInOff`. -/
theorem witness_FlushesEndInOff :
    (¬ (∀ s : State, ∀ g : Nat, (s.sled.flush = some (.dusk g)) → (s.sled.flushCmd = false) → (s.inPause = false) → (s.lamp.sch = []) →
      (s.sled.st ≠ .off) → False)) ∧
    (¬ (∀ s : State, ∀ g : Nat, (s.sled.flush = some (.dusk g)) → (s.sled.flushCmd = true) → False)) ∧
    (¬ (∀ s : State, ∀ f : Flush, (s.sled.st ≠ .off) → (s.sled.flush = some f) → False)) ∧
    (¬ (∀ s : State, (s.sled.st ≠ .off) → (s.sled.flush = none) → (s.pwr.sag = true) → False)) ∧
    (¬ (∀ s : State, (s.sled.st ≠ .off) → (s.sled.flush = none) → (s.pwr.sag = false) → False)) ∧
    (¬ (∀ s : State, (s.sled.st = .off) → (s.sled.stayOff = false) → (s.autoOn = false) → False)) ∧
    (¬ (∀ s : State, (s.sled.st = .off) → (s.sled.stayOff = false) → (s.autoOn = true) → (s.wd.btn ≠ 1) → False)) :=
  ⟨(fun h => by refine h (flushing false 2) 2 ?_ ?_ ?_ ?_ ?_ <;> decide +kernel),
   (fun h => by refine h (flushing true 4) 4 ?_ ?_ <;> decide +kernel),
   (fun h => by refine h (flushing true 4) (.dusk 4) ?_ ?_ <;> decide +kernel),
   (fun h => by refine h sagged ?_ ?_ ?_ <;> decide +kernel),
   (fun h => by refine h up ?_ ?_ ?_ <;> decide +kernel),
   (fun h => by refine h noAutoOn ?_ ?_ ?_ <;> decide +kernel),
   (fun h => by refine h (State.reset) ?_ ?_ ?_ ?_ <;> decide +kernel)⟩

/-- States and operands that meet the hypotheses of each clause of `TheHoldupStoreIsMeasured`. -/
theorem witness_TheHoldupStoreIsMeasured :
    (¬ (∀ s : State, ∀ j : Nat, (s.sled.st ≠ .off) → (s.pwr.full = true) → (s.pwr.sag = false) → (s.sled.flush = none) → (j ≠ 0) → False)) ∧
    (¬ (∀ s : State, (s.sled.st ≠ .off) → (s.pwr.full = true) → (s.pwr.sag = false) → (s.sled.flush = none) → (s.pwr.failed = false) →
      (s.pwr.measFails < 2) → False)) ∧
    (¬ (∀ s : State, (s.sled.st ≠ .off) → (s.pwr.full = true) → (s.pwr.sag = false) → (s.sled.flush = none) → (s.pwr.failed = false) →
      (s.pwr.measFails = 2) → False)) ∧
    (¬ (∀ s : State, (s.sled.st ≠ .off) → False)) ∧
    (¬ (∀ s : State, ∀ req : Nat, ∀ pick : W32, ∀ x : HReq, ∀ g : Nat, ∀ line : Nat, ∀ b : Nat, ∀ gr : Grant,
      (s.dir.held.find? (fun x => x.no == req) = some x) → (x.why = .admission) → (x.kind = .wr) → (x.gnt = some (g, gr)) →
      (x.line.toNat = line) → (x.ent.odd = false) → (x.ent.dlost = false) → (gr.rw = true) → (s.Untracked gr.region line) →
      (s.pageAway gr.region (line / 64) = false) → (s.malformed (s.sme gr.region (line / 64)) = false) →
      ((s.sme gr.region (line / 64)).st = .zero) → (s.moveOf gr.region (line / 64) = none) →
      (s.admitDirty gr.region (line / 64) 16 = .hold) →
      (s.allocPond (s.anchorOf gr.region (line / 64)) 16 (s.useOf gr.region (line / 64) .store) pick = some b) → False)) ∧
    (¬ (∀ s : State, (s.up = true) → (s.inPause = false) → (s.pwr.budget * 2 ^ 30 < s.dirty) → False)) ∧
    (¬ (∀ s : State, (s.up = true) → (s.inPause = false) → (s.dirty ≤ s.pwr.budget * 2 ^ 30) → False)) :=
  ⟨(fun h => by refine h (charged up) 2900 ?_ ?_ ?_ ?_ ?_ <;> decide +kernel),
   (fun h => by refine h (charged up) ?_ ?_ ?_ ?_ ?_ ?_ <;> decide +kernel),
   (fun h => by refine h ({ charged up with pwr := { (charged up).pwr with measFails := 2 } }) ?_ ?_ ?_ ?_ ?_ ?_ <;> decide +kernel),
   fun h => h up (by decide +kernel),
   fun h => by
      refine h keepHeld 0 0 (req0 .wr .admission) 0 0
        ((keepHeld.allocPond (keepHeld.anchorOf 1 0) 16 (keepHeld.useOf 1 0 .store) 0).getD 0) (grant1 true) ?_ ?_ ?_ ?_ ?_ ?_ ?_ ?_ ?_
        ?_ ?_ ?_ ?_ ?_ ?_
        <;> first | decide +kernel | (constructor <;> decide +kernel),
   (fun h => by refine h (inPond (mapped ent1k true)) ?_ ?_ ?_ <;> decide +kernel),
   (fun h => by refine h up ?_ ?_ ?_ <;> decide +kernel)⟩

/-- States and operands that meet the hypotheses of each clause of `LedgerGrantsFollowTheProtocol`. -/
theorem witness_LedgerGrantsFollowTheProtocol :
    (¬ (∀ s : State, ∀ ceil : W16, ∀ perm : BitVec 2, (perm ≠ 3) → (ceil.toNat ≤ 13500) → (s.sled.st ≠ .off) → (s.pilotGrants = false) →
      False)) ∧
    (¬ (∀ s : State, ∀ i : Fin 21, ∀ ceil : W16, ∀ perm : BitVec 2, ∀ want : Nat, (perm ≠ 3) → (ceil.toNat ≤ 13500) → (s.sled.st ≠ .off) →
      (s.pilotGrants = true) → ((∀ j, j ≠ i.val → (s.ledger j).asks = false)) →
      (want = min (max ceil.toNat ((s.ledger i).floor i)) (maxCeil i)) →
      (want ≤ (s.ledger i).ceil.toNat ∨ want ≤ (s.ledger i).count i + s.capRoom) → False)) ∧
    (¬ (∀ s : State, ∀ i : Fin 21, ∀ ceil : W16, ∀ perm : BitVec 2, (s.pilotGrants = true) → (s.grantFits i ceil.toNat perm = true) → False)) ∧
    (¬ (∀ s : State, ∀ i : Fin 21, ∀ ceil : W16, ∀ perm : BitVec 2, (s.pilotGrants = true) → (s.grantFits i ceil.toNat perm = false) → False)) ∧
    (¬ (∀ s : State, ∀ i : Fin 21, ∀ seq : Byte, (s.pilotGrants = false ∨ (∀ j, (s.ledger j).asks = false)) → (seq = (s.ledger i).seq) →
      False)) ∧
    (¬ (∀ s : State, ∀ i : Fin 21, ∀ seq : Byte, (s.pilotGrants = false ∨ (∀ j, (s.ledger j).asks = false)) → (seq ≠ (s.ledger i).seq) →
      ((s.ledger i).seq - seq < (s.ledger i).seq - (s.ledger i).ack) → False)) ∧
    (¬ (∀ s : State, ∀ i : Fin 21, (s.sled.st ≠ .off) → ((s.ledger i).ack ≠ (s.ledger i).seq) → ((s.ledger i).lowering = true) →
      ((s.ledger i).forcedClk = false) → False)) ∧
    (¬ (∀ s : State, ∀ i : Fin 21, (s.pilotGrants = true) → (2 * (s.ledger i).draw.toNat < (s.ledger i).ceil.toNat) →
      ((s.ledger i).floor i < (s.ledger i).ceil.toNat) → ((s.ledger i).draw.toNat * 5 / 4 < (s.ledger i).ceil.toNat) → False)) ∧
    (¬ (∀ s : State, ∀ i : Fin 21, ((s.ledger i).asks = true) → ((s.ledger i).perm = 2) → ((s.ledger i).rperm = 0) → (s.up = true) → False)) ∧
    (¬ (∀ s : State, ∀ pin : W16, (s.sled.st ≠ .off) → (100 * pin.toNat ≤ 102 * s.capDw) → False)) ∧
    (¬ (∀ s : State, ∀ pin : W16, (s.sled.st ≠ .off) → (102 * s.capDw < 100 * pin.toNat) → False)) :=
  ⟨(fun h => by refine h (inActivation up) 100 0 ?_ ?_ ?_ ?_ <;> decide +kernel),
   fun h => by
      refine h up 16 200 0 (min (max 200 ((up.ledger 16).floor 16)) (maxCeil 16)) ?_ ?_ ?_ ?_ (fun j _ => up_asks j) ?_ ?_
        <;> decide +kernel,
   (fun h => by refine h up 16 120 0 ?_ ?_ <;> decide +kernel),
   (fun h => by refine h up 16 20 0 ?_ ?_ <;> decide +kernel),
   fun h => h up 16 0 (.inr up_asks) (by decide +kernel),
   fun h => by
      refine h (inActivation (led 16 fun e => { e with seq := 5, ack := 1 })) 16 3 (.inl (by decide +kernel)) ?_ ?_
        <;> decide +kernel,
   (fun h => by refine h (led 16 (fun e => { e with seq := 5, ack := 1, lowering := true })) 16 ?_ ?_ ?_ ?_ <;> decide +kernel),
   (fun h => by refine h (led 16 (fun e => { e with draw := 50, ceil := 200 })) 16 ?_ ?_ ?_ ?_ <;> decide +kernel),
   fun h => by
      refine h (led 16 (fun e => { e with asks := true, perm := 2, rperm := 0, rceil := 200 })) 16 ?_ ?_ ?_ ?_
        <;> decide +kernel,
   (fun h => by refine h up 1000 ?_ ?_ <;> decide +kernel),
   (fun h => by refine h up 13800 ?_ ?_ <;> decide +kernel)⟩

/-- States and operands that meet the hypotheses of each clause of `PowerStatesFollowWorkAndHeat`. -/
theorem witness_PowerStatesFollowWorkAndHeat :
    (¬ (∀ s : State, ∀ i : Fin 21, (s.up = true) → ((s.ledger i).st = .lit) → (s.mayTrim i = true) → False)) ∧
    (¬ (∀ s : State, ∀ i : Fin 21, (s.up = true) → ((s.ledger i).st = .lit) → (s.mayTrim i = false) → False)) ∧
    (¬ (∀ s : State, ∀ i : Fin 21, (s.up = true) → (s.pilotGrants = true) → ((s.ledger i).st = .trimmed) → (s.mayBank i = true) → False)) ∧
    (¬ (∀ s : State, ∀ k : Fin 12, (s.pwr.profile = .training) → (s.pilotGrants = true) → (s.up = true) → ((s.ledger k).st = .trimmed) →
      ((s.ledger k).perm = 0) → (s.rtTile k = false) → False)) ∧
    (¬ (∀ s : State, ∀ k : Fin 12, ((s.ledger k).st ≠ .lit) → ((s.ledger k).perm = 0) → (s.up = true) → (s.dir.held = []) → False)) ∧
    (¬ (∀ s : State, ∀ tjw : W16, ∀ tje : W16, (s.sled.st ≠ .off) → (tjw.toInt < 110) → (tje.toInt < 110) → False)) ∧
    (¬ (∀ s : State, ∀ tjw : Option W16, ∀ tje : Option W16, (s.up = true) → (s.wd.pilotRestart = false) → (s.inPause = false) →
      (s.lamp.sch = []) → (s.pwr.tripped = false) → ((∃ v, tjw = some v ∧ 110 ≤ v.toInt) ∨ (∃ v, tje = some v ∧ 110 ≤ v.toInt)) → False)) :=
  ⟨(fun h => by refine h up 3 ?_ ?_ ?_ <;> decide +kernel),
   (fun h => by refine h (compS pHalt) 0 ?_ ?_ ?_ <;> decide +kernel),
   (fun h => by refine h (led 3 (fun e => { e with st := .trimmed })) 3 ?_ ?_ ?_ ?_ <;> decide +kernel),
   fun h => by
      refine h
        ({ led 3 (fun e => { e with st := .trimmed }) with pwr := { (led 3 fun e => { e with st := .trimmed }).pwr with profile := .training } })
        3 ?_ ?_ ?_ ?_ ?_ ?_
        <;> decide +kernel,
   (fun h => by refine h (led 3 (fun e => { e with st := .banked })) 3 ?_ ?_ ?_ ?_ <;> decide +kernel),
   (fun h => by refine h up 97 100 ?_ ?_ ?_ <;> decide +kernel),
   (fun h => by refine h up (some 110) none ?_ ?_ ?_ ?_ ?_ (.inl ⟨110, rfl, by decide⟩) <;> decide +kernel)⟩

/-- States and operands that meet the hypotheses of each clause of `ClockFaultsArePostedAndFenced`. -/
theorem witness_ClockFaultsArePostedAndFenced :
    (¬ (∀ s : State, (s.sled.st ≠ .off) → (s.clk.crystalOk = true) → False)) ∧
    (¬ (∀ s : State, (s.sled.st ≠ .off) → (s.clk.crystalOk = false) → False)) ∧
    (¬ (∀ s : State, (s.sled.st ≠ .off) → (s.clk.crystalOk = true) → False)) ∧
    (¬ (∀ s : State, (s.sled.st ≠ .off) → (s.clk.ref0Ok = true) → (s.clk.ref1Ok = true) → False)) ∧
    (¬ (∀ s : State, (s.up = true) → (s.clk.ref0Ok = false) → (s.clk.ref1Ok = true) → False)) ∧
    (¬ (∀ s : State, (s.sled.st ≠ .off) → False)) :=
  ⟨(fun h => by refine h up ?_ ?_ <;> decide +kernel),
   (fun h => by refine h (coldClock (fun c => { c with crystalOk := false })) ?_ ?_ <;> decide +kernel),
   (fun h => by refine h up ?_ ?_ <;> decide +kernel),
   (fun h => by refine h up ?_ ?_ ?_ <;> decide +kernel),
   (fun h => by refine h (coldClock (fun c => { c with ref0Ok := false })) ?_ ?_ ?_ <;> decide +kernel),
   fun h => h up (by decide +kernel)⟩

/-- States and operands that meet the hypotheses of each clause of `FencesLatchAndBridge`. -/
theorem witness_FencesLatchAndBridge :
    (¬ (∀ s : State, ∀ bit : Fin 1584, ∀ cause : Byte, ∀ setter : BitVec 2, (s.sled.st ≠ .off) → (1 ≤ cause.toNat) → (cause.toNat ≤ 0x0F) →
      (cause ≠ 0x0D) → (cause ≠ 0x0E) → (setter ≠ 3) → (s.fenced (unitOfBit bit) = false) → False)) ∧
    (¬ (∀ s : State, ∀ bit : Fin 1584, ∀ cause : Byte, ∀ setter : BitVec 2, (s.sled.st ≠ .off) → (1 ≤ cause.toNat) → (cause.toNat ≤ 0x0F) →
      (cause ≠ 0x0D) → (cause ≠ 0x0E) → (setter ≠ 3) → (s.fenced (unitOfBit bit) = true) → False)) ∧
    (¬ (∀ s : State, ∀ bit : Fin 1584, ∀ v : Recov, (s.inPause = false) → (s.sled.st ≠ .off) →
      (s.evt.recov.find? (fun v => v.unit == unitOfBit bit) = some v) →
      ((s.homesOn (unitOfBit bit) = [] ∨ (∃ n, unitOfBit bit = .pch n) ∨ ∃ k, unitOfBit bit = .stack k)) → False)) ∧
    (¬ (∀ s : State, (s.up = true) → (s.wd.pilotRestart = false) → (s.inPause = false) → (s.lamp.sch = []) → (s.sled.latchOpen = false) →
      False)) ∧
    (¬ (∀ s : State, (s.sled.latchOpen = true) → False)) ∧
    (¬ (∀ s : State, ∀ n : Nat, (s.up = true) → (s.wd.pilotRestart = false) → (s.inPause = false) → (s.lamp.sch = []) →
      (s.sled.bridge = n + 1) → (s.sled.bridgeLost = false) → (5 ≤ n) → False)) ∧
    (¬ (∀ s : State, ∀ n : Nat, (s.up = true) → (s.wd.pilotRestart = false) → (s.inPause = false) → (s.lamp.sch = []) →
      (s.sled.bridge = n + 1) → (s.sled.bridgeLost = false) → (1 ≤ n) → (n < 5) → False)) ∧
    (¬ (∀ s : State, ∀ n : Nat, (s.up = true) → (s.wd.pilotRestart = false) → (s.inPause = false) → (s.lamp.sch = []) →
      (s.sled.bridge = n + 1) → (s.sled.bridgeLost = false) → (n = 0) → False)) :=
  ⟨(fun h => by refine h up 5 3 0 ?_ ?_ ?_ ?_ ?_ ?_ ?_ <;> decide +kernel),
   (fun h => by refine h fencedS 5 3 0 ?_ ?_ ?_ ?_ ?_ ?_ ?_ <;> decide +kernel),
   (fun h => by refine h fencedS 5 (⟨.wick 5, 3, [], 0⟩) ?_ ?_ ?_ (.inl (by decide +kernel)) <;> decide +kernel),
   (fun h => by refine h up ?_ ?_ ?_ ?_ ?_ <;> decide +kernel),
   fun h => h ({ up with sled := { up.sled with latchOpen := true } }) (by decide +kernel),
   (fun h => by refine h (bridged 7) 6 ?_ ?_ ?_ ?_ ?_ ?_ ?_ <;> decide +kernel),
   (fun h => by refine h (bridged 5) 4 ?_ ?_ ?_ ?_ ?_ ?_ ?_ ?_ <;> decide +kernel),
   (fun h => by refine h (bridged 1) 0 ?_ ?_ ?_ ?_ ?_ ?_ ?_ <;> decide +kernel)⟩

/-- States and operands that meet the hypotheses of each clause of `EventReadersAdvance`. -/
theorem witness_EventReadersAdvance :
    (¬ (∀ s : State, ∀ h : HostId, ∀ v : W32, ∀ n : Nat, (s.barOpen h = true) → ((v.extractLsb' 0 12).toNat = n) → (s.avail h ≤ n) → False)) ∧
    (¬ (∀ s : State, ∀ h : HostId, ∀ v : W32, ∀ n : Nat, (s.barOpen h = true) → ((v.extractLsb' 0 12).toNat = n) → (n = 0) →
      (0 < s.avail h) → False)) ∧
    (¬ (∀ s : State, ∀ h : HostId, ∀ v : W32, ∀ n : Nat, (s.barOpen h = true) → ((v.extractLsb' 0 12).toNat = n) → ∀ p, (0 < n) →
      (n < s.avail h) → ((s.readable h)[n - 1]? = some p) → False)) ∧
    (¬ (∀ s : State, ∀ h : HostId, (s.barOpen h = true) → False)) ∧
    (¬ (∀ s : State, ∀ h : HostId, (s.barOpen h = true) → False)) ∧
    (¬ (∀ s : State, ∀ h : HostId, ((s.reader h).spacing = true) → ((s.reader h).heldSig = false) → False)) ∧
    (¬ (∀ s : State, ∀ h : HostId, ((s.reader h).spacing = true) → ((s.reader h).heldSig = true) → ((s.fnOf h).d3 = false) → False)) :=
  ⟨(fun h => by refine h noticed 0 2 2 ?_ ?_ ?_ <;> decide +kernel),
   (fun h => by refine h noticed 0 0 0 ?_ ?_ ?_ ?_ <;> decide +kernel),
   (fun h => by refine h noticed 0 1 1 ?_ ?_ (0, rec1) ?_ ?_ ?_ <;> decide +kernel),
   fun h => h noticed 0 (by decide +kernel),
   fun h => h noticed 0 (by decide +kernel),
   (fun h => by refine h (spaced false) 0 ?_ ?_ <;> decide +kernel),
   (fun h => by refine h (spaced true) 0 ?_ ?_ ?_ <;> decide +kernel)⟩

/-- States and operands that meet the hypotheses of each clause of `ThePilotWatchdogTrips`. -/
theorem witness_ThePilotWatchdogTrips :
    (¬ (∀ s : State, (s.pilotRuns = true) → (s.wd.run = false) → False)) ∧
    (¬ (∀ s : State, (s.pilotRuns = true) → (s.wd.run = true) → False)) ∧
    (¬ (∀ s : State, ∀ key : W32, (s.pilotRuns = true) → (s.wd.run = true) → (key.extractLsb' 0 16 = 0x6C61) → (s.wd.half = false) → False)) ∧
    (¬ (∀ s : State, ∀ key : W32, (s.pilotRuns = true) → (s.wd.run = true) → (key.extractLsb' 0 16 = 0x6D70) → (s.wd.half = true) →
      (s.wd.held = false) → False)) ∧
    (¬ (∀ s : State, ∀ key : W32, (s.pilotRuns = true) → (s.wd.run = true) → (key.extractLsb' 0 16 ≠ 0x6C61) →
      (key.extractLsb' 0 16 ≠ 0x6D70) → False)) ∧
    (¬ (∀ s : State, (s.wdpCounts = true) → (s.wd.warn = false) → False)) ∧
    (¬ (∀ s : State, (s.wdpCounts = true) → False)) ∧
    (¬ (∀ s : State, ∀ tries : Nat, (s.wdpCounts = true) → (s.up = true) → (s.sled.flush = none) →
      (triesOf s.clk.ms (s.wd.times ++ [s.clk.ms]) = tries) → False)) ∧
    (¬ (∀ s : State, (s.sled.st ≠ .off) → (s.wd.oscfail = false) → False)) ∧
    (¬ (∀ s : State, (s.wd.pilotRestart = true) → (s.sled.flush = none) → False)) ∧
    (¬ (∀ s : State, (s.wd.pilotRestart = true) → ∀ g, (s.sled.flush = some (.dusk g)) → (s.sled.flushCmd = false) → (s.lamp.sch = []) →
      False)) ∧
    (¬ (∀ s : State, (s.wd.pilotRestart = true) → (s.up = true) → (s.inPause = false) → (s.lamp.sch = []) → False)) :=
  ⟨(fun h => by refine h up ?_ ?_ <;> decide +kernel),
   (fun h => by refine h (wdp id) ?_ ?_ <;> decide +kernel),
   (fun h => by refine h (wdp id) 0x6C61 ?_ ?_ ?_ ?_ <;> decide +kernel),
   (fun h => by refine h (wdp (fun w => { w with half := true })) 0x6D70 ?_ ?_ ?_ ?_ ?_ <;> decide +kernel),
   (fun h => by refine h (wdp id) 1 ?_ ?_ ?_ ?_ <;> decide +kernel),
   (fun h => by refine h (wdp id) ?_ ?_ <;> decide +kernel),
   fun h => h (wdp id) (by decide +kernel),
   (fun h => by refine h (wdp id) 1 ?_ ?_ ?_ ?_ <;> decide +kernel),
   (fun h => by refine h up ?_ ?_ <;> decide +kernel),
   (fun h => by refine h (wdp (fun w => { w with pilotRestart := true })) ?_ ?_ <;> decide +kernel),
   fun h => by
      refine h ({ wdp (fun w => { w with pilotRestart := true }) with sled := (flushing false 0).sled }) ?_ 0 ?_ ?_ ?_
        <;> decide +kernel,
   (fun h => by refine h (wdp (fun w => { w with pilotRestart := true })) ?_ ?_ ?_ ?_ <;> decide +kernel)⟩

/-- States and operands that meet the hypotheses of each clause of `EngineWatchdogsTrip`. -/
theorem witness_EngineWatchdogsTrip :
    (¬ (∀ s : State, ∀ key : W32, (s.sled.st ≠ .off) → (s.sled.st ≠ .dead) → (key.extractLsb' 0 16 = 0xC4D1) → False)) ∧
    (¬ (∀ s : State, ∀ n : Fin 16, ∀ key : W32, (s.sled.st ≠ .off) → (s.sled.st ≠ .dead) → (key.extractLsb' 0 16 ≠ 0xC4D1) →
      ((s.wde n).en = false) → False)) ∧
    (¬ (∀ s : State, ∀ n : Fin 16, ∀ key : W32, (s.sled.st ≠ .off) → (s.sled.st ≠ .dead) → (key.extractLsb' 0 16 ≠ 0xC4D1) →
      ((s.wde n).en = true) → (s.sled.st ≠ .vigil) → False)) ∧
    (¬ (∀ s : State, ∀ n : Fin 16, ∀ tries : Nat, (s.wdeCounts n = true) → (triesOf s.clk.ms ((s.wde n).times ++ [s.clk.ms]) = tries) →
      (s.up = true) → (s.sled.flush = none) → False)) ∧
    (¬ (∀ s : State, ∀ n : Fin 16, (s.sled.st ≠ .off) → ((s.wde n).lock = true) → False)) ∧
    (¬ (∀ s : State, ∀ n : Fin 16, ∀ key : W32, (s.sled.st ≠ .off) → ((s.wde n).lock = false) → ((s.wde n).dis = 0) →
      (key.extractLsb' 0 16 = 0x3A5C) → False)) ∧
    (¬ (∀ s : State, ∀ n : Fin 16, ∀ key : W32, (s.sled.st ≠ .off) → ((s.wde n).lock = false) → ((s.wde n).dis = 1) →
      (key.extractLsb' 0 16 = 0x0FF1) → False)) ∧
    (¬ (∀ s : State, ∀ n : Fin 16, ∀ key : W32, (s.sled.st ≠ .off) → ((s.wde n).lock = false) → ((s.wde n).dis = 2) →
      (key.extractLsb' 0 16 = 0xD15A) → False)) ∧
    (¬ (∀ s : State, ∀ n : Fin 16, ∀ key : W32, (s.sled.st ≠ .off) → ((s.wde n).lock = false) → ∀ k : W16, ((s.wde n).dis ≤ 2) →
      (key.extractLsb' 0 16 = k) → (k ≠ 0x3A5C) → (k ≠ 0x0FF1) → (k ≠ 0xD15A) → False)) ∧
    (¬ (∀ s : State, ∀ n : Fin 16, ∀ cfg : W32, (s.sled.st ≠ .off) → ((s.wde n).lock = false) → ((cfg.extractLsb' 0 16) ≠ 0) →
      (cfg.getLsbD 17 = true) → (cfg.getLsbD 18 = false) → ((s.wde n).en = false) → False)) ∧
    (¬ (∀ s : State, ∀ n : Fin 16, ∀ cfg : W32, (s.sled.st ≠ .off) → ((s.wde n).lock = false) → ((cfg.extractLsb' 0 16) ≠ 0) →
      (cfg.getLsbD 17 = false) → (cfg.getLsbD 18 = true) → False)) ∧
    (¬ (∀ s : State, ∀ n : Fin 16, ∀ cfg : W32, (s.sled.st ≠ .off) → ((s.wde n).lock = true) → ((s.wde n).en = true) →
      (cfg.getLsbD 17 = true) → False)) ∧
    (¬ (∀ s : State, ∀ n : Fin 4, ∀ failed : List Nat, ((s.wde n).restart = true) → (s.lamp.sch = []) → (s.rt.stalled = []) →
      (failed ≠ []) → False)) ∧
    (¬ (∀ s : State, ∀ n : Fin 4, ((s.wde n).restart = true) → (s.lamp.sch = []) → (s.rt.stalled = []) → False)) ∧
    (¬ (∀ s : State, ∀ k : Fin 12, ((s.wde (4 + k)).restart = true) → (s.sled.st ≠ .off) → False)) ∧
    (¬ (∀ s : State, ∀ n : Nat, ((List.range 4).find? (fun n => !s.fenced (.lantern n)) = some n) → (s.up = true) → (s.sled.flush = none) →
      (s.wd.pilotRestart = false) → (triesOf s.clk.ms ((s.wde n).times ++ [s.clk.ms]) < s.wd.ntries.toNat) → False)) :=
  ⟨(fun h => by refine h up 0xC4D1 ?_ ?_ ?_ <;> decide +kernel),
   (fun h => by refine h (wdE 3 (fun w => { w with en := false })) 3 1 ?_ ?_ ?_ ?_ <;> decide +kernel),
   (fun h => by refine h (wdE 3 (fun w => { w with en := true })) 3 1 ?_ ?_ ?_ ?_ ?_ <;> decide +kernel),
   (fun h => by refine h (wdE 3 (fun w => { w with en := true })) 3 1 ?_ ?_ ?_ ?_ <;> decide +kernel),
   (fun h => by refine h (wdE 3 (fun w => { w with lock := true })) 3 ?_ ?_ <;> decide +kernel),
   (fun h => by refine h up 3 0x3A5C ?_ ?_ ?_ ?_ <;> decide +kernel),
   (fun h => by refine h (wdE 3 (fun w => { w with dis := 1 })) 3 0x0FF1 ?_ ?_ ?_ ?_ <;> decide +kernel),
   (fun h => by refine h (wdE 3 (fun w => { w with dis := 2 })) 3 0xD15A ?_ ?_ ?_ ?_ <;> decide +kernel),
   (fun h => by refine h (wdE 3 (fun w => { w with dis := 2 })) 3 7 ?_ ?_ 7 ?_ ?_ ?_ ?_ ?_ <;> decide +kernel),
   fun h => by
      refine h (wdE 3 (fun w => { w with en := false })) 3 (BitVec.ofNat 32 (100 + 2 ^ 17)) ?_ ?_ ?_ ?_ ?_ ?_
        <;> decide +kernel,
   (fun h => by refine h up 3 (BitVec.ofNat 32 (100 + 2 ^ 18)) ?_ ?_ ?_ ?_ ?_ <;> decide +kernel),
   fun h => by
      refine h (wdE 3 (fun w => { w with en := true, lock := true })) 3 (BitVec.ofNat 32 (100 + 2 ^ 17)) ?_ ?_ ?_ ?_
        <;> decide +kernel,
   (fun h => by refine h (wdE 1 (fun w => { w with restart := true })) 1 ([3]) ?_ ?_ ?_ ?_ <;> decide +kernel),
   (fun h => by refine h (wdE 1 (fun w => { w with restart := true })) 1 ?_ ?_ ?_ <;> decide +kernel),
   (fun h => by refine h (wdE 7 (fun w => { w with restart := true })) 3 ?_ ?_ <;> decide +kernel),
   (fun h => by refine h up 0 ?_ ?_ ?_ ?_ ?_ <;> decide +kernel)⟩

/-- States and operands that meet the hypotheses of each clause of `OwnersRestartAndPowerTheSled`. -/
theorem witness_OwnersRestartAndPowerTheSled :
    (¬ (∀ s : State, ∀ v : Via, (s.OwnerCmd v) → (s.up = true) → (s.lamp.sch = []) → False)) ∧
    (¬ (∀ s : State, ∀ v : Via, (s.OwnerCmd v) → (s.sled.st = .vigil) → (s.sled.vigilDone = true) → (s.sled.flush = none) → False)) ∧
    (¬ (∀ s : State, ∀ v : Via, (s.OwnerCmd v) → False)) ∧
    (¬ (∀ s : State, ∀ v : Via, (s.sled.st ≠ .off) → (s.sled.st ≠ .dead) → (s.sled.st ≠ .boot) → (s.viaOpen v = true) →
      (s.inPause = false) → (s.wd.pilotRestart = false) → (s.viaOwner v = false) → (s.up = true) → False)) ∧
    (¬ (∀ s : State, ∀ v : Via, (s.sled.st ≠ .off) → (s.sled.st ≠ .dead) → (s.sled.st ≠ .boot) → (s.viaOpen v = true) →
      (s.inPause = false) → (s.wd.pilotRestart = false) → (s.viaOwner v = false) → False)) ∧
    (¬ (∀ s : State, ∀ v : Via, (s.sled.st = .off) → (s.viaOpen v = true) → (s.viaOwner v = true) → (s.wd.btn ≠ 1) → False)) ∧
    (¬ (∀ s : State, ∀ rc : Nat, (s.sled.flush = some (.restart rc)) → (s.sled.vigilNext = none) → (s.sled.offNext = false) → False)) ∧
    (¬ (∀ s : State, ∀ rc : Nat, (s.sled.flush = some (.restart rc)) → (s.sled.vigilNext = none) → (s.sled.offNext = true) → False)) ∧
    (¬ (∀ s : State, (s.sled.flush = some .vigil) → (s.sled.offNext = false) → False)) :=
  ⟨(fun h => by refine h up (.bus) ?_ ?_ ?_ <;> first | decide +kernel | (constructor <;> decide +kernel)),
   (fun h => by refine h inVigil (.bus) ?_ ?_ ?_ ?_ <;> first | decide +kernel | (constructor <;> decide +kernel)),
   fun h => h up (.bus) (by constructor <;> decide +kernel),
   (fun h => by refine h linked (.vdm) ?_ ?_ ?_ ?_ ?_ ?_ ?_ ?_ <;> decide +kernel),
   (fun h => by refine h linked (.vdm) ?_ ?_ ?_ ?_ ?_ ?_ ?_ <;> decide +kernel),
   (fun h => by refine h inDark (.bus) ?_ ?_ ?_ ?_ <;> decide +kernel),
   (fun h => by refine h (keepFlush (.restart 2) false) 2 ?_ ?_ ?_ <;> decide +kernel),
   (fun h => by refine h (keepFlush (.restart 2) true) 2 ?_ ?_ ?_ <;> decide +kernel),
   fun h => by
      refine h ({ keepFlush .vigil false with sled := { (keepFlush .vigil false).sled with st := .vigil } }) ?_ ?_
        <;> decide +kernel⟩

/-- States and operands that meet the hypotheses of each clause of `TheResetButtonIsClassed`. -/
theorem witness_TheResetButtonIsClassed :
    (¬ (∀ s : State, (s.wd.btn = 0) → False)) ∧
    (¬ (∀ s : State, ∀ ms : Nat, (s.wd.btn = 1) → (s.wd.pressed10 = false) → (s.sled.st ≠ .off) → (ms < 20) → False)) ∧
    (¬ (∀ s : State, ∀ ms : Nat, (s.wd.btn = 1) → (s.wd.pressed10 = false) → (s.sled.st ≠ .off) → (20 ≤ ms) → (ms < 2000) → False)) ∧
    (¬ (∀ s : State, ∀ ms : Nat, (s.wd.btn = 1) → (s.wd.pressed10 = false) → (s.sled.st ≠ .off) → (2000 ≤ ms) → (ms < 10000) →
      (s.up = true) → (s.lamp.sch = []) → False)) ∧
    (¬ (∀ s : State, (s.wd.btn = 1) → (s.wd.pressed10 = false) → (s.up = true) → False)) ∧
    (¬ (∀ s : State, (s.wd.btn = 1) → (s.sled.st ≠ .off) → False)) ∧
    (¬ (∀ s : State, (s.wd.btn = 2) → False)) :=
  ⟨fun h => h up (by decide +kernel),
   (fun h => by refine h (btn 1) 19 ?_ ?_ ?_ ?_ <;> decide +kernel),
   (fun h => by refine h (btn 1) 20 ?_ ?_ ?_ ?_ ?_ <;> decide +kernel),
   (fun h => by refine h (btn 1) 9999 ?_ ?_ ?_ ?_ ?_ ?_ ?_ <;> decide +kernel),
   (fun h => by refine h (btn 1) ?_ ?_ ?_ <;> decide +kernel),
   (fun h => by refine h (btn 1) ?_ ?_ <;> decide +kernel),
   fun h => h (btn 2) (by decide +kernel)⟩

/-- States and operands that meet the hypotheses of each clause of `TheSledStartsInOrder`. -/
theorem witness_TheSledStartsInOrder :
    (¬ (∀ s : State, (s.sled.st = .off) → (s.wd.btn ≠ 1) → False)) ∧
    (¬ (∀ s : State, (s.sled.st ≠ .off) → False)) ∧
    (¬ (∀ s : State, (s.sled.boot = .rails) → False)) ∧
    (¬ (∀ s : State, (s.sled.boot = .retry) → False)) ∧
    (¬ (∀ s : State, ∀ slot : Fin 2, ∀ record : RecRead, (s.sled.boot = .verify) → (s.sled.warm = true) → (s.fw.tried = []) →
      (s.fw.select = slot.val) → ((s.fw.slot slot).complete = true) → ((s.fw.slot slot).st ≠ .previous) → (record ≠ .neither) →
      ((s.fw.slot slot).st ≠ .staged) → False)) ∧
    (¬ (∀ s : State, ∀ slot : Fin 2, (s.sled.boot = .verify) → (s.sled.warm = true) → (s.fw.tried = []) → (s.fw.select = slot.val) →
      ((s.fw.slot slot).complete = true) → ((s.fw.slot slot).st ≠ .previous) → ((s.fw.slot slot).st = .staged) → False)) ∧
    (¬ (∀ s : State, ∀ slot : Fin 2, ∀ record : RecRead, (s.sled.boot = .verify) → (s.sled.warm = true) → (s.fw.tried = []) →
      (s.fw.select = slot.val) → ((s.fw.slot slot).complete = true) → ((s.fw.slot slot).st ≠ .previous) → (record = .neither) →
      (s.sled.st ≠ .off) → ((s.fw.slot slot).st ≠ .staged) → False)) ∧
    (¬ (∀ s : State, ∀ slot : Fin 2, (s.sled.boot = .verify) → (s.sled.warm = true) → (s.fw.tried = []) → (s.fw.select = slot.val) →
      ((s.fw.slot slot).complete = true) → ((s.fw.slot slot).st ≠ .previous) → False)) ∧
    (¬ (∀ s : State, ∀ slot : Fin 2, (s.sled.boot = .verify) → (s.fw.tried = []) → (s.fw.select = slot.val) →
      ((s.fw.slot (1 - slot.val)).complete = true) → False)) ∧
    (¬ (∀ s : State, ∀ slot : Fin 2, (s.sled.boot = .verify) → (s.fw.tried = []) → (s.fw.select = slot.val) →
      ((s.fw.slot (1 - slot.val)).complete = false) → False)) ∧
    (¬ (∀ s : State, (s.sled.boot = .selfTest) → (s.fencedIn 96 100 ≠ 4) → False)) ∧
    (¬ (∀ s : State, (s.sled.boot = .selfTest) → (s.fencedIn 96 100 = 4) → (s.sled.st = .boot) → False)) ∧
    (¬ (∀ s : State, (s.sled.boot = .selfTest) → False)) ∧
    (¬ (∀ s : State, ∀ halves : List Train, (s.sled.st = .train) → (s.readyOk = true) → ((∀ x ∈ halves, x.ok = true)) → False)) :=
  ⟨(fun h => by refine h (State.reset) ?_ ?_ <;> decide +kernel),
   fun h => h up (by decide +kernel),
   fun h => h (booting .rails .boot) (by decide +kernel),
   fun h => h (booting .retry .boot) (by decide +kernel),
   (fun h => by refine h (verifying .running) 0 (.newer) ?_ ?_ ?_ ?_ ?_ ?_ ?_ ?_ <;> decide +kernel),
   (fun h => by refine h (verifying .staged) 0 ?_ ?_ ?_ ?_ ?_ ?_ ?_ <;> decide +kernel),
   (fun h => by refine h (verifying .running) 0 (.neither) ?_ ?_ ?_ ?_ ?_ ?_ ?_ ?_ ?_ <;> decide +kernel),
   (fun h => by refine h (verifying .running) 0 ?_ ?_ ?_ ?_ ?_ ?_ <;> decide +kernel),
   (fun h => by refine h verifying2 0 ?_ ?_ ?_ ?_ <;> decide +kernel),
   (fun h => by refine h (verifying .running) 0 ?_ ?_ ?_ ?_ <;> decide +kernel),
   (fun h => by refine h (booting .selfTest .boot) ?_ ?_ <;> decide +kernel),
   (fun h => by refine h (noLanterns (booting .selfTest .boot)) ?_ ?_ ?_ <;> decide +kernel),
   fun h => h (booting .selfTest .boot) (by decide +kernel),
   (fun h => by refine h (booting .ready .train) ([]) ?_ ?_ (fun _ h => absurd h List.not_mem_nil) <;> decide +kernel)⟩

/-- States and operands that meet the hypotheses of each clause of `ChainLinksGreetAndFail`. -/
theorem witness_ChainLinksGreetAndFail :
    (¬ (∀ s : State, ∀ l : Fin 2, ((s.link l).st = 2) → False)) ∧
    (¬ (∀ s : State, ∀ l : Fin 2, ((s.link l).st ≠ 2) → ((s.link l).st ≠ 3) → False)) ∧
    (¬ (∀ s : State, ∀ l : Fin 2, ((s.link l).st = 3) → False)) ∧
    (¬ (∀ s : State, (s.sled.st ≠ .off) → (s.sled.st ≠ .dead) → False)) ∧
    (¬ (∀ s : State, ∀ l : Fin 2, (s.sled.st ≠ .off) → (s.sled.st ≠ .dead) → (s.chn.ctl.getLsbD (3 + l.val) = true) → False)) ∧
    (¬ (∀ s : State, ∀ l : Fin 2, (s.sled.st ≠ .off) → (s.sled.st ≠ .dead) → (s.chn.ctl.getLsbD (3 + l.val) = false) → False)) ∧
    (¬ (∀ s : State, (s.sled.st ≠ .off) → (s.chn.dn.st = 2) → (s.chn.tx = none) → False)) ∧
    (¬ (∀ s : State, ∀ r : Rx, (s.sled.st ≠ .off) → (s.chn.up.st = 2) → (s.chn.rx = some r) → (s.chn.tx = none) → (s.fw.stage = none) →
      False)) ∧
    (¬ (∀ s : State, ∀ l : Fin 2, ((s.link l).st ≠ 2) → ((s.link l).st ≠ 3) → False)) ∧
    (¬ (∀ s : State, ∀ l : Fin 2, ((s.link l).st ≠ 2) → ((s.link l).st = 3) → False)) ∧
    (¬ (∀ s : State, ∀ l : Fin 2, ((s.link l).st ≠ 2) → False)) :=
  ⟨fun h => h (chained id) 0 (by decide +kernel),
   (fun h => by refine h up 0 ?_ ?_ <;> decide +kernel),
   fun h => h passing 0 (by decide +kernel),
   (fun h => by refine h (chained id) ?_ ?_ <;> decide +kernel),
   (fun h => by refine h (chained (fun c => { c with ctl := 8 })) 0 ?_ ?_ ?_ <;> decide +kernel),
   (fun h => by refine h (chained (fun c => { c with ctl := 0 })) 0 ?_ ?_ ?_ <;> decide +kernel),
   (fun h => by refine h (chained id) ?_ ?_ ?_ <;> decide +kernel),
   (fun h => by refine h (receiving (rx1 [])) (rx1 []) ?_ ?_ ?_ ?_ ?_ <;> decide +kernel),
   (fun h => by refine h up 0 ?_ ?_ <;> decide +kernel),
   (fun h => by refine h passing 0 ?_ ?_ <;> decide +kernel),
   fun h => h up 0 (by decide +kernel)⟩

/-- States and operands that meet the hypotheses of each clause of `ChainTransfersMoveChunks`. -/
theorem witness_ChainTransfersMoveChunks :
    (¬ (∀ s : State, (s.chn.up.st = 2) → (s.chn.rx = none) → (s.chn.arm = BitVec.allOnes 64) → (s.chn.ctl.getLsbD 0 = false) → False)) ∧
    (¬ (∀ s : State, ∀ x : Image, (s.chn.up.st = 2) → (s.chn.rx = none) → (x.settings = false) → (s.chn.arm = x.iseq ∨ s.chn.arm = 0) →
      (s.chn.arm ≠ BitVec.allOnes 64) → (s.fw.wait = none) → (s.fw.stage = none) → ((s.fw.slot s.otherSlot).st ≠ .staged) →
      (s.pilotRuns = true) → (s.sled.flush = none) → (s.refuses x = none) → (s.chn.ctl.getLsbD 0 = false) → (s.fw.booted < 2) → False)) ∧
    (¬ (∀ s : State, ∀ r : Rx, (s.chn.up.st = 2) → (s.chn.rx = some r) → (s.chn.tx = none) → False)) ∧
    (¬ (∀ s : State, ∀ r : Rx, ∀ k : Nat, (s.chn.up.st = 2) → (s.chn.rx = some r) → (s.chn.tx = none) → (k < chunksOf r.image) →
      (k ∉ r.got) → (s.freeChunks.freeBufs ≠ 0) → (r.done = false) → False)) ∧
    (¬ (∀ s : State, ∀ r : Rx, ∀ k : Nat, (s.chn.up.st = 2) → (s.chn.rx = some r) → (s.chn.tx = none) → (k < chunksOf r.image) →
      (k ∈ r.got) → False)) ∧
    (¬ (∀ s : State, ∀ x : Tx, ∀ free : Nat, (s.chn.dn.st = 2) → (s.chn.rx = none) → (s.chn.tx = some x) → (x.doneSent = false) →
      (x.accepted = false) → (x.origin = true) → (x.next = 0) → (x.out = []) → (free = 1) → False)) ∧
    (¬ (∀ s : State, ∀ x : Tx, (s.chn.dn.st = 2) → (s.chn.rx = none) → (s.chn.tx = some x) → (x.doneSent = false) → ∀ k : W32,
      (x.accepted = true) → (x.origin = true) → (x.out = [k.toNat]) → (k ≠ 0xFFFFFFFF) → (chunksOf x.image ≤ x.next) → False)) ∧
    (¬ (∀ s : State, ∀ x : Tx, (s.chn.dn.st = 2) → (s.chn.rx = none) → (s.chn.tx = some x) → (x.doneSent = false) → ∀ k, (k ∈ x.out) →
      (x.fails.getD k 0 < 2) → False)) ∧
    (¬ (∀ s : State, ∀ x : Tx, (s.chn.dn.st = 2) → (s.chn.rx = none) → (s.chn.tx = some x) → (x.doneSent = false) → ∀ k, (k ∈ x.out) →
      (x.fails.getD k 0 = 2) → (s.sled.st ≠ .off) → False)) ∧
    (¬ (∀ s : State, ∀ r : Rx, (s.chn.up.st = 2) → (s.chn.rx = some r) → (s.chn.tx = none) → (r.fwd = false) → (r.storing = false) →
      (r.image.settings = false) → (r.got.length = chunksOf r.image) → False)) ∧
    (¬ (∀ s : State, ∀ r : Rx, (s.chn.up.st = 2) → (s.chn.rx = some r) → (s.chn.tx = none) → (r.fwd = false) → (r.storing = false) →
      (r.image.settings = false) → (r.got.length ≠ chunksOf r.image) → False)) ∧
    (¬ (∀ s : State, ∀ r : Rx, ∀ v : Nat, (s.chn.up.st = 2) → (s.chn.rx = some r) → (s.chn.tx = none) → (r.fwd = false) →
      (r.storing = false) → (r.done = false) → (r.image.settings = true) → (r.got.length = chunksOf r.image) →
      (s.takesBundle [(0xFFFF0003#32, BitVec.ofNat 64 v)] true = true) → (1 ≤ v) → (v ≤ 60) → False)) :=
  ⟨(fun h => by refine h (chained (fun c => { c with arm := BitVec.allOnes 64, ctl := 0 })) ?_ ?_ ?_ ?_ <;> decide +kernel),
   fun h => by
      refine h (charged (chained (fun c => { c with arm := 2, ctl := 0 }))) image1 ?_ ?_ ?_ ?_ ?_ ?_ ?_ ?_ ?_ ?_ ?_ ?_ ?_
        <;> decide +kernel,
   (fun h => by refine h (receiving (rx1 [])) (rx1 []) ?_ ?_ ?_ <;> decide +kernel),
   (fun h => by refine h (receiving (rx1 [0])) (rx1 [0]) 1 ?_ ?_ ?_ ?_ ?_ ?_ ?_ <;> decide +kernel),
   (fun h => by refine h (receiving (rx1 [0])) (rx1 [0]) 0 ?_ ?_ ?_ ?_ ?_ <;> decide +kernel),
   (fun h => by refine h (sending tx1) tx1 1 ?_ ?_ ?_ ?_ ?_ ?_ ?_ ?_ ?_ <;> decide +kernel),
   fun h => by
      refine h (sending { tx1 with accepted := true, next := 2, out := [1] }) ({ tx1 with accepted := true, next := 2, out := [1] }) ?_
        ?_ ?_ ?_ 1 ?_ ?_ ?_ ?_ ?_
        <;> decide +kernel,
   fun h => by
      refine h (sending { tx1 with accepted := true, next := 2, out := [1] }) ({ tx1 with accepted := true, next := 2, out := [1] }) ?_
        ?_ ?_ ?_ 1 ?_ ?_
        <;> decide +kernel,
   fun h => by
      refine h (sending { tx1 with accepted := true, next := 2, out := [1], fails := [(1, 2)] })
        ({ tx1 with accepted := true, next := 2, out := [1], fails := [(1, 2)] }) ?_ ?_ ?_ ?_ 1 ?_ ?_ ?_
        <;> decide +kernel,
   (fun h => by refine h (receiving (rx1 [0, 1])) (rx1 [0, 1]) ?_ ?_ ?_ ?_ ?_ ?_ ?_ <;> decide +kernel),
   (fun h => by refine h (receiving (rx1 [0])) (rx1 [0]) ?_ ?_ ?_ ?_ ?_ ?_ ?_ <;> decide +kernel),
   (fun h => by refine h bundling rxSet 7 ?_ ?_ ?_ ?_ ?_ ?_ ?_ ?_ ?_ ?_ ?_ <;> decide +kernel)⟩

/-- States and operands that meet the hypotheses of each clause of `ImagesAreStagedAndActivated`. -/
theorem witness_ImagesAreStagedAndActivated :
    (¬ (∀ s : State, ∀ g : Stage, (s.fw.stage = some g) → (g.chain = false) → (s.chn.rx = none) → (s.fw.booted < 2) →
      (g.written + 1 < chunksOf g.image) → False)) ∧
    (¬ (∀ s : State, ∀ g : Stage, (s.fw.stage = some g) → (g.chain = false) → (s.chn.rx = none) → (s.fw.booted < 2) → ∀ p, ∀ x,
      (g.written + 1 = chunksOf g.image) → (g.prog = some p) → (s.prog p = some x) → (x.cancel = none) → (s.chn.ctl.getLsbD 1 = false) →
      (s.sled.st ≠ .off) → False)) ∧
    (¬ (∀ s : State, ∀ g : Stage, (s.fw.stage = some g) → (g.chain = false) → (s.chn.rx = none) → (s.fw.booted < 2) → ∀ k, (k ≠ g.written) →
      False)) ∧
    (¬ (∀ s : State, ∀ g : Stage, (s.fw.stage = some g) → (g.chain = false) → (s.chn.rx = none) → (s.fw.booted < 2) → ∀ p, ∀ x,
      (g.prog = some p) → (s.prog p = some x) → (x.mute = false) → (s.CanPost x.host x.q) → False)) ∧
    (¬ (∀ s : State, ∀ p : Nat, ∀ ms : Nat, ∀ len : W64, ∀ x : Prog, (s.fw.wait = some (p, len, ms)) → (s.prog p = some x) →
      (x.mute = false) → (s.CanPost x.host x.q) → False)) ∧
    (¬ (∀ s : State, ∀ a : Act, (s.fw.act = some a) → (a.paused = false) → (s.rt.stalled = []) → False)) ∧
    (¬ (∀ s : State, ∀ a : Act, ∀ p : Nat, ∀ x : Prog, (s.fw.act = some a) → (a.paused = true) → (a.cause = 0) → (a.slot < 2) →
      (a.prog = some p) → (s.prog p = some x) → (s.q.progs = [(p, x)]) → (s.lamp.sch = []) → (s.q.qs = []) → (s.mgt.held = []) →
      (s.sled.flush = none) → (s.sled.st ≠ .off) → (x.cancel = none) → False)) ∧
    (¬ (∀ s : State, ∀ a : Act, ∀ p : Nat, ∀ x : Prog, (s.fw.act = some a) → (a.paused = true) → (a.cause = 0) → (a.slot < 2) →
      (a.prog = some p) → (s.prog p = some x) → (s.q.progs = [(p, x)]) → (s.lamp.sch = []) → (s.q.qs = []) → (s.mgt.held = []) →
      (s.sled.flush = none) → (s.sled.st ≠ .off) → (x.mute = false) → False)) ∧
    (¬ (∀ s : State, (s.up = true) → ((s.fw.inState .probation).isSome = true) → ((s.fw.inState .previous).isNone = true) → False)) ∧
    (¬ (∀ s : State, (s.up = true) → ((s.fw.inState .probation).isSome = true) → ∀ n, (s.fw.inState .previous = some n) →
      (s.fw.act = none) → (s.fw.probH.toNat * 6 ≤ (satInc s.fw.probEl).toNat) → False)) ∧
    (¬ (∀ s : State, (s.pilotRuns = true) → (s.fw.dirty = true) → False)) ∧
    (¬ (∀ s : State, (s.pilotRuns = true) → (s.fw.dirty = false) → False)) :=
  ⟨(fun h => by refine h (staging 0 none up) (⟨image1, 0, false, none, []⟩) ?_ ?_ ?_ ?_ ?_ <;> decide +kernel),
   fun h => by
      refine h (noPass (staging 1 (some 0) (ownerS (pStage 0)))) (⟨image1, 1, false, some 0, []⟩) ?_ ?_ ?_ ?_ 0 (pStage 0) ?_ ?_ ?_ ?_ ?_
        ?_
        <;> decide +kernel,
   (fun h => by refine h (staging 0 none up) (⟨image1, 0, false, none, []⟩) ?_ ?_ ?_ ?_ 1 ?_ <;> decide +kernel),
   fun h => by
      refine h (staging 0 (some 0) (ownerS (pStage 0))) (⟨image1, 0, false, some 0, []⟩) ?_ ?_ ?_ ?_ 0 (pStage 0) ?_ ?_ ?_ ?_
        <;> first | decide +kernel | (constructor <;> decide +kernel),
   (fun h => by refine h waitStage 0 0 131072 (pStage 0) ?_ ?_ ?_ ?_ <;> first | decide +kernel | (constructor <;> decide +kernel)),
   (fun h => by refine h (acting false) (act0 false) ?_ ?_ ?_ <;> decide +kernel),
   (fun h => by refine h (acting true) (act0 true) 0 pActivate ?_ ?_ ?_ ?_ ?_ ?_ ?_ ?_ ?_ ?_ ?_ ?_ ?_ <;> decide +kernel),
   (fun h => by refine h (acting true) (act0 true) 0 pActivate ?_ ?_ ?_ ?_ ?_ ?_ ?_ ?_ ?_ ?_ ?_ ?_ ?_ <;> decide +kernel),
   (fun h => by refine h ({ probing 3 with fw := { (probing 3).fw with slot0 := Slot.empty } }) ?_ ?_ ?_ <;> decide +kernel),
   (fun h => by refine h ({ probing 3 with fw := { (probing 3).fw with probH := 0 } }) ?_ ?_ 0 ?_ ?_ ?_ <;> decide +kernel),
   (fun h => by refine h dirtyS ?_ ?_ <;> decide +kernel),
   (fun h => by refine h up ?_ ?_ <;> decide +kernel)⟩

/-- States and operands that meet the hypotheses of each clause of `MctpAndSpdmAnswer`. -/
theorem witness_MctpAndSpdmAnswer :
    (¬ (∀ s : State, (s.sled.st ≠ .off ∨ s.sled.dark = true) → ∀ eid : Byte, (eid ≠ 0) → (eid ≠ 0xFF) → False)) ∧
    (¬ (∀ s : State, (s.sled.st ≠ .off ∨ s.sled.dark = true) → ∀ eid : Byte, (eid = 0 ∨ eid = 0xFF) → False)) ∧
    (¬ (∀ s : State, (s.sled.st ≠ .off ∨ s.sled.dark = true) → False)) ∧
    (¬ (∀ s : State, (s.sled.st ≠ .off ∨ s.sled.dark = true) → False)) ∧
    (¬ (∀ s : State, (s.sled.st ≠ .off ∨ s.sled.dark = true) → False)) ∧
    (¬ (∀ s : State, ∀ c : Carrier, (s.carrierOn c = true) → False)) ∧
    (¬ (∀ s : State, ∀ c : Carrier, (s.carrierOn c = true) → False)) ∧
    (¬ (∀ s : State, ∀ c : Carrier, (s.carrierOn c = true) → False)) ∧
    (¬ (∀ s : State, ∀ c : Carrier, (s.carrierOn c = true) → (8 ≤ s.mgt.sess.length) → False)) ∧
    (¬ (∀ s : State, ∀ c : Carrier, (s.carrierOn c = true) → ∀ n, (s.mgt.sess.length < 8) → (s.mgt.sess.lowestFree 8 0 = some n) → False)) ∧
    (¬ (∀ s : State, ∀ n : Nat, ∀ x : Sess, (s.mgt.sess.find n = some x) → (s.carrierOn x.carrier = true) → (x.finished = false) → False)) ∧
    (¬ (∀ s : State, ∀ n : Nat, ∀ x : Sess, (s.mgt.sess.find n = some x) → (s.carrierOn x.carrier = true) → (x.finished = true) → False)) ∧
    (¬ (∀ s : State, ∀ n : Nat, ∀ x : Sess, (s.mgt.sess.find n = some x) → (s.carrierOn x.carrier = true) → (x.finished = false) → False)) ∧
    (¬ (∀ s : State, ∀ c : Carrier, (s.carrierOn c = false) → False)) :=
  ⟨(fun h => by refine h up (.inl (by decide +kernel)) 9 ?_ ?_ <;> decide +kernel),
   (fun h => by refine h up ?_ 0xFF ?_ <;> decide +kernel),
   fun h => h up (by decide +kernel),
   fun h => h up (by decide +kernel),
   fun h => h up (by decide +kernel),
   fun h => h up (.bus) (by decide +kernel),
   fun h => h up (.bus) (by decide +kernel),
   fun h => h up (.bus) (by decide +kernel),
   (fun h => by refine h allSessions (.bus) ?_ ?_ <;> decide +kernel),
   (fun h => by refine h up (.bus) ?_ 0 ?_ ?_ <;> decide +kernel),
   (fun h => by refine h (inSession false) 2 (sess1 false) ?_ ?_ ?_ <;> decide +kernel),
   (fun h => by refine h (inSession true) 2 (sess1 true) ?_ ?_ ?_ <;> decide +kernel),
   (fun h => by refine h (inSession false) 2 (sess1 false) ?_ ?_ ?_ <;> decide +kernel),
   fun h => h up (.doe 0) (by decide +kernel)⟩

/-- States and operands that meet the hypotheses of each clause of `ManagementReadsState`. -/
theorem witness_ManagementReadsState :
    (¬ (∀ s : State, (s.sled.st ≠ .off ∨ s.sled.dark = true) → False)) ∧
    (¬ (∀ s : State, ∀ ids : List W16, (s.BusCmd) → (ids ≠ []) → (ids.length ≤ 64) → False)) ∧
    (¬ (∀ s : State, ∀ ids : List W16, (s.BusCmd) → (ids = [] ∨ 64 < ids.length) → False)) ∧
    (¬ (∀ s : State, (s.hasLake = false) → False)) ∧
    (¬ (∀ s : State, ∀ addr : W32, ∀ count : Nat, (s.BusCmd) → (addr.toNat % 8 = 0) → (addr.toNat < 0x800000) → (1 ≤ count) →
      (count ≤ 120) → False)) ∧
    (¬ (∀ s : State, ∀ addr : W32, ∀ count : Nat, (s.BusCmd) → (addr.toNat % 8 ≠ 0 ∨ 0x800000 ≤ addr.toNat ∨ count = 0 ∨ 120 < count) →
      False)) ∧
    (¬ (∀ s : State, ∀ ack : Nat, ∀ max : Nat, (s.BusCmd) → (1 ≤ max) → (max ≤ 31) → (ack < 65536) → False)) ∧
    (¬ (∀ s : State, ∀ ack : Nat, ∀ max : Nat, (s.BusCmd) → (max = 0 ∨ 31 < max ∨ 65536 ≤ ack) → False)) ∧
    (¬ (∀ s : State, ∀ slot : Nat, ∀ count : Nat, (s.BusCmd) → (1 ≤ count) → (count ≤ 62) → (slot < 32768) → False)) ∧
    (¬ (∀ s : State, ∀ slot : Nat, ∀ count : Nat, (s.BusCmd) → (count = 0 ∨ 62 < count ∨ 32768 ≤ slot) → False)) ∧
    (¬ (∀ s : State, ∀ id : W16, (s.BusCmd) → (s.sled.st ≠ .duskFlush) → (id.toNat = 0 ∨ 8 < id.toNat) → False)) ∧
    (¬ (∀ s : State, ∀ id : W16, (s.BusCmd) → (s.sled.st ≠ .duskFlush) → (id.toNat = 4) → False)) ∧
    (¬ (∀ s : State, ∀ id : W16, (s.BusCmd) → (s.sled.st ≠ .duskFlush) → (1 ≤ id.toNat) → (id.toNat ≤ 8) → (id.toNat ≠ 4) → (id.toNat ≠ 5) →
      (id.toNat ≠ 6) → False)) ∧
    (¬ (∀ s : State, ∀ r : RegionId, (s.BusCmd) → (s.up = true) → ((s.ent r).st ≠ .freed) → False)) ∧
    (¬ (∀ s : State, ∀ gcmd : Byte, (s.BusCmd) → (gcmd = 0 ∨ 0x0D < gcmd.toNat) → False)) :=
  ⟨fun h => h up (by decide +kernel),
   (fun h => by refine h up ([0x20]) ?_ ?_ ?_ <;> first | decide +kernel | (constructor <;> decide +kernel)),
   (fun h => by refine h up ([]) ?_ ?_ <;> first | decide +kernel | (constructor <;> decide +kernel)),
   fun h => h ({ up with id := { up.id with variant := .p } }) (by decide +kernel),
   (fun h => by refine h up 0x20000 3 ?_ ?_ ?_ ?_ ?_ <;> first | decide +kernel | (constructor <;> decide +kernel)),
   (fun h => by refine h up 4 3 ?_ ?_ <;> first | decide +kernel | (constructor <;> decide +kernel)),
   (fun h => by refine h up 0 3 ?_ ?_ ?_ ?_ <;> first | decide +kernel | (constructor <;> decide +kernel)),
   (fun h => by refine h up 0 0 ?_ ?_ <;> first | decide +kernel | (constructor <;> decide +kernel)),
   (fun h => by refine h up 0 1 ?_ ?_ ?_ ?_ <;> first | decide +kernel | (constructor <;> decide +kernel)),
   (fun h => by refine h up 32768 1 ?_ ?_ <;> first | decide +kernel | (constructor <;> decide +kernel)),
   (fun h => by refine h up 9 ?_ ?_ ?_ <;> first | decide +kernel | (constructor <;> decide +kernel)),
   (fun h => by refine h up 4 ?_ ?_ ?_ <;> first | decide +kernel | (constructor <;> decide +kernel)),
   (fun h => by refine h up 8 ?_ ?_ ?_ ?_ ?_ ?_ ?_ <;> first | decide +kernel | (constructor <;> decide +kernel)),
   (fun h => by refine h (mapped ent1 true) 1 ?_ ?_ ?_ <;> first | decide +kernel | (constructor <;> decide +kernel)),
   (fun h => by refine h up 0x0E ?_ ?_ <;> first | decide +kernel | (constructor <;> decide +kernel))⟩

/-- States and operands that meet the hypotheses of each clause of `OwnerManagementCommands`. -/
theorem witness_OwnerManagementCommands :
    (¬ (∀ s : State, ∀ v : Via, (s.OwnerCmd v) → (s.sled.st ≠ .duskFlush) → ∀ addr : W32, (addr.toNat % 8 ≠ 0 ∨ 0x800000 ≤ addr.toNat) →
      False)) ∧
    (¬ (∀ s : State, ∀ v : Via, (s.OwnerCmd v) → (s.sled.st ≠ .duskFlush) → False)) ∧
    (¬ (∀ s : State, ∀ v : Via, (s.BusCmd) → (s.viaOpen v = true) → (s.viaOwner v = false) → (s.sled.st ≠ .duskFlush) → (s.up = true) →
      False)) ∧
    (¬ (∀ s : State, ∀ v : Via, (s.BusCmd) → (s.viaOpen v = true) → (s.viaOwner v = false) → (s.sled.st ≠ .duskFlush) → False)) ∧
    (¬ (∀ s : State, ∀ v : Via, ∀ id : W16, ∀ w : W32, (s.OwnerCmd v) → (s.sled.st ≠ .duskFlush) → (id = 4) → (1 ≤ w.toNat) →
      (w.toNat ≤ 64) → False)) ∧
    (¬ (∀ s : State, ∀ v : Via, ∀ id : W16, ∀ w : W32, (s.OwnerCmd v) → (s.sled.st ≠ .duskFlush) → (id = 2) → (1 ≤ w.toNat) →
      (w.toNat ≤ 100) → False)) ∧
    (¬ (∀ s : State, ∀ v : Via, ∀ id : W16, ∀ w : W32, (s.OwnerCmd v) → (s.sled.st ≠ .duskFlush) → (id = 2) → (w = 0) → False)) ∧
    (¬ (∀ s : State, ∀ v : Via, (s.OwnerCmd v) → (s.up = true) → False)) ∧
    (¬ (∀ s : State, ∀ v : Via, (s.OwnerCmd v) → (s.up = true) → (s.fw.inState .staged = none) → False)) ∧
    (¬ (∀ s : State, ∀ v : Via, (s.OwnerCmd v) → (s.up = true) → ∀ n, ∀ d : W16, (s.fw.inState .staged = some n) → (s.fw.act = none) →
      (s.actRefuses n = some d) → False)) ∧
    (¬ (∀ s : State, ∀ v : Via, (s.OwnerCmd v) → (s.up = true) → ∀ n, (s.fw.inState .staged = some n) → (s.fw.act = none) →
      (s.actRefuses n = none) → False)) ∧
    (¬ (∀ s : State, ∀ v : Via, (s.OwnerCmd v) → (s.up = true) → ∀ n, (s.fw.act = none) → (s.fw.inState .probation = some n) → False)) ∧
    (¬ (∀ s : State, ∀ v : Via, (s.OwnerCmd v) → (s.up = true) → (s.fw.inState .probation = none) → False)) ∧
    (¬ (∀ s : State, ∀ v : Via, (s.OwnerCmd v) → (s.up = true) → False)) ∧
    (¬ (∀ s : State, ∀ v : Via, (s.OwnerCmd v) → (s.up = true) → False)) ∧
    (¬ (∀ s : State, ∀ v : Via, (s.OwnerCmd v) → (s.up = true) → (s.mgt.root.isSome = true) → False)) ∧
    (¬ (∀ s : State, ∀ v : Via, (s.OwnerCmd v) → (s.up = true) → (s.mgt.lanes.lowestFree 64 0 = none) → False)) ∧
    (¬ (∀ s : State, ∀ v : Via, (s.OwnerCmd v) → (s.up = true) → ∀ n, (s.mgt.lanes.lowestFree 64 0 = some n) → False)) ∧
    (¬ (∀ s : State, ∀ v : Via, (s.OwnerCmd v) → (s.up = true) → ∀ sled, ((∃ l ∈ s.mgt.lanes, l.2.1 = sled)) → False)) ∧
    (¬ (∀ s : State, ∀ v : Via, (s.OwnerCmd v) → (s.up = true) → False)) ∧
    (¬ (∀ s : State, ∀ v : Via, ∀ sled : W16, (s.OwnerCmd v) → (s.sled.st = .vigil) → (s.sled.vigilDone = true) → (s.wd.vcause = 8) →
      (s.mgt.formatting = false) → (sled = s.id.sledId) → False)) ∧
    (¬ (∀ s : State, ∀ v : Via, ∀ sled : W16, (s.OwnerCmd v) → (s.sled.st = .vigil) → (s.sled.vigilDone = true) → (s.wd.vcause = 8) →
      (s.mgt.formatting = false) → (sled ≠ s.id.sledId) → False)) :=
  ⟨(fun h => by refine h up (.bus) ?_ ?_ 4 ?_ <;> first | decide +kernel | (constructor <;> decide +kernel)),
   (fun h => by refine h up (.bus) ?_ ?_ <;> first | decide +kernel | (constructor <;> decide +kernel)),
   (fun h => by refine h linked (.vdm) ?_ ?_ ?_ ?_ ?_ <;> first | decide +kernel | (constructor <;> decide +kernel)),
   (fun h => by refine h linked (.vdm) ?_ ?_ ?_ ?_ <;> first | decide +kernel | (constructor <;> decide +kernel)),
   (fun h => by refine h up (.bus) 4 64 ?_ ?_ ?_ ?_ ?_ <;> first | decide +kernel | (constructor <;> decide +kernel)),
   (fun h => by refine h up (.bus) 2 100 ?_ ?_ ?_ ?_ ?_ <;> first | decide +kernel | (constructor <;> decide +kernel)),
   (fun h => by refine h up (.bus) 2 0 ?_ ?_ ?_ ?_ <;> first | decide +kernel | (constructor <;> decide +kernel)),
   (fun h => by refine h up (.bus) ?_ ?_ <;> first | decide +kernel | (constructor <;> decide +kernel)),
   (fun h => by refine h up (.bus) ?_ ?_ ?_ <;> first | decide +kernel | (constructor <;> decide +kernel)),
   fun h => by
      refine h (withSlot1 { up with sled := { up.sled with latchOpen := true } } .staged) (.bus) ?_ ?_ 1 0x11 ?_ ?_ ?_
        <;> first | decide +kernel | (constructor <;> decide +kernel),
   fun h => by
      refine h (withSlot1 (charged up) .staged) (.bus) ?_ ?_ 1 ?_ ?_ ?_
        <;> first | decide +kernel | (constructor <;> decide +kernel),
   (fun h => by refine h (probing 3) (.bus) ?_ ?_ 1 ?_ ?_ <;> first | decide +kernel | (constructor <;> decide +kernel)),
   (fun h => by refine h up (.bus) ?_ ?_ ?_ <;> first | decide +kernel | (constructor <;> decide +kernel)),
   (fun h => by refine h up (.bus) ?_ ?_ <;> first | decide +kernel | (constructor <;> decide +kernel)),
   (fun h => by refine h up (.bus) ?_ ?_ <;> first | decide +kernel | (constructor <;> decide +kernel)),
   (fun h => by refine h rooted (.session 2) ?_ ?_ ?_ <;> first | decide +kernel | (constructor <;> decide +kernel)),
   (fun h => by refine h allLanes (.bus) ?_ ?_ ?_ <;> first | decide +kernel | (constructor <;> decide +kernel)),
   (fun h => by refine h peered (.bus) ?_ ?_ 1 ?_ <;> first | decide +kernel | (constructor <;> decide +kernel)),
   fun h => by
      refine h peered (.bus) ?_ ?_ 5 (⟨(0, (5, 9)), by decide +kernel, rfl⟩)
        <;> first | decide +kernel | (constructor <;> decide +kernel),
   (fun h => by refine h up (.bus) ?_ ?_ <;> first | decide +kernel | (constructor <;> decide +kernel)),
   fun h => by
      refine h formatCall (.bus) (formatCall.id.sledId) ?_ ?_ ?_ ?_ ?_ ?_
        <;> first | decide +kernel | (constructor <;> decide +kernel),
   fun h => by
      refine h formatCall (.bus) (formatCall.id.sledId + 1) ?_ ?_ ?_ ?_ ?_ ?_
        <;> first | decide +kernel | (constructor <;> decide +kernel)⟩

/-- States and operands that meet the hypotheses of each clause of `RegisterWritesAndTheTrace`. -/
theorem witness_RegisterWritesAndTheTrace :
    (¬ (∀ s : State, ∀ h : HostId, (s.barOpen h = true) → False)) ∧
    (¬ (∀ s : State, ∀ h : HostId, ∀ bar : Bar, ∀ off : Nat, ∀ bytes : List Byte, (s.barOpen h = false) → (bar = .bar2) → (off < 0x40000) →
      (bytes.length ≤ 8) → (off % 8 = 0) → False)) ∧
    (¬ (∀ s : State, ∀ h : HostId, (s.isOwnerFn h = false) → False)) ∧
    (¬ (∀ s : State, ∀ h : HostId, ∀ q : QueueNo, (s.barOpen h = true) → ((s.queue h q).enable = false) → False)) ∧
    (¬ (∀ s : State, (s.sled.st ≠ .off) → (s.sled.st ≠ .dead) → False)) ∧
    (¬ (∀ s : State, (s.sled.st ≠ .off) → (s.sled.st ≠ .dead) → (s.trc.srcEn.getLsbD 0 = true) → (s.trc.frozen = false) →
      (s.trc.stopped = false) → (s.trc.wrap = false) → False)) ∧
    (¬ (∀ s : State, (s.sled.st ≠ .off) → (s.sled.st ≠ .dead) → (s.trc.srcEn.getLsbD 0 = true) → (s.trc.frozen = true) → False)) :=
  ⟨fun h => h linked 0 (by decide +kernel),
   (fun h => by refine h up 0 (.bar2) 8 ([1, 2, 3, 4]) ?_ ?_ ?_ ?_ ?_ <;> decide +kernel),
   fun h => h linked 0 (by decide +kernel),
   (fun h => by refine h linked 0 0 ?_ ?_ <;> decide +kernel),
   (fun h => by refine h up ?_ ?_ <;> decide +kernel),
   fun h => by
      refine h (traced (fun t => { t with srcEn := 1, frozen := false, stopped := false, wrap := false })) ?_ ?_ ?_ ?_ ?_ ?_
        <;> decide +kernel,
   (fun h => by refine h (traced (fun t => { t with srcEn := 1, frozen := true })) ?_ ?_ ?_ ?_ <;> decide +kernel)⟩

/-- States and operands that meet the hypotheses of each clause of `StepRunsTheFrontCommand`. -/
theorem witness_StepRunsTheFrontCommand :
    (¬ (∀ s : State, ∀ c : Instr, ∀ rest : List Instr, (s.pending = c :: rest) → False)) ∧
    (¬ (∀ s : State, (s.pending = []) → False)) :=
  ⟨fun h => h ({ up with pending := [.getEndpointId] }) (.getEndpointId) ([]) (by decide +kernel),
   fun h => h up (by decide +kernel)⟩

/-- States and operands that meet the hypotheses of each clause of `ResetHoldsTheStatedValues`. -/
theorem witness_ResetHoldsTheStatedValues :
    (¬ (∀ n, (n < 8) → False)) ∧
    (¬ (∀ n, (n < 25) → False)) ∧
    (¬ (∀ n, (n < 21) → False)) ∧
    (¬ (∀ n, (n < 384) → False)) ∧
    (¬ (∀ n, (n < 16) → False)) ∧
    (¬ (∀ k, (k < 32768) → False)) :=
  ⟨fun h => h 7 (by decide +kernel),
   fun h => h 24 (by decide +kernel),
   fun h => h 20 (by decide +kernel),
   fun h => h 383 (by decide +kernel),
   fun h => h 15 (by decide +kernel),
   fun h => h 32767 (by decide +kernel)⟩

/-- States and operands that meet the hypotheses of `EveryStepKeepsMemoryCanonical`. -/
theorem witness_EveryStepKeepsMemoryCanonical :
    ¬ (∀ s : State, ∀ t : State, (MemSafe s) → (step s = .next t) → False) :=
  fun h => h ({ up with pending := [.getEndpointId] }) (up.send (.mgmt 0 [0, BitVec.ofNat 64 up.mgt.eid.toNat]))
      (by unfold MemSafe; decide +kernel) rfl

/-- States and operands that meet the hypotheses of each clause of `EveryStepKeepsTheRingAndTheTraceInBounds`. -/
theorem witness_EveryStepKeepsTheRingAndTheTraceInBounds :
    (¬ (∀ s : State, ∀ t : State, (RingSafe s) → (step s = .next t) → False)) ∧
    (¬ (∀ s : State, ∀ t : State, (TraceSafe s) → (step s = .next t) → False)) :=
  ⟨fun h => h ({ up with pending := [.getEndpointId] }) (up.send (.mgmt 0 [0, BitVec.ofNat 64 up.mgt.eid.toNat]))
      (by unfold RingSafe; decide +kernel) rfl,
   fun h => h ({ up with pending := [.getEndpointId] }) (up.send (.mgmt 0 [0, BitVec.ofNat 64 up.mgt.eid.toNat]))
      (by unfold TraceSafe; decide +kernel) rfl⟩

/-- States and operands that meet the hypotheses of `CommandsLeaveTheQueueTheIdentityAndTheOutput`. -/
theorem witness_CommandsLeaveTheQueueTheIdentityAndTheOutput :
    ¬ (∀ c : Instr, ∀ s : State, ∀ t : State, (exec c s = .next t) → False) :=
  fun h => h (.getEndpointId) up (up.send (.mgmt 0 [0, BitVec.ofNat 64 up.mgt.eid.toNat])) rfl

/-- States and operands that meet the hypotheses of each clause of `SegmentMapEntriesSpellTheirHomes`. -/
theorem witness_SegmentMapEntriesSpellTheirHomes :
    (¬ (∀ a : Nat, (a < 2 ^ 32) → False)) ∧
    (¬ (∀ f : Nat, ∀ sec : Nat, (f < 2 ^ 40) → (sec < 64) → False)) ∧
    (¬ (∀ w : Nat, ∀ sec : Nat, (w < 4096) → (sec < 2 ^ 40) → False)) :=
  ⟨fun h => h (2 ^ 32 - 1) (by decide +kernel),
   (fun h => by refine h (2 ^ 40 - 1) 63 ?_ ?_ <;> decide +kernel),
   (fun h => by refine h 4095 (2 ^ 40 - 1) ?_ ?_ <;> decide +kernel)⟩

end Sys2Proof.Tests
end

section
/-! ## What every command leaves behind

One relation between the states before and after a command, `State.Later`, carries what no command takes back: the waiting commands, the identity,
everything sent, and the bounds of the Event Ring, of the trace and of the stored bytes, and for most operations the fences, the time and the service.
It is shown once for each operation of the model, in the order of the model's files, and then for every command. -/

namespace Sys2Proof.Machine

/-- A state with the parts of another put back that hold what no command takes back: the commands that wait, what the sled is, what it has
sent, the Event Ring, the trace and the stored bytes. -/
def State.restored (s t : State) : State :=
  { t with id := s.id, mem := s.mem, evt := s.evt, trc := s.trc, out := s.out, pending := s.pending }

/-- The time, what the sled is doing, the pack statistics and the state of the input. -/
def State.service (s : State) : Nat × SledS × List (Nat × List Byte × Option Packed) × Bool × Bool :=
  (s.clk.ms, s.sled, s.map.forms, s.pwr.sag, s.pwr.switchOpen)

/-- The units whose recovery goes on. -/
def State.recovering (s : State) : List FUnit := s.evt.recov.map Recov.unit

/-- Two states between which service goes on: the sled is where it was, unless it has gone from READY to SERVE or back, and no fence, recovery, pack
statistic or change of the input has come in between. -/
structure State.InService (s t : State) : Prop where
  sled : t.sled = { s.sled with st := t.sled.st }
  up : t.sled.st = s.sled.st ∨ s.up = true ∧ t.up = true
  fences : t.evt.fmap = s.evt.fmap
  recovering : t.recovering = s.recovering
  forms : t.map.forms = s.map.forms
  sag : t.pwr.sag = s.pwr.sag
  switchOpen : t.pwr.switchOpen = s.pwr.switchOpen

/-- A state that an operation may leave behind another: it has the same waiting commands and identity, everything sent before is still sent, and
the Event Ring, the trace and the stored bytes are still in their bounds and form. One that is `lasting` keeps every fence with its cause, takes back
no event and no time; one that is `calm` leaves the sled in service. -/
structure State.Later (s : State) (lasting calm : Bool) (t : State) : Prop where
  pending : t.pending = s.pending
  id : t.id = s.id
  sent : ∃ l, t.out = l ++ s.out
  ring : RingSafe s → RingSafe t
  trace : TraceSafe s → TraceSafe t
  mem : MemSafe s → MemSafe t
  fences : lasting = true → ∀ n c, s.evt.fmap.find n = some c → t.evt.fmap.find n = some c
  posted : lasting = true → s.evt.prod ≤ t.evt.prod
  time : lasting = true → t.clk.ms = s.clk.ms
  inService : calm = true → s.InService t

/-- Every state that an outcome of a command goes on to is a later one. -/
def State.Leads (s : State) (o : R) : Prop := ∀ t, o = .next t → s.Later false false t

namespace State

namespace InService

variable {s t u : State}

theorem refl (s : State) : s.InService s := ⟨rfl, .inl rfl, rfl, rfl, rfl, rfl, rfl⟩

theorem trans (a : s.InService t) (b : t.InService u) : s.InService u := by
  refine ⟨?_, ?_, b.fences.trans a.fences, b.recovering.trans a.recovering, b.forms.trans a.forms, b.sag.trans a.sag, b.switchOpen.trans a.switchOpen⟩
  · have h := b.sled
    rw [a.sled] at h
    exact h
  · rcases a.up with h | ⟨h, k⟩ <;> rcases b.up with h' | ⟨h', k'⟩
    · exact .inl (h'.trans h)
    · exact .inr ⟨by rwa [State.up, ← h], k'⟩
    · exact .inr ⟨h, by rwa [State.up, h']⟩
    · exact .inr ⟨h, k'⟩

end InService

namespace Later

variable {lasting calm : Bool} {s t u : State}

theorem refl (s : State) : s.Later lasting calm s :=
  ⟨rfl, rfl, ⟨[], rfl⟩, fun h => h, fun h => h, fun h => h, fun _ _ _ h => h, fun _ => le_refl _, fun _ => rfl, fun _ => .refl s⟩

theorem trans (a : s.Later lasting calm t) (b : t.Later lasting calm u) : s.Later lasting calm u := by
  obtain ⟨l, hl⟩ := a.sent
  obtain ⟨k, hk⟩ := b.sent
  exact ⟨b.pending.trans a.pending, b.id.trans a.id, ⟨k ++ l, by rw [hk, hl, List.append_assoc]⟩, b.ring ∘ a.ring, b.trace ∘ a.trace,
    b.mem ∘ a.mem, fun h n c e => b.fences h n c (a.fences h n c e), fun h => (a.posted h).trans (b.posted h),
    fun h => (b.time h).trans (a.time h), fun h => (a.inService h).trans (b.inService h)⟩

/-- An update of parts of the state that no field of `Later` names. -/
theorem same (h : s.restored t = t) (k : t.service = s.service) : s.Later lasting calm t := by
  obtain ⟨time, sled, forms, sag, switch⟩ : t.clk.ms = s.clk.ms ∧ t.sled = s.sled ∧ t.map.forms = s.map.forms ∧ t.pwr.sag = s.pwr.sag ∧
    t.pwr.switchOpen = s.pwr.switchOpen := by simpa only [State.service, Prod.mk.injEq] using k
  rw [← h] at time sled forms sag switch ⊢
  exact ⟨rfl, rfl, ⟨[], rfl⟩, fun h => h, fun h => h, fun h => h, fun _ _ _ h => h, fun _ => le_refl _, fun _ => time,
    fun _ => ⟨by rw [sled], .inl (by rw [sled]), rfl, rfl, forms, sag, switch⟩⟩

/-- An update that may end service. -/
theorem sameInTime (h : s.restored t = t) (k : t.clk.ms = s.clk.ms) : s.Later lasting false t := by
  rw [← h] at k ⊢
  exact ⟨rfl, rfl, ⟨[], rfl⟩, fun h => h, fun h => h, fun h => h, fun _ _ _ h => h, fun _ => le_refl _, fun _ => k, nofun⟩

theorem sledUnit {x : SledS} : s.Later lasting false { s with sled := x } := .sameInTime rfl rfl

/-- An update that may set the time. -/
theorem sameRecords (h : s.restored t = t) : s.Later false false t := by
  rw [← h]
  exact ⟨rfl, rfl, ⟨[], rfl⟩, fun h => h, fun h => h, fun h => h, nofun, nofun, nofun, nofun⟩

/-- An update of the stored bytes that keeps their form. -/
theorem bytes {m : MemS} (h : Memory.wf s.mem.bytes = true → Memory.wf m.bytes = true) : s.Later lasting calm { s with mem := m } :=
  ⟨rfl, rfl, ⟨[], rfl⟩, fun h => h, fun h => h, h, fun _ _ _ h => h, fun _ => le_refl _, fun _ => rfl,
    fun _ => ⟨rfl, .inl rfl, rfl, rfl, rfl, rfl, rfl⟩⟩

/-- An update of the event unit that leaves the ring, its producer index and the fences, and sets what the recoveries have found. -/
theorem event {e : EvtS} (hr : e.ring = s.evt.ring) (hp : e.prod = s.evt.prod) (hf : e.fmap = s.evt.fmap)
    (hu : e.recov.map Recov.unit = s.evt.recov.map Recov.unit) : s.Later lasting calm { s with evt := e } :=
  ⟨rfl, rfl, ⟨[], rfl⟩, fun h => by simpa only [RingSafe, hr, hp] using h, fun h => h, fun h => h, fun _ _ _ h => by rw [hf]; exact h,
    fun _ => hp.ge, fun _ => rfl, fun _ => ⟨rfl, .inl rfl, hf, hu, rfl, rfl, rfl⟩⟩

theorem queueUnit {x : QS} : s.Later lasting calm { s with q := x } := .same rfl rfl

theorem pondUnit {x : PondS} : s.Later lasting calm { s with pond := x } := .same rfl rfl

theorem lakeUnit {x : LakeS} : s.Later lasting calm { s with lake := x } := .same rfl rfl

/-- An update of the power unit that leaves the state of the input. -/
theorem power {p : PwrS} (hs : p.sag = s.pwr.sag) (ho : p.switchOpen = s.pwr.switchOpen) : s.Later lasting calm { s with pwr := p } :=
  ⟨rfl, rfl, ⟨[], rfl⟩, fun h => h, fun h => h, fun h => h, fun _ _ _ h => h, fun _ => le_refl _, fun _ => rfl,
    fun _ => ⟨rfl, .inl rfl, rfl, rfl, rfl, hs, ho⟩⟩

/-- A change between READY and SERVE. -/
theorem served {st : SledSt} (h : s.up = true) (k : st = .ready ∨ st = .serve) : s.Later lasting calm { s with sled := { s.sled with st := st } } :=
  ⟨rfl, rfl, ⟨[], rfl⟩, fun h => h, fun h => h, fun h => h, fun _ _ _ h => h, fun _ => le_refl _, fun _ => rfl,
    fun _ => ⟨rfl, .inr ⟨h, by simpa [State.up] using k⟩, rfl, rfl, rfl, rfl, rfl⟩⟩

/-- An update of the event unit that starts or ends recoveries. -/
theorem recov {e : EvtS} (hr : e.ring = s.evt.ring) (hp : e.prod = s.evt.prod) (hf : e.fmap = s.evt.fmap) :
    s.Later lasting false { s with evt := e } :=
  ⟨rfl, rfl, ⟨[], rfl⟩, fun h => by simpa only [RingSafe, hr, hp] using h, fun h => h, fun h => h, fun _ _ _ h => by rw [hf]; exact h,
    fun _ => hp.ge, fun _ => rfl, nofun⟩

/-- An update of the trace unit that keeps its pointer and count within the buffer. -/
theorem traceUnit {x : TrcS} (h : s.trc.wrptr < 32768 ∧ s.trc.held ≤ 32768 → x.wrptr < 32768 ∧ x.held ≤ 32768) :
    s.Later lasting calm { s with trc := x } :=
  ⟨rfl, rfl, ⟨[], rfl⟩, fun h => h, h, fun h => h, fun _ _ _ h => h, fun _ => le_refl _, fun _ => rfl,
    fun _ => ⟨rfl, .inl rfl, rfl, rfl, rfl, rfl, rfl⟩⟩

theorem ite {c : Prop} [Decidable c] (a : s.Later lasting calm t) (b : s.Later lasting calm u) : s.Later lasting calm (if c then t else u) := by
  split
  exacts [a, b]

theorem ite_fst {α : Type} {c : Prop} [Decidable c] {p q : State × α} (a : s.Later lasting calm p.1) (b : s.Later lasting calm q.1) :
    s.Later lasting calm (if c then p else q).1 := by
  split
  exacts [a, b]

theorem of_eq {α : Type} {p : State × α} {a : α} (h : s.Later lasting calm p.1) (e : p = (t, a)) : s.Later lasting calm t := by
  rw [e] at h
  exact h

theorem foldl {α : Type} {f : State → α → State} {l : List α} (hf : ∀ (t : State) a, t.Later lasting calm (f t a)) :
    s.Later lasting calm (l.foldl f s) := by
  induction l generalizing s with
  | nil => exact .refl s
  | cons a l ih => exact (hf s a).trans ih

theorem foldl_fst {α β : Type} {f : State × β → α → State × β} {l : List α} {p : State × β}
    (hf : ∀ (q : State × β) a, q.1.Later lasting calm (f q a).1) : p.1.Later lasting calm (l.foldl f p).1 := by
  induction l generalizing p with
  | nil => exact .refl _
  | cons a l ih => exact (hf p a).trans ih

end Later

theorem OnlyTold.later {lasting calm : Bool} {s t : State} (h : s.OnlyTold t) : s.Later lasting calm t :=
  ⟨h.pending_eq, h.id_eq, h.sent, h.ring, h.trace, fun m => by rwa [MemSafe, h.mem_eq], fun _ n c e => by rwa [h.fmap], fun _ => h.posted,
    fun _ => by rw [h.clk_eq], fun _ => ⟨by rw [h.sled_eq], .inl (by rw [h.sled_eq]), h.fmap, by rw [State.recovering, h.recov]; rfl, by rw [h.map_eq],
      by rw [h.pwr_eq], by rw [h.pwr_eq]⟩⟩

namespace Leads

variable {s t : State} {o p : R}

theorem next (h : s.Later false false t) : s.Leads (.next t) := fun _ e => by cases e; exact h
theorem fault {f : Fault} : s.Leads (.fault f) := fun _ e => nomatch e
theorem ite {c : Prop} [Decidable c] (a : s.Leads o) (b : s.Leads p) : s.Leads (if c then o else p) := by
  split
  exacts [a, b]

end Leads

variable {lasting calm : Bool}

/-! ### The operations of `Machine/Ops.lean` -/

theorem send_later {s : State} {o : Output} : s.Later lasting calm (s.send o) := (s.send_told o).later

theorem setFn_later {s : State} {h : HostId} {f : Fn} : s.Later lasting calm (s.setFn h f) := .same rfl rfl

theorem setHalf_later {s : State} {n : Nat} {h : Half} : s.Later lasting calm (s.setHalf n h) := .same rfl rfl

theorem signal_later {s : State} {h : HostId} {vec : Nat} : s.Later lasting calm (s.signal h vec) := .ite (.ite (.refl _) setFn_later) send_later

theorem notice_later {s : State} {h : HostId} : s.Later lasting calm (s.notice h) := signal_later

theorem setEnt_later {s : State} {r : RegionId} {e : REnt} : s.Later lasting calm (s.setEnt r e) := .same rfl rfl

theorem change_later {s : State} {r : RegionId} {f : REnt → REnt} : s.Later lasting calm (s.change r f) := .ite (.same rfl rfl) setEnt_later

theorem setReader_later {s : State} {h : HostId} {r : Reader} : s.Later lasting calm (s.setReader h r) := .event rfl rfl rfl rfl

theorem post_later {s : State} {p : Post} : s.Later lasting calm (s.post p) := (s.post_told p).later

theorem trace_later {s : State} {src rtype data : Nat} : s.Later lasting calm (s.trace src rtype data) := (s.trace_told src rtype data).later

theorem traceReset_later {s : State} {domain : Nat} : s.Later lasting calm (s.traceReset domain) := trace_later

theorem postAll_later {s : State} {l : List Post} : s.Later lasting calm (s.postAll l) := .foldl (fun _ _ => post_later)

theorem setSled_later {s : State} {st : SledSt} : s.Later lasting false (s.setSled st) :=
  .ite (.refl _) (.trans (.sameInTime (by rfl) (by rfl)) (post_later.trans (trace_later.trans (.foldl (fun _ _ => notice_later)))))

theorem serveUpdate_later {s : State} : s.Later lasting calm s.serveUpdate := by
  unfold State.serveUpdate
  split
  · exact .trans (.served (by simp [State.up, *]) (.inr rfl)) (s.setSled_told .serve).later
  · exact .trans (.served (by simp [State.up, *]) (.inl rfl)) (s.setSled_told .ready).later
  · exact .refl _

theorem setQueue_later {s : State} {h : HostId} {q : QueueNo} {x : Queue} : s.Later lasting calm (s.setQueue h q x) := .same rfl rfl

theorem setProg_later {s : State} {p : Nat} {x : Prog} : s.Later lasting calm (s.setProg p x) := .same rfl rfl

theorem writeCpl_later {s : State} {h : HostId} {qn : QueueNo} {c : Cpl} : s.Later lasting calm (s.writeCpl h qn c) :=
  send_later.trans (setQueue_later.trans (.ite signal_later (.refl _)))

theorem deliver_later {s : State} {h : HostId} {qn : QueueNo} {c : Cpl} :
    s.Later lasting calm (s.deliver h qn c) := .ite setQueue_later writeCpl_later

theorem setLedger_later {s : State} {i : Nat} {e : Entry} : s.Later lasting calm (s.setLedger i e) := .same rfl rfl

theorem sleepRec_later {s : State} {src state reason : Nat} :
    s.Later lasting calm (s.sleepRec src state reason) := trace_later.trans (.traceUnit (fun h => h))

theorem wakeRec_later {s : State} {src state cause : Nat} :
    s.Later lasting calm (s.wakeRec src state cause) := trace_later.trans (.traceUnit (fun h => h))

theorem setPst_later {s : State} {i : Nat} {st : PState} {reason cause : Nat} : s.Later lasting calm (s.setPst i st reason cause) :=
  .ite (.refl _) (.trans (.foldl (fun _ _ => .trans (.ite wakeRec_later (.refl _)) (.ite (.refl _) sleepRec_later))) setLedger_later)

/-! ### The operations of `Machine/Seg.lean` -/

theorem putSme_later {s : State} {r : RegionId} {seg : Nat} {e : Sme} : s.Later lasting calm (s.putSme r seg e) := .same rfl rfl

theorem journal_later {s : State} {j : JRec} : s.Later lasting calm (s.journal j) := .ite (.same rfl rfl) (.refl _)

theorem commitSme_later {s : State} {r : RegionId} {seg : Nat} {e : Sme} : s.Later lasting calm (s.commitSme r seg e) :=
  putSme_later.trans (.ite journal_later (.refl _))

theorem journalEnt_later {s : State} {r : RegionId} : s.Later lasting calm (s.journalEnt r) := .ite journal_later (.refl _)

theorem sendTarn_later {s : State} {w sec : Nat} {l : List Byte} {n : Nat} : s.Later lasting calm (s.sendTarn w sec l n) := by
  induction n with
  | zero => exact .refl s
  | succ n ih => exact ih.trans (send_later.trans (.bytes (fun h => h)))

theorem setPch_later {s : State} {n : Nat} {p : Pch} : s.Later lasting calm (s.setPch n p) := .same rfl rfl

theorem setBankQ_later {s : State} {n : Nat} {q : BankQ} : s.Later lasting calm (s.setBankQ n q) := .same rfl rfl

theorem bankUse_later {s : State} {a len : Nat} {port : PPort} {cls : Nat} : s.Later lasting calm (s.bankUse a len port cls) := setBankQ_later

theorem wakeSid_later {s : State} {l : Loc} {len : Nat} {port : PPort} {cls : Nat} : s.Later lasting calm (s.wakeSid l len port cls) := by
  unfold State.wakeSid
  split
  · extract_lets n p
    exact .trans (.ite (.refl _) setPch_later) bankUse_later
  · exact .refl _

theorem writeRun_later {s : State} {l : Loc} {b : List Byte} : s.Later lasting calm (s.writeRun l b) := by
  unfold State.writeRun
  extract_lets _ s1
  have h_s1 : s.Later lasting calm s1 := .bytes (writeBytes_wf _ _ _)
  split
  exacts [h_s1.trans sendTarn_later, h_s1.trans wakeSid_later]

theorem setSb_later {s : State} {n : Nat} {b : Sb} : s.Later lasting calm (s.setSb n b) := .same rfl rfl

theorem nextStripe_later {s : State} {st : Strm} {p : State × Nat} (h : s.nextStripe st = some p) : s.Later lasting calm p.1 := by
  unfold State.nextStripe at h
  extract_lets cur put fresh at h
  have put_later (t : State) (sb idx : Nat) : t.Later lasting calm (put t sb idx).1 := by
    cases st <;> exact .same rfl rfl
  have fresh_later (t : State) (h : fresh t = some p) : t.Later lasting calm p.1 := by
    obtain ⟨n, -, rfl⟩ := Option.map_eq_some_iff.mp h
    exact setSb_later.trans (put_later _ _ _)
  clear_value cur
  split at h
  · split at h
    · obtain rfl := Option.some.inj h
      exact put_later _ _ _
    · exact setSb_later.trans (fresh_later _ h)
  · exact fresh_later _ h

theorem stripeFull_later {s : State} {st : Strm} : s.Later lasting calm (s.stripeFull st) := .same rfl rfl

theorem lakePlace_later {s : State} {st : Strm} {chip len move : Nat} {p : State × Loc} (h : s.lakePlace st chip len move = some p) :
    s.Later lasting calm p.1 := by
  unfold State.lakePlace at h
  extract_lets into at h
  have into_later (t : State) (no : Nat) (h : into t no = some p) : t.Later lasting calm p.1 := by
    simp only [into] at h
    split at h
    · cases h
    · obtain ⟨n, -, rfl⟩ := Option.map_eq_some_iff.mp h
      exact .same rfl rfl
  split at h
  · cases h
    obtain ⟨q, -, hq⟩ := List.exists_of_findSome?_eq_some ‹_›
    split at hq
    · exact into_later _ _ hq
    · cases hq
  · split at h
    · cases h
    · obtain ⟨q, hq, h⟩ := Option.bind_eq_some_iff.mp h
      exact stripeFull_later.trans ((nextStripe_later hq).trans (into_later _ _ h))

theorem capCheck_later {s : State} : s.Later lasting calm s.capCheck := by
  unfold State.capCheck
  extract_lets u c post _ s1
  have h_s1 : s.Later lasting calm s1 := .ite (.ite (.same rfl rfl) (.refl _)) (.ite (.trans (.same (by rfl) (by rfl)) post_later) (.refl _))
  exact h_s1.trans (.ite (.ite (.same rfl rfl) (.refl _)) (.ite (.trans (.same (by rfl) (by rfl)) post_later) (.refl _)))

theorem looked_later {s : State} {r : RegionId} {seg : Nat} : s.Later lasting calm (s.looked r seg) := by
  unfold State.looked
  split
  · exact .refl _
  · extract_lets l full
    exact .same rfl rfl

theorem touch_later {s0 : State} {r : RegionId} {seg : Nat} : s0.Later lasting calm (s0.touch r seg) :=
  looked_later.trans (.trans (.foldl (fun _ _ => wakeSid_later)) (.ite (.refl _) putSme_later))

theorem touchStore_later {s0 : State} {r : RegionId} {seg : Nat} : s0.Later lasting calm (s0.touchStore r seg) := by
  unfold State.touchStore
  extract_lets s e
  have h_s : s0.Later lasting calm s := looked_later
  cases e.home with
  | none => exact h_s.trans putSme_later
  | some l => exact h_s.trans (wakeSid_later.trans putSme_later)

theorem release_later {s : State} {l : Loc} {len : Nat} {image : Bool} :
    s.Later lasting calm (s.release l len image) := .ite (.refl _) (.same rfl rfl)

theorem releaseHome_later {s : State} {e : Sme} : s.Later lasting calm (s.releaseHome e) := by
  unfold State.releaseHome
  split
  exacts [.refl _, release_later, .refl _]

theorem dropImage_later {s : State} {r : RegionId} {seg : Nat} : s.Later lasting calm (s.dropImage r seg) := by
  unfold State.dropImage
  extract_lets e
  split
  exacts [.refl _, commitSme_later.trans release_later]

theorem startMove_later {s : State} {m : Move} :
    s.Later lasting calm (s.startMove m).1 := .trans (.same (by rfl) (by rfl)) (.ite (.refl _) commitSme_later)

theorem sealBack_later {s : State} {m : Move} : s.Later lasting calm (s.sealBack m) := by
  unfold State.sealBack
  split
  exacts [.ite (.same rfl rfl) (.refl _), .refl _]

theorem abortMove_later {s0 : State} {n : Nat} : s0.Later lasting calm (s0.abortMove n) := by
  unfold State.abortMove
  split
  · exact .refl _
  · extract_lets s e _ _ s1
    have h_s : s0.Later lasting calm s := sealBack_later
    have h_s1 : s0.Later lasting calm s1 := h_s.trans (.same rfl rfl)
    exact h_s1.trans (.ite commitSme_later (.refl _))

theorem cancelMove_later {s : State} {r : RegionId} {seg : Nat} : s.Later lasting calm (s.cancelMove r seg) := by
  unfold State.cancelMove
  split
  exacts [abortMove_later, .refl _]

theorem count_later {s : State} {r : RegionId} {f : RCnt → RCnt} : s.Later lasting calm (s.count r f) := .same rfl rfl

theorem endTrial_later {s : State} {r : RegionId} {seg : Nat} : s.Later lasting calm (s.endTrial r seg) := .same rfl rfl

theorem poisonSeg_later {s : State} {r : RegionId} {seg cause : Nat} : s.Later lasting calm (s.poisonSeg r seg cause) := by
  unfold State.poisonSeg
  extract_lets s1 e s2 s3
  have h_s1 : s.Later lasting calm s1 := cancelMove_later
  have h_s2 : s.Later lasting calm s2 := h_s1.trans commitSme_later
  have h_s3 : s.Later lasting calm s3 := by
    unfold s3
    split
    exacts [h_s2.trans release_later, h_s2]
  exact h_s3.trans (endTrial_later.trans count_later)

theorem servedMalformed_later {s : State} {r : RegionId} {seg : Nat} : s.Later lasting calm (s.servedMalformed r seg) := by
  unfold State.servedMalformed
  extract_lets e s1 runs
  have h_s1 : s.Later lasting calm s1 := cancelMove_later.trans commitSme_later
  clear_value s1
  exact h_s1.trans (.trans (.same (by rfl) (by rfl)) (count_later.trans post_later))

theorem countRecov_later {s : State} {l : Loc} {r : RegionId} {seg : Nat} : s.Later lasting calm (s.countRecov l r seg) := by
  refine .event rfl rfl rfl ?_
  rw [List.map_map]
  refine List.map_congr_left (fun v _ => ?_)
  simp only [Function.comp]
  split <;> rfl

theorem checkSme_later {s : State} {r : RegionId} {seg : Nat} : s.Later lasting calm (s.checkSme r seg) := by
  unfold State.checkSme
  extract_lets e
  refine .ite servedMalformed_later ?_
  split
  exacts [.ite dropImage_later (.refl _), .ite (poisonSeg_later.trans countRecov_later) (.refl _), .refl _]

theorem corrected_later {s : State} {l : Loc} {symbols : Nat} : s.Later lasting calm (s.corrected l symbols) := by
  unfold State.corrected
  split
  · extract_lets n p sec
    exact setPch_later
  · extract_lets c
    exact .same rfl rfl
  · exact .refl _

theorem uncorrectable_later {s : State} {l : Loc} : s.Later lasting calm (s.uncorrectable l) := by
  unfold State.uncorrectable
  split
  · extract_lets n p
    exact setPch_later
  · extract_lets c
    exact .same rfl rfl
  · exact .refl _

theorem homeFault_later {s : State} {r : RegionId} {seg : Nat} {l : Loc} {tag form : Bool} : s.Later lasting calm (s.homeFault r seg l tag form) := by
  unfold State.homeFault
  extract_lets e s1 s2 s3
  have h_s1 : s.Later lasting calm s1 := .ite (.refl _) uncorrectable_later
  have h_s2 : s.Later lasting calm s2 := h_s1.trans poisonSeg_later
  have h_s3 : s.Later lasting calm s3 := h_s2.trans (.ite (count_later.trans post_later) (.refl _))
  exact h_s3.trans (.ite (count_later.trans post_later) post_later)

theorem imageFault_later {s : State} {r : RegionId} {seg : Nat} {l : Loc} {tag form : Bool} :
    s.Later lasting calm (s.imageFault r seg l tag form) := by
  unfold State.imageFault
  extract_lets e s1 s2 s3
  have h_s1 : s.Later lasting calm s1 := .ite (.refl _) uncorrectable_later
  have h_s2 : s.Later lasting calm s2 := h_s1.trans (.ite (count_later.trans post_later) (.refl _))
  have h_s3 : s.Later lasting calm s3 := h_s2.trans (.ite (count_later.trans post_later) (.refl _))
  exact h_s3.trans dropImage_later

theorem commitOpen_later {s : State} {r : RegionId} {seg : Nat} {a : Nat} {bytes : List Byte} : s.Later lasting calm (s.commitOpen r seg a bytes) :=
  writeRun_later.trans (commitSme_later.trans releaseHome_later)

theorem relocate_later {s : State} {r : RegionId} {seg : Nat} {dest : Loc} : s.Later lasting calm (s.relocate r seg dest) := by
  unfold State.relocate
  extract_lets s0 e keepsImage e2 e3
  have h_s0 : s.Later lasting calm s0 := cancelMove_later
  split
  · exact h_s0
  · extract_lets s1
    have h_s1 : s.Later lasting calm s1 := h_s0.trans writeRun_later
    exact h_s1.trans (commitSme_later.trans releaseHome_later)

theorem releaseSeg_later {s : State} {r : RegionId} {seg : Nat} : s.Later lasting calm (s.releaseSeg r seg) := by
  unfold State.releaseSeg
  extract_lets s1 e s2
  have h_s1 : s.Later lasting calm s1 := cancelMove_later
  have h_s2 : s.Later lasting calm s2 := by
    unfold s2
    split
    exacts [h_s1.trans release_later, h_s1]
  exact h_s2.trans releaseHome_later

/-! ### The operations of `Machine/Engine.lean` -/

theorem submit_later {s : State} {r : RegionId} {seg n : Nat} : s.Later lasting calm (s.submit r seg n) := .same rfl rfl

theorem abandonTrials_later {s : State} {n : Nat} : s.Later lasting calm (s.abandonTrials n) := .same rfl rfl

theorem noteForm_later {s : State} {r : RegionId} {codec : Nat} {x : Option Packed} {seg : List Byte} :
    s.Later lasting false (s.noteForm r codec x seg) :=
  .ite (.refl _) (.sameInTime rfl rfl)

/-! ### The operations of `Machine/Dir.lean` -/

theorem takeSlot_later {s : State} {r : RegionId} {h : HostId} : s.Later lasting calm (s.takeSlot r h) := by
  unfold State.takeSlot
  refine .ite (.refl _) ?_
  split
  exacts [.same rfl rfl, setEnt_later]

theorem dirDel_later {s : State} {r : RegionId} {line : BitVec 40} : s.Later lasting calm (s.dirDel r line) := .same rfl rfl

theorem dirPut_later {s : State} {e : DEnt} : s.Later lasting calm (s.dirPut e) := .same rfl rfl

theorem snoop_later {s : State} {e : DEnt} {kind : SnpKind} {hosts : List HostId} : s.Later lasting calm (s.snoop e kind hosts) :=
  dirPut_later.trans (.foldl (fun _ _ => send_later.trans (.same rfl rfl)))

theorem endLoss_later {s : State} {r : RegionId} {line : BitVec 40} : s.Later lasting calm (s.endLoss r line) := .same rfl rfl

theorem fatalTo_later {s : State} {h : HostId} : s.Later lasting calm (s.fatalTo h) := send_later

theorem loseDir_later {s : State} {r : RegionId} : s.Later lasting calm (s.loseDir r) :=
  .ite (.refl _) (.trans (.foldl (fun _ _ => fatalTo_later)) (.trans (.same (by rfl) (by rfl))
    (.trans (.foldl (fun _ _ => notice_later)) (change_later.trans post_later))))

theorem loseLine_later {s : State} {r : RegionId} {line : BitVec 40} {h : HostId} : s.Later lasting calm (s.loseLine r line h) :=
  dirDel_later.trans (post_later.trans (count_later.trans (.ite (.refl _) (.ite loseDir_later (.same rfl rfl)))))

theorem freeSlots_later {s : State} {r : RegionId} : s.Later lasting calm (s.freeSlots r) := .same rfl rfl

theorem recount_later {s : State} {r : RegionId} : s.Later lasting calm (s.recount r) := change_later.trans (freeSlots_later.trans journalEnt_later)

theorem dropGrant_later {s : State} {g : Nat} : s.Later lasting calm (s.dropGrant g) := by
  unfold State.dropGrant
  split
  exacts [.refl _, .trans (.same (by rfl) (by rfl)) recount_later]

theorem dirForget_later {s : State} {h : HostId} {r : RegionId} : s.Later lasting calm (s.dirForget h r) := .same rfl rfl

theorem settleBusy_later {s : State} : s.Later lasting calm s.settleBusy := .same rfl rfl

theorem endHostGrants_later {s : State} {h : HostId} : s.Later lasting calm (s.endHostGrants h) := by
  unfold State.endHostGrants
  extract_lets gs rs s1 s2
  have h_s1 : s.Later lasting calm s1 := .foldl (fun _ _ => .foldl (fun _ _ => loseLine_later))
  have h_s2 : s.Later lasting calm s2 := h_s1.trans (.foldl (fun _ _ => dropGrant_later))
  exact h_s2.trans (.trans (.foldl (fun _ _ => dirForget_later.trans freeSlots_later)) settleBusy_later)

/-! ### The operations of `Machine/QOps.lean` -/

theorem kickGroup_later {s : State} {tile : Nat} : s.Later lasting calm (s.kickGroup tile) := .same rfl rfl

theorem leave_later {s : State} {p : Nat} : s.Later lasting calm (s.leave p) := .same rfl rfl

theorem endProg_later {s : State} {p : Nat} {status : Byte} {detail : W16} {info : W64} : s.Later lasting calm (s.endProg p status detail info) := by
  unfold State.endProg
  split
  · exact .refl _
  · extract_lets s1 s2 s3
    have h_s1 : s.Later lasting calm s1 := leave_later
    have h_s2 : s.Later lasting calm s2 := h_s1.trans (.ite kickGroup_later (.refl _))
    have h_s3 : s.Later lasting calm s3 := h_s2.trans setQueue_later
    exact .ite h_s2 (h_s3.trans deliver_later)

theorem failProg_later {s : State} {p : Nat} {e : Err1} : s.Later lasting calm (s.failProg p e) := endProg_later

theorem goOn_later {s : State} {p : Nat} {f : Prog → Prog} : s.Later lasting calm (s.goOn p f) := by
  unfold State.goOn
  split
  · exact .refl _
  · extract_lets y z
    split
    exacts [setProg_later.trans endProg_later, setProg_later]

theorem ctlOk_later {s : State} {p d : Nat} {v : W64} : s.Later lasting calm (s.ctlOk p d v) := goOn_later

theorem ctlWait_later {s : State} {p : Nat} : s.Later lasting calm (s.ctlWait p) := .same rfl rfl

theorem cancelProg_later {s : State} {p : Nat} {status : Byte} {detail : W16} : s.Later lasting calm (s.cancelProg p status detail) := by
  unfold State.cancelProg
  split
  exacts [.refl _, .ite setProg_later endProg_later]

theorem mutedCancel_later {s : State} {p : Nat} : s.Later lasting calm (s.mutedCancel p) := by
  unfold State.mutedCancel
  split
  exacts [.refl _, setProg_later.trans cancelProg_later]

theorem queueError_later {s : State} {h : HostId} {q : QueueNo} {err : BitVec 4} :
    s.Later lasting calm (s.queueError h q err) := setQueue_later.trans post_later

theorem flushCpl_later {s : State} {h : HostId} {q : QueueNo} {n : Nat} : s.Later lasting calm (s.flushCpl h q n) := by
  induction n generalizing s with
  | zero => exact .refl s
  | succ n ih =>
    unfold State.flushCpl
    extract_lets x
    split
    · exact setQueue_later
    · exact .ite (.refl _) (setQueue_later.trans (writeCpl_later.trans ih))

/-! ### The operations of `Machine/Access.lean` -/

theorem startMiss_later {s : State} {r : RegionId} {seg : Nat} {p : Option Nat} : s.Later lasting calm (s.startMiss r seg p) := by
  unfold State.startMiss
  extract_lets k _ s1
  have h_s1 : s.Later lasting calm s1 := .same rfl rfl
  split
  exacts [h_s1.trans (.ite (.refl _) (.same rfl rfl)), h_s1]

theorem noteChk_later {s : State} {l : Loc} {c : Chk} : s.Later lasting calm (s.noteChk l c) := by
  unfold State.noteChk
  split
  exacts [corrected_later, .refl _]

theorem mend_later {s : State} {r : RegionId} {seg : Nat} {l : Loc} {c : Chk} {pick : W32} : s.Later lasting calm (s.mend r seg l c pick) := by
  unfold State.mend
  extract_lets many e
  clear_value many
  split
  · refine .ite dropImage_later (.ite ?_ (.refl _))
    split
    exacts [startMove_later, .refl _]
  · exact .refl _

theorem readLine_later {s0 : State} {r : RegionId} {seg j : Nat} {c : Chk} : s0.Later lasting calm (s0.readLine r seg j c).1 := by
  unfold State.readLine
  extract_lets s e
  have h_s : s0.Later lasting calm s := checkSme_later
  refine .ite_fst h_s (.ite_fst (h_s.trans touch_later) ?_)
  split
  · refine .ite_fst (h_s.trans imageFault_later) ?_
    split
    exacts [h_s.trans (noteChk_later.trans (touch_later.trans mend_later)), h_s.trans imageFault_later]
  · extract_lets h
    refine .ite_fst h_s (.ite_fst (h_s.trans (homeFault_later.trans touch_later)) ?_)
    split
    exacts [h_s.trans (noteChk_later.trans (touch_later.trans mend_later)), h_s.trans (homeFault_later.trans touch_later)]
  · exact h_s
  · exact h_s.trans touch_later

theorem overAdmit_later {s : State} : s.Later lasting calm s.overAdmit := .same rfl rfl

theorem placePond_later {s : State} {r : RegionId} {seg : Nat} {cls : Nat} {why : MoveFor} {pick : W32} :
    s.Later lasting calm (s.placePond r seg cls why pick) := by
  unfold State.placePond
  extract_lets e lend far
  refine .ite (.refl _) ?_
  split
  exacts [.refl _, startMove_later]

theorem promote_later {s : State} {r : RegionId} {seg : Nat} {cls : Nat} {why : MoveFor} {pick : W32} :
    s.Later lasting calm (s.promote r seg cls why pick) :=
  .ite (.refl _) placePond_later

theorem lakeDest_later {s : State} {r : RegionId} {seg len : Nat} {p : State × Loc} (h : s.lakeDest r seg len = some p) :
    s.Later lasting calm p.1 := by
  unfold State.lakeDest at h
  split at h
  · exact lakePlace_later h
  · cases h

theorem demote_later {s : State} {r : RegionId} {seg cls : Nat} {why : MoveFor} : s.Later lasting calm (s.demote r seg cls why) := by
  unfold State.demote
  extract_lets e x toTarn gut
  refine .ite (.refl _) ?_
  split
  · exact startMove_later
  · refine .ite (.refl _) ?_
    split
    exacts [(lakeDest_later (by assumption)).trans startMove_later, .refl _]

theorem freeStack_later {s : State} {k cls : Nat} {enough : State → Bool} : s.Later lasting calm (s.freeStack k cls enough) :=
  .trans (.foldl (fun _ _ => .ite (.refl _) dropImage_later)) (.foldl (fun _ _ => .ite (.refl _) demote_later))

theorem springOut_later {s t : State} {c key cls : Nat} (h : s.springOut c key cls = some t) : s.Later lasting calm t := by
  obtain ⟨a, -, rfl⟩ := Option.map_eq_some_iff.mp h
  exact startMove_later

theorem springOut_getD_later {s : State} {c key cls : Nat} : s.Later lasting calm ((s.springOut c key cls).getD s) := by
  cases h : s.springOut c key cls with
  | none => exact .refl _
  | some t => exact springOut_later h

theorem roomSpring_later {s : State} {c len fuel : Nat} : s.Later lasting calm (s.roomSpring c len fuel).1 := by
  induction fuel generalizing s with
  | zero => exact .refl s
  | succ fuel ih =>
    unfold State.roomSpring
    refine .ite_fst (.refl _) ?_
    split
    · exact .refl _
    · refine .ite_fst (.refl _) ?_
      extract_lets inCore
      split
      · exact dropImage_later.trans ih
      · split
        · obtain ⟨p, -, h⟩ := Option.bind_eq_some_iff.mp ‹_›
          exact (springOut_later h).trans ih
        · exact .refl _

theorem capacityFatal_later {s : State} {r : RegionId} {seg : Nat} : s.Later lasting calm (s.capacityFatal r seg) := poisonSeg_later.trans post_later

theorem storeFresh_later {s : State} {r : RegionId} {seg : Nat} {b : List Byte} {pick : W32} {last : Bool} :
    s.Later lasting calm (s.storeFresh r seg b pick last).1 := by
  unfold State.storeFresh
  extract_lets u k s1
  have h_s1 : s.Later lasting calm s1 := freeStack_later
  split
  exacts [commitOpen_later, .ite_fst capacityFatal_later (h_s1.trans (.ite_fst (.refl _) capacityFatal_later))]

theorem storeSeg_later {s0 : State} {r : RegionId} {seg off : Nat} {p : List (Option Byte)} {c : Chk} {pick : W32} {past last : Bool} :
    s0.Later lasting calm (s0.storeSeg r seg off p c pick past last).1 := by
  unfold State.storeSeg
  extract_lets s s1 s2 e adm b
  have h_s : s0.Later lasting calm s := checkSme_later
  have h_s2 : s0.Later lasting calm s2 := h_s.trans (cancelMove_later.trans endTrial_later)
  refine .ite_fst (h_s.trans startMiss_later) (.ite_fst (h_s.trans touch_later) (.ite_fst h_s ?_))
  clear_value adm
  split
  · extract_lets h s3 old _ s4
    have h_s4 : s0.Later lasting calm s4 := h_s2.trans (noteChk_later.trans (.bytes (writeBytes_wf _ _ _)))
    refine .ite_fst (h_s2.trans (homeFault_later.trans touch_later)) (.ite_fst (h_s4.trans (touchStore_later.trans mend_later)) ?_)
    split
    · exact h_s2.trans (homeFault_later (tag := false) (form := true))
    · split
      exacts [h_s2.trans capacityFatal_later, h_s2, h_s2.trans (noteChk_later.trans (overAdmit_later.trans storeFresh_later)),
        h_s2.trans (noteChk_later.trans storeFresh_later)]
  · split
    exacts [h_s2.trans capacityFatal_later, h_s2, h_s2.trans (.ite_fst capacityFatal_later startMiss_later)]
  · split
    exacts [h_s2.trans capacityFatal_later, h_s2, h_s2.trans (overAdmit_later.trans storeFresh_later), h_s2.trans storeFresh_later]

theorem poisonWrite_later {s : State} {r : RegionId} {line : Nat} {h : HostId} : s.Later lasting calm (s.poisonWrite r line h) :=
  count_later.trans (.ite (.refl _) (.trans (.same (by rfl) (by rfl)) post_later))

theorem poisonRead_later {s : State} {r : RegionId} : s.Later lasting calm (s.poisonRead r) := count_later

/-! ### The operations of `Machine/HostReq.lean` -/

theorem answerPoison_later {s : State} {x : HReq} : s.Later lasting calm (s.answerPoison x) := by
  unfold State.answerPoison
  split
  exacts [send_later, send_later, .refl _, send_later]

theorem unmapped_later {s : State} {x : HReq} : s.Later lasting calm (s.unmapped x) :=
  answerPoison_later.trans (.ite (.refl _) (.trans (.same (by rfl) (by rfl)) post_later))

theorem roWrite_later {s : State} {x : HReq} {g : Nat} {r : RegionId} {line : Nat} : s.Later lasting calm (s.roWrite x g r line) :=
  answerPoison_later.trans (.ite (.refl _) (.trans (.same (by rfl) (by rfl)) post_later))

theorem askWake_later {s : State} {t : Nat} : s.Later lasting calm (s.askWake t) := setLedger_later

theorem bankWait_later {s : State} {a no : Nat} {rt : Bool} : s.Later lasting calm (s.bankWait a no rt) := .ite (.refl _) setBankQ_later

theorem wakeFor_later {s : State} {r : RegionId} {l : List (Nat × Nat)} : s.Later lasting calm (s.wakeFor r l) :=
  .ite (.refl _) (.foldl (fun t seg => by
    cases t.asleep r seg with
    | none => exact .refl _
    | some k => exact askWake_later))

theorem dirStep_later {s : State} {r : RegionId} {line : BitVec 40} {h : HostId} {want : DirWant} :
    s.Later lasting calm (s.dirStep r line h want).1 := by
  unfold State.dirStep
  split
  · split
    · exact .refl _
    · exact .refl _
    · split
      exacts [.ite_fst (.refl _) (snoop_later.trans (.same rfl rfl)), dirPut_later]
    · split
      exacts [.ite_fst (.refl _) (snoop_later.trans (.same rfl rfl)), dirPut_later]
  · refine .ite_fst (.refl _) ?_
    extract_lets e mine others
    split
    · exact dirPut_later
    · exact .ite_fst (.refl _) snoop_later
    · exact .ite_fst (.refl _) (.ite_fst dirPut_later snoop_later)
    · exact .ite_fst (.refl _) snoop_later
    · exact .refl _
    · exact .ite_fst (.refl _) (.ite_fst dirDel_later snoop_later)

theorem dirFor_later {s : State} {x : HReq} {r : RegionId} {line : Nat} :
    s.Later lasting calm (s.dirFor x r line).1 := .ite_fst (.refl _) dirStep_later

theorem serveRead_later {s : State} {x : HReq} {r : RegionId} {line : Nat} {c : Chk} : s.Later lasting calm (s.serveRead x r line c).1 := by
  unfold State.serveRead
  refine .ite_fst (poisonRead_later.trans answerPoison_later) ?_
  split
  · exact (dirFor_later.of_eq (by assumption))
  · refine .ite_fst ((dirFor_later.of_eq (by assumption)).trans send_later) ?_
    split
    · exact (dirFor_later.of_eq (by assumption)).trans askWake_later
    · split
      · exact (dirFor_later.of_eq (by assumption)).trans bankWait_later
      · split
        · exact (((dirFor_later.of_eq (by assumption)).trans readLine_later).of_eq (by assumption)).trans send_later
        · exact (((dirFor_later.of_eq (by assumption)).trans readLine_later).of_eq (by assumption)).trans (poisonRead_later.trans answerPoison_later)
        · exact (((dirFor_later.of_eq (by assumption)).trans readLine_later).of_eq (by assumption)).trans startMiss_later

theorem storeInto_later {s : State} {x : HReq} {r : RegionId} {line : Nat} {c : Chk} {pick : W32} {past last : Bool} :
    s.Later lasting calm (s.storeInto x r line c pick past last).1 := by
  unfold State.storeInto
  extract_lets seg before
  split
  · exact askWake_later
  · split
    · exact bankWait_later
    · split
      · exact (storeSeg_later.of_eq (by assumption))
      · exact (storeSeg_later.of_eq (by assumption))
      · exact (storeSeg_later.of_eq (by assumption)).trans (.ite poisonWrite_later (.refl _))

theorem serveWrite_later {s : State} {x : HReq} {g : Nat} {gr : Grant} {line : Nat} {c : Chk} {pick : W32} {past last : Bool} :
    s.Later lasting calm (s.serveWrite x g gr line c pick past last).1 := by
  unfold State.serveWrite
  extract_lets r l
  refine .ite_fst roWrite_later (.ite_fst answerPoison_later ?_)
  split
  · exact (dirFor_later.of_eq (by assumption))
  · split
    · exact (((dirFor_later.of_eq (by assumption)).trans storeInto_later).of_eq (by assumption))
    · extract_lets s3 s4
      have h_s3 : s.Later lasting calm s3 := (((dirFor_later.of_eq (by assumption)).trans storeInto_later).of_eq (by assumption)).trans
        (.ite endLoss_later (.refl _))
      have h_s4 : s.Later lasting calm s4 := h_s3.trans (.ite (.ite dirPut_later dirDel_later) (.refl _))
      exact h_s4.trans answerPoison_later

theorem serveReq_later {s : State} {x : HReq} {c : Chk} {pick : W32} {past last : Bool} : s.Later lasting calm (s.serveReq x c pick past last).1 := by
  unfold State.serveReq
  refine .ite_fst storeInto_later ?_
  split
  exacts [unmapped_later, .ite_fst (.refl _) (.ite_fst answerPoison_later (.ite_fst serveRead_later serveWrite_later))]

theorem accept_later {s : State} {x : HReq} {c : Chk} {pick : W32} : s.Later lasting calm (s.accept x c pick) := by
  unfold State.accept
  extract_lets y
  split
  exacts [(serveReq_later.of_eq (by assumption)), (serveReq_later.of_eq (by assumption)).trans (.same rfl rfl)]

theorem runHeld_later {s : State} {no : Nat} {c : Chk} {pick : W32} {past last : Bool} : s.Later lasting calm (s.runHeld no c pick past last) := by
  unfold State.runHeld
  split
  · exact .refl _
  · extract_lets x
    split
    exacts [(serveReq_later.of_eq (by assumption)).trans (.same rfl rfl), (serveReq_later.of_eq (by assumption)).trans (.same rfl rfl)]

theorem rerun_later {s : State} {test : HReq → Bool} {c : Chk} {pick : W32} : s.Later lasting calm (s.rerun test c pick) :=
  .foldl_fst (p := (s, c, pick)) (fun _ _ => runHeld_later)

theorem bankDrain_later {s : State} {n : Nat} : s.Later lasting calm (s.bankDrain n) :=
  .trans (.ite (.refl _) setBankQ_later) (.trans (.foldl (fun _ _ => runHeld_later)) rerun_later)

theorem wakeProg_later {s : State} {p k : Nat} : s.Later lasting calm (s.wakeProg p k) := .same rfl rfl

theorem endMiss_later {s : State} {k : Nat} :
    s.Later lasting calm (s.endMiss k) := .trans (.same (by rfl) (by rfl)) (.foldl (fun _ _ => wakeProg_later))

theorem answered_later {s : State} {n : Snoop} : s.Later lasting calm (s.answered n) := by
  unfold State.answered
  extract_lets rest _ s1 more
  have h_s1 : s.Later lasting calm s1 := .same rfl rfl
  split
  · exact h_s1
  · split
    · exact h_s1.trans (.ite (.refl _) dirPut_later)
    · exact h_s1.trans (.ite (.refl _) dirPut_later)
    · refine .ite ?_ (h_s1.trans (.ite (.refl _) dirDel_later))
      split
      exacts [h_s1.trans dirPut_later, h_s1.trans dirDel_later]

theorem lineFree_later {s : State} {r : RegionId} {line : BitVec 40} {c : Chk} {pick : W32} : s.Later lasting calm (s.lineFree r line c pick) :=
  .ite (.refl _) (endMiss_later.trans rerun_later)

theorem writeBack_later {s : State} {n : Snoop} {data : Line} {c : Chk} {pick : W32} : s.Later lasting calm (s.writeBack n data c pick) := by
  unfold State.writeBack
  extract_lets x
  split
  exacts [(serveReq_later.of_eq (by assumption)), (serveReq_later.of_eq (by assumption)).trans (.same rfl rfl)]

theorem lookAhead_later {s : State} {r : RegionId} {line : Nat} :
    s.Later lasting calm (s.lookAhead r line) := .foldl (fun _ _ => .ite looked_later (.refl _))

theorem streamStep_later {s : State} {half : Nat} {h : HostId} {r : RegionId} {line : Nat} : s.Later lasting calm (s.streamStep half h r line) := by
  unfold State.streamStep
  extract_lets mine rest _ run n others onHalf kept
  split
  exacts [.ite (.trans (.same (by rfl) (by rfl)) lookAhead_later) (.same rfl rfl), .ite (.same rfl rfl)
    (.trans (.same (by rfl) (by rfl)) lookAhead_later)]

theorem presentPanic_later {s : State} {half : Nat} {l : List Nat} : s.Later lasting calm (s.presentPanic half l) :=
  .trans (.same (by rfl) (by rfl)) (.foldl (fun _ _ => setPch_later))

theorem repanic_later {s : State} {half : Nat} : s.Later lasting calm (s.repanic half) := .ite presentPanic_later (.refl _)

theorem streamRead_later {s : State} {half : Nat} {h : HostId} {r : RegionId} {line : Nat} : s.Later lasting calm (s.streamRead half h r line) :=
  streamStep_later.trans repanic_later

/-! ### The operations of `Machine/Lamp.lean` -/

theorem setSched_later {s : State} {k : Nat} {x : Sched} : s.Later lasting calm (s.setSched k x) := .same rfl rfl

theorem updSched_later {s : State} {k : Nat} {f : Sched → Sched} : s.Later lasting calm (s.updSched k f) := .same rfl rfl

theorem lampStore_later {s : State} {k : Nat} {r : RegionId} {off : Nat} {b : List Byte} : s.Later lasting calm (s.lampStore k r off b).1 := by
  unfold State.lampStore
  extract_lets line seg at0 x dead d
  have h_d : s.Later lasting calm d.1 := .ite_fst dirStep_later (.refl _)
  refine .ite_fst (.refl _) ?_
  clear_value d
  split
  · exact h_d.trans (.same rfl rfl)
  · split
    · exact h_d.trans ((storeInto_later.of_eq (by assumption)).trans (.ite dirDel_later (.refl _)))
    · exact h_d.trans ((storeInto_later.of_eq (by assumption)).trans (.same rfl rfl))

theorem writeBlock_later {s : State} {k : Nat} : s.Later lasting calm (s.writeBlock k) := by
  unfold State.writeBlock
  split
  exacts [.refl _, lampStore_later]

theorem idleWords_later {s : State} {k : Nat} : s.Later lasting calm (s.idleWords k) := by
  unfold State.idleWords
  split
  exacts [.refl _, .foldl (fun _ _ => lampStore_later)]

theorem disarm_later {s : State} {k : Nat} : s.Later lasting calm (s.disarm k) := by
  unfold State.disarm
  split
  exacts [.refl _, .ite (.refl _) (updSched_later.trans (idleWords_later.trans writeBlock_later))]

theorem disarmFor_later {s : State} {k cause : Nat} : s.Later lasting calm (s.disarmFor k cause) := by
  unfold State.disarmFor
  split
  exacts [.refl _, .ite (.refl _) (disarm_later.trans post_later)]

theorem writeLamp_later {s : State} {k : Nat} {x : Sched} {step : Nat} {st : Lamp} {late : Bool} {d : Nat} :
    s.Later lasting calm (s.writeLamp k x step st late d) := by
  unfold State.writeLamp
  split
  · exact .refl _
  · extract_lets r
    have h_r : s.Later lasting calm r.1 := lampStore_later
    exact h_r.trans (.ite disarmFor_later (.refl _))

theorem dropSched_later {s : State} {k cause : Nat} : s.Later lasting calm (s.dropSched k cause) := disarmFor_later.trans (.same rfl rfl)

theorem countFb_later {s : State} {k : Nat} {l : Lamp} : s.Later lasting calm (s.countFb k l) := by
  unfold State.countFb
  extract_lets s1
  have h_s1 : s.Later lasting calm s1 := updSched_later
  split
  exacts [h_s1.trans (.same rfl rfl), h_s1]

theorem updInst_later {s : State} {k step d : Nat} {f : Inst → Inst} : s.Later lasting calm (s.updInst k step d f) := updSched_later

theorem settleFb_later {s : State} {k step d : Nat} {l : Lamp} : s.Later lasting calm (s.settleFb k step d l) := by
  unfold State.settleFb
  split
  · exact .refl _
  · extract_lets s1 s2
    have h_s1 : s.Later lasting calm s1 := updInst_later.trans countFb_later
    have h_s2 : s.Later lasting calm s2 := h_s1.trans (.ite (.refl _) writeLamp_later)
    exact h_s2.trans writeBlock_later

theorem settleReady_later {s : State} {k step d : Nat} : s.Later lasting calm (s.settleReady k step d) := by
  unfold State.settleReady
  split
  · exact .refl _
  · extract_lets s1 s2
    have h_s1 : s.Later lasting calm s1 := updInst_later.trans updSched_later
    have h_s2 : s.Later lasting calm s2 := h_s1.trans (.ite (.refl _) writeLamp_later)
    exact h_s2.trans writeBlock_later

theorem voidSteps_later {s : State} {k : Nat} {bad : LStep → Bool} : s.Later lasting calm (s.voidSteps k bad) := by
  unfold State.voidSteps
  split
  · exact .refl _
  · extract_lets idx s1
    have h_s1 : s.Later lasting calm s1 := updSched_later
    exact h_s1.trans (.foldl (fun _ _ => updInst_later.trans (.ite (.refl _) (updSched_later.trans settleFb_later))))

theorem lampRegionGone_later {s : State} {r : RegionId} : s.Later lasting calm (s.lampRegionGone r) :=
  .foldl (fun _ _ => .trans (.ite disarmFor_later (.refl _)) voidSteps_later)

theorem prefetchGone_later {s : State} {h : HostId} : s.Later lasting calm (s.prefetchGone h) := .foldl (fun _ _ => .ite abortMove_later (.refl _))

theorem lampGrantsGone_later {s : State} {h : HostId} : s.Later lasting calm (s.lampGrantsGone h) :=
  .trans (.foldl (fun _ _ => .ite voidSteps_later disarmFor_later)) prefetchGone_later

theorem placeSpring_later {s : State} {r : RegionId} {seg core cls : Nat} {why : MoveFor} {pick : W32} :
    s.Later lasting calm (s.placeSpring r seg core cls why pick) := by
  unfold State.placeSpring
  extract_lets e lend c near
  refine .ite (.refl _) (.ite placePond_later ?_)
  refine .ite (.refl _) (.ite (.refl _) ?_)
  refine .ite placePond_later ?_
  split
  · exact (roomSpring_later.of_eq (by assumption)).trans startMove_later
  · exact (roomSpring_later.of_eq (by assumption))
  · exact (roomSpring_later.of_eq (by assumption)).trans placePond_later

theorem placeInst_later {s : State} {k : Nat} {x : Sched} {i : Inst} {t : LStep} {pick : W32} : s.Later lasting calm (s.placeInst k x i t pick) :=
  .foldl (fun _ _ => .ite (.refl _) (.ite placeSpring_later placePond_later))

theorem lampPlace_later {s : State} {pick : W32} : s.Later lasting calm (s.lampPlace pick) :=
  .ite (.refl _) (.foldl (fun _ _ => .ite (.foldl (fun _ _ => by
    split
    exacts [.ite placeInst_later (.refl _), .refl _])) (.refl _)))

theorem schedMiss_later {s : State} {k : Nat} : s.Later lasting calm (s.schedMiss k) := by
  unfold State.schedMiss
  split
  · exact .refl _
  · extract_lets recent
    exact .ite (.refl _) (updSched_later.trans post_later)

theorem deadline_later {s : State} {k step d : Nat} : s.Later lasting calm (s.deadline k step d) := by
  unfold State.deadline
  split
  · exact .refl _
  · split
    · exact .ite (.refl _) (.ite settleReady_later (updSched_later.trans (updInst_later.trans (settleFb_later.trans schedMiss_later))))
    · exact .refl _

theorem dropRange_later {s : State} {t : LStep} : s.Later lasting calm (s.dropRange t) := .foldl (fun _ _ => .ite (.refl _) dropImage_later)

theorem undefer_later {s : State} {chip : Nat} : s.Later lasting calm (s.undefer chip) := by
  unfold State.undefer
  split
  exacts [updInst_later, .refl _]

theorem retire_later {s : State} {k step d : Nat} : s.Later lasting calm (s.retire k step d) := by
  unfold State.retire
  split
  · exact .refl _
  · split
    exacts [.ite (.refl _) (updSched_later.trans (.trans (.ite dropRange_later (.refl _)) (.ite (.refl _) undefer_later))), .refl _]

theorem startInst_later {s : State} {k step d : Nat} {pick : W32} : s.Later lasting calm (s.startInst k step d pick) := by
  unfold State.startInst
  split
  · exact .refl _
  · refine .ite ?_ ?_
    · extract_lets s1
      have h_s1 : s.Later lasting calm s1 := updSched_later.trans countFb_later
      exact h_s1.trans (writeLamp_later.trans writeBlock_later)
    · extract_lets full i s1
      have h_s1 : s.Later lasting calm s1 := updSched_later
      split
      exacts [h_s1, h_s1.trans (.ite writeBlock_later (placeInst_later.trans (.ite settleReady_later (.refl _))))]

theorem lampPosition_later {s : State} {k pos : Nat} {pick : W32} : s.Later lasting calm (s.lampPosition k pos pick) := by
  unfold State.lampPosition
  split
  · exact .refl _
  · extract_lets ids hit s0 s1 s2
    have h_s1 : s.Later lasting calm s1 := updSched_later.trans (.foldl (fun _ _ => startInst_later))
    have h_s2 : s.Later lasting calm s2 := h_s1.trans (.foldl (fun _ _ => by
      split
      exacts [.trans updInst_later (.ite deadline_later (.refl _)), updInst_later]))
    exact h_s2.trans (.ite (.refl _) (.foldl (fun _ _ => retire_later)))

theorem lampBeat_later {s : State} {k n : Nat} {pick : W32} : s.Later lasting calm (s.lampBeat k n pick) := by
  unfold State.lampBeat
  split
  · exact .refl _
  · exact .ite (.refl _) (.ite updSched_later (.ite (updSched_later.trans writeBlock_later)
      (.ite (.refl _) (.trans (.foldl (fun _ _ => lampPosition_later)) (writeBlock_later.trans (.same rfl rfl))))))

theorem lampStop_later {s : State} : s.Later lasting calm s.lampStop := .same rfl rfl

theorem lampResume_later {s : State} {pick : W32} : s.Later lasting calm (s.lampResume pick) :=
  .trans (.same (by rfl) (by rfl)) (.foldl (fun _ _ => by
    split
    exacts [updSched_later.trans lampBeat_later, .refl _]))

/-! ### The operations of `Machine/Reset.lean` -/

theorem freeLines_later {s : State} {c : Chk} {pick : W32} :
    s.Later lasting calm (s.freeLines c pick) := .trans (.foldl (fun _ _ => endMiss_later)) rerun_later

theorem loseWindow_later {s : State} {w : Nat} : s.Later lasting calm (s.loseWindow w) := by
  unfold State.loseWindow
  split
  · exact .refl _
  · extract_lets inW into s1 homes s2 _ _ s3
    have h_s1 : s.Later lasting calm s1 := .foldl (fun _ _ => abortMove_later)
    have h_s2 : s.Later lasting calm s2 := h_s1.trans (.foldl (fun _ _ => poisonSeg_later))
    have h_s3 : s.Later lasting calm s3 := h_s2.trans (.same rfl rfl)
    exact h_s3.trans post_later

theorem loseWindows_later {s : State} {h : HostId} {c : Chk} {pick : W32} : s.Later lasting calm (s.loseWindows h c pick) :=
  .trans (.foldl (fun _ _ => loseWindow_later)) (.trans (.same (by rfl) (by rfl))
    (.trans (.foldl (fun _ _ => endMiss_later)) (.foldl (fun _ _ => rerun_later))))

theorem withdraw_later {s : State} {o : Nat} {status : Byte} {detail : W16} : s.Later lasting calm (s.withdraw o status detail) := by
  unfold State.withdraw
  split
  exacts [.refl _, .trans (.same (by rfl) (by rfl)) failProg_later]

theorem endRevoke_later {s : State} {g : Nat} : s.Later lasting calm (s.endRevoke g) := by
  unfold State.endRevoke
  split
  exacts [.refl _, .trans (.same (by rfl) (by rfl)) (.foldl (fun _ _ => ctlOk_later))]

theorem fixOffers_later {s : State} : s.Later lasting calm s.fixOffers :=
  .trans (.foldl (fun _ _ => by
    split
    · split
      exacts [withdraw_later, .refl _]
    · exact .same rfl rfl)) (.foldl (fun _ _ => endRevoke_later))

theorem endGrants_later {s : State} {h : HostId} {c : Chk} {pick : W32} : s.Later lasting calm (s.endGrants h c pick) := by
  unfold State.endGrants
  extract_lets gs offers s1 s2 s3 s4
  have h_s1 : s.Later lasting calm s1 := endHostGrants_later
  have h_s2 : s.Later lasting calm s2 := h_s1.trans (.foldl (fun _ _ => withdraw_later))
  have h_s3 : s.Later lasting calm s3 := h_s2.trans (.foldl (fun _ _ => endRevoke_later))
  have h_s4 : s.Later lasting calm s4 := h_s3.trans loseWindows_later
  exact h_s4.trans (freeLines_later.trans (lampGrantsGone_later.trans (fixOffers_later.trans serveUpdate_later)))

theorem resetHost_later {s : State} {h : HostId} {row : Nat} : s.Later lasting calm (s.resetHost h row) := by
  unfold State.resetHost
  extract_lets s1 _ _ s2 s3 s4 s5
  have h_s2 : s.Later lasting calm s2 := post_later.trans (traceReset_later.trans (.same rfl rfl))
  have h_s4 : s.Later lasting calm s4 := h_s2.trans (.trans (.foldl (fun _ _ => mutedCancel_later)) (.foldl (fun _ _ => dropSched_later)))
  have h_s5 : s.Later lasting calm s5 := h_s4.trans endGrants_later
  clear_value s5
  exact h_s5.trans (.same rfl rfl)

theorem returnHost_later {s : State} {h : HostId} :
    s.Later lasting calm (s.returnHost h) := .trans (.event (e := (s.returnHost h).evt) rfl rfl rfl rfl) (.same rfl rfl)

theorem setBind_later {s : State} {h : HostId} {b : Bind} : s.Later lasting calm (s.setBind h b) := .same rfl rfl

theorem hostEvent_later {s : State} {h : HostId} {row : Nat} {link cold : Bool} : s.Later lasting calm (s.hostEvent h row link cold) := by
  unfold State.hostEvent
  refine .ite (.same rfl rfl) ?_
  extract_lets s1
  have h_s1 : s.Later lasting calm s1 := resetHost_later
  clear_value s1
  exact h_s1.trans (.ite (.same rfl rfl) returnHost_later)

theorem rebind_later {s : State} {h : HostId} {b : Bind} : s.Later lasting calm (s.rebind h b) :=
  .ite (.same rfl rfl) (resetHost_later.trans (returnHost_later.trans setBind_later))

theorem hostBack_later {s : State} {h : HostId} {link cold : Bool} : s.Later lasting calm (s.hostBack h link cold) := by
  unfold State.hostBack
  split
  · exact .refl _
  · extract_lets y _ s1
    have h_s1 : s.Later lasting calm s1 := returnHost_later
    refine .ite (.same rfl rfl) ?_
    split
    exacts [h_s1.trans rebind_later, h_s1]

theorem halfEvent_later {s : State} {half row : Nat} : s.Later lasting calm (s.halfEvent half row) := .foldl (fun _ _ => hostEvent_later)

theorem dropLink_later {s : State} {half row : Nat} : s.Later lasting calm (s.dropLink half row) := .trans (.same (by rfl) (by rfl)) halfEvent_later

/-! ### The operations of `Machine/Power.lean` -/

theorem rebudget_later {s : State} :
    s.Later lasting calm s.rebudget := .trans (.same (by rfl) (by rfl)) (.trans (.ite post_later (.refl _)) (.ite post_later (.refl _)))

theorem wbRun_later {s : State} : s.Later lasting calm s.wbRun := .foldl (fun _ _ => .ite demote_later (.refl _))

theorem writeback_later {s : State} : s.Later lasting calm s.writeback := .trans (.power (by rfl) (by rfl)) (.ite (.refl _) wbRun_later)

theorem wbCommitted_later {s : State} {sectors : Nat} : s.Later lasting calm (s.wbCommitted sectors) := .power rfl rfl

theorem reclaimStack_later {s : State} {k : Nat} : s.Later lasting calm (s.reclaimStack k) := .ite freeStack_later (.refl _)

theorem reclaim_later {s : State} : s.Later lasting calm s.reclaim :=
  .foldl (fun _ _ => .ite (.ite (.same rfl rfl) reclaimStack_later) (.ite (post_later.trans (.trans (.same (by rfl) (by rfl)) reclaimStack_later))
    (.refl _)))

theorem writeGrant_later {s : State} {i : Nat} {ceil : Nat} {perm : BitVec 2} : s.Later lasting calm (s.writeGrant i ceil perm) :=
  trace_later.trans setLedger_later

theorem answerEntry_later {s : State} {i share : Nat} :
    s.Later lasting calm (s.answerEntry i share) := .ite (.refl _) (writeGrant_later.trans setLedger_later)

theorem answerKind_later {s : State} {l : List Nat} : s.Later lasting calm (s.answerKind l) := .foldl (fun _ _ => answerEntry_later)

theorem answerAll_later {s : State} : s.Later lasting calm s.answerAll := .foldl (fun _ _ => answerKind_later)

theorem lowerTenth_later {s : State} : s.Later lasting calm s.lowerTenth := .foldl (fun _ _ => .ite writeGrant_later (.refl _))

theorem makeRoom_later {s : State} {extra : Nat} : s.Later lasting calm (s.makeRoom extra) :=
  .ite (.refl _) (.trans (.same (by rfl) (by rfl)) (.ite (.refl _) (.foldl (fun _ _ => .ite (.refl _) writeGrant_later))))

theorem underCap_later {s : State} : s.Later lasting calm s.underCap := makeRoom_later

theorem raiseRt_later {s : State} {k : Nat} : s.Later lasting calm (s.raiseRt k) := .ite (setLedger_later.trans writeGrant_later) makeRoom_later

theorem rtFlags_later {s : State} : s.Later lasting calm s.rtFlags :=
  .ite (.refl _) (.foldl (fun _ _ => .ite (.refl _) (.ite raiseRt_later (setLedger_later.trans writeGrant_later))))

theorem settleAcks_later {s : State} : s.Later lasting calm s.settleAcks := .ite (.refl _) (.same rfl rfl)

theorem pgLit_later {s : State} {half : Nat} : s.Later lasting calm (s.pgLit half) :=
  .trans (.ite writeGrant_later (.ite (.refl _) (askWake_later.trans (.ite answerAll_later (.refl _))))) (.ite setPst_later (.refl _))

theorem selfRefresh_later {s : State} {k : Nat} {on : Bool} :
    s.Later lasting calm (s.selfRefresh k on) := .foldl (fun _ _ => .ite (.refl _) setPch_later)

/-! ### The operations of `Machine/Fence.lean` -/

theorem advise_later {s : State} {reason : Nat} :
    s.Later lasting calm (s.advise reason) := .ite (.refl _) (.trans (.event (by rfl) (by rfl) (by rfl) (by rfl)) post_later)

theorem postAdvising_later {s : State} {p : Post} {reasons : List Nat} : s.Later lasting calm (s.postAdvising p reasons) :=
  .trans (.event (by rfl) (by rfl) (by rfl) (by rfl)) postAll_later

theorem setBit_later {s : State} {u : FUnit} {cause : Byte} : s.Later lasting false (s.setBit u cause) := by
  unfold State.setBit
  split
  · exact .refl s
  · rename_i free
    refine ⟨rfl, rfl, ⟨[], rfl⟩, fun h => h, fun h => h, fun h => h, fun _ n c e => ?_, fun _ => le_refl _, fun _ => rfl, nofun⟩
    have other : n ≠ u.bit := by
      rintro rfl
      simp [State.fenced, Tbl.has, e] at free
    rwa [Tbl.find_put_ne _ _ other]

theorem setBits_later {s : State} {u : FUnit} {cause : Byte} :
    s.Later lasting false (s.setBits u cause) := setBit_later.trans (.foldl (fun _ _ => setBit_later))

theorem endOn_later {s : State} {core : Nat} {status : Byte} {detail : W16} : s.Later lasting calm (s.endOn core status detail) :=
  .foldl (fun _ _ => endProg_later)

theorem openRecov_later {s : State} {u : FUnit} {cause : Byte} : s.Later lasting false (s.openRecov u cause) := .recov rfl rfl rfl

theorem replaceRuns_later {s : State} {gone : Nat → Bool} : s.Later lasting calm (s.replaceRuns gone) :=
  .foldl (fun t p => by
    extract_lets n m strm _ t1
    have h_t1 : t.Later lasting calm t1 := .same rfl rfl
    split
    · exact h_t1.trans ((lakePlace_later (by assumption)).trans (.trans (.ite writeRun_later (.refl _)) (.same (by rfl) (by rfl))))
    · exact h_t1.trans abortMove_later)

theorem fenceWork_later {s : State} {u : FUnit} {cause : Byte} : s.Later lasting false (s.fenceWork u cause) := by
  unfold State.fenceWork
  extract_lets lanternOn s2
  have h_s2 : s.Later lasting false s2 := .ite openRecov_later (.refl _)
  clear_value s2
  split
  · extract_lets z
    have h_z : s.Later lasting false z := h_s2.trans (.ite (.same rfl rfl) (.refl _))
    exact h_z.trans endOn_later
  · extract_lets z
    have h_z : s.Later lasting false z := h_s2.trans endOn_later
    clear_value z
    exact h_z.trans (.same rfl rfl)
  · extract_lets z
    have h_z : s.Later lasting false z := h_s2.trans dropLink_later
    exact h_z.trans setHalf_later
  · exact h_s2.trans (replaceRuns_later.trans rebudget_later)
  · exact h_s2.trans (.same rfl rfl)
  · exact h_s2.trans (.same rfl rfl)
  · exact h_s2.trans abandonTrials_later

theorem fenceAll_later {s : State} {l : List FUnit} {cause : Byte} {setter : Nat} : s.Later lasting false (s.fenceAll l cause setter) := by
  unfold State.fenceAll
  split
  · exact .refl _
  · extract_lets n s0 s1 along
    have h_s0 : s.Later lasting false s0 := setBits_later.trans (.foldl (fun _ _ => setBit_later))
    have h_s1 : s.Later lasting false s1 := h_s0.trans postAdvising_later
    exact h_s1.trans (fenceWork_later.trans (.foldl (fun _ _ => fenceWork_later)))

theorem dropImagesOn_later {s : State} {u : FUnit} : s.Later lasting calm (s.dropImagesOn u) :=
  .foldl (fun _ _ => dropImage_later.trans (.ite placePond_later (.refl _)))

theorem rebuildPage_later {s : State} {page : Nat} : s.Later lasting calm (s.rebuildPage page).1 :=
  .foldl_fst (p := (s, 0, 0)) (fun a i => by
    extract_lets seg old keep good
    clear_value good
    split
    exacts [cancelMove_later.trans putSme_later, poisonSeg_later])

theorem rebuildPages_later {s : State} {pages : List Nat} : s.Later lasting calm (s.rebuildPages pages) :=
  .foldl (fun t _ => by
    extract_lets z
    have h_z : t.Later lasting calm z.1 := .foldl_fst (p := (t, 0, 0)) (fun a p => by
      dsimp only
      exact rebuildPage_later)
    exact h_z.trans post_later)

theorem recoverPond_later {s : State} {v : Recov} {pages : List Nat} : s.Later lasting calm (s.recoverPond v pages) := by
  unfold State.recoverPond
  extract_lets u onUnit lostDirs s1 _ s2 homes imgs s3 counts s4 s5 s6
  have h_s1 : s.Later lasting calm s1 := .foldl (fun _ _ => .ite loseDir_later (.refl _))
  have h_s2 : s.Later lasting calm s2 := h_s1.trans (.same rfl rfl)
  have h_s3 : s.Later lasting calm s3 := h_s2.trans (.foldl (fun _ _ => poisonSeg_later))
  have h_s4 : s.Later lasting calm s4 := h_s3.trans dropImagesOn_later
  have h_s5 : s.Later lasting calm s5 := h_s4.trans (.foldl (fun _ _ => post_later))
  have h_s6 : s.Later lasting calm s6 := h_s5.trans (rebuildPages_later.trans fixOffers_later)
  exact h_s6.trans post_later

theorem noteRecov_later {s : State} {u : FUnit} {keys : List Nat} {imgs : Nat} : s.Later lasting calm (s.noteRecov u keys imgs) := by
  refine .event rfl rfl rfl ?_
  rw [List.map_map]
  refine List.map_congr_left (fun v _ => ?_)
  simp only [Function.comp]
  split <;> rfl

theorem endRecov_later {s : State} {v : Recov} : s.Later lasting false (s.endRecov v) := .trans (.recov (by rfl) (by rfl) (by rfl)) post_later

theorem recoverMoves_later {s : State} {u : FUnit} {lost : List Nat} {imgs : Nat} {lose move : State → Nat → State}
    (hl : ∀ (t : State) k, t.Later lasting false (lose t k)) (hm : ∀ (t : State) k, t.Later lasting false (move t k)) : s.Later lasting false
      (s.recoverMoves u lost imgs lose move) := by
  unfold State.recoverMoves
  extract_lets gone s1 s2
  have h_s2 : s.Later lasting false s2 := .trans (.foldl hl) (noteRecov_later.trans (.foldl (fun _ _ => .ite (.refl _) (hm _ _))))
  split
  exacts [h_s2.trans (.ite endRecov_later (.refl _)), h_s2]

theorem recoverWick_later {s : State} {c : Nat} {lost : List Nat} : s.Later lasting false (s.recoverWick c lost) :=
  .trans (.foldl (fun _ _ => dropImage_later)) (recoverMoves_later (fun _ _ => poisonSeg_later) (fun _ _ => springOut_getD_later))

theorem lakeRun_later {s : State} {st : Strm} {r : RegionId} {seg len : Nat} {p : State × Loc} (h : s.lakeRun st r seg len = some p) :
    s.Later lasting calm p.1 := by
  obtain ⟨q, hq, rfl⟩ := Option.map_eq_some_iff.mp h
  exact (lakePlace_later hq).trans (.same rfl rfl)

theorem noteRun_later {s : State} {r : RegionId} {seg : Nat} {e : Sme} : s.Later lasting calm (s.noteRun r seg e) := by
  unfold State.noteRun
  split
  exacts [.same rfl rfl, .refl _]

theorem metaWrite_later {s : State} {chip : Nat} {b : List Byte} {p : State × Nat} (h : s.metaWrite chip b = some p) : s.Later lasting calm p.1 := by
  unfold State.metaWrite at h
  split at h
  · obtain rfl := Option.some.inj h
    rename_i t f x h_t
    have h_u : t.Later lasting calm { t with map := { t.map with moveNo := t.map.moveNo + 1 } } := .same rfl rfl
    dsimp only
    exact .trans (lakePlace_later h_t) (h_u.trans writeRun_later)
  · cases h

theorem storePage?_later {s t : State} {page : Nat} (h : s.storePage? page = some t) : s.Later lasting calm t := by
  unfold State.storePage? at h
  extract_lets put at h
  have put_later (u : State) (w : Nat) : u.Later lasting calm (put u w) := .same rfl rfl
  split at h
  · cases h
    exact put_later _ _
  · obtain ⟨p, hp, rfl⟩ := Option.map_eq_some_iff.mp h
    exact (metaWrite_later hp).trans (put_later _ _)

theorem storePage_later {s : State} {page : Nat} : s.Later lasting calm (s.storePage page) := by
  unfold State.storePage
  cases h : s.storePage? page with
  | none => exact .refl _
  | some t => exact storePage?_later h

theorem storeIndex_later {s : State} : s.Later lasting calm s.storeIndex :=
  .foldl (fun _ _ => by
    split
    exacts [(metaWrite_later (by assumption)).trans (.same rfl rfl), .refl _])

theorem relocateLake_later {s : State} {r : RegionId} {seg cls : Nat} : s.Later lasting calm (s.relocateLake r seg cls) := by
  unfold State.relocateLake
  extract_lets e
  refine .ite (.refl _) ?_
  split
  exacts [(lakePlace_later (by assumption)).trans startMove_later, .refl _]

theorem recoverDie_later {s : State} {d : Nat} {lost : List Nat} : s.Later lasting false (s.recoverDie d lost) :=
  recoverMoves_later (fun _ _ => poisonSeg_later.trans post_later) (fun _ _ => relocateLake_later)

theorem recover_later {s : State} {u : FUnit} {lost : List Nat} : s.Later lasting false (s.recover u lost) := by
  unfold State.recover
  split
  · exact .refl _
  · extract_lets _ s1
    have h_s1 : s.Later lasting false s1 := .recov rfl rfl rfl
    split
    exacts [h_s1.trans recoverPond_later, h_s1.trans recoverPond_later, recoverWick_later, recoverDie_later, h_s1.trans post_later]

/-! ### The operations of `Machine/Life.lean` -/

theorem programStripe_later {s : State} {n : Nat} : s.Later lasting calm (s.programStripe n) := by
  unfold State.programStripe
  split
  · exact .refl _
  · extract_lets ms par m b s1
    have h_s1 : s.Later lasting calm s1 := setSb_later
    exact h_s1.trans (.trans (.bytes (m := { s1.mem with bytes := _ }) (Memory.wf_filter _ _)) (.same (by rfl) (by rfl)))

theorem closeStripes_later {s : State} : s.Later lasting calm s.closeStripes := .foldl (fun _ _ => programStripe_later)

theorem checkpoint_later {s : State} : s.Later lasting calm s.checkpoint :=
  .ite (.refl _) (.trans (.foldl (fun _ _ => storePage_later)) (storeIndex_later.trans (.same rfl rfl)))

theorem duskOpen_later {s : State} : s.Later lasting calm s.duskOpen := by
  unfold State.duskOpen
  refine .ite (.refl _) ?_
  extract_lets free s1
  have h_s1 : s.Later lasting calm s1 := by
    unfold s1
    split
    exacts [setSb_later, .refl _]
  split
  · exact .refl _
  · extract_lets _ s2 u
    have h_s2 : s.Later lasting calm s2 := h_s1.trans setSb_later
    have h_u : s.Later lasting calm u := h_s2.trans stripeFull_later
    clear_value u
    exact h_u.trans (.same rfl rfl)

theorem flushPlace_later {s : State} {r : RegionId} {seg cs : Nat} {p : State × Loc} (h : s.flushPlace r seg cs = some p) :
    s.Later lasting calm p.1 := by
  unfold State.flushPlace at h
  extract_lets reserve at h
  split at h
  · cases h
  · obtain ⟨q, hq, rfl⟩ := Option.map_eq_some_iff.mp h
    exact .trans (.ite duskOpen_later (.refl _)) ((lakeRun_later hq).trans (.ite_fst (.same rfl rfl) (.refl _)))

theorem saveKept_later {s : State} {key : Nat} {e : Sme} : s.Later lasting calm (s.saveKept key e) := by
  unfold State.saveKept
  extract_lets r seg
  split
  · refine .ite (.refl _) ?_
    split
    · exact .refl _
    · extract_lets b e1
      exact (flushPlace_later (by assumption)).trans (writeRun_later.trans (putSme_later.trans (noteRun_later.trans journal_later)))
  · exact .refl _

theorem journalFault_later {s : State} {recs : List JRec} : s.Later lasting calm (s.journalFault recs) := .ite post_later (.refl _)

theorem replay_later {s : State} {old : Bool} : s.Later lasting false (s.replay old) := by
  unfold State.replay
  extract_lets base recs c age kept _ _ _ s1 s2 s3
  have h_s1 : s.Later lasting false s1 := .same rfl rfl
  have h_s2 : s.Later lasting false s2 := h_s1.trans (.ite (.foldl (fun _ _ => saveKept_later)) (.refl _))
  have h_s3 : s.Later lasting false s3 := h_s2.trans (closeStripes_later.trans journalFault_later)
  clear_value s3
  exact h_s3.trans (.trans (.bytes (m := { s3.mem with bytes := _ }) (Memory.wf_filter _ _))
    (.trans (.sameInTime (by rfl) (by rfl)) checkpoint_later))

theorem powerDown_later {s : State} {input : Bool} {fault : Byte} : s.Later false false (s.powerDown input fault) :=
  ⟨rfl, rfl, ⟨[], rfl⟩, fun _ => ⟨Nat.zero_le _, Nat.zero_le _⟩, fun _ => ⟨Nat.succ_pos _, Nat.zero_le _⟩, Memory.wf_filter _ _, nofun, nofun,
    nofun, nofun⟩

theorem holdPorts_later {s : State} : s.Later lasting calm s.holdPorts := .foldl (fun _ _ => .trans (.ite dropLink_later (.refl _)) setHalf_later)

theorem dropWork_later {s : State} : s.Later lasting calm s.dropWork := .same rfl rfl

theorem chainSend_later {s : State} {link : Nat} {kind : ChainKind} {iseq : W64} {chunk arg : Nat} {more : List Nat} :
    s.Later lasting calm (s.chainSend link kind iseq chunk arg more) :=
  send_later

theorem chainStop_later {s : State} : s.Later lasting calm s.chainStop := by
  unfold State.chainStop
  extract_lets s1
  have h_s1 : s.Later lasting calm s1 := by
    unfold s1
    split
    exacts [chainSend_later, .refl _]
  exact h_s1.trans (.same rfl rfl)

theorem commandFlush_later {s : State} {trigger : Nat} : s.Later lasting false (s.commandFlush trigger) := by
  unfold State.commandFlush
  extract_lets s1 s2 s3 s4 s5 _ _ _ _ _ s6 s7
  have h_s2 : s.Later lasting false s2 := setSled_later.trans (post_later.trans (.foldl (fun _ _ => cancelProg_later)))
  have h_s4 : s.Later lasting false s4 := h_s2.trans (lampStop_later.trans (.foldl
    (fun _ _ => updSched_later.trans (writeBlock_later.trans post_later))))
  have h_s5 : s.Later lasting false s5 := h_s4.trans (.foldl (fun _ _ => abortMove_later))
  clear_value s5
  have h_s6 : s.Later lasting false s6 := h_s5.trans (.sameInTime rfl rfl)
  have h_s7 : s.Later lasting false s7 := h_s6.trans (.foldl (fun _ _ => .trans (.ite selfRefresh_later (.refl _)) (setPst_later.trans trace_later)))
  exact h_s7.trans (chainStop_later.trans journal_later)

theorem startFlush_later {s : State} {f : Flush} : s.Later lasting false (s.startFlush f) := by
  unfold State.startFlush
  extract_lets _ s1
  have h_s1 : s.Later lasting false s1 := .sameInTime rfl rfl
  split
  · exact h_s1.trans (.trans (.sameInTime (by rfl) (by rfl)) journal_later)
  · exact h_s1.trans (.ite (.refl _) commandFlush_later)
  · exact h_s1.trans commandFlush_later

theorem flushSeg_later {s0 : State} {key : Nat} : s0.Later lasting calm (s0.flushSeg key) := by
  unfold State.flushSeg
  extract_lets r seg s e
  have h_s : s0.Later lasting calm s := checkSme_later
  refine .ite h_s ?_
  split
  · exact h_s
  · extract_lets t
    have h_t : s0.Later lasting calm t := (h_s.trans (flushPlace_later (by assumption))).trans relocate_later
    exact h_t.trans noteRun_later

theorem flushSome_later {s : State} {n : Nat} : s.Later lasting calm (s.flushSome n) := .ite (.refl _) (.foldl (fun _ _ => flushSeg_later))

theorem flushKeep_later {s : State} : s.Later lasting calm s.flushKeep := by
  unfold State.flushKeep
  refine .ite (.refl _) ?_
  extract_lets s1 s2
  have h_s2 : s.Later lasting calm s2 := flushSome_later.trans (.trans (.foldl (fun _ _ => journal_later)) closeStripes_later)
  clear_value s2
  exact h_s2.trans (.trans (.same (by rfl) (by rfl)) journal_later)

theorem restart_later {s : State} {rcause : Nat} : s.Later lasting false (s.restart rcause) := by
  unfold State.restart
  extract_lets s1 _ _ _ _ _ _ _ _ _ _ _ _ s2
  have h_s1 : s.Later lasting false s1 := holdPorts_later.trans dropWork_later
  clear_value s1
  have h_s2 : s1.Later lasting false s2 :=
    .trans (.bytes (m := { s1.mem with tarnEp := [] }) (fun h => h)) (.trans (.recov (e := { s1.evt with recov := [] }) rfl rfl rfl)
      (.sameInTime rfl rfl))
  exact h_s1.trans (h_s2.trans (setSled_later.trans traceReset_later))

theorem vigilSettle_later {s0 : State} : s0.Later lasting false s0.vigilSettle := by
  unfold State.vigilSettle
  extract_lets s
  have h_s : s0.Later lasting false s := .foldl (fun _ _ => setPst_later)
  clear_value s
  exact h_s.trans (.sameInTime rfl rfl)

theorem enterVigil_later {s : State} {cause : Nat} : s.Later lasting false (s.enterVigil cause) := by
  unfold State.enterVigil
  extract_lets served skips s1 u _ s2 _ _ _ s3 _ s4
  have h_u : s.Later lasting false u := post_later.trans (setSled_later.trans (holdPorts_later.trans dropWork_later))
  clear_value u
  have h_s2 : s.Later lasting false s2 := h_u.trans (.sameInTime rfl rfl)
  clear_value s2
  have h_s3 : s.Later lasting false s3 := h_s2.trans (.sameInTime rfl rfl)
  have h_s4 : s.Later lasting false s4 := h_s3.trans (.ite (.sameInTime rfl rfl) (.refl _))
  exact .ite (h_s3.trans startFlush_later) (h_s4.trans vigilSettle_later)

theorem askVigil_later {s : State} {cause : Nat} : s.Later lasting false (s.askVigil cause) := by
  unfold State.askVigil
  split
  · exact enterVigil_later
  · exact enterVigil_later
  · exact enterVigil_later
  · exact enterVigil_later
  · split
    exacts [.sameInTime rfl rfl, .refl _]
  · exact .refl _

theorem fenceUnits_later {s : State} {l : List FUnit} {cause : Byte} {setter : Nat} : s.Later lasting false (s.fenceUnits l cause setter) :=
  fenceAll_later.trans (.ite askVigil_later (.refl _))

theorem fenceUnit_later {s : State} {u : FUnit} {cause : Byte} {setter : Nat} : s.Later lasting false (s.fenceUnit u cause setter) := fenceUnits_later

theorem duskTrigger_later {s : State} {trigger : Nat} {input : Bool} : s.Later false false (s.duskTrigger trigger input) := by
  unfold State.duskTrigger
  split
  · exact startFlush_later
  · exact startFlush_later
  · exact powerDown_later
  · exact powerDown_later
  · split
    exacts [.sameInTime rfl rfl, .refl _]
  · exact .ite (.sameInTime rfl rfl) (.ite (.refl _) powerDown_later)
  · exact .ite (.refl _) powerDown_later
  · exact .refl _

theorem askRestart_later {s : State} {rcause : Nat} : s.Later lasting false (s.askRestart rcause) := by
  unfold State.askRestart
  split
  exacts [startFlush_later, startFlush_later, restart_later, restart_later, .ite restart_later (.refl _), .refl _]

/-! ### The operations of `Machine/LakeOps.lean` -/

theorem evictPage_later {s : State} {page : Nat} : s.Later lasting calm (s.evictPage page) := by
  unfold State.evictPage
  extract_lets here s1 s2
  have h_s1 : s.Later lasting calm s1 := .foldl (fun _ _ => dropImage_later)
  have h_s2 : s.Later lasting calm s2 := h_s1.trans (.foldl (fun _ _ => demote_later))
  refine .ite h_s2 ?_
  split
  exacts [(h_s2.trans (storePage?_later (by assumption))).trans (.same rfl rfl), h_s2]

theorem trimMap_later {s : State} : s.Later lasting calm s.trimMap :=
  .ite (.refl _) (.foldl (fun t k => by
    extract_lets l
    refine .ite (.refl _) ?_
    cases t.pageVictim l with
    | none => exact .refl _
    | some p => exact evictPage_later))

theorem relocatePages_later {s : State} {test : Nat → Bool} {cls : Nat} : s.Later lasting calm (s.relocatePages test cls) :=
  .foldl (fun _ _ => by
    extract_lets r seg
    split
    exacts [.ite (.same rfl rfl) (.refl _), relocateLake_later])

theorem evalWear_later {s : State} : s.Later lasting calm s.evalWear := by
  unfold State.evalWear
  extract_lets old now _ s1 ev s2
  have h_s1 : s.Later lasting calm s1 := .lakeUnit
  have h_ev {t : State} {n : Nat} {e : Ev} : t.Later lasting calm (ev t n e) := .ite post_later (.refl _)
  exact .ite (.refl _) (h_s1.trans (h_ev.trans (h_ev.trans (h_ev.trans (.trans (.ite advise_later (.refl _)) rebudget_later)))))

theorem retireBlock_later {s : State} {n member : Nat} : s.Later lasting calm (s.retireBlock n member) :=
  .ite (.refl _) (.trans (.same (by rfl) (by rfl)) (replaceRuns_later.trans (relocatePages_later.trans (journal_later.trans evalWear_later))))

theorem countRead_later {s : State} {h : Loc} {o : LakeOut} : s.Later lasting calm (s.countRead h o) := by
  unfold State.countRead
  split
  · extract_lets n member b s1 _ c s2 d
    have h_s1 : s.Later lasting calm s1 := setSb_later
    have h_s2 : s.Later lasting calm s2 := h_s1.trans (.same rfl rfl)
    split
    exacts [h_s1, h_s1, h_s1.trans (.same rfl rfl), h_s2.trans (.ite (.trans (.same (by rfl) (by rfl)) post_later) (.refl _))]
  · exact .refl _

theorem disturbed_later {s : State} {n member : Nat} : s.Later lasting calm (s.disturbed n member) :=
  .ite (.refl _) (relocatePages_later.trans (.ite (.same rfl rfl) (.refl _)))

theorem afterRead_later {s : State} {h : Loc} {o : LakeOut} : s.Later lasting calm (s.afterRead h o) := by
  unfold State.afterRead
  split
  · extract_lets n member die s1
    have h_s1 : s.Later lasting calm s1 := disturbed_later
    split
    exacts [h_s1.trans (.ite (.refl _) retireBlock_later), h_s1.trans (.ite (.refl _) retireBlock_later), h_s1]
  · exact .refl _

theorem gcFlags_later {s : State} : s.Later lasting calm s.gcFlags := .ite (.refl _) (.same rfl rfl)

theorem erased_later {s : State} {n : Nat} : s.Later lasting calm (s.erased n) :=
  .trans (.same (by rfl) (by rfl)) (.trans (.ite (.foldl (fun _ _ => retireBlock_later)) (.refl _)) (gcFlags_later.trans rebudget_later))

/-! ### The operations of `Machine/Tallow.lean` -/

theorem instr_later {s : State} {p : Nat} {sel : W64 → Bool} {check : Prog → W64 → W64 → Option W16} {f : Prog → W64 → W64 → State}
    (hf : ∀ x w ext, s.Later lasting calm (f x w ext)) : s.Later lasting calm (s.instr p sel check f) := by
  unfold State.instr
  split
  · exact .refl _
  · refine .ite (.refl _) ?_
    split
    · exact .refl _
    · exact failProg_later
    · split
      exacts [failProg_later, .ite (hf _ _ _) goOn_later]

theorem vinstr_later {s : State} {p : Nat} {sel : W64 → Bool} {check : Prog → W64 → Option W16} {f : Prog → W64 → Prog} :
    s.Later lasting calm (s.vinstr p sel check f) := by
  unfold State.vinstr
  split
  · exact .refl _
  · refine .ite (.refl _) ?_
    split
    · exact .refl _
    · exact failProg_later
    · split
      exacts [failProg_later, goOn_later]

theorem jump_later {s : State} {p : Nat} {x : Prog} {target : Int} {f : Prog → Prog} : s.Later lasting calm (s.jump p x target f) :=
  .ite failProg_later setProg_later

theorem okOn_later {s : State} {p : Nat} {f : Prog → Prog} : s.Later lasting calm (s.okOn p f) := goOn_later

theorem readFar_later {s : State} {r : RegionId} {seg j : Nat} : s.Later lasting calm (s.readFar r seg j).1 := by
  unfold State.readFar
  extract_lets e
  split
  · split
    · exact touch_later
    · exact homeFault_later (form := true)
  · exact .refl _

theorem curSnoop_later {s : State} {r : RegionId} {line : BitVec 40} : s.Later lasting calm (s.curSnoop r line).1 := by
  unfold State.curSnoop
  refine .ite_fst (.refl _) ?_
  split
  exacts [.ite_fst (.refl _) (.ite_fst snoop_later (.refl _)), .refl _]

theorem loadLine_later {s : State} {p : Option Nat} {served : List Nat} {r : RegionId} {line : Nat} {c : Chk} :
    s.Later lasting calm (s.loadLine p served r line c).1 := by
  unfold State.loadLine
  extract_lets l seg sn k u
  have h_sn : s.Later lasting calm sn.1 := .ite_fst (.refl _) curSnoop_later
  have h_u : s.Later lasting calm u := h_sn
  clear_value u
  refine .ite_fst poisonRead_later (.ite_fst (h_u.trans (.same rfl rfl)) ?_)
  split
  · exact ((h_sn.trans readLine_later).of_eq (by assumption))
  · exact ((h_sn.trans readLine_later).of_eq (by assumption)).trans poisonRead_later
  · refine .ite_fst ?_ (((h_sn.trans readLine_later).of_eq (by assumption)).trans startMiss_later)
    split
    · exact ((((h_sn.trans readLine_later).of_eq (by assumption)).trans readFar_later).of_eq (by assumption))
    · exact ((((h_sn.trans readLine_later).of_eq (by assumption)).trans readFar_later).of_eq (by assumption)).trans poisonRead_later
    · exact ((((h_sn.trans readLine_later).of_eq (by assumption)).trans readFar_later).of_eq (by assumption))

theorem loadBytes_later {s : State} {p : Option Nat} {served : List Nat} {r : RegionId} {off n : Nat} {c : Chk} :
    s.Later lasting calm (s.loadBytes p served r off n c).1 := by
  unfold State.loadBytes
  extract_lets first lines a
  have h_a : s.Later lasting calm a.1 := .foldl_fst (p := (s, Ld.bytes [], c)) (fun _ _ => by
    split
    · split
      exacts [loadLine_later.of_eq (by assumption), loadLine_later.of_eq (by assumption)]
    · exact .refl _)
  clear_value a
  split
  exacts [h_a, h_a]

theorem progLoad_later {s : State} {p : Nat} {x : Prog} {r : RegionId} {off n : Nat} {c : Chk} :
    s.Later lasting calm (s.progLoad p x r off n c).1 := by
  unfold State.progLoad
  split
  · exact (loadBytes_later.of_eq (by assumption))
  · exact (loadBytes_later.of_eq (by assumption)).trans failProg_later
  · exact (loadBytes_later.of_eq (by assumption)).trans (.same rfl rfl)

theorem feedAhead_later {s : State} {h : HostId} {r : RegionId} {last : Nat} : s.Later lasting calm (s.feedAhead h r last) :=
  .foldl (fun _ _ => by
    extract_lets seg
    refine .ite (.refl _) (.ite wakeFor_later ?_)
    split
    exacts [(readLine_later.of_eq (by assumption)).trans startMiss_later, readLine_later.of_eq (by assumption)])

theorem feed_later {s : State} {p : Nat} {r : RegionId} {line n : Nat} : s.Later lasting calm (s.feed p r line n) := by
  unfold State.feed
  split
  exacts [.refl _, .ite (.refl _) (setProg_later.trans (.ite feedAhead_later (.refl _)))]

theorem commitSnoops_later {s : State} {l : List PStore} : s.Later lasting calm (s.commitSnoops l) :=
  .foldl (fun _ _ => by
    extract_lets line
    refine .ite (.refl _) ?_
    split
    exacts [.ite (.refl _) (.ite dirDel_later snoop_later), .refl _])

theorem afterCommit_later {s : State} {p : Nat} {a : AfterCommit} : s.Later lasting calm (s.afterCommit p a) := by
  unfold State.afterCommit
  split
  · exact .refl _
  · extract_lets s1
    have h_s1 : s.Later lasting calm s1 := setProg_later
    split
    · exact h_s1.trans okOn_later
    · exact h_s1.trans (.ite setProg_later okOn_later)
    · exact h_s1.trans endProg_later
    · split
      exacts [h_s1.trans endProg_later, h_s1]

theorem commitPoint_later {s : State} {p : Nat} {a : AfterCommit} : s.Later lasting calm (s.commitPoint p a) := by
  unfold State.commitPoint
  split
  exacts [.refl _, .ite afterCommit_later (commitSnoops_later.trans setProg_later)]

theorem control_later {s : State} {p : Nat} {sel : W64 → Bool} {check : Prog → W64 → W64 → Option W16} {f : Prog → W64 → W64 → State}
    (hf : ∀ x w ext, s.Later lasting calm (f x w ext)) : s.Later lasting calm (s.control p sel check f) := by
  unfold State.control
  split
  · exact .refl _
  · refine .ite (.refl _) ?_
    split
    exacts [.ite commitPoint_later (instr_later hf), instr_later hf]

theorem commitLine_later {s : State} {t : PStore} {h : HostId} {line : Nat} {pick : W32} : s.Later lasting calm (s.commitLine t h line pick) := by
  unfold State.commitLine
  extract_lets r seg l w off bytes
  split
  · exact (storeSeg_later.of_eq (by assumption)).trans (.ite poisonWrite_later (.refl _))
  · exact (storeSeg_later.of_eq (by assumption)).trans (.trans (.ite dirDel_later (.refl _)) endLoss_later)

theorem commitMisses_later {s : State} {p : Nat} {l : List PStore} : s.Later lasting calm (s.commitMisses p l).1 :=
  .foldl_fst (p := (s, false)) (fun _ _ => .ite_fst (.ite (.refl _) startMiss_later) (.refl _))

theorem commitOpens_later {s : State} {x : Prog} {pick : W32} : s.Later lasting calm (s.commitOpens x pick).1 :=
  .foldl_fst (p := (s, false, pick)) (fun _ _ => by
    split
    exacts [storeSeg_later.of_eq (by assumption), storeSeg_later.of_eq (by assumption)])

theorem commitStores_later {s : State} {x : Prog} {pick : W32} : s.Later lasting calm (s.commitStores x pick) :=
  .foldl_fst (p := (s, pick)) (fun _ _ => .foldl_fst (fun _ _ => commitLine_later))

theorem finishCommit_later {s : State} {p : Nat} {c : Chk} {pick : W32} : s.Later lasting false (s.finishCommit p c pick) := by
  unfold State.finishCommit
  split
  · exact .refl _
  · split
    · refine .ite (.foldl (fun _ _ => wakeFor_later)) ?_
      split
      · exact failProg_later
      · exact .ite (.refl _) (.ite fenceUnit_later (commitSnoops_later.trans (.ite (.refl _)
          (commitMisses_later.trans (.ite (.refl _) (.ite (commitOpens_later.trans .queueUnit)
          (commitOpens_later.trans (commitStores_later.trans afterCommit_later))))))))
    · exact .refl _

/-! ### The operations of `Machine/QueueC.lean` -/

theorem tailWrite_later {s : State} {h : HostId} {q : QueueNo} {value : W32} : s.Later lasting calm (s.tailWrite h q value) :=
  .ite (.refl _) (.ite queueError_later setQueue_later)

theorem headWrite_later {s : State} {h : HostId} {q : QueueNo} {value : W32} : s.Later lasting calm (s.headWrite h q value) :=
  .ite (.refl _) (.ite queueError_later (setQueue_later.trans flushCpl_later))

theorem tailBell_later {s : State} {h : HostId} {q : QueueNo} {value : W32} : s.Later lasting calm (s.tailBell h q value) :=
  .ite (.refl _) (.ite setQueue_later tailWrite_later)

theorem headBell_later {s : State} {h : HostId} {q : QueueNo} {value : W32} : s.Later lasting calm (s.headBell h q value) :=
  .ite (.refl _) (.ite setQueue_later headWrite_later)

theorem execSqTailWrite_later {host : HostId} {q : QueueNo} {value : W32} {s : State} : s.Leads (execSqTailWrite host q value s) :=
  .next tailBell_later

theorem execCqHeadWrite_later {host : HostId} {q : QueueNo} {value : W32} {s : State} : s.Leads (execCqHeadWrite host q value s) :=
  .next headBell_later

theorem applyKept_later {s : State} : s.Later lasting calm s.applyKept :=
  .foldl (fun t _ => by
    extract_lets h q x t1 t2
    have h_t1 : t.Later lasting calm t1 := setQueue_later
    have h_t2 : t.Later lasting calm t2 := by
      unfold t2
      split
      exacts [h_t1.trans headWrite_later, h_t1]
    split
    exacts [h_t2.trans tailWrite_later, h_t2])

theorem enableQueue_later {s : State} {h : HostId} {q : QueueNo} {cfg : W64} : s.Later lasting calm (s.enableQueue h q cfg) :=
  .ite (.refl _) (.ite setQueue_later (.ite setQueue_later (setQueue_later.trans flushCpl_later)))

theorem disableQueue_later {s : State} {h : HostId} {q : QueueNo} : s.Later lasting calm (s.disableQueue h q) := .ite (.refl _) setQueue_later

theorem execQueueEnable_later {host : HostId} {q : QueueNo} {cfg : W64} {s : State} : s.Leads (execQueueEnable host q cfg s) :=
  .next enableQueue_later

theorem execQueueDisable_later {host : HostId} {q : QueueNo} {s : State} : s.Leads (execQueueDisable host q s) := .next disableQueue_later

theorem dropScheds_later {s : State} {h : HostId} {q : QueueNo} : s.Later lasting calm (s.dropScheds h q) := .foldl (fun _ _ => dropSched_later)

theorem execQueueDrained_later {host : HostId} {q : QueueNo} {s : State} : s.Leads (execQueueDrained host q s) :=
  .next (.ite (setQueue_later.trans dropScheds_later) (.refl _))

theorem passDesc_later {s : State} {h : HostId} {q : QueueNo} : s.Later lasting calm (s.passDesc h q) := setQueue_later

theorem rejectDesc_later {s : State} {h : HostId} {q : QueueNo} {cid : W16} {irq : Bool} {e : Err1} :
    s.Later lasting calm (s.rejectDesc h q cid irq e) :=
  passDesc_later.trans (setQueue_later.trans deliver_later)

theorem readyDesc_later {s : State} {h : HostId} {q : QueueNo} {r : Ready} :
    s.Later lasting calm (s.readyDesc h q r) := passDesc_later.trans setQueue_later

theorem fetchLine_later {s : State} {served : List Nat} {r : RegionId} {line : Nat} {c : Chk} :
    s.Later lasting calm (s.fetchLine served r line c).1 := by
  unfold State.fetchLine
  split
  · have h_t : s.Later lasting calm _ := loadLine_later.of_eq (by assumption)
    refine .ite_fst h_t ?_
    extract_lets seg _ _ _ u
    have h_u : s.Later lasting calm u := h_t.trans (.same rfl rfl)
    clear_value u
    split
    · refine .ite_fst (h_u.trans loadLine_later) (.ite_fst (h_u.trans (homeFault_later (tag := c == .tag) (form := false))) ?_)
      split
      exacts [h_u.trans ((readFar_later.of_eq (by assumption)).trans promote_later), h_u.trans (readFar_later.of_eq (by assumption))]
    · exact h_u.trans loadLine_later
  · exact loadLine_later

theorem fetchWords_later {s : State} {served : List Nat} {r : RegionId} {off n : Nat} {c : Chk} :
    s.Later lasting calm (s.fetchWords served r off n c).1 := by
  unfold State.fetchWords
  extract_lets first a
  have h_a : s.Later lasting calm a.1 := .foldl_fst (p := (s, Ld.bytes [], c)) (fun _ _ => by
    split
    · split
      exacts [fetchLine_later.of_eq (by assumption), fetchLine_later.of_eq (by assumption)]
    · exact .refl _)
  clear_value a
  split
  exacts [h_a, h_a]

theorem execDescriptorFetchDone_later {host : HostId} {q : QueueNo} {desc : Line} {words : List W64} {chk : Chk} {s : State} :
    s.Leads (execDescriptorFetchDone host q desc words chk s) := by
  unfold execDescriptorFetchDone
  extract_lets x w0 cid irq n args base ptr r off keys
  refine .next (.ite (.refl _) ?_)
  refine .ite rejectDesc_later ?_
  split
  · exact readyDesc_later
  · exact readyDesc_later
  · refine .ite wakeFor_later ?_
    split
    · exact rejectDesc_later
    · split
      · exact (fetchWords_later.of_eq (by assumption)).trans readyDesc_later
      · exact (fetchWords_later.of_eq (by assumption)).trans rejectDesc_later
      · exact (fetchWords_later.of_eq (by assumption)).trans setQueue_later

theorem execDescriptorFetchFail_later {host : HostId} {q : QueueNo} {s : State} : s.Leads (execDescriptorFetchFail host q s) :=
  .next (.ite (.refl _) queueError_later)

theorem execCompletionPostFail_later {host : HostId} {q : QueueNo} {s : State} : s.Leads (execCompletionPostFail host q s) :=
  .next (.ite (.refl _) queueError_later)

theorem clearScratch_later {s : State} {c : Nat} : s.Later lasting calm (s.clearScratch c).1 := by
  unfold State.clearScratch
  extract_lets s1 s2 s3 a
  have h_s2 : s.Later lasting calm s2 := .trans (.foldl (fun _ _ => abortMove_later)) (.foldl (fun _ _ => dropImage_later))
  have h_s3 : s.Later lasting calm s3 := h_s2.trans (.foldl (fun t p => .ite (.refl _) (springOut_getD_later)))
  exact .ite_fst h_s3 (h_s3.trans (.bytes (Memory.wf_filter _ _)))

theorem start_later {s : State} {h : HostId} {q : QueueNo} {k : QKind} {r : Ready} {core : Nat} :
    s.Later lasting calm (s.start h q k r core) := .same rfl rfl

theorem execProgramDispatch_later {host : HostId} {q : QueueNo} {pick : W32} {s : State} : s.Leads (execProgramDispatch host q pick s) := by
  unfold execProgramDispatch
  extract_lets x s1
  have h_s1 : s.Later false false s1 := setQueue_later
  refine .next ?_
  split
  · exact .refl _
  · refine .ite (.refl _) ?_
    refine .ite ?_ (.ite start_later start_later)
    split
    · exact h_s1.trans deliver_later
    · split
      · split
        exacts [askWake_later, .refl _]
      · split
        exacts [(clearScratch_later.of_eq (by assumption)).trans start_later, (clearScratch_later.of_eq (by assumption))]

theorem execRunLimitExpiry_later {prog : Nat} {s : State} : s.Leads (execRunLimitExpiry prog s) := by
  unfold execRunLimitExpiry
  refine .next ?_
  split
  · exact .refl _
  · refine .ite (.refl _) ?_
    split
    exacts [endProg_later, endProg_later, .refl _]

theorem execCommitWriteDone_later {prog : Nat} {chk : Chk} {pick : W32} {s : State} : s.Leads (execCommitWriteDone prog chk pick s) :=
  .next finishCommit_later

theorem execFeederStreamIdle_later {prog : Nat} {region : RegionId} {s : State} :
    s.Leads (execFeederStreamIdle prog region s) := .next (.same rfl rfl)

/-! ### The operations of `Machine/TallowCtl.lean` -/

theorem execBr_later {prog : Nat} {s : State} : s.Leads (execBr prog s) := .next (instr_later (fun _ _ _ => jump_later))

theorem execLoop_later {prog : Nat} {s : State} : s.Leads (execLoop prog s) :=
  .next (instr_later (fun _ _ _ => .ite goOn_later (.ite goOn_later jump_later)))

theorem waitFor_later {s : State} {p : Nat} {wt : PWait} : s.Later lasting calm (s.waitFor p wt) := .same rfl rfl

theorem execWaitTime_later {prog : Nat} {s : State} : s.Leads (execWaitTime prog s) := .next (instr_later (fun _ _ _ => waitFor_later))

theorem execWaitBeat_later {prog : Nat} {s : State} : s.Leads (execWaitBeat prog s) := by
  unfold execWaitBeat
  refine .next (instr_later (fun _ _ _ => ?_))
  extract_lets a q n want
  split
  exacts [.ite okOn_later waitFor_later, waitFor_later]

theorem execWaitSignal_later {prog : Nat} {s : State} : s.Leads (execWaitSignal prog s) :=
  .next (instr_later (fun _ _ _ => .ite okOn_later waitFor_later))

theorem execWaitTimeout_later {prog : Nat} {s : State} : s.Leads (execWaitTimeout prog s) := by
  unfold execWaitTimeout
  refine .next ?_
  split
  · exact .refl _
  · split
    exacts [okOn_later, endProg_later, endProg_later, .refl _]

theorem wakeSignals_later {s : State} {h : HostId} {c : Nat} : s.Later lasting calm (s.wakeSignals h c) := .foldl (fun _ _ => okOn_later)

theorem execSignal_later {prog : Nat} {s : State} : s.Leads (execSignal prog s) :=
  .next (instr_later (fun _ _ _ => goOn_later.trans (.trans (.same (by rfl) (by rfl)) wakeSignals_later)))

theorem execKick_later {prog : Nat} {s : State} : s.Leads (execKick prog s) := .next (instr_later (fun _ _ _ => goOn_later.trans (.same rfl rfl)))

theorem execFence_later {prog : Nat} {s : State} : s.Leads (execFence prog s) := .next (instr_later (fun _ _ _ => commitPoint_later))

theorem execHalt_later {prog : Nat} {s : State} : s.Leads (execHalt prog s) := .next (instr_later (fun _ _ _ => commitPoint_later))

theorem execMovs_later {prog : Nat} {s : State} : s.Leads (execMovs prog s) :=
  .next (instr_later (fun _ _ _ => goOn_later.trans (.ite (.same rfl rfl) (.refl _))))

/-! ### The operations of `Machine/TallowData.lean` -/

theorem scratchWrite_later {s : State} {x : Prog} {off : Nat} {b : List Byte} :
    s.Later lasting calm (s.scratchWrite x off b) := .bytes (writeBytes_wf _ _ _)

theorem execLd_later {prog : Nat} {chk : Chk} {s : State} : s.Leads (execLd prog chk s) := by
  unfold execLd
  refine .next (instr_later (fun _ _ _ => ?_))
  extract_lets n a r
  refine .ite (.ite fenceUnit_later okOn_later) (.ite wakeFor_later ?_)
  split
  · exact failProg_later
  · split
    exacts [(progLoad_later.of_eq (by assumption)).trans (feed_later.trans okOn_later), (progLoad_later.of_eq (by assumption))]

theorem growLog_later {s t : State} {p n f : Nat} (h : s.growLog p n f = .ok t ∨ s.growLog p n f = .wait t) : s.Later false false t := by
  induction f generalizing s with
  | zero => simp [State.growLog] at h
  | succ f ih =>
    unfold State.growLog at h
    split at h
    · simp at h
    · split at h
      · simp only [PendEnd.ok.injEq, reduceCtorEq, or_false] at h
        exact h ▸ .refl s
      · split at h
        · exact (roomSpring_later.of_eq (by assumption)).trans (setProg_later.trans (ih h))
        · simp only [PendEnd.wait.injEq, reduceCtorEq, false_or] at h
          exact h ▸ roomSpring_later.of_eq (by assumption)
        · simp at h

theorem pend_later {s t : State} {p : Nat} {l : List PStore} (h : s.pend p l = .ok t ∨ s.pend p l = .wait t) : s.Later false false t := by
  unfold State.pend at h
  split at h
  · simp at h
  · extract_lets _ _ put at h
    have put_later {u : State} (h : put u = .ok t ∨ put u = .wait t) : u.Later false false t := by
      simp only [put, PendEnd.ok.injEq, reduceCtorEq, or_false] at h
      exact h ▸ .same rfl rfl
    split at h
    · split at h
      · simp at h
      · split at h
        · exact (growLog_later (.inl ‹_›)).trans (put_later h)
        · exact growLog_later h
    · split at h
      · simp at h
      · exact put_later h

theorem execSt_later {prog : Nat} {s : State} : s.Leads (execSt prog s) := by
  unfold execSt
  refine .next (instr_later (fun _ _ _ => ?_))
  extract_lets n a r
  refine .ite (scratchWrite_later.trans okOn_later) (.ite (.refl _) ?_)
  split
  · exact failProg_later
  · split
    exacts [(pend_later (.inl ‹_›)).trans okOn_later, pend_later (.inr ‹_›), failProg_later]

theorem loadRows_later {s : State} {p : Nat} {x : Prog} {y : Rows} {l : List Int} {c : Chk} : s.Later lasting calm (s.loadRows p x y l c).1 :=
  .foldl_fst (p := (s, some [], c)) (fun _ _ => by
    split
    · exact .refl _
    · refine .ite_fst (.refl _) ?_
      split
      exacts [(progLoad_later.of_eq (by assumption)).trans feed_later, progLoad_later.of_eq (by assumption)])

theorem execGather_later {prog : Nat} {chk : Chk} {s : State} : s.Leads (execGather prog chk s) := by
  unfold execGather
  refine .next (instr_later (fun _ _ _ => ?_))
  extract_lets y l
  refine .ite wakeFor_later ?_
  split
  · exact failProg_later
  · split
    · exact (loadRows_later.of_eq (by assumption)).trans (.trans (.foldl (fun _ _ => scratchWrite_later)) okOn_later)
    · exact (loadRows_later.of_eq (by assumption))

theorem execScatter_later {prog : Nat} {s : State} : s.Leads (execScatter prog s) := by
  unfold execScatter
  refine .next (instr_later (fun _ _ _ => ?_))
  extract_lets y l stores
  refine .ite (.refl _) ?_
  split
  · exact failProg_later
  · split
    exacts [(pend_later (.inl ‹_›)).trans okOn_later, pend_later (.inr ‹_›), failProg_later]

theorem prefetch_later {s : State} {p : Nat} {x : Prog} {r : RegionId} {first count : Nat} : s.Later lasting calm (s.prefetch p x r first count) :=
  .foldl (fun _ _ => .trans (.same (by rfl) (by rfl)) (checkSme_later.trans (placePond_later.trans (.ite (.refl _) .queueUnit))))

theorem execPrefetch_later {prog : Nat} {s : State} : s.Leads (execPrefetch prog s) := by
  unfold execPrefetch
  refine .next (instr_later (fun _ _ _ => ?_))
  extract_lets h r a len
  refine .ite (.refl _) ?_
  split
  exacts [failProg_later, prefetch_later.trans okOn_later]

/-! ### The operations of `Machine/TallowVec.lean` -/

theorem execVmac_later {prog : Nat} {s : State} : s.Leads (execVmac prog s) := .next vinstr_later

theorem execVdot_later {prog : Nat} {s : State} : s.Leads (execVdot prog s) := .next vinstr_later

theorem execDeq_later {prog : Nat} {s : State} : s.Leads (execDeq prog s) := .next vinstr_later

theorem execSmaxp_later {prog : Nat} {s : State} : s.Leads (execSmaxp prog s) := .next vinstr_later

theorem execTopk_later {prog : Nat} {s : State} : s.Leads (execTopk prog s) := .next vinstr_later

theorem execRed_later {prog : Nat} {s : State} : s.Leads (execRed prog s) := .next vinstr_later

theorem execCvt_later {prog : Nat} {s : State} : s.Leads (execCvt prog s) := .next vinstr_later

/-! ### The operations of `Machine/LampC.lean` -/

theorem execSchedStep_later {prog : Nat} {s : State} : s.Leads (execSchedStep prog s) :=
  .next (instr_later (fun _ _ _ => .ite failProg_later okOn_later))

theorem loadSched_later {s : State} {p k : Nat} {l : List (BitVec 256)} {empties : Bool} : s.Later lasting calm (s.loadSched p k l empties) := by
  unfold State.loadSched
  split
  · exact .refl _
  · split
    exacts [failProg_later, setSched_later.trans okOn_later]

theorem execSchedLoad_later {prog : Nat} {chk : Chk} {s : State} : s.Leads (execSchedLoad prog chk s) := by
  unfold execSchedLoad
  refine .next (instr_later (fun _ _ _ => ?_))
  extract_lets k n h
  refine .ite loadSched_later (.ite wakeFor_later ?_)
  split
  · exact failProg_later
  · split
    exacts [(progLoad_later.of_eq (by assumption)).trans loadSched_later, (progLoad_later.of_eq (by assumption))]

theorem lampChk_later {s : State} {k : Nat} {c : Chk} : s.Later lasting calm (s.lampChk k c) := by
  unfold State.lampChk
  split
  · refine .ite ?_ (.refl _)
    split
    exacts [.ite homeFault_later (.refl _), .refl _]
  · exact .refl _

theorem armSched_later {s : State} {p k : Nat} {x : Sched} {pick : W32} : s.Later lasting calm (s.arm p k x pick) := by
  unfold State.arm
  extract_lets y s1 s2 b
  have h_b : s.Later lasting calm b.1 := setSched_later.trans (.trans (.foldl (fun _ _ => lampStore_later)) lampStore_later)
  clear_value b
  refine .ite (h_b.trans disarmFor_later) (h_b.trans (.trans (.foldl (fun _ _ => ?_)) writeBlock_later))
  split
  exacts [startInst_later, .refl _]

theorem execSchedArm_later {prog : Nat} {chk : Chk} {pick : W32} {s : State} : s.Leads (execSchedArm prog chk pick s) := by
  unfold execSchedArm
  refine .next (instr_later (fun _ _ _ => ?_))
  extract_lets k
  split
  · exact failProg_later
  · exact .ite failProg_later (.ite failProg_later (.ite failProg_later (.ite failProg_later (lampChk_later.trans (armSched_later.trans okOn_later)))))

theorem execSchedDisarm_later {prog : Nat} {chk : Chk} {s : State} (_pick : W32) : s.Leads (execSchedDisarm prog chk _pick s) :=
  .next (instr_later (fun _ _ _ => lampChk_later.trans (disarm_later.trans okOn_later)))

theorem beatWrite_later {s : State} {h : HostId} {q : QueueNo} {n : Nat} {value : W64} {pick : W32} :
    s.Later lasting calm (s.beatWrite h q n value pick) :=
  .ite lampBeat_later (.refl _)

theorem execBeat_later {prog : Nat} {s : State} : s.Leads (execBeat prog s) := .next (instr_later (fun _ _ _ => okOn_later.trans beatWrite_later))

theorem execBeatDoorbell_later {host : HostId} {q : QueueNo} {sch : Fin 32} {value : W64} {chk : Chk} {pick : W32} {s : State} :
    s.Leads (execBeatDoorbell host q sch value chk pick s) :=
  .next (.ite (.refl _) (lampChk_later.trans beatWrite_later))

theorem retireDue_later {s : State} {k step d : Nat} : s.Later lasting calm (s.retireDue k step d) := by
  unfold State.retireDue
  split
  exacts [.ite retire_later (.refl _), .refl _]

theorem settleLate_later {s : State} {k step d : Nat} : s.Later lasting calm (s.settleLate k step d) := by
  unfold State.settleLate
  split
  · exact .refl _
  · extract_lets s1
    have h_s1 : s.Later lasting calm s1 := updInst_later.trans updSched_later
    exact h_s1.trans (.trans (.ite (.refl _) writeLamp_later) writeBlock_later)

theorem instCommitted_later {s : State} {k : Nat} {x : Sched} {i : Inst} {t : LStep} {pick : W32} :
    s.Later lasting calm (s.instCommitted k x i t pick) :=
  .ite (.ite placeInst_later (.refl _)) (.ite (settleReady_later.trans retireDue_later) (.ite (settleLate_later.trans retireDue_later) (.refl _)))

theorem execInstancePlaced_later {host : HostId} {q : QueueNo} {sch : Fin 32} {step : Nat} {pick : W32} {s : State} :
    s.Leads (execInstancePlaced host q sch step pick s) := by
  unfold execInstancePlaced
  extract_lets k
  refine .next ?_
  split
  · exact .refl _
  · refine .ite (.refl _) ?_
    split
    exacts [.refl _, .foldl (fun _ _ => instCommitted_later)]

theorem execDeadlineExpiry_later {host : HostId} {q : QueueNo} {sch : Fin 32} {step : Nat} {pick : W32} {s : State} :
    s.Leads (execDeadlineExpiry host q sch step pick s) := by
  unfold execDeadlineExpiry
  extract_lets k
  refine .next ?_
  split
  · exact .refl _
  · split
    · exact .refl _
    · exact .ite (.refl _) (.ite updSched_later (.ite updInst_later (deadline_later.trans (retireDue_later.trans lampPlace_later))))

theorem adopt_later {s : State} {chip : Nat} {pick : W32} : s.Later lasting calm (s.adopt chip pick) :=
  .foldl (fun t _ => by
    extract_lets t1 t2
    have h_t2 : t.Later lasting calm t2 := updSched_later.trans (.foldl (fun _ _ => deadline_later.trans retireDue_later))
    split
    exacts [h_t2.trans lampBeat_later, h_t2])

theorem execScheduleTakeover_later {lantern : Fin 4} {pick : W32} {s : State} : s.Leads (execScheduleTakeover lantern pick s) :=
  .next (.ite adopt_later (.refl _))

/-! ### The operations of `Machine/Ctl.lean` -/

theorem stallEntry_later {s : State} {r : RegionId} {p g : Option Nat} : s.Later lasting calm (s.stallEntry r p g) := .same rfl rfl

theorem rollback_later {s : State} {x : Stalled} :
    s.Later lasting calm (s.rollback x) := .trans (.same (by rfl) (by rfl)) (post_later.trans journalEnt_later)

theorem narrowDone_later {s : State} {p : Nat} {r : RegionId} :
    s.Later lasting calm (s.narrowDone p r) := .ite ctlOk_later (.trans (.same (by rfl) (by rfl)) ctlWait_later)

theorem drainRegion_later {s : State} {r : RegionId} :
    s.Later lasting calm (s.drainRegion r) := .trans (.same (by rfl) (by rfl)) (.foldl (fun _ _ => ctlOk_later))

theorem recallRegion_later {s : State} {r : RegionId} : s.Later lasting calm (s.recallRegion r) := .foldl (fun _ _ => .ite dirDel_later snoop_later)

theorem commitTrial_later {s : State} {r : RegionId} {seg : Nat} {lzv exp : Option Packed} {pick : W32} :
    s.Later lasting false (s.commitTrial r seg lzv exp pick).1 := by
  unfold State.commitTrial
  extract_lets e
  split
  · extract_lets b form u
    have h_u : s.Later lasting false u := noteForm_later.trans noteForm_later
    clear_value u b form
    refine .ite_fst (commitSme_later.trans releaseHome_later) (.ite_fst (commitSme_later.trans releaseHome_later) ?_)
    split
    · exact h_u
    · extract_lets run
      clear_value run
      split
      · exact h_u
      · exact h_u.trans (writeRun_later.trans (commitSme_later.trans releaseHome_later))
  · exact .refl _

theorem sealSpent_later {s : State} {n cs : Nat} : s.Later lasting calm (s.sealSpent n cs) := .same rfl rfl

theorem opStart_later {s : State} {n : Nat} {o : COp} {r : RegionId} {seg : Nat} : s.Later lasting calm (s.opStart n o r seg).1 := by
  unfold State.opStart
  extract_lets e why lend far barred go c
  have go_later {t : State} {l : Loc} {image : Bool} : t.Later lasting calm (go t l image).1 := startMove_later
  clear_value go
  split
  · refine .ite_fst ?_ ?_
    · split
      exacts [go_later, .refl _]
    · split
      · rename_i h
        split at h
        · cases h
        · exact (lakePlace_later h).trans (startMove_later.trans sealSpent_later)
      · exact .refl _
  · refine .ite_fst (.refl _) ?_
    split
    exacts [go_later, .refl _]
  · split
    · exact go_later
    · split
      · exact (lakeDest_later (by assumption)).trans go_later
      · refine .ite_fst (.refl _) ?_
        split
        exacts [go_later, .refl _]
  · split
    · refine .ite_fst (.refl _) (.ite_fst (.refl _) ?_)
      split
      exacts [(roomSpring_later.of_eq (by assumption)).trans go_later, roomSpring_later.of_eq (by assumption),
        roomSpring_later.of_eq (by assumption)]
    · refine .ite_fst (.refl _) ?_
      split
      exacts [go_later, .refl _]
    · refine .ite_fst (.refl _) ?_
      split
      exacts [(lakeDest_later (by assumption)).trans go_later, .ite_fst (.refl _) (.refl _)]
    · refine .ite_fst (.refl _) ?_
      split
      exacts [go_later, .refl _]
  · exact .refl _

theorem opFail_later {s : State} {n seg : Nat} {status : Byte} {detail : W16} : s.Later lasting calm (s.opFail n seg status detail) := .same rfl rfl

theorem opStarts_later {s : State} {n : Nat} {o : COp} : s.Later lasting calm (s.opStarts n o) :=
  .foldl (fun t0 p => by
    extract_lets t
    have h_t : t0.Later lasting calm t := checkSme_later
    refine .ite h_t (.ite h_t ?_)
    split
    exacts [h_t.trans (opStart_later.of_eq (by assumption)), h_t.trans ((opStart_later.of_eq (by assumption)).trans opFail_later)])

theorem setOwed_later {s : State} {n : Nat} {l : List (Nat × Bool)} : s.Later lasting calm (s.setOwed n l) := .same rfl rfl

theorem sealTrials_later {s : State} {n : Nat} {o : COp} : s.Later lasting calm (s.sealTrials n o) := by
  unfold State.sealTrials
  extract_lets r step p
  have h_p : s.Later lasting calm p.1 := .foldl_fst (p := (s, [])) (fun _ _ => by
    unfold step
    extract_lets t e tile
    refine .ite_fst (.refl _) (.ite_fst (.refl _) ?_)
    split
    exacts [.refl _, setLedger_later, submit_later])
  exact h_p.trans setOwed_later

theorem sealChange_later {s : State} {n : Nat} {o : COp} : s.Later lasting calm (s.sealChange n o) :=
  change_later.trans (.trans (.same (by rfl) (by rfl)) (journalEnt_later.trans (fixOffers_later.trans
    (.trans (.foldl (fun _ _ => lampGrantsGone_later)) (.same rfl rfl)))))

theorem endWindow_later {s : State} {w : Nat} : s.Later lasting calm (s.endWindow w) := .same rfl rfl

theorem opEnd_later {s : State} {n : Nat} {o : COp} : s.Later lasting calm (s.opEnd n o) := by
  unfold State.opEnd
  extract_lets _ _ s1 ps _ s2
  have h_s1 : s.Later lasting calm s1 := .same rfl rfl
  have h_s2 : s.Later lasting calm s2 := h_s1.trans (.ite (.same rfl rfl) (.refl _))
  split
  · exact h_s2.trans (.foldl (fun _ _ => failProg_later))
  · split
    · exact h_s1.trans narrowDone_later
    · exact h_s1.trans (endWindow_later.trans (.foldl (fun _ _ => ctlOk_later)))
    · exact h_s1.trans ctlOk_later
    · exact h_s1.trans ctlOk_later
    · exact h_s1.trans ctlOk_later
    · exact h_s1.trans ctlOk_later

theorem sealBegin_later {s : State} {n : Nat} {o : COp} : s.Later lasting calm (s.sealBegin n o) := by
  unfold State.sealBegin
  extract_lets r s1 s2 need _ stop
  have h_s1 : s.Later lasting calm s1 := recallRegion_later
  have h_s2 : s.Later lasting calm s2 := h_s1.trans sealTrials_later
  exact .ite (h_s1.trans setOwed_later) (h_s2.trans (.ite (.refl _) (.ite (.trans (.same (by rfl) (by rfl)) failProg_later)
    (.ite (.trans (.same (by rfl) (by rfl)) failProg_later) (.trans (.same (by rfl) (by rfl)) sealChange_later)))))

theorem opRun_later {s : State} {n : Nat} {o : COp} : s.Later lasting calm (s.opRun n o) := by
  unfold State.opRun
  extract_lets s2
  have h_s2 : s.Later lasting calm s2 := .ite (.refl _) opStarts_later
  split
  exacts [h_s2, h_s2.trans (.ite (.refl _) (.ite opEnd_later (.refl _)))]

theorem runOp_later {s : State} {n : Nat} : s.Later lasting calm (s.runOp n) := by
  unfold State.runOp
  split
  · exact .refl _
  · refine .ite (.refl _) ?_
    refine .ite ?_ opRun_later
    extract_lets s1
    have h_s1 : s.Later lasting calm s1 := sealBegin_later
    split
    exacts [h_s1.trans (.ite (.refl _) opRun_later), h_s1]

theorem runOps_later {s : State} : s.Later lasting calm s.runOps := .foldl (fun _ _ => runOp_later)

theorem newOp_later {s : State} {o : COp} : s.Later lasting calm (s.newOp o) := .trans (.same (by rfl) (by rfl)) (ctlWait_later.trans runOp_later)

/-! ### The operations of `Machine/Moves.lean` -/

theorem wakePf_later {s : State} : s.Later lasting calm s.wakePf := .foldl (fun _ _ => okOn_later)

theorem freeToken_later {s : State} {r : RegionId} {seg : Nat} {pick : W32} : s.Later lasting calm (s.freeToken r seg pick) := rerun_later

theorem commitMove_later {s : State} {n : Nat} {m : Move} {pick : W32} : s.Later lasting calm (s.commitMove n m pick) := by
  unfold State.commitMove
  extract_lets r e x _ s1 a former _ e1 s2 s3 s4 _ s5
  have h_s1 : s.Later lasting calm s1 := .same rfl rfl
  have h_s2 : s.Later lasting calm s2 := h_s1.trans commitSme_later
  have h_s3 : s.Later lasting calm s3 := by
    unfold s3
    refine .ite ?_ (h_s2.trans (.ite (.refl _) releaseHome_later))
    split
    exacts [h_s2.trans release_later, h_s2]
  have h_s4 : s.Later lasting calm s4 := h_s3.trans (.trans (.ite wbCommitted_later (.refl _)) noteRun_later)
  have h_s5 : s.Later lasting calm s5 := by
    unfold s5
    split
    exacts [h_s4.trans (.trans (.same (by rfl) (by rfl)) runOp_later), h_s4]
  exact h_s5.trans (freeToken_later.trans (rerun_later.trans wakePf_later))

theorem redest_later {s : State} {strm : Strm} {n : Nat} {m : Move} {pick : W32} {p : State × Loc} (h : s.redest strm n m pick = some p) :
    s.Later lasting calm p.1 := by
  unfold State.redest at h
  have placed {α : Type} {o : Option α} {f : α → Loc} (h : o.map (fun a => (s, f a)) = some p) : s.Later lasting calm p.1 := by
    obtain ⟨a, -, rfl⟩ := Option.map_eq_some_iff.mp h
    exact .refl s
  split at h
  · exact placed h
  · exact placed h
  · exact lakePlace_later h
  · exact placed (f := fun l => l) h

theorem moveFailed_later {s : State} {n : Nat} {m : Move} {pick : W32} : s.Later lasting calm (s.moveFailed n m pick) := by
  unfold State.moveFailed
  extract_lets _ s1 again after w1 s2 s3
  have h_s1 : s.Later lasting calm s1 := .same rfl rfl
  have h_s3 : s.Later lasting calm s3 := h_s1.trans (abortMove_later.trans (.ite (.refl _) post_later))
  have again_later {p : State × Loc} (h : again = some p) : s1.Later lasting calm p.1 := by
    unfold again at h
    split at h
    exacts [redest_later h, nomatch h]
  have after_later {t : State} : t.Later lasting calm (after t) := by
    unfold after
    split
    exacts [.trans (.ite opFail_later (.refl _)) runOp_later, .refl _]
  clear_value after again
  split
  · exact h_s1.trans ((again_later rfl).trans (.same rfl rfl))
  · exact h_s3.trans (after_later.trans (freeToken_later.trans wakePf_later))

theorem moveWake_later {s : State} {m : Move} : s.Later lasting calm (s.moveWake m) := .foldl (fun _ _ => .ite askWake_later (.refl _))

theorem losePage_later {s : State} {f : Nat} : s.Later lasting calm (s.losePage f) := .foldl (fun _ _ => .ite homeFault_later relocateLake_later)

theorem srcFault_later {s : State} {r : RegionId} {seg : Nat} {h : Loc} {src : LakeOut} {stale : Bool} :
    s.Later lasting calm (s.srcFault r seg h src stale) := by
  unfold State.srcFault
  split
  exacts [losePage_later, homeFault_later, homeFault_later]

theorem execMoveCopyDone_later {move : Nat} {ok : Bool} {src : LakeOut} {pick : W32} {s : State} : s.Leads (execMoveCopyDone move ok src pick s) := by
  unfold execMoveCopyDone
  refine .next ?_
  split
  · exact .refl _
  · refine .ite (.refl _) ?_
    refine .ite moveWake_later ?_
    extract_lets e
    split
    · exact abortMove_later
    · extract_lets stale bad s0 s1 s2
      have h_s0 : s.Later false false s0 := countRead_later
      have h_s1 : s.Later false false s1 := h_s0.trans (noteChk_later.trans wakeSid_later)
      have h_s2 : s.Later false false s2 := h_s1.trans writeRun_later
      exact .ite checkSme_later (.ite (h_s0.trans (srcFault_later.trans (afterRead_later.trans (freeToken_later.trans runOps_later))))
        (.ite (h_s1.trans (moveFailed_later.trans afterRead_later)) (h_s2.trans (.trans
        (.ite (.same (by rfl) (by rfl)) commitMove_later) afterRead_later))))

theorem execImagePlaced_later {move : Nat} {copy : Copied} {pick : W32} {s : State} : s.Leads (execImagePlaced move copy pick s) := by
  unfold execImagePlaced
  refine .next ?_
  split
  · exact .refl _
  · refine .ite (.refl _) ?_
    refine .ite moveWake_later ?_
    split
    · exact abortMove_later
    · extract_lets h s0 s1
      have h_s0 : s.Later false false s0 := countRead_later
      have h_s1 : s.Later false false s1 := h_s0.trans noteChk_later
      exact .ite (h_s0.trans (abortMove_later.trans (.trans (.ite (srcFault_later.trans afterRead_later) imageFault_later) wakePf_later)))
        (h_s1.trans (.trans (.ite moveFailed_later (writeRun_later.trans commitMove_later)) afterRead_later))

theorem released_later {s : State} {rel : Nat} : s.Later lasting calm (s.released rel) := .trans (.same (by rfl) (by rfl)) rerun_later

theorem execMoveSourceRelease_later {rel : Nat} {s : State} : s.Leads (execMoveSourceRelease rel s) := by
  unfold execMoveSourceRelease
  refine .next ?_
  split
  exacts [.ite (.refl _) released_later, .refl _]

theorem execImageRelease_later {rel : Nat} {s : State} : s.Leads (execImageRelease rel s) := by
  unfold execImageRelease
  refine .next ?_
  split
  exacts [.ite released_later (.refl _), .refl _]

theorem stripeDone_later {s : State} {n : Nat} {t : Stripe} {bad : List Nat} : s.Later lasting calm (s.stripeDone n t bad) :=
  programStripe_later.trans (.foldl (fun _ _ => by
    split
    exacts [.ite (.refl _) (.ite moveFailed_later commitMove_later), .refl _]))

theorem loseMapPage_later {s : State} {r : RegionId} {seg : Nat} : s.Later lasting calm (s.loseMapPage r seg) :=
  .foldl (fun _ _ => poisonSeg_later.trans post_later)

theorem serveFar_later {s : State} {x : HReq} : s.Later lasting calm (s.serveFar x) := by
  unfold State.serveFar
  extract_lets _ s1 line
  have h_s1 : s.Later lasting calm s1 := .same rfl rfl
  refine .ite (h_s1.trans (poisonRead_later.trans answerPoison_later)) ?_
  split
  · exact ((h_s1.trans readFar_later).of_eq (by assumption)).trans send_later
  · exact ((h_s1.trans readFar_later).of_eq (by assumption)).trans (poisonRead_later.trans answerPoison_later)

theorem farServed_later {s : State} {r : RegionId} {seg : Nat} {pick : W32} : s.Later lasting calm (s.farServed r seg pick) := by
  unfold State.farServed
  extract_lets e reads s1
  have h_s1 : s.Later lasting calm s1 := .foldl (fun _ _ => serveFar_later)
  refine .ite ?_ (h_s1.trans promote_later)
  split
  · exact h_s1.trans (homeFault_later.trans rerun_later)
  · split
    · exact ((h_s1.trans (cancelMove_later.trans storeFresh_later)).of_eq (by assumption)).trans (.same rfl rfl)
    · exact ((h_s1.trans (cancelMove_later.trans storeFresh_later)).of_eq (by assumption)).trans rerun_later

theorem farRead_later {s : State} {r : RegionId} {seg : Nat} {h : Loc} {c : Option Chk} {o : LakeOut} {pick : W32} :
    s.Later lasting calm (s.farRead r seg h c o pick) := by
  unfold State.farRead
  extract_lets again stale
  split
  · exact .ite (homeFault_later.trans (afterRead_later.trans (endMiss_later.trans rerun_later)))
      (endMiss_later.trans (afterRead_later.trans farServed_later))
  · split
    · exact losePage_later.trans (afterRead_later.trans (endMiss_later.trans rerun_later))
    · exact homeFault_later.trans (endMiss_later.trans rerun_later)

theorem execLakeReadComplete_later {region : RegionId} {seg : Nat} {outcome : LakeOut} {pick : W32} {s : State} :
    s.Leads (execLakeReadComplete region seg outcome pick s) := by
  unfold execLakeReadComplete
  extract_lets k _ s1 bad s2 ps _ _ s3
  have h_s1 : s.Later false false s1 := .same rfl rfl
  have h_s2 : s.Later false false s2 := h_s1.trans (.ite loseMapPage_later (.refl _))
  have h_s3 : s.Later false false s3 := h_s2.trans (.same rfl rfl)
  refine .next (.ite (.refl _) ?_)
  refine .ite (h_s3.trans (trimMap_later.trans rerun_later)) ?_
  split
  exacts [countRead_later.trans farRead_later, .refl _, endMiss_later.trans rerun_later]

theorem execHeldRequestResume_later {req : Nat} {chk : Chk} {pick : W32} {s : State} : s.Leads (execHeldRequestResume req chk pick s) := by
  unfold execHeldRequestResume
  refine .next ?_
  split
  exacts [.ite runHeld_later (.refl _), .refl _]

theorem execStoreHoldTimeout_later {req : Nat} {s : State} : s.Leads (execStoreHoldTimeout req s) := by
  unfold execStoreHoldTimeout
  refine .next ?_
  split
  exacts [.ite runHeld_later (.ite runHeld_later (.refl _)), .refl _]

theorem execNarrowingChangeDrained_later {region : RegionId} {s : State} : s.Leads (execNarrowingChangeDrained region s) := .next drainRegion_later

theorem execAgeClockTick_later {s : State} : s.Leads (execAgeClockTick s) := .next (.ite (.refl _) (.same rfl rfl))

theorem execAgeSweep_later {s : State} : s.Leads (execAgeSweep s) := .next (.trans (.foldl (fun _ _ => servedMalformed_later)) (.same rfl rfl))

theorem execPackDelayExpiry_later {region : RegionId} {seg : Nat} {s : State} : s.Leads (execPackDelayExpiry region seg s) := by
  unfold execPackDelayExpiry
  extract_lets e k due
  refine .next ?_
  split
  exacts [.ite submit_later (.refl _), .refl _]

theorem paid_later {s : State} {r : RegionId} {seg : Nat} : s.Later lasting calm (s.paid r seg) := .same rfl rfl

theorem execTrialPackDone_later {region : RegionId} {seg : Nat} {lzv exp : Option Packed} {chk : Chk} {pick : W32} {s : State} :
    s.Leads (execTrialPackDone region seg lzv exp chk pick s) := by
  unfold execTrialPackDone
  extract_lets k s1 e
  have h_s1 : s.Later false false s1 := endTrial_later.trans paid_later
  refine .ite .fault (.next ?_)
  refine .ite (.refl _) ?_
  split
  · exact h_s1
  · refine .ite h_s1 ?_
    refine .ite (h_s1.trans homeFault_later) ?_
    extract_lets z
    have h_z : s.Later false false z := by
      unfold z
      split
      · exact ((h_s1.trans (noteChk_later.trans commitTrial_later)).of_eq (by assumption))
      · exact ((h_s1.trans (noteChk_later.trans commitTrial_later)).of_eq (by assumption)).trans putSme_later
      · exact ((h_s1.trans (noteChk_later.trans commitTrial_later)).of_eq (by assumption)).trans (.same rfl rfl)
    exact h_z.trans mend_later

/-! ### The operations of `Machine/RegionC.lean` -/

theorem guarded_later {s : State} {p : Nat} {l : List (Option Err1)} {f : State} (hf :
    s.Later lasting calm f) : s.Later lasting calm (s.guarded p l f) := by
  unfold State.guarded
  split
  exacts [failProg_later, hf]

theorem execRegionNew_later {prog : Nat} {list : List W16} {stall : Bool} {s : State} : s.Leads (execRegionNew prog list stall s) := by
  unfold execRegionNew
  refine .next (control_later (fun _ _ _ => ?_))
  extract_lets ponly n segs
  refine .ite (.refl _) (guarded_later ?_)
  split
  exacts [.refl _, .ite (stallEntry_later.trans ctlWait_later) (.trans (.same (by rfl) (by rfl)) okOn_later)]

theorem dcEvent_later {s : State} {h : HostId} {v : DcEv} : s.Later lasting calm (s.dcEvent h v) := .trans (.same (by rfl) (by rfl)) notice_later

theorem execRegionGrantHost_later {prog : Nat} {s : State} : s.Leads (execRegionGrantHost prog s) := by
  unfold execRegionGrantHost
  refine .next (control_later (fun _ _ _ => .ite (.refl _) (guarded_later ?_)))
  split
  exacts [.trans (.same (by rfl) (by rfl)) (dcEvent_later.trans ctlWait_later), .refl _]

theorem execRegionGrantLend_later {prog : Nat} {s : State} : s.Leads (execRegionGrantLend prog s) := by
  unfold execRegionGrantLend
  refine .next (control_later (fun _ _ _ => ?_))
  split
  · exact failProg_later
  · extract_lets _ s1
    have h_s1 : s.Later false false s1 := .same rfl rfl
    exact h_s1.trans ctlOk_later

theorem execRegionGrantPeer_later {prog : Nat} {s : State} : s.Leads (execRegionGrantPeer prog s) := by
  unfold execRegionGrantPeer
  refine .next (control_later (fun _ _ _ => ?_))
  extract_lets r rw slot
  refine .ite (.refl _) (guarded_later ?_)
  clear_value slot
  split
  exacts [.refl _, .trans (.same (by rfl) (by rfl)) ctlOk_later]

theorem grantNow_later {s : State} {g : Nat} {o : Offer} : s.Later lasting calm (s.grantNow g o) := by
  unfold State.grantNow
  extract_lets r _ s1 n s2 s3
  have h_s1 : s.Later lasting calm s1 := .same rfl rfl
  have h_s2 : s.Later lasting calm s2 := h_s1.trans takeSlot_later
  have h_s3 : s.Later lasting calm s3 := h_s2.trans change_later
  exact h_s3.trans (journalEnt_later.trans (fixOffers_later.trans (serveUpdate_later.trans (rtFlags_later.trans (notice_later.trans ctlOk_later)))))

theorem execAddDynamicCapacityResponse_later {host : HostId} {offer : Nat} {accept stall : Bool} {s : State} :
    s.Leads (execAddDynamicCapacityResponse host offer accept stall s) := by
  unfold execAddDynamicCapacityResponse
  refine .next (.ite (.refl _) ?_)
  split
  · exact send_later
  · exact .ite send_later (.ite (send_later.trans withdraw_later) (.ite (.refl _)
      (.ite (.trans (.same (by rfl) (by rfl)) (send_later.trans stallEntry_later)) (send_later.trans grantNow_later))))

theorem execGrantOfferTimeout_later {offer : Nat} {s : State} : s.Leads (execGrantOfferTimeout offer s) := .next withdraw_later

theorem recallHost_later {s : State} {h : HostId} {r : RegionId} : s.Later lasting calm (s.recallHost h r) := .foldl (fun _ _ => snoop_later)

theorem revokeChange_later {s : State} {g : Nat} : s.Later lasting calm (s.revokeChange g) := by
  unfold State.revokeChange
  split
  · exact endRevoke_later
  · extract_lets ps _ s1 s2
    have h_s1 : s.Later lasting calm s1 := .trans (.same (by rfl) (by rfl)) dropGrant_later
    have h_s2 : s.Later lasting calm s2 := h_s1.trans (lampGrantsGone_later.trans (fixOffers_later.trans (serveUpdate_later.trans notice_later)))
    exact h_s2.trans (.foldl (fun _ _ => narrowDone_later))

theorem revokeOn_later {s : State} {g : Nat} {stall : Bool} : s.Later lasting calm (s.revokeOn g stall) := by
  unfold State.revokeOn
  split
  · extract_lets r due s1 _ u
    have h_s1 : s.Later lasting calm s1 := .ite recallHost_later (.refl _)
    have h_u : s.Later lasting calm u := h_s1.trans stallEntry_later
    clear_value u
    exact .ite (.refl _) (.ite (h_s1.trans (.same rfl rfl)) (.ite (h_s1.trans (.same rfl rfl))
      (.ite (h_u.trans (.same rfl rfl)) (h_s1.trans revokeChange_later))))
  · exact .refl _

theorem runRevokes_later {s : State} : s.Later lasting calm s.runRevokes := .foldl (fun _ _ => revokeOn_later)

theorem revokeHost_later {s : State} {p : Nat} {x : Prog} {g : Nat} : s.Later lasting calm (s.revokeHost p x g) := by
  unfold State.revokeHost
  split
  · exact failProg_later
  · extract_lets r
    split
    · exact .ite failProg_later (guarded_later (.trans (.same (by rfl) (by rfl)) ctlWait_later))
    · exact .ite (.refl _) (guarded_later (.trans (.same (by rfl) (by rfl)) (dcEvent_later.trans ctlWait_later)))

theorem revokeWindow_later {s : State} {p : Nat} {x : Prog} {w : Nat} : s.Later lasting calm (s.revokeWindow p x w) := by
  unfold State.revokeWindow
  split
  · exact failProg_later
  · refine .ite failProg_later ?_
    split
    · exact .trans (.same (by rfl) (by rfl)) ctlWait_later
    · extract_lets into
      exact .trans (.foldl (fun _ _ => abortMove_later)) newOp_later

theorem revokePeer_later {s : State} {p : Nat} {x : Prog} {i : Nat} : s.Later lasting calm (s.revokePeer p x i) := by
  unfold State.revokePeer
  split
  exacts [failProg_later, .ite (.refl _) (guarded_later (.trans (.same (by rfl) (by rfl)) narrowDone_later))]

theorem execRegionRevoke_later {prog : Nat} {s : State} : s.Leads (execRegionRevoke prog s) :=
  .next (control_later (fun _ _ _ => .ite revokeHost_later (.ite revokeWindow_later revokePeer_later)))

theorem execRevokeTimeout_later {grant : Nat} {stall : Bool} {s : State} : s.Leads (execRevokeTimeout grant stall s) := by
  unfold execRevokeTimeout
  refine .next ?_
  split
  · exact .ite (.refl _) (.trans (.same (by rfl) (by rfl)) (dcEvent_later.trans (post_later.trans (lampGrantsGone_later.trans revokeOn_later))))
  · exact .refl _

theorem execReleaseDynamicCapacity_later {host : HostId} {grant : Nat} {stall : Bool} {s : State} :
    s.Leads (execReleaseDynamicCapacity host grant stall s) := by
  unfold execReleaseDynamicCapacity
  refine .next (.ite (.refl _) ?_)
  split
  exacts [send_later, .ite send_later (.trans (.same (by rfl) (by rfl)) (send_later.trans (lampGrantsGone_later.trans revokeOn_later)))]

theorem rollbackEnd_later {s : State} {x : Stalled} : s.Later lasting calm (s.rollbackEnd x) := by
  unfold State.rollbackEnd
  extract_lets s1 s2
  have h_s1 : s.Later lasting calm s1 := rollback_later
  have h_s2 : s.Later lasting calm s2 := by
    unfold s2
    split
    exacts [h_s1.trans revokeOn_later, h_s1]
  split
  exacts [h_s2.trans failProg_later, h_s2]

theorem execRtRollback_later {region : RegionId} {s : State} : s.Leads (execRtRollback region s) := by
  unfold execRtRollback
  refine .next ?_
  split
  exacts [.refl _, rollbackEnd_later]

theorem execRegionSeal_later {prog : Nat} {stall : Bool} {pick : W32} {s : State} : s.Leads (execRegionSeal prog stall pick s) :=
  .next (control_later (fun _ _ _ => .ite (.refl _) (guarded_later (.ite (stallEntry_later.trans ctlWait_later) newOp_later))))

theorem journalAll_later {s : State} {r : RegionId} :
    s.Later lasting calm (s.journalAll r) := journalEnt_later.trans (.foldl (fun _ _ => journal_later))

theorem execRegionKeep_later {prog : Nat} {stall : Bool} {s : State} : s.Leads (execRegionKeep prog stall s) := by
  unfold execRegionKeep
  exact .next (control_later (fun _ _ _ => .ite (.refl _) (guarded_later (.ite (stallEntry_later.trans ctlWait_later)
    (change_later.trans (.trans (.ite (.ite journalEnt_later journalAll_later) (.ite journal_later (.refl _)))
    (fixOffers_later.trans okOn_later)))))))

theorem freeRegion_later {s : State} {r : RegionId} : s.Later lasting calm (s.freeRegion r) := by
  unfold State.freeRegion
  extract_lets e s1 s2 _ s3 _ _ _ s4
  have h_s1 : s.Later lasting calm s1 := .ite journal_later (.refl _)
  have h_s2 : s.Later lasting calm s2 := h_s1.trans (.foldl (fun _ _ => cancelMove_later))
  have h_s3 : s.Later lasting calm s3 := h_s2.trans setEnt_later
  have h_s4 : s.Later lasting calm s4 := h_s3.trans (.same rfl rfl)
  exact h_s4.trans (lampRegionGone_later.trans (fixOffers_later.trans serveUpdate_later))

theorem execRegionFree_later {prog : Nat} {stall : Bool} {s : State} : s.Leads (execRegionFree prog stall s) :=
  .next (control_later (fun _ _ _ => .ite (.refl _) (guarded_later (.ite (stallEntry_later.trans ctlWait_later)
    (freeRegion_later.trans narrowDone_later)))))

theorem execRegionReleaseDone_later {region : RegionId} {s : State} :
    s.Leads (execRegionReleaseDone region s) := .next (.ite (.refl _) (.same rfl rfl))

theorem pinSeg_later {s : State} {r : RegionId} {seg : Nat} {on : Bool} : s.Later lasting calm (s.pinSeg r seg on) :=
  .trans (.ite cancelMove_later (.refl _)) commitSme_later

theorem execPin_later {prog : Nat} {s : State} : s.Leads (execPin prog s) :=
  .next (control_later (fun _ _ _ => .ite (.refl _) (guarded_later (.trans (.foldl (fun _ _ => pinSeg_later)) newOp_later))))

theorem execUnpin_later {prog : Nat} {s : State} : s.Leads (execUnpin prog s) :=
  .next (control_later (fun _ _ _ => .ite (.refl _) (guarded_later (.trans (.foldl (fun _ _ => pinSeg_later)) okOn_later))))

theorem execMoveTier_later {prog : Nat} {s : State} : s.Leads (execMoveTier prog s) :=
  .next (control_later (fun _ _ _ => .ite (.refl _) (guarded_later newOp_later)))

theorem fillSeg_later {s : State} {r : RegionId} {seg : Nat} {pat : W64} : s.Later lasting calm (s.fillSeg r seg pat) :=
  releaseSeg_later.trans (commitSme_later.trans endTrial_later)

theorem recallRange_later {s : State} {r : RegionId} {first count : Nat} : s.Later lasting calm (s.recallRange r first count) :=
  .foldl (fun _ _ => .ite dirDel_later snoop_later)

theorem execMoveFill_later {prog : Nat} {s : State} : s.Leads (execMoveFill prog s) := by
  unfold execMoveFill
  exact .next (control_later (fun _ _ _ => .ite (.refl _) (guarded_later (recallRange_later.trans
    (.ite (.refl _) (.trans (.foldl (fun _ _ => fillSeg_later)) (.trans (.same (by rfl) (by rfl)) ctlOk_later)))))))

/-! ### The operations of `Machine/HostMem.lean` -/

theorem unboundReq_later {s : State} {half : Nat} {spid : BitVec 12} : s.Later lasting calm (s.unboundReq half spid) :=
  .ite (.refl _) (.trans (.same (by rfl) (by rfl)) post_later)

theorem fromHost_later {s : State} {half : Nat} {spid : BitVec 12} {f : HostId → State} (hf : ∀ h, s.Later lasting calm (f h)) :
    s.Later lasting calm (s.fromHost half spid f) := by
  unfold State.fromHost
  refine .ite (.refl _) ?_
  split
  exacts [unboundReq_later, .ite (.refl _) (hf _)]

theorem hostRead_later {s : State} {x : HReq} {c : Chk} : s.Later lasting calm (s.hostRead x c) := by
  unfold State.hostRead
  refine .ite answerPoison_later ?_
  extract_lets s1
  have h_s1 : s.Later lasting calm s1 := by
    unfold s1
    split
    exacts [.ite streamRead_later (.refl _), .refl _]
  exact h_s1.trans accept_later

theorem hostWrite_later {s : State} {x : HReq} {c : Chk} {pick : W32} : s.Later lasting calm (s.hostWrite x c pick) :=
  .ite (.refl _) (.ite (answerPoison_later.trans send_later) (.ite answerPoison_later accept_later))

theorem execMemRd_later {half : Fin 16} {spid : BitVec 12} {dpa : BitVec 48} {nocache : Bool} {chk : Chk} {s : State} :
    s.Leads (execMemRd half spid dpa nocache chk s) :=
  .next (fromHost_later (fun _ => hostRead_later))

theorem execMemRdData_later {half : Fin 16} {spid : BitVec 12} {dpa : BitVec 48} {chk : Chk} {s : State} :
    s.Leads (execMemRdData half spid dpa chk s) :=
  .next (fromHost_later (fun _ => hostRead_later))

theorem execMemInv_later {half : Fin 16} {spid : BitVec 12} {dpa : BitVec 48} {s : State} : s.Leads (execMemInv half spid dpa s) :=
  .next (fromHost_later (fun _ => .ite answerPoison_later accept_later))

theorem execMemWr_later {half : Fin 16} {spid : BitVec 12} {dpa : BitVec 48} {data : Line} {poison : Bool} {keep : Bool} {chk : Chk} {pick : W32}
    {s : State} : s.Leads (execMemWr half spid dpa data poison keep chk pick s) :=
  .next (fromHost_later (fun _ => hostWrite_later))

theorem execMemWrPtl_later {half : Fin 16} {spid : BitVec 12} {dpa : BitVec 48} {data : Line} {mask : W64} {poison : Bool} {chk : Chk} {pick : W32}
    {s : State} : s.Leads (execMemWrPtl half spid dpa data mask poison chk pick s) :=
  .next (fromHost_later (fun _ => hostWrite_later))

theorem execMemSpecRd_later {half : Fin 16} {spid : BitVec 12} {s : State} (_dpa : BitVec 48) : s.Leads (execMemSpecRd half spid _dpa s) :=
  .next (fromHost_later (fun _ => .refl _))

theorem afterLines_later {s : State} : s.Later lasting calm s.afterLines := runRevokes_later.trans runOps_later

theorem execBiSnoopResponse_later {host : HostId} {region : RegionId} {line : BitVec 40} {modified : Bool} {data : Line} {chk : Chk} {pick : W32}
    {s : State} : s.Leads (execBiSnoopResponse host region line modified data chk pick s) := by
  unfold execBiSnoopResponse
  refine .next ?_
  split
  · exact .refl _
  · extract_lets s1
    have h_s1 : s.Later false false s1 := .ite writeBack_later (.refl _)
    exact h_s1.trans (answered_later.trans (lineFree_later.trans afterLines_later))

theorem execBiSnoopTimeout_later {host : HostId} {region : RegionId} {line : BitVec 40} {chk : Chk} {pick : W32} {s : State} :
    s.Leads (execBiSnoopTimeout host region line chk pick s) := by
  unfold execBiSnoopTimeout
  refine .next ?_
  split
  exacts [.refl _, fatalTo_later.trans (endGrants_later.trans afterLines_later)]

/-! ### The operations of `Machine/PondC.lean` -/

theorem needTrain_later {s : State} {n : Nat} {cause : BitVec 3} : s.Later lasting calm (s.needTrain n cause) := by
  unfold State.needTrain
  extract_lets p
  refine .ite (.refl _) ?_
  split
  exacts [setPch_later, setPch_later]

theorem countThr_later {s old : State} : s.Later lasting calm (s.countThr old) := .same rfl rfl

theorem stackHeat_later {s : State} {k : Nat} {t : W16} : s.Later lasting false (s.stackHeat k t) :=
  .ite (.refl _) (.trans (.same (by rfl) (by rfl)) (countThr_later.trans (.trans (.ite post_later (.refl _))
    (.ite (post_later.trans fenceUnit_later) (.refl _)))))

theorem ageReq_later {s : State} {n : Nat} {port : PPort} {level : Nat} :
    s.Later lasting calm (s.ageReq n port level) := .ite setBankQ_later (.refl _)

theorem execUrgencyThreshold_later {pch : Fin 384} {port : PPort} {pct : UrgPct} {s0 : State} : s0.Leads (execUrgencyThreshold pch port pct s0) := by
  unfold execUrgencyThreshold
  refine .next ?_
  extract_lets s
  have h_s : s0.Later false false s := ageReq_later
  refine .ite (.refl _) (.ite h_s ?_)
  split
  exacts [h_s, h_s.trans (.same rfl rfl), h_s.trans (.same rfl rfl), h_s.trans (.same rfl rfl), h_s.trans (.same rfl rfl)]

theorem execPanicAssert_later {half : Fin 16} {s : State} : s.Leads (execPanicAssert half s) := .next (.ite (.refl _) presentPanic_later)

theorem clearPanic_later {s : State} {half : Nat} :
    s.Later lasting calm (s.clearPanic half) := .trans (.same (by rfl) (by rfl)) (.foldl (fun _ _ => setPch_later))

theorem execPanicClear_later {half : Fin 16} {s : State} : s.Leads (execPanicClear half s) := .next clearPanic_later

theorem execRefreshDue_later {pch : Fin 384} {bank : Fin 64} {s : State} : s.Leads (execRefreshDue pch bank s) :=
  .next (.ite (.refl _) (.ite setPch_later (.same rfl rfl)))

theorem execSteadyRefreshDue_later {pch : Fin 384} {s : State} : s.Leads (execSteadyRefreshDue pch s) := .next (.ite (.refl _) setPch_later)

theorem execRefModeBoundary_later {pch : Fin 384} {s : State} : s.Leads (execRefModeBoundary pch s) := .next (.ite (.refl _) setPch_later)

theorem execPdTimerExpiry_later {pch : Fin 384} {sid : Fin 4} {s : State} : s.Leads (execPdTimerExpiry pch sid s) :=
  .next (.ite (.refl _) setPch_later)

theorem execStackTempRead_later {stack : Fin 12} {temp : Option W16} {s : State} : s.Leads (execStackTempRead stack temp s) := by
  unfold execStackTempRead
  refine .next ?_
  extract_lets x _ put lost
  split
  · exact .refl _
  · exact .refl _
  · split
    · exact .trans (.same (by rfl) (by rfl)) post_later
    · extract_lets hot s1 s2
      have h_s1 : s.Later false false s1 := .same rfl rfl
      have h_s2 : s.Later false false s2 := h_s1.trans stackHeat_later
      exact h_s2.trans (.foldl (fun _ _ => .ite needTrain_later (.refl _)))

theorem execRetrainRequest_later {pch : Fin 384} {s : State} : s.Leads (execRetrainRequest pch s) := .next needTrain_later

theorem execRetrainStart_later {pch : Fin 384} {s : State} : s.Leads (execRetrainStart pch s) := .next (.ite setPch_later (.refl _))

theorem execRetrainPanicTimeout_later {pch : Fin 384} {s : State} : s.Leads (execRetrainPanicTimeout pch s) := by
  unfold execRetrainPanicTimeout
  refine .next ?_
  extract_lets p
  split
  exacts [.ite (.refl _) setPch_later, .refl _]

theorem execRetrainDone_later {pch : Fin 384} {ok : Bool} {s : State} : s.Leads (execRetrainDone pch ok s) := by
  unfold execRetrainDone
  refine .next ?_
  extract_lets p no
  split
  · exact .refl _
  · exact .ite (.refl _) (.trans (.ite (.same (by rfl) (by rfl)) (.trans (.same (by rfl) (by rfl)) fenceUnit_later))
      (.trans (.ite setPch_later (.refl _)) bankDrain_later))

theorem execCeWindowEnd_later {pch : Fin 384} {s : State} : s.Leads (execCeWindowEnd pch s) :=
  .next (setPch_later.trans (.ite (.refl _) (post_later.trans (.ite (setPch_later.trans needTrain_later) (.ite needTrain_later fenceUnit_later)))))

theorem execCommandParityError_later {pch : Fin 384} {s : State} : s.Leads (execCommandParityError pch s) :=
  .next (.ite (.refl _) (.ite (setPch_later.trans needTrain_later) setPch_later))

theorem execScrubDue_later {pch : Fin 384} {sector : BitVec 23} {chk : Chk} {pick : W32} {s : State} :
    s.Leads (execScrubDue pch sector chk pick s) := by
  unfold execScrubDue
  refine .next ?_
  extract_lets a s1
  have h_s1 : s.Later false false s1 := wakeSid_later
  refine .ite (.refl _) ?_
  split
  · exact .refl _
  · extract_lets r seg
    exact h_s1.trans (.ite (.ite imageFault_later homeFault_later) (noteChk_later.trans mend_later))

theorem execPchStall_later {pch : Fin 384} {s : State} : s.Leads (execPchStall pch s) := .next (.ite (.refl _) fenceUnit_later)

theorem execStackInitTimeout_later {stack : Fin 12} {s : State} : s.Leads (execStackInitTimeout stack s) := .next (.ite fenceUnit_later (.refl _))

theorem execPondStartupDone_later {failed : List (Fin 384)} {s : State} : s.Leads (execPondStartupDone failed s) := by
  unfold execPondStartupDone
  refine .next (.ite (.refl _) ?_)
  extract_lets no s1 s2 _ s3
  have h_s2 : s.Later false false s2 := .trans (.foldl (fun _ _ => fenceUnit_later)) (.foldl (fun _ _ => .ite (.refl _) setPch_later))
  clear_value s2
  have h_s3 : s.Later false false s3 := h_s2.trans (.sameInTime rfl rfl)
  exact .ite (h_s3.trans (.sameInTime rfl rfl)) (h_s3.trans enterVigil_later)

/-! ### The operations of `Machine/LakeC.lean` -/

theorem execStripeTimer_later {stripe : Nat} {s : State} : s.Leads (execStripeTimer stripe s) := .next (.same rfl rfl)

theorem execStripeProgrammed_later {stripe : Nat} {bad : List Nat} {s : State} : s.Leads (execStripeProgrammed stripe bad s) := by
  unfold execStripeProgrammed
  refine .next ?_
  split
  exacts [.refl _, .ite stripeDone_later (.refl _)]

theorem execCheckpointDue_later {s : State} : s.Leads (execCheckpointDue s) := .next (.ite checkpoint_later (.refl _))

theorem execGcSuperblockDone_later {sb : Nat} {eraseOk : Bool} {s : State} : s.Leads (execGcSuperblockDone sb eraseOk s) :=
  .next (gcFlags_later.trans (.ite (.refl _) (.ite (.foldl (fun _ _ => relocateLake_later)) (.ite erased_later (.refl _)))))

theorem samplePages_later {s : State} {sb : Nat} : s.Later lasting calm (s.samplePages sb) := setSb_later

theorem execPatrolDue_later {sb : Nat} {retry3 : Bool} {rebuilt : List (Fin 128)} {s : State} : s.Leads (execPatrolDue sb retry3 rebuilt s) := by
  unfold execPatrolDue
  exact .next (.ite (.refl _) (samplePages_later.trans (.trans (.ite (relocatePages_later.trans (.same (by rfl) (by rfl)))
    (.foldl (fun _ _ => disturbed_later))) (.foldl (fun _ _ => retireBlock_later)))))

theorem execProgramFail_later {stripe : Nat} {ch : Fin 32} {s : State} : s.Leads (execProgramFail stripe ch s) := by
  unfold execProgramFail
  refine .next ?_
  split
  · exact .refl _
  · extract_lets _ s1
    have h_s1 : s.Later false false s1 := .same rfl rfl
    exact h_s1.trans retireBlock_later

theorem execEraseFail_later {sb : Nat} {member : Fin 128} {s : State} : s.Leads (execEraseFail sb member s) :=
  .next (.ite (.refl _) (.trans (.same (by rfl) (by rfl)) (retireBlock_later.trans erased_later)))

theorem execWearEval_later {s : State} : s.Leads (execWearEval s) := .next (.ite evalWear_later (.refl _))

theorem execLakeDieFail_later {die : Fin 1024} {s : State} : s.Leads (execLakeDieFail die s) := .next (.ite fenceUnit_later (.refl _))

theorem execLakeMountDone_later {read : CkptRead} {lost : List Nat} {s : State} : s.Leads (execLakeMountDone read lost s) :=
  .next (.ite (.refl _) (.ite (.trans (.sameInTime (by rfl) (by rfl)) (replay_later.trans (.sameInTime rfl rfl)))
    (post_later.trans enterVigil_later)))

theorem execChannelGroupWakeDone_later {group : Fin 4} {s : State} : s.Leads (execChannelGroupWakeDone group s) :=
  .next (.ite (.refl _) (setLedger_later.trans setPst_later))

theorem execLakeFormatDone_later {s : State} :
    s.Leads (execLakeFormatDone s) := .next (.ite (.refl _) (.trans (.sameInTime (by rfl) (by rfl)) restart_later))

/-! ### The operations of `Machine/MailboxC.lean` -/

theorem mailbox_later {s : State} {h : HostId} {code : Nat} {words : List Nat} :
    s.Later lasting calm (s.mailbox h code words) := .ite send_later (.refl _)

theorem execGetDynamicCapacityConfiguration_later {host : HostId} {s : State} : s.Leads (execGetDynamicCapacityConfiguration host s) :=
  .next mailbox_later

theorem execGetDynamicCapacityExtentList_later {host : HostId} {s : State} : s.Leads (execGetDynamicCapacityExtentList host s) := .next mailbox_later

theorem execIdentifyMemoryDevice_later {host : HostId} {s : State} : s.Leads (execIdentifyMemoryDevice host s) := .next mailbox_later

theorem execGetEventRecords_later {host : HostId} {s : State} : s.Leads (execGetEventRecords host s) := .next mailbox_later

theorem execClearEventRecords_later {host : HostId} {s : State} : s.Leads (execClearEventRecords host s) :=
  .next (.ite (mailbox_later.trans (.same rfl rfl)) (.refl _))

theorem execGetHealthInfo_later {host : HostId} {s : State} : s.Leads (execGetHealthInfo host s) := .next mailbox_later

theorem execGetSupportedLogs_later {host : HostId} {s : State} : s.Leads (execGetSupportedLogs host s) := .next mailbox_later

theorem execMailboxUnsupported_later {host : HostId} {opcode : W16} {s : State} : s.Leads (execMailboxUnsupported host opcode s) :=
  .next (.ite (.refl _) mailbox_later)

theorem execDoeCdat_later {host : HostId} {s : State} : s.Leads (execDoeCdat host s) := .next (.ite send_later (.refl _))

/-! ### The operations of `Machine/PortsC.lean` -/

theorem execPresenceSweep_later {s : State} : s.Leads (execPresenceSweep s) := .next (.same rfl rfl)

theorem leaveDetect_later {s : State} {half : Nat} : s.Later lasting calm (s.leaveDetect half) := .ite (.same rfl rfl) (.refl _)

theorem trained_later {s : State} {half : Nat} {t : Train} :
    s.Later lasting false (s.trained half t) := .ite (setHalf_later.trans pgLit_later) fenceUnit_later

theorem execPerstAssert_later {pg : Fin 4} {s : State} : s.Leads (execPerstAssert pg s) :=
  .next (.ite (.refl _) (.trans (.same (by rfl) (by rfl)) (.foldl (fun _ _ => setHalf_later.trans
    (dropLink_later.trans (.ite setHalf_later (.refl _)))))))

theorem execPerstRelease_later {pg : Fin 4} {s : State} : s.Leads (execPerstRelease pg s) :=
  .next (.ite (.refl _) (.trans (.same (by rfl) (by rfl)) (.foldl (fun _ _ => leaveDetect_later.trans setHalf_later))))

theorem execHotReset_later {half : Fin 16} {s : State} : s.Leads (execHotReset half s) := .next (.ite (.refl _) (setHalf_later.trans dropLink_later))

theorem execLinkDown_later {half : Fin 16} {s : State} : s.Leads (execLinkDown half s) := .next (.ite (.refl _) dropLink_later)

theorem fnReset_later {s : State} {h : HostId} : s.Later lasting calm (s.fnReset h) := .ite (.refl _) (setHalf_later.trans hostEvent_later)

theorem execFunctionLevelReset_later {host : HostId} {s : State} : s.Leads (execFunctionLevelReset host s) := .next fnReset_later

theorem execCxlReset_later {host : HostId} {s : State} : s.Leads (execCxlReset host s) := .next fnReset_later

theorem execFreset_later {host : HostId} {s : State} : s.Leads (execFreset host s) := .next (.ite hostEvent_later (.refl _))

theorem bindWrite_later {s : State} {h : HostId} {value : W32} : s.Later lasting calm (s.bindWrite h value) := .ite rebind_later setBind_later

theorem execKdevBindWrite_later {host : HostId} {value : W32} {s : State} : s.Leads (execKdevBindWrite host value s) := .next bindWrite_later

theorem execLinkReturn_later {half : Fin 16} {train : Train} {s : State} : s.Leads (execLinkReturn half train s) :=
  .next (.ite (.refl _) (leaveDetect_later.trans (trained_later.trans (.ite (.foldl (fun _ _ => hostBack_later)) (.refl _)))))

theorem execD3coldEntry_later {host : HostId} {s : State} : s.Leads (execD3coldEntry host s) := .next (.ite hostEvent_later (.refl _))

theorem execD3hotEntry_later {host : HostId} {s : State} : s.Leads (execD3hotEntry host s) := .next (.ite (.refl _) (setFn_later.trans notice_later))

theorem execD0Entry_later {host : HostId} {s : State} : s.Leads (execD0Entry host s) :=
  .next (.ite hostBack_later (.ite (.refl _) (setFn_later.trans (.trans (.foldl (fun _ _ => signal_later)) notice_later))))

theorem execBusMasterDisable_later {host : HostId} {s : State} : s.Leads (execBusMasterDisable host s) :=
  .next (.ite (setFn_later.trans (loseWindows_later.trans afterLines_later)) (.refl _))

theorem execRtStreamIdle_later {half : Fin 16} {host : HostId} {region : RegionId} {s : State} : s.Leads (execRtStreamIdle half host region s) :=
  .next (.trans (.same (by rfl) (by rfl)) (.ite (.refl _) clearPanic_later))

theorem execTarnReadComplete_later {region : RegionId} {seg : Nat} {chk : Chk} {pick : W32} {s : State} :
    s.Leads (execTarnReadComplete region seg chk pick s) := by
  unfold execTarnReadComplete
  refine .next (.ite (.refl _) ?_)
  extract_lets _ s1
  have h_s1 : s.Later false false s1 := .same rfl rfl
  split
  exacts [h_s1.trans farRead_later, h_s1.trans (endMiss_later.trans rerun_later)]

theorem execCompletionTimeout_later {req : Nat} {s : State} : s.Leads (execCompletionTimeout req s) := by
  unfold execCompletionTimeout
  refine .next ?_
  split
  · exact .refl _
  · extract_lets s1 _ s2
    have h_s1 : s.Later false false s1 := send_later
    have h_s2 : s.Later false false s2 := h_s1.trans (.same rfl rfl)
    refine .ite (.refl _) (.ite (h_s1.trans (.same rfl rfl)) ?_)
    split
    exacts [h_s2.trans farRead_later, h_s2.trans (endMiss_later.trans rerun_later)]

theorem execL1IdleExpiry_later {half : Fin 16} {s : State} : s.Leads (execL1IdleExpiry half s) := .next (.ite (.refl _) setHalf_later)

theorem execL0pRequest_later {half : Fin 16} {width : BitVec 3} {s : State} : s.Leads (execL0pRequest half width s) :=
  .next (.ite (.refl _) setHalf_later)

theorem execLinkPowerStateChange_later {half : Fin 16} {link : BitVec 4} {s : State} : s.Leads (execLinkPowerStateChange half link s) :=
  .next (.ite (.refl _) (setHalf_later.trans (.ite pgLit_later (.refl _))))

theorem execCorrectedLinkError_later {half : Fin 16} {s : State} : s.Leads (execCorrectedLinkError half s) :=
  .next (.ite (setHalf_later.trans send_later) (.refl _))

theorem execMalformedTlp_later {half : Fin 16} {s : State} : s.Leads (execMalformedTlp half s) :=
  .next (.ite (send_later.trans dropLink_later) (.refl _))

theorem execIdeCheckFail_later {half : Fin 16} {s : State} : s.Leads (execIdeCheckFail half s) :=
  .next (.ite (setHalf_later.trans (send_later.trans dropLink_later)) (.refl _))

theorem execIdeKmMessage_later {half : Fin 16} {start : Bool} {s : State} : s.Leads (execIdeKmMessage half start s) :=
  .next (.ite setHalf_later (.refl _))

/-! ### The operations of `Machine/PeerC.lean` -/

theorem sendFrame_later {s : State} {m : PMove} {k : FrameKind} {region : RegionId} {seg seq count : Nat} {payload : List Byte} :
    s.Later lasting calm (s.sendFrame m k region seg seq count payload) :=
  .ite send_later (.refl _)

theorem putPm_later {s : State} {m : PMove} : s.Later lasting calm (s.putPm m) := .same rfl rfl

theorem startPm_later {s : State} {m : PMove} :
    s.Later lasting calm (s.startPm m) := .ite (.same rfl rfl) (.trans (.same (by rfl) (by rfl)) (.ite sendFrame_later (.refl _)))

theorem endPm_later {s : State} {m : PMove} : s.Later lasting calm (s.endPm m) := by
  unfold State.endPm
  extract_lets _ s1
  have h_s1 : s.Later lasting calm s1 := .same rfl rfl
  split
  exacts [h_s1.trans (.trans (.same (by rfl) (by rfl)) startPm_later), h_s1]

theorem revokeAll_later {s : State} {r : RegionId} : s.Later lasting calm (s.revokeAll r) :=
  .foldl (fun _ _ => .ite (.refl _) (.trans (.same (by rfl) (by rfl)) dcEvent_later))

theorem leaveDone_later {s : State} {n : Nat} : s.Later lasting calm (s.leaveDone n) := by
  unfold State.leaveDone
  split
  exacts [.refl _, .ite (.refl _) (.trans (.same (by rfl) (by rfl)) (freeRegion_later.trans narrowDone_later))]

theorem unEvacuate_later {s : State} {r : RegionId} : s.Later lasting calm (s.unEvacuate r) := by
  unfold State.unEvacuate
  split
  · exact .refl _
  · extract_lets _ s1 n
    have h_s1 : s.Later lasting calm s1 := .same rfl rfl
    exact h_s1.trans (change_later.trans journalEnt_later)

theorem failPm_later {s : State} {m : PMove} {status : Byte} {detail : W16} : s.Later lasting calm (s.failPm m status detail) := by
  unfold State.failPm
  extract_lets s1
  have h_s1 : s.Later lasting calm s1 := endPm_later
  split
  · exact h_s1
  · extract_lets s2
    have h_s2 : s.Later lasting calm s2 := h_s1.trans (.ite unEvacuate_later (.refl _))
    exact h_s2.trans opEnd_later

theorem okPm_later {s : State} {m : PMove} : s.Later lasting calm (s.okPm m) := by
  unfold State.okPm
  extract_lets s1
  have h_s1 : s.Later lasting calm s1 := endPm_later
  split
  exacts [h_s1, h_s1.trans (.ite (.trans (.same (by rfl) (by rfl)) (revokeAll_later.trans leaveDone_later)) opEnd_later)]

theorem peerRead_later {s0 : State} {r : RegionId} {seg : Nat} {c : Chk} {got : Bool} : s0.Later lasting calm (s0.peerRead r seg c got).1 := by
  unfold State.peerRead
  refine .ite_fst (.refl _) (.ite_fst wakeFor_later ?_)
  extract_lets ex s e
  have h_s : s0.Later lasting calm s := checkSme_later
  refine .ite_fst (.foldl (fun _ _ => snoop_later)) (.ite_fst h_s (.ite_fst (h_s.trans startMiss_later) ?_))
  split
  · refine .ite_fst (h_s.trans imageFault_later) ?_
    split
    exacts [h_s.trans (noteChk_later.trans touch_later), h_s.trans imageFault_later]
  · refine .ite_fst (h_s.trans startMiss_later) (.ite_fst (h_s.trans (homeFault_later (tag := c == .tag) (form := false))) ?_)
    split
    exacts [h_s.trans (.trans (.ite noteChk_later (.refl _)) touch_later), h_s.trans (homeFault_later (tag := false) (form := true))]
  · exact h_s.trans touch_later

theorem pump_later {s : State} {m : PMove} {c : Chk} {n : Nat} : s.Later lasting calm (s.pump m c n) := by
  induction n generalizing s m c with
  | zero => exact .refl s
  | succ n ih =>
    unfold State.pump
    refine .ite (.ite (.refl _) (.trans (putPm_later.trans sendFrame_later) (.ite okPm_later (.refl _)))) (.ite (.refl _) ?_)
    extract_lets k
    split
    · exact (peerRead_later.of_eq (by assumption)).trans (putPm_later.trans (sendFrame_later.trans ih))
    · exact peerRead_later.of_eq (by assumption)
    · exact (peerRead_later.of_eq (by assumption)).trans failPm_later
    · exact (peerRead_later.of_eq (by assumption)).trans failPm_later

theorem peerWrite_later {s0 : State} {r : RegionId} {seg : Nat} {b : List Byte} {pick : W32} :
    s0.Later lasting calm (s0.peerWrite r seg b pick).1 := by
  unfold State.peerWrite
  extract_lets s1 s s2 s3
  have h_s1 : s0.Later lasting calm s1 := recallRange_later
  have h_s : s0.Later lasting calm s := h_s1.trans checkSme_later
  have h_s2 : s0.Later lasting calm s2 := h_s.trans cancelMove_later
  have h_s3 : s0.Later lasting calm s3 := h_s2.trans endTrial_later
  refine .ite_fst h_s (.ite_fst (h_s.trans poisonWrite_later) ?_)
  split
  · exact h_s
  · exact h_s.trans capacityFatal_later
  · split
    · exact ((h_s3.trans (.trans (.ite overAdmit_later (.refl _)) storeFresh_later)).of_eq (by assumption))
    · exact ((h_s3.trans (.trans (.ite overAdmit_later (.refl _)) storeFresh_later)).of_eq (by assumption)).trans (.same rfl rfl)

theorem drainPm_later {s : State} {m : PMove} {pick : W32} {n : Nat} : s.Later lasting calm (s.drainPm m pick n) := by
  induction n generalizing s m with
  | zero => exact .refl s
  | succ n ih =>
    unfold State.drainPm
    refine .ite (sendFrame_later.trans (.ite okPm_later endPm_later)) ?_
    split
    · exact putPm_later
    · extract_lets seg
      clear_value seg
      split
      · exact (peerWrite_later.of_eq (by assumption)).trans putPm_later
      · exact (peerWrite_later.of_eq (by assumption)).trans (.trans (.ite sendFrame_later (.refl _)) (putPm_later.trans ih))

theorem takeFrame_later {s : State} {pbr : BitVec 12} {x : PFrame} {crcOk : Bool} {f : W16 → State} (hf : ∀ p, s.Later lasting calm (f p)) :
    s.Later lasting calm (s.takeFrame pbr x crcOk f) := by
  unfold State.takeFrame
  refine .ite (.refl _) ?_
  split
  exacts [.refl _, .ite (hf _) sendFrame_later]

theorem execPeerDataFrame_later {pbr : BitVec 12} {frame : PFrame} {crcOk : Bool} {pick : W32} {s : State} :
    s.Leads (execPeerDataFrame pbr frame crcOk pick s) := by
  unfold execPeerDataFrame
  refine .ite .fault (.next ?_)
  split
  · exact .refl _
  · extract_lets q
    split
    · exact .ite (.refl _) (.ite (.ite failPm_later (putPm_later.trans sendFrame_later)) (.ite endPm_later drainPm_later))
    · exact takeFrame_later (fun _ => .ite (.refl _) (startPm_later.trans drainPm_later))

theorem execPeerPullFrame_later {pbr : BitVec 12} {frame : PFrame} {check : FrameCheck} {s : State} : s.Leads (execPeerPullFrame pbr frame check s) :=
  .next (takeFrame_later (fun _ => .ite (.refl _) (startPm_later.trans (.ite pump_later (.refl _)))))

theorem execPeerAckFrame_later {pbr : BitVec 12} {frame : PFrame} {check : FrameCheck} {s : State} :
    s.Leads (execPeerAckFrame pbr frame check s) := by
  unfold execPeerAckFrame
  refine .next (takeFrame_later (fun _ => ?_))
  split
  · exact .refl _
  · extract_lets n m1 s1
    have h_s1 : s.Later false false s1 := putPm_later
    exact .ite (.refl _) (h_s1.trans (.ite (.ite okPm_later endPm_later) pump_later))

theorem execPeerNakFrame_later {pbr : BitVec 12} {frame : PFrame} {crcOk : Bool} {s : State} : s.Leads (execPeerNakFrame pbr frame crcOk s) := by
  unfold execPeerNakFrame
  refine .next (takeFrame_later (fun _ => ?_))
  split
  · exact .refl _
  · extract_lets q
    refine .ite (.refl _) (.ite failPm_later ?_)
    split
    · exact (peerRead_later.of_eq (by assumption)).trans (putPm_later.trans sendFrame_later)
    · exact (peerRead_later.of_eq (by assumption)).trans failPm_later
    · exact (peerRead_later.of_eq (by assumption)).trans failPm_later
    · exact (peerRead_later.of_eq (by assumption))

theorem execPeerDoneFrame_later {pbr : BitVec 12} {frame : PFrame} {crcOk : Bool} {s : State} : s.Leads (execPeerDoneFrame pbr frame crcOk s) := by
  unfold execPeerDoneFrame
  refine .next (takeFrame_later (fun _ => ?_))
  split
  exacts [.refl _, drainPm_later]

theorem execPeerMoveTimeout_later {tag : W32} {s : State} : s.Leads (execPeerMoveTimeout tag s) := by
  unfold execPeerMoveTimeout
  refine .next ?_
  split
  · exact failPm_later
  · split
    exacts [endPm_later, .refl _]

theorem evacStart_later {s : State} {n : Nat} {o : COp} : s.Later lasting calm (s.evacStart n o) :=
  recallRegion_later.trans (.ite (.refl _) (startPm_later.trans (.ite pump_later (.refl _))))

theorem runPeers_later {s : State} : s.Later lasting calm s.runPeers :=
  .ite (.refl _) (.trans (.foldl (fun _ _ => .ite (.refl _) evacStart_later)) (.trans (.foldl (fun _ _ => by
    split
    exacts [.refl _, .ite pump_later drainPm_later])) (.foldl (fun _ _ => leaveDone_later))))

theorem startPeer_later {s : State} {o : COp} {sends : Bool} {c : Chk} : s.Later lasting calm (s.startPeer o sends c) :=
  newOp_later.trans (startPm_later.trans (.ite pump_later (.refl _)))

theorem execMovePeerPush_later {prog : Nat} {view : PushView} {s : State} : s.Leads (execMovePeerPush prog view s) :=
  .next (control_later (fun _ _ _ => .ite (.refl _) (guarded_later startPeer_later)))

theorem execMovePeerPull_later {prog : Nat} {peer : PeerView} {s : State} : s.Leads (execMovePeerPull prog peer s) :=
  .next (control_later (fun _ _ _ => .ite (.refl _) (guarded_later startPeer_later)))

theorem evacChange_later {s : State} {n : Nat} {r : RegionId} : s.Later lasting calm (s.evacChange n r) := by
  unfold State.evacChange
  extract_lets rw hosts before s1 _ s2 s3 s4
  have h_s1 : s.Later lasting calm s1 := change_later
  have h_s2 : s.Later lasting calm s2 := h_s1.trans (.same rfl rfl)
  have h_s3 : s.Later lasting calm s3 := h_s2.trans (journalEnt_later.trans (fixOffers_later.trans lampRegionGone_later))
  have h_s4 : s.Later lasting calm s4 := h_s3.trans (.foldl (fun _ _ => lampGrantsGone_later))
  exact h_s4.trans (.same rfl rfl)

theorem execEvacuate_later {prog : Nat} {peerOk : PeerView} {stall : Bool} {s : State} : s.Leads (execEvacuate prog peerOk stall s) := by
  unfold execEvacuate
  exact .next (control_later (fun _ _ _ => .ite (.refl _) (guarded_later (.ite (ctlWait_later.trans stallEntry_later)
    (newOp_later.trans (evacChange_later.trans runPeers_later))))))

/-! ### The operations of `Machine/PowerC.lean` -/

theorem execSupplyRange_later {vin : W16} {s : State} :
    s.Leads (execSupplyRange vin s) := .next (.trans (.same (by rfl) (by rfl)) (.ite post_later (.refl _)))

theorem execSupplySag_later {vin : W16} {s : State} : s.Leads (execSupplySag vin s) := by
  unfold execSupplySag
  refine .next (.ite (.refl _) ?_)
  refine .ite (.sameInTime rfl rfl) ?_
  extract_lets _ s1 _ s2
  have h_s1 : s.Later false false s1 := .sameInTime rfl rfl
  have h_s2 : s.Later false false s2 := h_s1.trans post_later
  refine .ite (h_s1.trans (.sameInTime rfl rfl)) ?_
  split
  exacts [h_s2.trans (.sameInTime rfl rfl), h_s2]

theorem execSagEnd_later {vin : W16} {s : State} :
    s.Leads (execSagEnd vin s) := .next (.ite (.refl _) (.ite (.sameInTime rfl rfl) (.sameInTime rfl rfl)))

theorem execSagTimerReset_later {s : State} : s.Leads (execSagTimerReset s) := .next (.ite (.refl _) (.same rfl rfl))

theorem execRideThroughExpiry_later {s : State} : s.Leads (execRideThroughExpiry s) :=
  .next (.ite (.trans (.sameInTime (by rfl) (by rfl)) duskTrigger_later) (.refl _))

theorem execOvervoltage_later {vin : W16} {s : State} : s.Leads (execOvervoltage vin s) :=
  .next (.ite (.refl _) (.trans (.sameInTime (by rfl) (by rfl)) duskTrigger_later))

theorem execOvercurrent_later {s : State} : s.Leads (execOvercurrent s) := .next (.trans (.sameInTime (by rfl) (by rfl)) duskTrigger_later)

theorem execPilotDuskTimeout_later {s : State} : s.Leads (execPilotDuskTimeout s) := by
  unfold execPilotDuskTimeout
  refine .next ?_
  split
  exacts [.ite (.refl _) commandFlush_later, .refl _]

theorem execDuskFlushEnd_later {s : State} : s.Leads (execDuskFlushEnd s) := by
  unfold execDuskFlushEnd
  refine .next ?_
  split
  · exact .ite (.refl _) (flushKeep_later.trans (.trans (.ite checkpoint_later (.refl _)) (powerDown_later.trans .sledUnit)))
  · exact .refl _

theorem charging_later {s : State} : s.Later lasting calm s.charging := .same rfl rfl

theorem applyMeas_later {s : State} {j : Nat} :
    s.Later lasting calm (s.applyMeas j) := .ite (.trans (.same (by rfl) (by rfl)) (post_later.trans advise_later)) (.same rfl rfl)

theorem execHoldupMeasure_later {joules : Nat} {ok : Bool} {s : State} : s.Leads (execHoldupMeasure joules ok s) := by
  unfold execHoldupMeasure
  refine .next (.ite (.refl _) ?_)
  extract_lets p s1 n _ s2 _ s3 u
  have h_s1 : s.Later false false s1 := .trans (.same (by rfl) (by rfl)) charging_later
  clear_value s1
  have h_s3 : s.Later false false s3 := h_s1.trans (.trans (.same (by rfl) (by rfl)) rebudget_later)
  have h_u : s.Later false false u := h_s1.trans (.same rfl rfl)
  refine .ite (.ite (h_s1.trans (.same rfl rfl)) (h_s3.trans (.ite post_later (.refl _))))
    (h_u.trans (.trans (.ite applyMeas_later ?_) rebudget_later))
  split
  exacts [.ite applyMeas_later (.same rfl rfl), .same rfl rfl]

theorem execHoldupChargeComplete_later {joules : Nat} {s : State} : s.Leads (execHoldupChargeComplete joules s) :=
  .next (.trans (.same (by rfl) (by rfl)) (.ite rebudget_later (.refl _)))

theorem execHoldupStoreExhausted_later {written : Nat} {s : State} : s.Leads (execHoldupStoreExhausted written s) := by
  unfold execHoldupStoreExhausted
  refine .next (.ite (.refl _) ?_)
  split
  exacts [.ite (flushSome_later.trans powerDown_later) powerDown_later, .ite powerDown_later (.refl _)]

theorem execStoreAdmitTimeout_later {req : Nat} {pick : W32} {s : State} : s.Leads (execStoreAdmitTimeout req pick s) := by
  unfold execStoreAdmitTimeout
  refine .next ?_
  split
  exacts [.ite runHeld_later (.refl _), .refl _]

theorem execWritebackEscalate_later {s : State} :
    s.Leads (execWritebackEscalate s) := .next (.ite (.refl _) (.trans (.same (by rfl) (by rfl)) wbRun_later))

theorem execLedgerRequest_later {entry : Fin 21} {ceil : W16} {perm : BitVec 2} {s : State} : s.Leads (execLedgerRequest entry ceil perm s) :=
  .next (.ite (.refl _) (setLedger_later.trans (.ite answerAll_later (.refl _))))

theorem execLedgerGrant_later {entry : Fin 21} {ceil : W16} {perm : BitVec 2} {s : State} : s.Leads (execLedgerGrant entry ceil perm s) :=
  .next (.ite writeGrant_later (.refl _))

theorem obey_later {s : State} {i : Nat} : s.Later lasting calm (s.obey i) := setPst_later.trans (.ite selfRefresh_later (.refl _))

theorem execLedgerAck_later {entry : Fin 21} {seq : Byte} {s : State} : s.Leads (execLedgerAck entry seq s) :=
  .next (.ite (setLedger_later.trans (obey_later.trans (.ite answerAll_later (.refl _)))) (.ite setLedger_later (.refl _)))

theorem execLedgerForced_later {entry : Fin 21} {s : State} : s.Leads (execLedgerForced entry s) :=
  .next (.ite (.refl _) (.trans (.same (by rfl) (by rfl)) post_later))

theorem execLedgerIdleLower_later {entry : Fin 21} {s : State} : s.Leads (execLedgerIdleLower entry s) := .next (.ite writeGrant_later (.refl _))

theorem execHwWakeGrant_later {entry : Fin 21} {s : State} : s.Leads (execHwWakeGrant entry s) :=
  .next (.ite (.refl _) (writeGrant_later.trans setLedger_later))

theorem execGovernorEstimate_later {entry : Fin 21} {draw : W16} {s : State} : s.Leads (execGovernorEstimate entry draw s) := .next setLedger_later

theorem execCapSample_later {vin iin pin : W16} {s : State} : s.Leads (execCapSample vin iin pin s) :=
  .next (.trans (.same (by rfl) (by rfl)) (.ite (.refl _) (.trans (.ite lowerTenth_later (.refl _)) post_later)))

theorem execTrimIdleExpiry_later {entry : Fin 21} {s : State} : s.Leads (execTrimIdleExpiry entry s) := .next (.ite setPst_later (.refl _))

theorem execBankIdleExpiry_later {entry : Fin 21} {s : State} : s.Leads (execBankIdleExpiry entry s) :=
  .next (.ite (writeGrant_later.trans (setLedger_later.trans (setPst_later.trans (.ite selfRefresh_later (.refl _))))) (.refl _))

theorem execTrimmedPermTimer_later {tile : Fin 12} {s : State} : s.Leads (execTrimmedPermTimer tile s) := .next (.ite writeGrant_later (.refl _))

theorem tilePllFail_later {s : State} {k : Nat} : s.Later lasting false (s.tilePllFail k) := post_later.trans (trace_later.trans fenceUnits_later)

theorem execTileWakeDone_later {tile : Fin 12} {lockOk : Bool} {s : State} : s.Leads (execTileWakeDone tile lockOk s) :=
  .next (.ite (.refl _) (.trans (.ite selfRefresh_later (.refl _)) (setPst_later.trans (.trans (.ite (.refl _) tilePllFail_later) rerun_later))))

theorem loadProfile_later {s : State} {f : Profile} : s.Later lasting calm (s.loadProfile f) := .same rfl rfl

theorem execPowerProfile_later {prog : Nat} {s : State} : s.Leads (execPowerProfile prog s) :=
  .next (control_later (fun _ _ _ => guarded_later (.same rfl rfl)))

theorem execProfileSwitchDone_later {s : State} : s.Leads (execProfileSwitchDone s) := by
  unfold execProfileSwitchDone
  refine .next ?_
  split
  · exact .refl _
  · extract_lets s1 _ s2 s3
    have h_s1 : s.Later false false s1 := loadProfile_later
    have h_s2 : s.Later false false s2 := h_s1.trans (.same rfl rfl)
    have h_s3 : s.Later false false s3 := h_s2.trans (.ite (.foldl (fun _ _ => .ite (.refl _) writeGrant_later)) (.refl _))
    exact h_s3.trans okOn_later

theorem sensor_later {s : State} {i : Nat} {good : Bool} : s.Later lasting calm (s.sensor i good) := .same rfl rfl

theorem junction_later {s : State} {c : Nat} {t : Option W16} : s.Later lasting calm (s.junction c t) := by
  unfold State.junction
  extract_lets s1 rest
  have h_s1 : s.Later lasting calm s1 := sensor_later
  split
  · exact h_s1
  · extract_lets hot s2
    have h_s2 : s.Later lasting calm s2 := h_s1.trans (.same rfl rfl)
    exact h_s2.trans (.ite (.trans (.same (by rfl) (by rfl)) post_later) (.refl _))

theorem inletRead_later {s : State} {t : Option W16} : s.Later lasting calm (s.inletRead t) := by
  unfold State.inletRead
  split
  · exact .refl _
  · extract_lets hot _ s1
    have h_s1 : s.Later lasting calm s1 := .same rfl rfl
    exact h_s1.trans (.ite post_later (.refl _))

theorem nandRead_later {s : State} {g : Nat} {t : Option W16} : s.Later lasting calm (s.nandRead g t) :=
  sensor_later.trans (.power (by rfl) (by rfl))

theorem execThermalRead_later {tjw tje inlet nand0 nand1 nand2 nand3 : Option W16} {s : State} :
    s.Leads (execThermalRead tjw tje inlet nand0 nand1 nand2 nand3 s) := by
  unfold execThermalRead
  exact .next (.ite (.refl _) (nandRead_later.trans (nandRead_later.trans (nandRead_later.trans
    (nandRead_later.trans (inletRead_later.trans (junction_later.trans (junction_later.trans
    (countThr_later.trans (.ite duskTrigger_later (.refl _)))))))))))

theorem execRcCalibrate_later {factor : W16} {s : State} : s.Leads (execRcCalibrate factor s) := .next (.ite (.same rfl rfl) (.refl _))

theorem execCrystalFail_later {s : State} : s.Leads (execCrystalFail s) :=
  .next (.trans (.same (by rfl) (by rfl)) (.ite (post_later.trans trace_later) (.refl _)))

theorem execFastRefFail_later {ref : Fin 2} {s : State} : s.Leads (execFastRefFail ref s) := by
  unfold execFastRefFail
  exact .next (.ite (.refl _) (.trans (.same (by rfl) (by rfl)) (.ite (.refl _) (post_later.trans
    (trace_later.trans (.ite (.refl _) (.trans (.foldl (fun _ _ => selfRefresh_later)) askVigil_later)))))))

theorem execTilePllLockFail_later {tile : Fin 12} {s : State} : s.Leads (execTilePllLockFail tile s) := .next (.ite tilePllFail_later (.refl _))

theorem execStackPllLockFail_later {stack : Fin 12} {s : State} : s.Leads (execStackPllLockFail stack s) :=
  .next (.ite (post_later.trans (trace_later.trans fenceUnit_later)) (.refl _))

/-! ### The operations of `Machine/FenceC.lean` -/

theorem execFenceSet_later {bit : Fin 1584} {cause : Byte} {set : FenceBy} {s : State} : s.Leads (execFenceSet bit cause set s) :=
  .next (.ite (.refl _) fenceUnits_later)

theorem execFenceRecovery_later {bit : Fin 1584} {lost : List Nat} {s : State} : s.Leads (execFenceRecovery bit lost s) :=
  .next (.ite (.refl _) recover_later)

theorem ackWrite_later {s : State} {h : HostId} {value : W32} : s.Later lasting calm (s.ackWrite h value) := .ite (.refl _) setReader_later

theorem execKevtAckWrite_later {host : HostId} {value : W32} {s : State} : s.Leads (execKevtAckWrite host value s) := .next ackWrite_later

theorem execKevtLostRead_later {host : HostId} {s : State} : s.Leads (execKevtLostRead host s) :=
  .next (.ite (.refl _) (setReader_later.trans send_later))

theorem vector0_later {s : State} {h : HostId} : s.Later lasting calm (s.vector0 h) := .ite setReader_later (setReader_later.trans signal_later)

theorem ctlWrite_later {s : State} {h : HostId} {value : W32} : s.Later lasting calm (s.ctlWrite h value) :=
  .ite (.refl _) (setReader_later.trans (.ite vector0_later (.refl _)))

theorem execKevtCtlWrite_later {host : HostId} {value : W32} {s : State} : s.Leads (execKevtCtlWrite host value s) := .next ctlWrite_later

theorem execEventVectorSpacing_later {host : HostId} {s : State} : s.Leads (execEventVectorSpacing host s) :=
  .next (.ite (.refl _) (.ite (setReader_later.trans signal_later) setReader_later))

theorem safeUpdate_later {s : State} : s.Later lasting false s.safeUpdate := .trans (.sameInTime (by rfl) (by rfl)) (.ite post_later (.refl _))

theorem execLatchOpen_later {s : State} : s.Leads (execLatchOpen s) :=
  .next (.ite (.refl _) (.trans (.sameInTime (by rfl) (by rfl)) (post_later.trans duskTrigger_later)))

theorem execBridgeLinkFail_later {s : State} : s.Leads (execBridgeLinkFail s) := by
  unfold execBridgeLinkFail
  exact .next (.ite (.refl _) (.trans (.sameInTime (by rfl) (by rfl)) (post_later.trans
    (advise_later.trans (.ite askVigil_later (.ite (.refl _) (.trans (.sameInTime (by rfl) (by rfl)) (post_later.trans duskTrigger_later))))))))

/-! ### The operations of `Machine/WdC.lean` -/

theorem markFallback_later {s : State} : s.Later lasting calm s.markFallback := .ite (.same rfl rfl) (.refl _)

theorem ladderUp_later {s : State} {x : Rung} {cause : Nat} : s.Later lasting false (s.ladderUp x cause) := by
  unfold State.ladderUp
  split
  · exact .refl _
  · exact markFallback_later.trans askVigil_later
  · exact markFallback_later.trans (.ite askVigil_later askRestart_later)
  · exact markFallback_later.trans askVigil_later
  · exact .refl _

theorem setWde_later {s : State} {n : Nat} {w : Wde} : s.Later lasting calm (s.setWde n w) := .same rfl rfl

theorem restartUnit_later {s : State} {n : Nat} : s.Later lasting calm (s.restartUnit n) :=
  setWde_later.trans (traceReset_later.trans (.ite (endOn_later.trans (.same rfl rfl)) (.foldl (fun _ _ => endOn_later))))

theorem tripWde_later {s : State} {n least : Nat} : s.Later lasting false (s.tripWde n least) :=
  setWde_later.trans (post_later.trans (.ite restartUnit_later ladderUp_later))

theorem tripWdp_later {s : State} {last : BitVec 2} : s.Later lasting false (s.tripWdp last) :=
  .ite (.trans (.same (by rfl) (by rfl)) traceReset_later) (.trans (.same (by rfl) (by rfl)) ladderUp_later)

theorem execWdpStart_later {cfg : W32} {s : State} : s.Leads (execWdpStart cfg s) := .next (.ite (.refl _) (.same rfl rfl))

theorem execWdpService_later {key : W32} {s : State} : s.Leads (execWdpService key s) :=
  .next (.ite (.refl _) (.trans (.ite (.refl _) (.same (by rfl) (by rfl))) (.ite (.same rfl rfl)
    (.ite (.same rfl rfl) (.trans (.same (by rfl) (by rfl)) tripWdp_later)))))

theorem execWdpEarlyWarning_later {s : State} :
    s.Leads (execWdpEarlyWarning s) := .next (.ite (.refl _) (.trans (.same (by rfl) (by rfl)) post_later))

theorem execWdpTimeout_later {s : State} : s.Leads (execWdpTimeout s) := .next (.ite tripWdp_later (.refl _))

theorem execWdpOscFail_later {s : State} : s.Leads (execWdpOscFail s) := .next (.ite (.trans (.same (by rfl) (by rfl)) trace_later) (.refl _))

theorem wdeSvc_later {s : State} {n : Nat} {key : W32} : s.Later lasting false (s.wdeSvc n key) :=
  .ite (.refl _) (.ite setWde_later (setWde_later.trans (.ite (.refl _) tripWde_later)))

theorem execWdeService_later {n : Fin 16} {key : W32} {s : State} : s.Leads (execWdeService n key s) := .next wdeSvc_later

theorem execWdeTimeout_later {n : Fin 16} {s : State} : s.Leads (execWdeTimeout n s) := .next (.ite tripWde_later (.refl _))

theorem execWdeClockMonitor_later {n : Fin 16} {s : State} : s.Leads (execWdeClockMonitor n s) :=
  .next (.ite (setWde_later.trans tripWde_later) (.refl _))

theorem wdeDis_later {s : State} {n : Nat} {key : W32} : s.Later lasting calm (s.wdeDis n key) :=
  .ite (.refl _) (.ite setWde_later (.ite setWde_later (.ite setWde_later setWde_later)))

theorem execWdeDisableKey_later {n : Fin 16} {key : W32} {s : State} : s.Leads (execWdeDisableKey n key s) := .next wdeDis_later

theorem writeWdeCfg_later {s : State} {n : Nat} {cfg : W32} : s.Later lasting calm (s.writeWdeCfg n cfg) := setWde_later

theorem execWdeEnable_later {n : Fin 16} {cfg : W32} {s : State} : s.Leads (execWdeEnable n cfg s) := .next (.ite writeWdeCfg_later (.refl _))

theorem execWdeLock_later {n : Fin 16} {cfg : W32} {s : State} : s.Leads (execWdeLock n cfg s) := .next (.ite writeWdeCfg_later (.refl _))

theorem execDispatcherStall_later {s : State} : s.Leads (execDispatcherStall s) := by
  unfold execDispatcherStall
  refine .next ?_
  split
  exacts [.ite tripWde_later (.refl _), .refl _]

theorem wdTick_later {s : State} : s.Later lasting calm s.wdTick := .same rfl rfl

theorem powerOffNow_later {s : State} : s.Later false false s.powerOffNow :=
  .ite (.ite (.sameInTime rfl rfl) (powerDown_later.trans .sledUnit)) duskTrigger_later

theorem pilotBack_later {s : State} : s.Later lasting false s.pilotBack := by
  unfold State.pilotBack
  extract_lets _ s1
  have h_s1 : s.Later lasting false s1 := .same rfl rfl
  split
  exacts [h_s1.trans (.ite (.refl _) commandFlush_later), h_s1]

theorem execUnitRestartDone_later {n : Fin 17} {failed : List Nat} {s : State} : s.Leads (execUnitRestartDone n failed s) := by
  unfold execUnitRestartDone
  exact .next (.ite (.ite (.refl _) (.ite pilotBack_later (.trans (.same (by rfl) (by rfl)) powerOffNow_later)))
    (.ite (.refl _) (setWde_later.trans (.ite (.trans (.foldl (fun _ _ => rollbackEnd_later)) (.ite adopt_later fenceUnit_later))
    (.foldl (fun _ _ => fenceUnit_later))))))

theorem execKeepFlushDone_later {s : State} : s.Leads (execKeepFlushDone s) := by
  unfold execKeepFlushDone
  refine .next ?_
  split
  · extract_lets s1
    have h_s1 : s.Later false false s1 := flushKeep_later
    refine .ite (h_s1.trans powerDown_later) ?_
    split
    exacts [h_s1.trans enterVigil_later, h_s1.trans restart_later]
  · extract_lets s1
    have h_s1 : s.Later false false s1 := flushKeep_later
    exact h_s1.trans (.ite powerDown_later vigilSettle_later)
  · exact .refl _

theorem mgmt_later {s : State} {code : Nat} {words : List W64} : s.Later lasting calm (s.mgmt code words) := send_later

theorem mgmtIn_later {s : State} {v : Via} {accepts : Bool} {f : State} (hf : s.Later lasting calm f) : s.Later lasting calm (s.mgmtIn v accepts f) :=
  .ite (.refl _) (.ite hf (.ite mgmt_later (.refl _)))

theorem asks_later {s : State} {v : Via} {c : Instr} {f : State} (hf : s.Later lasting calm f) : s.Later lasting calm (s.asks v c f) :=
  .ite hf (.ite (.refl _) (.ite (.ite mgmt_later (.refl _)) (.ite (.ite (.same rfl rfl) mgmt_later) (.ite mgmt_later hf))))

theorem mgmtOwner_later {s : State} {v : Via} {accepts : Bool} {f : State} (hf :
    s.Later lasting calm f) : s.Later lasting calm (s.mgmtOwner v accepts f) :=
  mgmtIn_later (.ite hf mgmt_later)

theorem execWarmRestart_later {via : Via} {s : State} : s.Leads (execWarmRestart via s) :=
  .next (asks_later (mgmtOwner_later (mgmt_later.trans (.ite (.sameInTime rfl rfl) askRestart_later))))

theorem execEnterVigil_later {via : Via} {s : State} : s.Leads (execEnterVigil via s) :=
  .next (asks_later (mgmtOwner_later (mgmt_later.trans askVigil_later)))

theorem execClearTries_later {via : Via} {s : State} : s.Leads (execClearTries via s) :=
  .next (asks_later (mgmtOwner_later (mgmt_later.trans (.same rfl rfl))))

theorem execPowerOff_later {via : Via} {s : State} : s.Leads (execPowerOff via s) :=
  .next (asks_later (mgmtOwner_later (mgmt_later.trans powerOffNow_later)))

theorem execResetButtonPress_later {s : State} : s.Leads (execResetButtonPress s) := .next (.ite (.refl _) (.same rfl rfl))

theorem classed_later {s : State} {ms cls : Nat} : s.Later lasting calm (s.classed ms cls) := .trans (.same (by rfl) (by rfl)) post_later

theorem execResetButtonRelease_later {ms : Nat} {s : State} : s.Leads (execResetButtonRelease ms s) :=
  .next (.ite (.refl _) (.ite (.same rfl rfl) (.ite (.same rfl rfl) (.trans (.same (by rfl) (by rfl))
    (.ite (.refl _) (classed_later.trans (.ite (.refl _) askRestart_later)))))))

theorem execResetButton10s_later {s : State} : s.Leads (execResetButton10s s) :=
  .next (.ite (.refl _) (.trans (.same (by rfl) (by rfl)) (classed_later.trans askVigil_later)))

theorem buttonFaulty_later {s : State} {ms : Nat} :
    s.Later lasting calm (s.buttonFaulty ms) := .trans (.same (by rfl) (by rfl)) (classed_later.trans post_later)

theorem execResetFaulty_later {s : State} : s.Leads (execResetFaulty s) := .next (.ite (.refl _) buttonFaulty_later)

theorem execResetButtonRestored_later {s : State} : s.Leads (execResetButtonRestored s) := .next (.ite (.same rfl rfl) (.refl _))

/-! ### The operations of `Machine/Regs.lean` -/

theorem writePort_later {s : State} {n : Nat} {v : W64} : s.Later lasting calm (s.writePort n v) := .same rfl rfl

theorem writeCap_later {s : State} {v : W64} : s.Later lasting calm (s.writeCap v) :=
  .trans (.same (by rfl) (by rfl)) (.trans (.ite (underCap_later.trans answerAll_later) (.refl _)) (.ite rebudget_later (.refl _)))

theorem trimDebt_later {s : State} : s.Later lasting calm s.trimDebt := .foldl (fun _ _ => .ite (.refl _) (.same rfl rfl))

theorem writePndCtl_later {s : State} {n : Nat} {v act : W64} : s.Later lasting calm (s.writePndCtl n v act) :=
  .ite (.refl _) (setPch_later.trans (.ite needTrain_later (.refl _)))

theorem writePnd_later {s : State} {a : Nat} {v : W64} : s.Later lasting calm (s.writePnd a v) :=
  .ite .pondUnit (.ite (.trans .pondUnit trimDebt_later) (.ite .pondUnit (.refl _)))

theorem writeLakCtl_later {s : State} {v : W64} : s.Later lasting calm (s.writeLakCtl v) := .ite .lakeUnit (.refl _)

theorem restart_inBounds {x : TrcS} : x.restart.wrptr < 32768 ∧ x.restart.held ≤ 32768 := by simp [TrcS.restart]

theorem writeTrcCtl_later {s : State} {v act : W64} : s.Later lasting calm (s.writeTrcCtl v act) :=
  .traceUnit (fun h => by
    dsimp only [TrcS.freeze]
    split
    exacts [restart_inBounds, h])

theorem writeMark_later {s : State} {m : Nat} : s.Later lasting calm (s.writeMark m) := trace_later

theorem writeChnCtl_later {s : State} {v : W64} : s.Later lasting calm (s.writeChnCtl v) := .same rfl rfl

theorem regPut_later {s : State} {a : Nat} {v act : W64} {mgmt : Bool} : s.Later lasting false (s.regPut a v act mgmt) := by
  unfold State.regPut
  exact .ite writePort_later (.ite (.ite bindWrite_later (.refl _)) (.ite writeCap_later
    (.ite (.ite writePndCtl_later (.refl _)) (.ite writePnd_later (.ite
    writeLakCtl_later (.ite (.ite (.refl _) (.same rfl rfl)) (.ite (.ite writeWdeCfg_later
      (.ite (.ite wdeSvc_later (.refl _)) (.ite wdeDis_later (.refl _))))
    (.ite writeChnCtl_later (.ite (.same rfl rfl) (.ite (.ite (.same rfl rfl) (.refl _)) (.ite writeTrcCtl_later (.ite (.traceUnit (fun h => h))
    (.ite writeMark_later (.refl _))))))))))))))

theorem loadSettings_later {s : State} : s.Later lasting false s.loadSettings := .foldl (fun _ _ => .ite (.refl _) regPut_later)

theorem loadFences_later {s : State} : s.Later lasting false s.loadFences := .foldl (fun _ _ => .foldl (fun _ _ => .ite setBit_later (.refl _)))

theorem regWrite_later {s : State} {a : Nat} {v m : W64} {mgmt : Bool} : s.Later lasting false (s.regWrite a v m mgmt) :=
  regPut_later.trans (.ite (.same rfl rfl) (.refl _))

/-! ### The operations of `Machine/BootC.lean` -/

theorem startSled_later {s : State} : s.Later lasting false s.startSled :=
  .trans (.sameInTime (by rfl) (by rfl)) (traceReset_later.trans (trace_later.trans (.ite buttonFaulty_later (.refl _))))

theorem execColdStart_later {s : State} : s.Leads (execColdStart s) := .next (.ite (.refl _) (.trans (.sameInTime (by rfl) (by rfl)) startSled_later))

theorem execInputStable_later {s : State} : s.Leads (execInputStable s) := .next (.ite (.refl _) (.ite startSled_later (.sameInTime rfl rfl)))

theorem execPowerOn_later {via : Via} {s : State} : s.Leads (execPowerOn via s) :=
  .next (asks_later (mgmtOwner_later (mgmt_later.trans startSled_later)))

theorem execRailFault_later {s : State} : s.Leads (execRailFault s) := .next (.ite (.sameInTime rfl rfl) (.refl _))

theorem execRailRetry_later {ok : Bool} {s : State} :
    s.Leads (execRailRetry ok s) := .next (.ite (.refl _) (.ite (.sameInTime rfl rfl) powerDown_later))

theorem loseSettings_later {s : State} : s.Later lasting false s.loseSettings := by
  unfold State.loseSettings
  extract_lets s1
  have h_s1 : s.Later lasting false s1 := .foldl (fun _ _ => regPut_later)
  clear_value s1
  have put (t : State) (f : FwS) (m : MgtS) : t.Later lasting false { t with fw := f, mgt := m } := .same rfl rfl
  exact h_s1.trans ((put _ _ _).trans post_later)

theorem bindAll_later {s : State} : s.Later lasting calm s.bindAll := .same rfl rfl

theorem startDogs_later {s : State} :
    s.Later lasting calm s.startDogs := .trans (.same (by rfl) (by rfl)) (.foldl (fun _ _ => .ite (.refl _) setWde_later))

theorem pilotStarts_later {s : State} {record : RecRead} : s.Later lasting false (s.pilotStarts record) := by
  unfold State.pilotStarts
  extract_lets warm _ s1 s2
  have h_s1 : s.Later lasting false s1 := .sameInTime rfl rfl
  have h_s2 : s.Later lasting false s2 := h_s1.trans (.ite loseSettings_later (.ite (.refl _) (loadSettings_later.trans loadFences_later)))
  exact h_s2.trans (.trans (.ite (.refl _) bindAll_later) startDogs_later)

theorem goDead_later {s : State} : s.Later lasting false s.goDead := by
  unfold State.goDead
  extract_lets s1
  have h_s1 : s.Later lasting false s1 := setSled_later.trans holdPorts_later
  clear_value s1
  exact h_s1.trans (.sameInTime rfl rfl)

theorem execImageVerifyDone_later {slot : Fin 2} {ok : Bool} {record : RecRead} {pilotOk : Bool} {s : State} :
    s.Leads (execImageVerifyDone slot ok record pilotOk s) := by
  unfold execImageVerifyDone
  refine .next ?_
  extract_lets n first due _ _ p s1 s2 s3
  have h_s1 : s.Later false false s1 := .sameInTime rfl rfl
  have h_s2 : s.Later false false s2 := h_s1.trans trace_later
  have h_s3 : s.Later false false s3 := by
    unfold s3
    split
    exacts [h_s2.trans post_later, h_s2]
  exact .ite (.refl _) (.ite (.ite (.sameInTime rfl rfl) goDead_later) (h_s3.trans (.ite pilotStarts_later powerDown_later)))

theorem testFences_later {s : State} {l : List (Fin 1584)} : s.Later lasting false (s.testFences l) :=
  .foldl (fun _ _ => by
    split
    exacts [fenceUnit_later, fenceUnit_later])

theorem beginTrain_later {s : State} : s.Later lasting false s.beginTrain := by
  unfold State.beginTrain
  refine .ite (.refl _) (.ite askVigil_later ?_)
  extract_lets s1 s2
  have h_s1 : s.Later lasting false s1 := setSled_later.trans (.foldl (fun _ _ => writeGrant_later.trans setPst_later))
  have h_s2 : s.Later lasting false s2 := h_s1.trans (.foldl (fun _ _ => selfRefresh_later))
  clear_value s2
  exact h_s2.trans .sledUnit

theorem execSelfTestDone_later {found : SelfTest} {s : State} : s.Leads (execSelfTestDone found s) :=
  .next (.ite (.refl _) (testFences_later.trans (.trans (.foldl (fun _ _ => fenceUnits_later)) beginTrain_later)))

theorem execSelfTestTimeout_later {unfinished : List (Fin 1584)} {s : State} : s.Leads (execSelfTestTimeout unfinished s) :=
  .next (.ite (.refl _) (.trans (.foldl (fun _ _ => fenceUnit_later)) beginTrain_later))

theorem releaseHalf_later {s : State} {h : Nat} : s.Later lasting calm (s.releaseHalf h) := leaveDetect_later.trans (.ite (.refl _) setHalf_later)

theorem execTrainComplete_later {halves : List Train} {s : State} : s.Leads (execTrainComplete halves s) := by
  unfold execTrainComplete
  exact .next (.ite (.refl _) (.trans (.sameInTime (by rfl) (by rfl)) (setSled_later.trans
    (rebudget_later.trans (.trans (.foldl (fun _ _ => setHalf_later)) (.trans (.foldl (fun _ _ => releaseHalf_later))
    (.trans (.foldl (fun _ _ => .ite trained_later (.refl _))) safeUpdate_later)))))))

/-! ### The operations of `Machine/FwC.lean` -/

theorem lastRefusal_later {s : State} {d : Option W16} : s.Later lasting calm (s.lastRefusal d) := by
  unfold State.lastRefusal
  split
  exacts [.same rfl rfl, .refl _]

theorem slotWriting_later {s : State} : s.Later lasting calm s.slotWriting := .same rfl rfl

theorem stageEnds_later {s : State} {p : Option Nat} {e : Option Err1} : s.Later lasting calm (s.stageEnds p e) := by
  unfold State.stageEnds
  split
  exacts [failProg_later, okOn_later, .refl _]

theorem execFwStage_later {prog : Nat} {image : Image} {read : ImageRead} {s : State} : s.Leads (execFwStage prog image read s) := by
  unfold execFwStage
  refine .next (control_later (fun _ _ _ => ?_))
  extract_lets host seen why own busy s0 s1 s2
  have h_s0 : s.Later false false s0 := .ite lastRefusal_later (.refl _)
  have h_s1 : s.Later false false s1 := ctlWait_later
  have h_s2 : s.Later false false s2 := h_s1.trans slotWriting_later
  clear_value s0 s1 s2
  unfold State.guarded
  split
  exacts [h_s0.trans failProg_later, .ite (h_s2.trans (.same rfl rfl)) (h_s1.trans (.same rfl rfl))]

theorem execFwStageTimeout_later {s : State} : s.Leads (execFwStageTimeout s) := by
  unfold execFwStageTimeout
  refine .next ?_
  split
  · exact .refl _
  · extract_lets _ _ s1
    have h_s1 : s.Later false false s1 := .same rfl rfl
    exact h_s1.trans failProg_later

theorem freeChunks_later {s : State} : s.Later lasting calm s.freeChunks := by
  unfold State.freeChunks
  split
  · exact .refl _
  · extract_lets wr unsent
    exact .same rfl rfl

theorem sendChunk_later {s : State} {x : Tx} {k : Nat} : s.Later lasting calm (s.sendChunk x k) := send_later

theorem sendChunks_later {n : Nat} {s : State} : s.Later lasting calm (State.sendChunks n s) := by
  induction n generalizing s with
  | zero => exact .refl s
  | succ n ih =>
    unfold State.sendChunks
    split
    · exact .refl _
    · extract_lets have1
      clear_value have1
      exact .ite (.refl _) (.ite (.ite (.trans (.same (by rfl) (by rfl)) chainSend_later) (.refl _))
        (.ite (.refl _) (.trans (.same (by rfl) (by rfl)) (sendChunk_later.trans ih))))

theorem offerDown_later {s : State} {x : Image} {origin : Bool} :
    s.Later lasting calm (s.offerDown x origin) := .trans (.same (by rfl) (by rfl)) chainSend_later

theorem stopForward_later {s : State} : s.Later lasting calm s.stopForward := .trans (.same (by rfl) (by rfl)) freeChunks_later

theorem resend_later {s : State} {k : Nat} : s.Later lasting calm (s.resend k) := by
  unfold State.resend
  split
  · exact .refl _
  · exact .ite (.refl _) (.ite (chainSend_later.trans (stopForward_later.trans post_later)) (.trans (.same (by rfl) (by rfl)) sendChunk_later))

theorem putEntry_later {s : State} {a : Nat} {v : W64} :
    s.Later lasting false (s.putEntry a v) := .ite regWrite_later (.ite (.same rfl rfl) (.refl _))

theorem rxEnds_later {s : State} : s.Later lasting calm s.rxEnds := by
  unfold State.rxEnds
  split
  · exact .refl _
  · extract_lets sent _ s1
    have h_s1 : s.Later lasting calm s1 := .same rfl rfl
    exact .ite (h_s1.trans chainSend_later) (.refl _)

theorem stageLost_later {s : State} : s.Later lasting calm s.stageLost := by
  unfold State.stageLost
  split
  exacts [.ite (.trans (.same (by rfl) (by rfl)) stageEnds_later) (.refl _), .refl _]

theorem rxAbort_later {s : State} : s.Later lasting calm s.rxAbort := by
  unfold State.rxAbort
  split
  · exact .refl _
  · extract_lets _ s1
    have h_s1 : s.Later lasting calm s1 := by
      unfold s1
      split
      exacts [.ite (.refl _) (.trans (.same (by rfl) (by rfl)) chainSend_later), .refl _]
    exact h_s1.trans (.trans (.same (by rfl) (by rfl)) stageLost_later)

theorem setLink_later {s : State} {l : Nat} {x : Link} : s.Later lasting calm (s.setLink l x) := .same rfl rfl

theorem badFrame_later {s : State} {l : Nat} : s.Later lasting calm (s.badFrame l) := setLink_later

theorem frameIn_later {s : State} {l : Nat} {ok : Bool} {kind : ChainKind} {words : List Nat} {f : State} (hf : s.Later lasting calm f) :
    s.Later lasting calm (s.frameIn l ok kind words f) := by
  unfold State.frameIn
  exact .ite (.ite send_later (.refl _)) (.ite (.refl _) (.ite hf badFrame_later))

theorem execChainHello_later {link : Fin 2} {peer : W16} {ok : Bool} {s : State} : s.Leads (execChainHello link peer ok s) :=
  .next (frameIn_later setLink_later)

theorem execHelloTimer_later {s : State} : s.Leads (execHelloTimer s) := .next (.ite (.refl _) (.foldl (fun _ _ => .ite chainSend_later (.refl _))))

theorem takeOffer_later {s : State} {x : Image} : s.Later lasting calm (s.takeOffer x).1 := by
  unfold State.takeOffer
  extract_lets arm fits held p _ _ s1 s2
  have h_s1 : s.Later lasting calm s1 := .same rfl rfl
  have h_s2 : s.Later lasting calm s2 := h_s1.trans slotWriting_later
  refine .ite_fst (.refl _) ?_
  split
  exacts [h_s1.trans (lastRefusal_later.trans (post_later.trans stageEnds_later)), h_s2.trans (.same rfl rfl)]

theorem execChainOffer_later {link : Fin 2} {image : Image} {ok : Bool} {s : State} : s.Leads (execChainOffer link image ok s) :=
  .next (frameIn_later (.ite (.refl _) (rxAbort_later.trans (takeOffer_later.trans
    (.trans (.same (by rfl) (by rfl)) (.trans (.ite offerDown_later (.refl _)) chainSend_later))))))

theorem execChainData_later {link : Fin 2} {seq : Nat} {chunk : ChunkIn} {s : State} : s.Leads (execChainData link seq chunk s) := by
  unfold execChainData
  refine .next (.ite (.ite send_later (.refl _)) ?_)
  refine .ite (.refl _) ?_
  split
  · exact .ite (.refl _) badFrame_later
  · exact .ite (badFrame_later.trans chainSend_later) (.ite (.refl _) (.ite chainSend_later
      (.ite (.refl _) (.trans (.same (by rfl) (by rfl)) (sendChunks_later.trans (freeChunks_later.trans (chainSend_later.trans rxEnds_later)))))))

theorem execChainAck_later {link : Fin 2} {seq : W32} {free : Nat} {ok : Bool} {s : State} : s.Leads (execChainAck link seq free ok s) := by
  unfold execChainAck
  refine .next (frameIn_later ?_)
  refine .ite (.refl _) ?_
  split
  · exact .refl _
  · exact .ite (.ite (.trans (.same (by rfl) (by rfl)) (freeChunks_later.trans rxEnds_later))
      (.ite (.refl _) (.trans (.same (by rfl) (by rfl)) sendChunks_later))) (.ite (.refl _)
      (.trans (.same (by rfl) (by rfl)) (freeChunks_later.trans (sendChunks_later.trans rxEnds_later))))

theorem execChainNak_later {link : Fin 2} {seq : Nat} {ok : Bool} {s : State} : s.Leads (execChainNak link seq ok s) :=
  .next (frameIn_later (.ite (.refl _) (resend_later.trans rxEnds_later)))

theorem execChainAckTimeout_later {link : Fin 2} {seq : Nat} {s : State} : s.Leads (execChainAckTimeout link seq s) :=
  .next (.ite (.refl _) (resend_later.trans rxEnds_later))

theorem execChainDone_later {link : Fin 2} {ok : Bool} {entries : List (W32 × W64)} {verifies : Bool} {s : State} :
    s.Leads (execChainDone link ok entries verifies s) := by
  unfold execChainDone
  refine .next (frameIn_later ?_)
  refine .ite (.refl _) ?_
  split
  · exact .refl _
  · extract_lets _ s1 apply1 s2
    have h_s1 : s.Later false false s1 := .same rfl rfl
    have h_s2 : s.Later false false s2 := h_s1.trans (.ite (.foldl (fun _ _ => putEntry_later)) (.refl _))
    exact h_s2.trans rxEnds_later

theorem execChainAbort_later {link : Fin 2} {ok : Bool} {s : State} : s.Leads (execChainAbort link ok s) :=
  .next (frameIn_later (.ite (.refl _) rxAbort_later))

theorem execChainLinkUp_later {link : Fin 2} {s : State} : s.Leads (execChainLinkUp link s) := .next (.ite (.refl _) setLink_later)

theorem execChainLinkLoss_later {link : Fin 2} {s : State} : s.Leads (execChainLinkLoss link s) :=
  .next (.ite (.refl _) (setLink_later.trans (post_later.trans (.ite rxAbort_later (.ite (stopForward_later.trans rxEnds_later) (.refl _))))))

theorem execChunkWritten_later {seq : Nat} {s : State} : s.Leads (execChunkWritten seq s) := by
  unfold execChunkWritten
  refine .next ?_
  split
  · exact .refl _
  · extract_lets here data _ _ s1 x n _ _ s2 s3 s4
    have h_s1 : s.Later false false s1 := .same rfl rfl
    have h_s2 : s.Later false false s2 := h_s1.trans (.same rfl rfl)
    have h_s3 : s.Later false false s3 := h_s2.trans (post_later.trans stageEnds_later)
    have h_s4 : s.Later false false s4 := h_s3.trans (.ite offerDown_later (.refl _))
    exact .ite (.refl _) (.ite (h_s1.trans freeChunks_later) (h_s4.trans (freeChunks_later.trans rxEnds_later)))

theorem execSpiProgramFail_later {s : State} : s.Leads (execSpiProgramFail s) := by
  unfold execSpiProgramFail
  refine .next ?_
  split
  · exact .refl _
  · extract_lets _ _ s1
    have h_s1 : s.Later false false s1 := .same rfl rfl
    exact h_s1.trans (stageEnds_later.trans (freeChunks_later.trans rxEnds_later))

theorem beginPause_later {s : State} : s.Later lasting calm s.beginPause := by
  unfold State.beginPause
  split
  · exact .refl _
  · extract_lets s1 s2 s3
    have h_s1 : s.Later lasting calm s1 := .foldl (fun _ _ => rollbackEnd_later)
    have h_s2 : s.Later lasting calm s2 := h_s1.trans (lampStop_later.trans (.foldl (fun _ _ => idleWords_later)))
    have h_s3 : s.Later lasting calm s3 := h_s2.trans traceReset_later
    clear_value s3
    exact h_s3.trans (.same rfl rfl)

theorem beginAct_later {s : State} {slot : Nat} {prog : Option Nat} {cause : Nat} : s.Later lasting calm (s.beginAct slot prog cause) :=
  .trans (.same (by rfl) (by rfl)) (.ite (.refl _) beginPause_later)

theorem execFwActivate_later {prog : Nat} {s : State} : s.Leads (execFwActivate prog s) := by
  unfold execFwActivate
  refine .next (control_later (fun _ _ _ => .ite (.refl _) ?_))
  extract_lets own slot why s0
  have h_s0 : s.Later false false s0 := .ite lastRefusal_later (.refl _)
  unfold State.guarded
  split
  exacts [h_s0.trans failProg_later, ctlWait_later.trans beginAct_later]

theorem execActivationPanicWaitEnd_later {s : State} : s.Leads (execActivationPanicWaitEnd s) := by
  unfold execActivationPanicWaitEnd
  refine .next ?_
  split
  exacts [.ite (.refl _) beginPause_later, .refl _]

theorem runsFrom_later {s : State} {n kind : Nat} : s.Later lasting calm (s.runsFrom n kind) := .trans (.same (by rfl) (by rfl)) trace_later

theorem confirm_later {s : State} {n : Nat} : s.Later lasting calm (s.confirm n) := .trans (.same (by rfl) (by rfl)) post_later

theorem execFwConfirm_later {prog : Nat} {s : State} : s.Leads (execFwConfirm prog s) :=
  .next (control_later (fun _ _ _ => guarded_later (confirm_later.trans okOn_later)))

theorem execProbationTick_later {s : State} : s.Leads (execProbationTick s) := by
  unfold execProbationTick
  refine .next (.ite (.refl _) ?_)
  extract_lets _ s1
  have h_s1 : s.Later false false s1 := .same rfl rfl
  split
  exacts [h_s1.trans (.ite beginAct_later (.refl _)), h_s1]

theorem execSettingsWrite_later {s : State} : s.Leads (execSettingsWrite s) := .next (.ite (.refl _) (.same rfl rfl))

/-! ### The operations of `Machine/MgmtC.lean` -/

theorem mctp_later {s : State} {words : List Nat} : s.Later lasting calm (s.mctp words) := .ite mgmt_later (.refl _)

theorem execSetEndpointId_later {eid : Byte} {s : State} : s.Leads (execSetEndpointId eid s) :=
  .next (.ite (.refl _) (.ite mctp_later (.trans (.same (by rfl) (by rfl)) mctp_later)))

theorem execGetEndpointId_later {s : State} : s.Leads (execGetEndpointId s) := .next mctp_later

theorem execGetMctpVersionSupport_later {ty : Byte} {s : State} : s.Leads (execGetMctpVersionSupport ty s) :=
  .next (.ite mctp_later (.ite mctp_later mctp_later))

theorem execGetMessageTypeSupport_later {s : State} : s.Leads (execGetMessageTypeSupport s) := .next mctp_later

theorem execGetVendorDefinedMessageSupport_later {sel : Byte} {s : State} : s.Leads (execGetVendorDefinedMessageSupport sel s) :=
  .next (.ite mctp_later mctp_later)

theorem spdm_later {s : State} {c : Carrier} {words : List Nat} : s.Later lasting calm (s.spdm c words) := by
  unfold State.spdm
  refine .ite (.refl _) ?_
  split
  exacts [send_later, mgmt_later]

theorem execSpdmGetVersion_later {on : Carrier} {s : State} : s.Leads (execSpdmGetVersion on s) := .next spdm_later

theorem execSpdmGetCapabilities_later {on : Carrier} {s : State} : s.Leads (execSpdmGetCapabilities on s) := .next spdm_later

theorem execSpdmNegotiateAlgorithms_later {on : Carrier} {s : State} : s.Leads (execSpdmNegotiateAlgorithms on s) := .next spdm_later

theorem execSpdmGetDigests_later {on : Carrier} {s : State} : s.Leads (execSpdmGetDigests on s) := .next spdm_later

theorem execSpdmGetCertificate_later {on : Carrier} {slot : Byte} {s : State} : s.Leads (execSpdmGetCertificate on slot s) := .next spdm_later

theorem execSpdmChallenge_later {on : Carrier} {slot : Byte} {s : State} : s.Leads (execSpdmChallenge on slot s) := .next spdm_later

theorem execSpdmGetMeasurements_later {on : Carrier} {index : Byte} {s : State} : s.Leads (execSpdmGetMeasurements on index s) := .next spdm_later

theorem execSpdmKeyExchange_later {on : Carrier} {s : State} : s.Leads (execSpdmKeyExchange on s) := by
  unfold execSpdmKeyExchange
  refine .next (.ite (.refl _) ?_)
  refine .ite spdm_later ?_
  split
  · exact spdm_later
  · extract_lets _ s1
    have h_s1 : s.Later false false s1 := .same rfl rfl
    exact h_s1.trans spdm_later

theorem inSession_later {s : State} {n : Nat} {open1 : Bool} {f : Sess → State} (hf : ∀ x, s.Later lasting calm (f x)) :
    s.Later lasting calm (s.inSession n open1 f) := by
  unfold State.inSession
  split
  exacts [.ite (.refl _) (.ite (hf _) spdm_later), .refl _]

theorem execSpdmFinish_later {session : Nat} {root : Option (BitVec 384)} {s : State} : s.Leads (execSpdmFinish session root s) :=
  .next (inSession_later (fun _ => .trans (.same (by rfl) (by rfl)) spdm_later))

theorem execSpdmHeartbeat_later {session : Nat} {s : State} : s.Leads (execSpdmHeartbeat session s) := .next (inSession_later (fun _ => spdm_later))

theorem execSpdmKeyUpdate_later {session : Nat} {s : State} : s.Leads (execSpdmKeyUpdate session s) :=
  .next (inSession_later (fun _ => .trans (.same (by rfl) (by rfl)) spdm_later))

theorem execSpdmEndSession_later {session : Nat} {s : State} : s.Leads (execSpdmEndSession session s) :=
  .next (inSession_later (fun _ => spdm_later.trans (.same rfl rfl)))

theorem execIdentify_later {s : State} : s.Leads (execIdentify s) := .next (.ite (.refl _) mgmt_later)

theorem execSensor_later {ids : List W16} {s : State} : s.Leads (execSensor ids s) :=
  .next (.ite (.refl _) (.ite mgmt_later (.ite (.refl _) (.ite mgmt_later mgmt_later))))

theorem execRegRead_later {addr : W32} {count : Nat} {s : State} : s.Leads (execRegRead addr count s) :=
  .next (asks_later (mgmtIn_later (.ite mgmt_later mgmt_later)))

theorem mgmtKept_later {s : State} {v : Via} {accepts kept : Bool} {f : State} (hf :
    s.Later lasting calm f) : s.Later lasting calm (s.mgmtKept v accepts kept f) :=
  mgmtIn_later (.ite hf (.ite mgmt_later mgmt_later))

theorem execRegWrite_later {addr : W32} {value : W64} {via : Via} {s : State} : s.Leads (execRegWrite addr value via s) :=
  .next (asks_later (mgmtKept_later (.ite mgmt_later (regWrite_later.trans mgmt_later))))

theorem execEventRead_later {ack : Nat} {max : Nat} {s : State} : s.Leads (execEventRead ack max s) :=
  .next (asks_later (mgmtIn_later (.ite mgmt_later (.trans (.event (by rfl) (by rfl) (by rfl) (by rfl)) mgmt_later))))

theorem execTraceRead_later {slot : Nat} {count : Nat} {s : State} : s.Leads (execTraceRead slot count s) :=
  .next (asks_later (mgmtIn_later (.ite mgmt_later mgmt_later)))

theorem execFirmwareArm_later {iseq : W64} {via : Via} {s : State} : s.Leads (execFirmwareArm iseq via s) :=
  .next (asks_later (mgmtOwner_later (.trans (.same (by rfl) (by rfl)) mgmt_later)))

theorem execFirmwareActivate_later {via : Via} {s : State} : s.Leads (execFirmwareActivate via s) := by
  unfold execFirmwareActivate
  refine .next (asks_later ?_)
  refine mgmtOwner_later ?_
  split
  · exact mgmt_later
  · refine .ite mgmt_later ?_
    split
    · exact lastRefusal_later.trans (post_later.trans mgmt_later)
    · extract_lets s1 _ s2
      have h_s1 : s.Later false false s1 := mgmt_later
      have h_s2 : s.Later false false s2 := h_s1.trans (.sameInTime rfl rfl)
      exact .ite (h_s1.trans beginAct_later) (h_s2.trans (.ite (.sameInTime rfl rfl) askRestart_later))

theorem execFirmwareConfirm_later {via : Via} {s : State} : s.Leads (execFirmwareConfirm via s) := by
  unfold execFirmwareConfirm
  refine .next (asks_later ?_)
  refine mgmtOwner_later ?_
  split
  exacts [confirm_later.trans mgmt_later, mgmt_later]

theorem execSettingGet_later {id : W16} {s : State} : s.Leads (execSettingGet id s) := by
  unfold execSettingGet
  refine .next (asks_later ?_)
  refine mgmtIn_later ?_
  split
  exacts [mgmt_later, mgmt_later, mgmt_later, .ite mgmt_later mgmt_later]

theorem execSettingSet_later {id : W16} {value : W32} {via : Via} {s : State} : s.Leads (execSettingSet id value via s) :=
  .next (asks_later (mgmtKept_later (.ite (.ite mgmt_later (.trans (.sameRecords (by rfl)) mgmt_later))
    (.ite (putEntry_later.trans mgmt_later) mgmt_later))))

theorem execOwnerEnrolRoot_later {hash : BitVec 384} {via : Via} {s : State} : s.Leads (execOwnerEnrolRoot hash via s) :=
  .next (asks_later (mgmtOwner_later (.trans (.same (by rfl) (by rfl)) mgmt_later)))

theorem execOwnerLockSet_later {via : Via} {s : State} : s.Leads (execOwnerLockSet via s) :=
  .next (asks_later (mgmtOwner_later (.ite mgmt_later (.trans (.same (by rfl) (by rfl)) mgmt_later))))

theorem execOwnerLockClear_later {via : Via} {s : State} : s.Leads (execOwnerLockClear via s) :=
  .next (asks_later (mgmtOwner_later (.ite mgmt_later (.trans (.same (by rfl) (by rfl)) mgmt_later))))

theorem execOwnerEnrolSettingsKey_later {key : BitVec 776} {via : Via} {s : State} : s.Leads (execOwnerEnrolSettingsKey key via s) :=
  .next (asks_later (mgmtOwner_later (.trans (.same (by rfl) (by rfl)) mgmt_later)))

theorem execOwnerRelease_later {via : Via} {s : State} : s.Leads (execOwnerRelease via s) :=
  .next (asks_later (mgmtOwner_later (.trans (.same (by rfl) (by rfl)) mgmt_later)))

theorem execPeerEnrol_later {sled : W16} {pbr : BitVec 12} {via : Via} {s : State} : s.Leads (execPeerEnrol sled pbr via s) := by
  unfold execPeerEnrol
  refine .next (asks_later ?_)
  refine mgmtOwner_later ?_
  split
  exacts [mgmt_later, .trans (.same (by rfl) (by rfl)) mgmt_later]

theorem execPeerWithdraw_later {sled : W16} {via : Via} {s : State} : s.Leads (execPeerWithdraw sled via s) :=
  .next (asks_later (mgmtOwner_later (.ite (.trans (.same (by rfl) (by rfl)) mgmt_later) mgmt_later)))

theorem execStats_later {okind : Byte} {obj : W32} {s : State} : s.Leads (execStats okind obj s) := by
  unfold execStats
  refine .next (asks_later ?_)
  refine mgmtIn_later (.ite ?_ ?_)
  · extract_lets c x
    exact mgmt_later
  · refine .ite ?_ mgmt_later
    extract_lets k
    split
    exacts [mgmt_later, mgmt_later]

theorem execLakeFormat_later {sled : W16} {via : Via} {s : State} : s.Leads (execLakeFormat sled via s) :=
  .next (asks_later (mgmtOwner_later (.ite mgmt_later (.ite mgmt_later (.trans (.same (by rfl) (by rfl)) mgmt_later)))))

theorem execUnsupportedCommand_later {gcmd : Byte} {s : State} : s.Leads (execUnsupportedCommand gcmd s) :=
  .next (asks_later (mgmtIn_later (.ite (.refl _) mgmt_later)))

/-! ### The operations of `Machine/ActC.lean` -/

theorem heldRun_later {s : State} {c : Instr} : s.Leads (s.heldRun c) := by
  unfold State.heldRun
  split
  · exact execWarmRestart_later
  · exact execEnterVigil_later
  · exact execClearTries_later
  · exact execPowerOff_later
  · exact execPowerOn_later
  · exact execRegRead_later
  · exact execRegWrite_later
  · exact execEventRead_later
  · exact execTraceRead_later
  · exact execFirmwareArm_later
  · exact execFirmwareActivate_later
  · exact execFirmwareConfirm_later
  · exact execSettingGet_later
  · exact execSettingSet_later
  · exact execOwnerEnrolRoot_later
  · exact execOwnerLockSet_later
  · exact execOwnerLockClear_later
  · exact execOwnerEnrolSettingsKey_later
  · exact execOwnerRelease_later
  · exact execPeerEnrol_later
  · exact execPeerWithdraw_later
  · exact execStats_later
  · exact execLakeFormat_later
  · exact execUnsupportedCommand_later
  · exact .next (.refl _)

theorem runHeldCmds_later {s : State} : s.Later false false s.runHeldCmds :=
  .trans (.same (by rfl) (by rfl)) (.foldl (fun t c => by
    split
    exacts [heldRun_later _ ‹_›, .refl _]))

theorem endPause_later {s : State} : s.Later lasting false s.endPause := by
  unfold State.endPause
  extract_lets _ _ s1 s2
  have h_s1 : s.Later lasting false s1 := .same rfl rfl
  have h_s2 : s.Later lasting false s2 := h_s1.trans (applyKept_later.trans lampResume_later)
  split
  exacts [h_s2.trans (.ite (.refl _) commandFlush_later), h_s2]

theorem verified_later {s : State} {ok : Bool} : s.Later lasting false (s.verified ok) := by
  unfold State.verified
  split
  · exact .refl _
  · extract_lets n o _ s1 s2 _ s1' _ s1'' _ s1'''
    have h_s1 : s.Later lasting false s1 := .same rfl rfl
    have h_s2 : s.Later lasting false s2 := h_s1.trans (runsFrom_later.trans endPause_later)
    have h_s1' : s.Later lasting false s1' := .same rfl rfl
    have h_s1'' : s.Later lasting false s1'' := .same rfl rfl
    have h_s1''' : s.Later lasting false s1''' := .same rfl rfl
    exact .ite (.refl _) (.ite (.ite (h_s2.trans (post_later.trans stageEnds_later))
      (h_s1'.trans (endPause_later.trans (post_later.trans stageEnds_later)))) (.ite
      (h_s1''.trans (runsFrom_later.trans (endPause_later.trans post_later))) (h_s1'''.trans (endPause_later.trans post_later))))

theorem execActivationVerifyDone_later {ok : Bool} {s : State} : s.Leads (execActivationVerifyDone ok s) :=
  .next (verified_later.trans (.ite runHeldCmds_later (.refl _)))

/-! ### The operations of `Machine/RegC.lean` -/

theorem queueReg_later {s : State} {h : HostId} {q : QueueNo} {off : Nat} {v m : W64} : s.Later lasting calm (s.queueReg h q off v m) := by
  unfold State.queueReg
  extract_lets x c
  split
  · exact .ite (.refl _) setQueue_later
  · exact .ite (.refl _) setQueue_later
  · exact .ite (.ite (.refl _) disableQueue_later) (.ite enableQueue_later setQueue_later)
  · exact .refl _

theorem writeFctl_later {s : State} {h : HostId} {v m : W64} : s.Later lasting calm (s.writeFctl h v m) :=
  .trans (.ite setFn_later (.refl _)) (.ite hostEvent_later (.refl _))

theorem bar0Write_later {s : State} {h : HostId} {a : Nat} {v m : W64} : s.Later lasting calm (s.bar0Write h a v m) :=
  .ite writeFctl_later (.ite queueReg_later (.ite (.ite ackWrite_later (.refl _))
    (.ite (.ite ctlWrite_later (.refl _)) (.ite setFn_later (.refl _)))))

theorem bar2Write_later {s : State} {h : HostId} {a : Nat} {v m : W64} : s.Later lasting calm (s.bar2Write h a v m) :=
  .ite (.refl _) (.ite (.trans (.ite tailBell_later (.refl _)) (.ite headBell_later (.refl _))) (.ite (.ite beatWrite_later (.refl _)) (.refl _)))

theorem bar4Write_later {s : State} {h : HostId} {a : Nat} {v m : W64} : s.Later lasting false (s.bar4Write h a v m) := .ite regWrite_later (.refl _)

theorem execRegisterWrite_later {host : HostId} {bar : Bar} {off : Nat} {bytes : List Byte} {s : State} :
    s.Leads (execRegisterWrite host bar off bytes s) :=
  .next (.foldl (fun t p => .ite (.refl _) (by
    cases bar
    exacts [bar0Write_later, bar2Write_later, bar4Write_later])))

theorem execTrcRestart_later {s : State} : s.Leads (execTrcRestart s) := .next (.ite (.traceUnit (fun _ => restart_inBounds)) (.refl _))

theorem execTrcFreeze_later {s : State} : s.Leads (execTrcFreeze s) := .next (.ite (.traceUnit (fun h => h)) (.refl _))

theorem execTrcMarkWrite_later {value : W64} {s : State} : s.Leads (execTrcMarkWrite value s) := .next (.ite writeMark_later (.refl _))

/-! ### The operations of `Machine/Back.lean` -/

theorem wakeGroups_later {s : State} : s.Later lasting calm s.wakeGroups :=
  .foldl (fun _ _ => by
    split
    exacts [.ite askWake_later (.refl _), .refl _])

theorem runEngines_later {s : State} : s.Later lasting false s.runEngines := by
  unfold State.runEngines
  extract_lets s1 s2 s3 s4 s5 s6 s7
  have h_s1 : s.Later lasting false s1 := rerun_later.trans fixOffers_later
  have h_s2 : s.Later lasting false s2 := h_s1.trans (runRevokes_later.trans (runOps_later.trans runPeers_later))
  have h_s3 : s.Later lasting false s3 := h_s2.trans (reclaim_later.trans writeback_later)
  have h_s4 : s.Later lasting false s4 := h_s3.trans (gcFlags_later.trans (trimMap_later.trans lampPlace_later))
  have h_s5 : s.Later lasting false s5 := h_s4.trans (settleAcks_later.trans (rtFlags_later.trans capCheck_later))
  have h_s6 : s.Later lasting false s6 := h_s5.trans wakeGroups_later
  have h_s7 : s.Later lasting false s7 := h_s6.trans (.ite answerAll_later (.refl _))
  exact h_s7.trans (safeUpdate_later.trans wakePf_later)

theorem msTick_later {s : State} : s.Later false false s.msTick := .trans (.sameRecords (by rfl)) wdTick_later

theorem execStoreClockTick_later {s : State} : s.Leads (execStoreClockTick s) := .next (msTick_later.trans (.ite runEngines_later (.refl _)))

/-! ### Every command -/

theorem exec_later {c : Instr} {s : State} : s.Leads (exec c s) := by
  unfold exec
  split
  exacts [execMemRd_later, execMemRdData_later, execMemInv_later, execMemWr_later, execMemWrPtl_later, execMemSpecRd_later _,
    execBiSnoopResponse_later, execBiSnoopTimeout_later, execHeldRequestResume_later, execRtRollback_later, execNarrowingChangeDrained_later,
    execLakeReadComplete_later, execStoreHoldTimeout_later, execMoveCopyDone_later, execMoveSourceRelease_later, execImagePlaced_later,
    execImageRelease_later, execAgeClockTick_later, execStoreClockTick_later, execAgeSweep_later, execPackDelayExpiry_later, execTrialPackDone_later,
    execUrgencyThreshold_later, execPanicAssert_later, execPanicClear_later, execRefreshDue_later, execSteadyRefreshDue_later,
    execStackTempRead_later, execRefModeBoundary_later, execPdTimerExpiry_later, execRetrainRequest_later, execRetrainStart_later,
    execRetrainPanicTimeout_later, execRetrainDone_later, execCeWindowEnd_later, execCommandParityError_later, execScrubDue_later, execPchStall_later,
    execStackInitTimeout_later, execPondStartupDone_later, execStripeTimer_later, execStripeProgrammed_later, execCheckpointDue_later,
    execGcSuperblockDone_later, execPatrolDue_later, execProgramFail_later, execEraseFail_later, execWearEval_later, execLakeDieFail_later,
    execLakeMountDone_later, execRegionNew_later, execRegionGrantHost_later, execRegionGrantLend_later, execRegionGrantPeer_later,
    execRegionRevoke_later, execRegionSeal_later, execRegionKeep_later, execRegionFree_later, execRegionReleaseDone_later, execPin_later,
    execUnpin_later, execMoveTier_later, execMoveFill_later, execMovePeerPush_later, execMovePeerPull_later, execEvacuate_later,
    execPowerProfile_later, execProfileSwitchDone_later, execFwStage_later, execFwActivate_later, execFwConfirm_later,
    execAddDynamicCapacityResponse_later, execGrantOfferTimeout_later, execRevokeTimeout_later, execReleaseDynamicCapacity_later,
    execGetDynamicCapacityConfiguration_later, execGetDynamicCapacityExtentList_later, execIdentifyMemoryDevice_later, execGetEventRecords_later,
    execClearEventRecords_later, execGetHealthInfo_later, execGetSupportedLogs_later, execMailboxUnsupported_later, execDoeCdat_later,
    execPresenceSweep_later, execPerstAssert_later, execPerstRelease_later, execHotReset_later, execLinkDown_later, execFunctionLevelReset_later,
    execCxlReset_later, execFreset_later, execKdevBindWrite_later, execD3coldEntry_later, execD3hotEntry_later, execD0Entry_later,
    execLinkReturn_later, execBusMasterDisable_later, execRtStreamIdle_later, execTarnReadComplete_later, execCompletionTimeout_later,
    execPeerDataFrame_later, execPeerPullFrame_later, execPeerAckFrame_later, execPeerNakFrame_later, execPeerDoneFrame_later, execL1IdleExpiry_later,
    execL0pRequest_later, execCorrectedLinkError_later, execMalformedTlp_later, execIdeCheckFail_later, execSqTailWrite_later, execCqHeadWrite_later,
    execQueueEnable_later, execQueueDisable_later, execQueueDrained_later, execDescriptorFetchDone_later, execDescriptorFetchFail_later,
    execCompletionPostFail_later, execProgramDispatch_later, execRunLimitExpiry_later, execDispatcherStall_later, execCommitWriteDone_later,
    execFeederStreamIdle_later, execBr_later, execLoop_later, execWaitTime_later, execWaitBeat_later, execWaitSignal_later, execWaitTimeout_later,
    execSignal_later, execKick_later, execFence_later, execHalt_later, execMovs_later, execLd_later, execSt_later, execGather_later,
    execScatter_later, execPrefetch_later, execVmac_later, execVdot_later, execDeq_later, execSmaxp_later, execTopk_later, execRed_later,
    execCvt_later, execSchedStep_later, execSchedLoad_later, execSchedArm_later, execSchedDisarm_later _, execBeat_later, execBeatDoorbell_later,
    execInstancePlaced_later, execDeadlineExpiry_later, execScheduleTakeover_later, execSupplyRange_later, execSupplySag_later, execSagEnd_later,
    execSagTimerReset_later, execRideThroughExpiry_later, execOvervoltage_later, execOvercurrent_later, execPilotDuskTimeout_later,
    execDuskFlushEnd_later, execInputStable_later, execHoldupMeasure_later, execStoreAdmitTimeout_later, execWritebackEscalate_later,
    execLedgerRequest_later, execLedgerGrant_later, execLedgerAck_later, execLedgerForced_later, execLedgerIdleLower_later, execHwWakeGrant_later,
    execGovernorEstimate_later, execCapSample_later, execTrimIdleExpiry_later, execBankIdleExpiry_later, execTrimmedPermTimer_later,
    execTileWakeDone_later, execThermalRead_later, execRcCalibrate_later, execCrystalFail_later, execFastRefFail_later, execTilePllLockFail_later,
    execStackPllLockFail_later, execFenceSet_later, execFenceRecovery_later, execKevtAckWrite_later, execKevtLostRead_later, execKevtCtlWrite_later,
    execEventVectorSpacing_later, execLatchOpen_later, execBridgeLinkFail_later, execWdpStart_later, execWdpService_later, execWdpEarlyWarning_later,
    execWdpTimeout_later, execWdpOscFail_later, execWdeService_later, execWdeTimeout_later, execWdeClockMonitor_later, execWdeDisableKey_later,
    execWdeEnable_later, execWdeLock_later, execUnitRestartDone_later, execKeepFlushDone_later, execWarmRestart_later, execEnterVigil_later,
    execClearTries_later, execPowerOff_later, execPowerOn_later, execResetButtonRelease_later, execResetButton10s_later, execResetFaulty_later,
    execResetButtonRestored_later, execColdStart_later, execRailFault_later, execRailRetry_later, execImageVerifyDone_later, execSelfTestDone_later,
    execSelfTestTimeout_later, execTrainComplete_later, execChainHello_later, execHelloTimer_later, execChainOffer_later, execChainData_later,
    execChainAck_later, execChainNak_later, execChainDone_later, execChainAbort_later, execChainAckTimeout_later, execChainLinkUp_later,
    execChainLinkLoss_later, execChunkWritten_later, execSpiProgramFail_later, execFwStageTimeout_later, execActivationPanicWaitEnd_later,
    execActivationVerifyDone_later, execProbationTick_later, execSettingsWrite_later, execSetEndpointId_later, execGetEndpointId_later,
    execGetMctpVersionSupport_later, execGetMessageTypeSupport_later, execGetVendorDefinedMessageSupport_later, execSpdmGetVersion_later,
    execSpdmGetCapabilities_later, execSpdmNegotiateAlgorithms_later, execSpdmGetDigests_later, execSpdmGetCertificate_later, execSpdmChallenge_later,
    execSpdmGetMeasurements_later, execSpdmKeyExchange_later, execSpdmFinish_later, execSpdmHeartbeat_later, execSpdmKeyUpdate_later,
    execSpdmEndSession_later, execIdentify_later, execSensor_later, execRegRead_later, execRegWrite_later, execEventRead_later, execTraceRead_later,
    execFirmwareArm_later, execFirmwareActivate_later, execFirmwareConfirm_later, execSettingGet_later, execSettingSet_later,
    execOwnerEnrolRoot_later, execOwnerLockSet_later, execOwnerLockClear_later, execOwnerEnrolSettingsKey_later, execOwnerRelease_later,
    execPeerEnrol_later, execPeerWithdraw_later, execStats_later, execLakeFormat_later, execUnsupportedCommand_later, execTrcRestart_later,
    execTrcFreeze_later, execTrcMarkWrite_later, execRegisterWrite_later, execHoldupStoreExhausted_later, execHoldupChargeComplete_later,
    execIdeKmMessage_later, execPeerMoveTimeout_later, execLinkPowerStateChange_later, execLakeFormatDone_later, execChannelGroupWakeDone_later,
    execResetButtonPress_later]

/-- A step runs the command in front on the state without it. -/
theorem step_later {s t : State} (h : step s = .next t) : ∃ u : State, u.evt = s.evt ∧ u.trc = s.trc ∧ u.Later false false t := by
  unfold step at h
  split at h
  · cases h
    exact ⟨s, rfl, rfl, .refl s⟩
  · rename_i c rest _
    exact ⟨{ s with pending := rest }, rfl, rfl, exec_later t h⟩

end State

/-- Settles O58: every command leads to a later state, which is within the bounds where the state before was. -/
theorem everyStepKeepsTheRingAndTheTraceInBounds : Obligations.EveryStepKeepsTheRingAndTheTraceInBounds := by
  unfold Obligations.EveryStepKeepsTheRingAndTheTraceInBounds
  refine ⟨fun s t hs h => ?_, fun s t hs h => ?_⟩ <;> obtain ⟨u, he, ht, later⟩ := State.step_later h
  · exact later.ring (by rwa [RingSafe, he])
  · exact later.trace (by rwa [TraceSafe, ht])

/-- Settles O59: every command leads to a later state. -/
theorem commandsLeaveTheQueueTheIdentityAndTheOutput : Obligations.CommandsLeaveTheQueueTheIdentityAndTheOutput := by
  unfold Obligations.CommandsLeaveTheQueueTheIdentityAndTheOutput
  intro c s t h
  have later := State.exec_later t h
  exact ⟨later.pending, later.id, later.sent⟩

end Sys2Proof.Machine
end

section
/-! ## Event readers (01 R37, R38; 14 R500, R501) -/

namespace Sys2Proof.Machine

namespace State

variable {s t : State} {h : HostId}

theorem OnlyTold.dataKept (a : s.OnlyTold t) : s.DataKept t := ⟨a.mem_eq, a.map_eq, a.rt_eq, a.dir_eq, a.lake_eq⟩

theorem OnlyTold.controlKept (a : s.OnlyTold t) : s.ControlKept t :=
  ⟨a.sled_eq, a.q_eq, a.lamp_eq, a.pwr_eq, a.wd_eq, a.fw_eq, a.chn_eq, a.mgt_eq, a.id_eq⟩

theorem d3_of_barOpen (o : s.barOpen h = true) : (s.fnOf h).d3 = false := by
  simp only [State.barOpen, Bool.and_eq_true, Bool.not_eq_true'] at o
  exact o.2

@[simp] theorem reader_send {o : Output} : (s.send o).reader h = s.reader h := rfl

theorem signal_of_not_d3 {vec : Nat} (d : (s.fnOf h).d3 = false) : s.signal h vec = s.send (.msix h vec) := by
  simp [State.signal, d]

/-- A reader that keeps its index has the same records to read. -/
theorem avail_setReader {r : Reader} (e : r.idx = (s.reader h).idx) : (s.setReader h r).avail h = s.avail h := by
  unfold State.avail State.readable
  rw [reader_setReader, e]
  rfl

theorem ackWrite_of_barOpen (o : s.barOpen h = true) (v : W32) :
    s.ackWrite h v =
      s.setReader h { s.reader h with idx := ackIdx (s.readable h) (v.extractLsb' 0 12).toNat s.evt.prod (s.reader h).idx } := by
  simp [State.ackWrite, o]

theorem vector0_of_spacing (e : (s.reader h).spacing = true) : s.vector0 h = s.setReader h { s.reader h with heldSig := true } := by
  simp [State.vector0, e]

theorem vector0_of_not_spacing (e : (s.reader h).spacing = false) (d : (s.fnOf h).d3 = false) :
    s.vector0 h = (s.setReader h { s.reader h with spacing := true }).send (.msix h 0) := by
  simp only [State.vector0, e, Bool.false_eq_true, if_false]
  exact signal_of_not_d3 d

theorem vector0_told : s.OnlyTold (s.vector0 h) := by
  unfold State.vector0
  extract_lets rd
  split
  exacts [s.setReader_told h _, (s.setReader_told h _).trans (signal_told _ h 0)]

end State

/-- The reader that a write of `KEVT_CTL` leaves, before any signal. -/
def Reader.controlled (rd : Reader) (v : W32) : Reader :=
  { rd with minsev := if 5 < (v.extractLsb' 0 3).toNat then rd.minsev else v.extractLsb' 0 3, notify := v.getLsbD 3 }

theorem State.ctlWrite_of_barOpen {s : State} {h : HostId} (o : s.barOpen h = true) (v : W32) :
    s.ctlWrite h v =
      if v.getLsbD 3 = true ∧ (s.reader h).notify = false ∧ s.avail h ≠ 0 then (s.setReader h ((s.reader h).controlled v)).vector0 h
      else s.setReader h ((s.reader h).controlled v) := by
  rw [← State.avail_setReader (r := (s.reader h).controlled v) rfl]
  simp only [State.ctlWrite, o, Bool.true_eq_false, if_false]
  rfl

theorem State.ctlWrite_quiet {s : State} {h : HostId} (o : s.barOpen h = true) (v : W32)
    (q : ¬ (v.getLsbD 3 = true ∧ (s.reader h).notify = false ∧ s.avail h ≠ 0)) : s.ctlWrite h v = s.setReader h ((s.reader h).controlled v) := by
  rw [State.ctlWrite_of_barOpen o, if_neg q]

theorem State.ctlWrite_holds {s : State} {h : HostId} (o : s.barOpen h = true) (v : W32)
    (q : v.getLsbD 3 = true ∧ (s.reader h).notify = false ∧ s.avail h ≠ 0) (sp : (s.reader h).spacing = true) :
    s.ctlWrite h v = (s.setReader h ((s.reader h).controlled v)).setReader h { (s.reader h).controlled v with heldSig := true } := by
  have e := State.reader_setReader s h ((s.reader h).controlled v)
  rw [State.ctlWrite_of_barOpen o, if_pos q, State.vector0_of_spacing (by rw [e]; exact sp), e]

theorem State.ctlWrite_rings {s : State} {h : HostId} (o : s.barOpen h = true) (v : W32)
    (q : v.getLsbD 3 = true ∧ (s.reader h).notify = false ∧ s.avail h ≠ 0) (sp : (s.reader h).spacing = false) :
    s.ctlWrite h v =
      ((s.setReader h ((s.reader h).controlled v)).setReader h { (s.reader h).controlled v with spacing := true }).send (.msix h 0) := by
  have e := State.reader_setReader s h ((s.reader h).controlled v)
  rw [State.ctlWrite_of_barOpen o, if_pos q, State.vector0_of_not_spacing (s := s.setReader h _) (by rw [e]; exact sp) (State.d3_of_barOpen o), e]

/-- An acknowledgement of n records moves the read index past them, past every record where n or fewer are readable. -/
theorem kevtAckWrite_moves {s : State} {h : HostId} {v : W32} {n : Nat} (o : s.barOpen h = true) (hn : (v.extractLsb' 0 12).toNat = n) :
    (s.avail h ≤ n → exec (.kevtAckWrite h v) s = .next (s.setReader h { s.reader h with idx := s.evt.prod })) ∧
    (n = 0 → 0 < s.avail h → exec (.kevtAckWrite h v) s = .next (s.setReader h (s.reader h))) ∧
    (∀ p, 0 < n → n < s.avail h → (s.readable h)[n - 1]? = some p →
      exec (.kevtAckWrite h v) s = .next (s.setReader h { s.reader h with idx := p.1 + 1 })) := by
  have e : exec (.kevtAckWrite h v) s = .next (s.ackWrite h v) := rfl
  rw [e, State.ackWrite_of_barOpen o, hn]
  unfold State.avail ackIdx
  refine ⟨fun all => ?_, fun zero some => ?_, fun p pos few found => ?_⟩
  · rw [if_pos all]
  · rw [if_neg (by omega), if_pos zero]
  · rw [if_neg (by omega), if_neg (by omega), found]

/-- A write of `KEVT_CTL` sets the two fields of the reader; where it turns the notification on with records to read, vector 0 follows. -/
theorem kevtCtlWrite_notifies {s : State} {h : HostId} (o : s.barOpen h = true) (v : W32) :
    ∃ t, exec (.kevtCtlWrite h v) s = .next t ∧ (t.reader h).notify = v.getLsbD 3 ∧
      (t.reader h).minsev = (if 5 < (v.extractLsb' 0 3).toNat then (s.reader h).minsev else v.extractLsb' 0 3) ∧
      (t.reader h).idx = (s.reader h).idx ∧ (t.reader h).lost = (s.reader h).lost ∧
      (v.getLsbD 3 = true → (s.reader h).notify = false → s.avail h ≠ 0 →
        ((s.reader h).spacing = false → .msix h 0 ∈ t.out ∧ (t.reader h).spacing = true) ∧
        ((s.reader h).spacing = true → t.out = s.out ∧ (t.reader h).heldSig = true)) ∧
      (v.getLsbD 3 = false ∨ (s.reader h).notify = true ∨ s.avail h = 0 → t.out = s.out) ∧ s.DataKept t ∧ s.ControlKept t := by
  refine ⟨s.ctlWrite h v, rfl, ?_⟩
  have told : s.OnlyTold (s.ctlWrite h v) := by
    rw [State.ctlWrite_of_barOpen o]
    split
    exacts [(s.setReader_told h _).trans State.vector0_told, s.setReader_told h _]
  by_cases on : v.getLsbD 3 = true ∧ (s.reader h).notify = false ∧ s.avail h ≠ 0
  · have loud : ¬ (v.getLsbD 3 = false ∨ (s.reader h).notify = true ∨ s.avail h = 0) := by simpa [not_or] using on
    cases sp : (s.reader h).spacing
    · rw [State.ctlWrite_rings o v on sp] at told ⊢
      rw [State.reader_send, State.reader_setReader]
      exact ⟨rfl, rfl, rfl, rfl, fun _ _ _ => ⟨fun _ => ⟨List.mem_cons_self, rfl⟩, nofun⟩, fun q => absurd q loud, told.dataKept, told.controlKept⟩
    · rw [State.ctlWrite_holds o v on sp] at told ⊢
      rw [State.reader_setReader]
      exact ⟨rfl, rfl, rfl, rfl, fun _ _ _ => ⟨nofun, fun _ => ⟨rfl, rfl⟩⟩, fun q => absurd q loud, told.dataKept, told.controlKept⟩
  · rw [State.ctlWrite_quiet o v on] at told ⊢
    rw [State.reader_setReader]
    exact ⟨rfl, rfl, rfl, rfl, fun a b c => absurd ⟨a, b, c⟩ on, fun _ => rfl, told.dataKept, told.controlKept⟩

/-- Settles O42: reader by reader, each command's equation. -/
theorem eventReadersAdvance : Obligations.EventReadersAdvance := by
  unfold Obligations.EventReadersAdvance
  refine ⟨fun s h v n o hn => kevtAckWrite_moves o hn, fun s h o => ?_, fun s h v o => kevtCtlWrite_notifies o v, fun s h sp => ⟨?_, ?_⟩⟩
  · simp [exec, execKevtLostRead, o]
  · intro free
    simp [exec, execEventVectorSpacing, sp, free]
  · intro held awake
    simp only [exec, execEventVectorSpacing, sp, held, Bool.true_eq_false, if_false, if_true]
    rw [State.signal_of_not_d3 (s := s.setReader h _) awake]

end Sys2Proof.Machine
end

section
/-! ## What a post leaves in the ring (01 R37, R38; 14 R495)

The ring holds the newest records: what is posted stays while fewer than 2,048 records follow it. -/

namespace Sys2Proof.Machine

/-- A state that holds the ring of another with records posted after it: all of the two, or the newest of them in a full ring. -/
structure State.Wrote (s : State) (l : List EvRec) (t : State) : Prop where
  ring : ∃ d, t.evt.ring = (s.evt.ring ++ l).drop d ∧ (d = 0 ∨ 2048 ≤ t.evt.ring.length)
  prod : t.evt.prod = s.evt.prod + l.length

/-- At most n records were posted between two states. -/
def State.Adds (s : State) (n : Nat) (t : State) : Prop := ∃ l, l.length ≤ n ∧ s.Wrote l t

namespace State

variable {s t u : State} {l k : List EvRec} {n m : Nat}

theorem Wrote.none (hr : t.evt.ring = s.evt.ring) (hp : t.evt.prod = s.evt.prod) : s.Wrote [] t :=
  ⟨⟨0, by simp [hr], .inl rfl⟩, by simp [hp]⟩

theorem Wrote.trans (a : s.Wrote l t) (b : t.Wrote k u) : s.Wrote (l ++ k) u := by
  obtain ⟨d, ring, full⟩ := a.ring
  obtain ⟨e, ring', full'⟩ := b.ring
  have inside : d ≤ (s.evt.ring ++ l).length := by
    rcases full with rfl | full
    · exact Nat.zero_le _
    · rw [ring, List.length_drop] at full
      omega
  have all : u.evt.ring = (s.evt.ring ++ (l ++ k)).drop (d + e) := by
    rw [ring', ring, ← List.drop_append_of_le_length inside, List.drop_drop, List.append_assoc]
  refine ⟨⟨d + e, all, ?_⟩, by rw [b.prod, a.prod, List.length_append, Nat.add_assoc]⟩
  rcases full' with rfl | full'
  · rcases full with rfl | full
    · exact .inl rfl
    · rw [List.drop_zero] at ring'
      rw [ring', List.length_append]
      omega
  · exact .inr full'

/-- A record is in the ring while at most 2,048 were posted from it on. -/
theorem Wrote.mem (a : s.Wrote l t) (few : l.length ≤ 2048) {r : EvRec} (h : r ∈ l) : r ∈ t.evt.ring := by
  obtain ⟨d, ring, full⟩ := a.ring
  have old : d ≤ s.evt.ring.length := by
    rcases full with rfl | full
    · exact Nat.zero_le _
    · rw [ring, List.length_drop, List.length_append] at full
      omega
  rw [ring, List.drop_append_of_le_length old]
  exact List.mem_append_right _ h

theorem Adds.none (hr : t.evt.ring = s.evt.ring) (hp : t.evt.prod = s.evt.prod) : s.Adds n t := ⟨[], Nat.zero_le _, .none hr hp⟩

theorem Adds.refl (s : State) : s.Adds n s := .none rfl rfl

theorem Adds.trans (a : s.Adds n t) (b : t.Adds m u) : s.Adds (n + m) u := by
  obtain ⟨l, hl, a⟩ := a
  obtain ⟨k, hk, b⟩ := b
  exact ⟨l ++ k, by rw [List.length_append]; omega, a.trans b⟩

/-- An update outside the event unit before. -/
theorem Adds.after (hr : t.evt.ring = s.evt.ring) (hp : t.evt.prod = s.evt.prod) (b : t.Adds n u) : s.Adds n u := by
  obtain ⟨l, hl, b⟩ := b
  exact ⟨l, hl, (Wrote.none hr hp).trans b⟩

theorem Adds.mono (a : s.Adds n t) (h : n ≤ m) : s.Adds m t := by
  obtain ⟨l, hl, a⟩ := a
  exact ⟨l, hl.trans h, a⟩

theorem Adds.ite {c : Prop} [Decidable c] (a : s.Adds n t) (b : s.Adds n u) : s.Adds n (if c then t else u) := by
  split
  exacts [a, b]

theorem Adds.foldl {α : Type} {f : State → α → State} (hf : ∀ (t : State) a, t.Adds n (f t a)) (l : List α) (s : State) :
    s.Adds (n * l.length) (l.foldl f s) := by
  induction l generalizing s with
  | nil => exact .refl s
  | cons a l ih => exact ((hf s a).trans (ih (f s a))).mono (by rw [List.length_cons, Nat.mul_succ]; omega)

theorem Adds.foldl_none {α : Type} {f : State → α → State} (hf : ∀ (t : State) a, t.Adds 0 (f t a)) (l : List α) (s : State) :
    s.Adds 0 (l.foldl f s) := (Adds.foldl hf l s).mono (by rw [Nat.zero_mul])

/-! ### Posting and tracing -/

theorem signal_adds {h : HostId} {vec : Nat} : s.Adds 0 (s.signal h vec) := by
  unfold State.signal
  extract_lets f
  split
  · split
    exacts [.refl s, .none rfl rfl]
  · exact .none rfl rfl

theorem notify0_adds {h : HostId} {r : EvRec} : s.Adds 0 (s.notify0 h r) := by
  unfold State.notify0
  extract_lets rd
  split
  · split
    exacts [.none rfl rfl, Adds.after (by rfl) (by rfl) signal_adds]
  · exact .refl s

theorem postRec_wrote (s : State) (p : Post) : s.Wrote [p.toRec s.time] (s.postRec p) := by
  unfold State.postRec
  extract_lets r full oldest old _ s1
  have one : s.Wrote [r] s1 := by
    unfold s1
    split
    · rename_i h
      have h : 2048 ≤ s.evt.ring.length := of_decide_eq_true h
      refine ⟨⟨1, ?_, .inr ?_⟩, rfl⟩
      · rw [List.drop_append_of_le_length (by omega)]
      · simp only [List.length_append, List.length_drop, List.length_singleton]
        omega
    · exact ⟨⟨0, rfl, .inl rfl⟩, rfl⟩
  obtain ⟨l, hl, rest⟩ := Adds.foldl_none (f := fun t h => t.notify0 h r) (fun _ _ => notify0_adds) s1.boundHosts s1
  obtain rfl := List.eq_nil_of_length_eq_zero (Nat.le_zero.mp hl)
  exact one.trans rest

theorem traceEvent_adds {r : EvRec} : s.Adds 0 (s.traceEvent r) := .ite (.refl s) (.none rfl rfl)

theorem traceCheck_adds {old : State} : s.Adds 1 (s.traceCheck old) := by
  unfold State.traceCheck
  refine .ite ?_ (.refl s)
  exact Adds.trans (n := 1) ⟨_, le_refl _, s.postRec_wrote _⟩ traceEvent_adds

theorem trace_adds {src rtype data : Nat} : s.Adds 1 (s.trace src rtype data) :=
  .ite (.refl s) (Adds.after (by rfl) (by rfl) traceCheck_adds)

/-- A post enters the ring, and TRACE_STOPPED may follow it. -/
theorem post_wrote (awake : s.sled.st ≠ .off) (p : Post) : ∃ l, l.length ≤ 1 ∧ s.Wrote (p.toRec s.time :: l) (s.post p) := by
  obtain ⟨l, hl, rest⟩ := ((traceEvent_adds (s := s.postRec p) (r := p.toRec s.time)).trans (traceCheck_adds (old := s.postRec p)))
  refine ⟨l, hl, ?_⟩
  unfold State.post
  rw [if_neg awake]
  exact (s.postRec_wrote p).trans rest

theorem post_adds {p : Post} : s.Adds 2 (s.post p) := by
  by_cases h : s.sled.st = .off
  · rw [State.post, if_pos h]
    exact .refl s
  · obtain ⟨l, hl, w⟩ := post_wrote h p
    exact ⟨_, by simpa using hl, w⟩

theorem post_prod (awake : s.sled.st ≠ .off) (p : Post) : s.evt.prod < (s.post p).evt.prod := by
  obtain ⟨l, -, w⟩ := post_wrote awake p
  rw [w.prod, List.length_cons]
  omega

theorem time_of_ms (h : t.clk.ms = s.clk.ms) : t.time = s.time := by
  unfold State.time
  rw [h]

theorem Posted.after {code okind obj : Nat} (posted : t.Posted u code okind obj) (before : s.evt.prod ≤ t.evt.prod) (time : t.clk.ms = s.clk.ms) :
    s.Posted u code okind obj := by
  obtain ⟨more, r, h, hc, hk, ho, ht⟩ := posted
  exact ⟨before.trans_lt more, r, h, hc, hk, ho, ht.trans (time_of_ms time)⟩

/-- What a post says is in the ring while few records follow it. -/
theorem posted_of_post {p : Post} (before : s.evt.prod ≤ t.evt.prod) (time : t.clk.ms = s.clk.ms) (awake : t.sled.st ≠ .off)
    (after : (t.post p).Adds n u) (few : n ≤ 2000) {code okind obj : Nat} (hc : (p.toRec s.time).code.toNat = code)
    (hk : (p.toRec s.time).okind.toNat = okind) (ho : (p.toRec s.time).obj.toNat = obj) : s.Posted u code okind obj := by
  obtain ⟨l, hl, w⟩ := post_wrote awake p
  obtain ⟨k, hk', w'⟩ := after
  have both := w.trans w'
  refine ⟨?_, p.toRec s.time, ?_, hc, hk, ho, rfl⟩
  · rw [both.prod, List.cons_append, List.length_cons]
    omega
  · refine both.mem ?_ ?_
    · simp only [List.cons_append, List.length_cons, List.length_append]
      omega
    · rw [time_of_ms time]
      exact List.mem_cons_self

end State

end Sys2Proof.Machine
end

section
/-! ## What the command of a Dusk flush does (13 R453 step 2; 08 R350; 11 R428) -/

namespace Sys2Proof.Machine

theorem Tbl.del_of_find_none {α : Type} {t : Tbl α} {n : Nat} (h : t.find n = none) : t.del n = t := by
  induction t with
  | nil => rfl
  | cons p t ih =>
    obtain ⟨k, v⟩ := p
    simp only [Tbl.find] at h
    split at h
    · cases h
    · rename_i e
      have rest : Tbl.del t n = t := ih h
      simp [Tbl.del] at rest ⊢
      exact ⟨e, rest⟩

/-! ### Ending programs and moves -/

/-- Two states between which programs and moves ended: what the sled does and holds is as it was, and nothing was posted. -/
structure State.WoundDown (s t : State) : Prop where
  sled : t.sled = s.sled
  lamp : t.lamp = s.lamp
  mem : t.mem = s.mem
  rt : t.rt = s.rt
  ring : t.evt.ring = s.evt.ring
  prod : t.evt.prod = s.evt.prod

namespace State

variable {s t u : State}

namespace WoundDown

theorem refl (s : State) : s.WoundDown s := ⟨rfl, rfl, rfl, rfl, rfl, rfl⟩

theorem trans (a : s.WoundDown t) (b : t.WoundDown u) : s.WoundDown u :=
  ⟨b.sled.trans a.sled, b.lamp.trans a.lamp, b.mem.trans a.mem, b.rt.trans a.rt, b.ring.trans a.ring, b.prod.trans a.prod⟩

theorem ite {c : Prop} [Decidable c] (a : s.WoundDown t) (b : s.WoundDown u) : s.WoundDown (if c then t else u) := by
  split
  exacts [a, b]

theorem foldl {α : Type} {f : State → α → State} (hf : ∀ (t : State) a, t.WoundDown (f t a)) (l : List α) (s : State) :
    s.WoundDown (l.foldl f s) := by
  induction l generalizing s with
  | nil => exact .refl s
  | cons a l ih => exact (hf s a).trans (ih _)

end WoundDown

theorem signal_woundDown {h : HostId} {vec : Nat} : s.WoundDown (s.signal h vec) := by
  unfold State.signal
  extract_lets f
  exact .ite (.ite (.refl s) ⟨rfl, rfl, rfl, rfl, rfl, rfl⟩) ⟨rfl, rfl, rfl, rfl, rfl, rfl⟩

theorem signal_q {h : HostId} {vec : Nat} : (s.signal h vec).q = s.q := (s.signal_told h vec).q_eq

theorem deliver_woundDown {h : HostId} {q : QueueNo} {c : Cpl} : s.WoundDown (s.deliver h q c) := by
  unfold State.deliver State.writeCpl
  extract_lets x last s1
  have h_s1 : s.WoundDown s1 := ⟨rfl, rfl, rfl, rfl, rfl, rfl⟩
  exact .ite ⟨rfl, rfl, rfl, rfl, rfl, rfl⟩ (h_s1.trans (.ite signal_woundDown (.refl _)))

theorem deliver_progs {h : HostId} {q : QueueNo} {c : Cpl} : (s.deliver h q c).q.progs = s.q.progs := by
  unfold State.deliver State.writeCpl
  extract_lets x last s1
  split
  · rfl
  · split
    exacts [by rw [signal_q]; rfl, rfl]

theorem endProg_woundDown {p : Nat} {status : Byte} {detail : W16} {info : W64} : s.WoundDown (s.endProg p status detail info) := by
  unfold State.endProg
  split
  · exact .refl s
  · extract_lets s1 s2 s3
    have h_s2 : s.WoundDown s2 := .ite ⟨rfl, rfl, rfl, rfl, rfl, rfl⟩ ⟨rfl, rfl, rfl, rfl, rfl, rfl⟩
    have h_s3 : s2.WoundDown s3 := ⟨rfl, rfl, rfl, rfl, rfl, rfl⟩
    exact .ite h_s2 (h_s2.trans (h_s3.trans deliver_woundDown))

theorem endProg_progs {p : Nat} {status : Byte} {detail : W16} {info : W64} (r : Nat) :
    (s.endProg p status detail info).prog r = if r = p then none else s.prog r := by
  unfold State.endProg
  split
  · rename_i free
    split_ifs with h
    exacts [h ▸ free, rfl]
  · extract_lets s1 s2 s3
    have h_s2 : s2.q.progs = s.q.progs.del p := by
      unfold s2
      split <;> rfl
    have left : Tbl.find (s.q.progs.del p) r = if r = p then none else s.prog r := Tbl.find_filter_ne _ _ _
    unfold State.prog at left ⊢
    split
    · rw [h_s2, left]
    · rw [deliver_progs, ← left, ← h_s2]
      rfl

/-- A program is gone, or ends at its next instruction by a flush. -/
def EndsAtFlush (s : State) (p : Nat) : Prop := ∀ x, s.prog p = some x → x.wait = .control ∧ x.cancel = some (eState, 1)

theorem cancelProg_woundDown {p : Nat} {status : Byte} {detail : W16} : s.WoundDown (s.cancelProg p status detail) := by
  unfold State.cancelProg
  split
  · exact .refl s
  · exact .ite ⟨rfl, rfl, rfl, rfl, rfl, rfl⟩ endProg_woundDown

theorem cancelProg_prog_ne {p r : Nat} {status : Byte} {detail : W16} (h : r ≠ p) : (s.cancelProg p status detail).prog r = s.prog r := by
  unfold State.cancelProg
  split
  · rfl
  · split
    · exact s.prog_setProg_ne _ h
    · rw [endProg_progs, if_neg h]

theorem cancelProg_ends (s : State) (p : Nat) : (s.cancelProg p eState 1).EndsAtFlush p := by
  intro y hy
  unfold State.cancelProg at hy
  split at hy
  · rename_i free
    rw [free] at hy
    cases hy
  · split at hy
    · rw [prog_setProg] at hy
      obtain rfl := Option.some.inj hy
      exact ⟨‹_›, rfl⟩
    · rw [endProg_progs, if_pos rfl] at hy
      cases hy

theorem foldl_cancelProg_ends (l : List Nat) (s : State) {p : Nat} (h : p ∈ l ∨ s.EndsAtFlush p) :
    (l.foldl (fun t p => t.cancelProg p eState 1) s).EndsAtFlush p := by
  induction l generalizing s with
  | nil => exact h.resolve_left List.not_mem_nil
  | cons r l ih =>
    refine ih _ ?_
    by_cases e : p = r
    · exact .inr (e ▸ s.cancelProg_ends p)
    · rcases h with h | h
      · exact .inl ((List.mem_cons.mp h).resolve_left e)
      · exact .inr (fun x hx => h x (by rwa [cancelProg_prog_ne e] at hx))

/-- Every program of a sled is gone or ends at its next instruction once each has been cancelled. -/
theorem cancelAll_ends (s : State) (p : Nat) : ((s.q.progs.map (fun p => p.1)).foldl (fun t p => t.cancelProg p eState 1) s).EndsAtFlush p := by
  refine foldl_cancelProg_ends _ s ?_
  cases h : s.prog p with
  | none => exact .inr (fun x hx => by rw [h] at hx; cases hx)
  | some x => exact .inl (List.mem_map_of_mem (f := fun p => p.1) (Tbl.find_mem h))

theorem abortMove_woundDown {n : Nat} : s.WoundDown (s.abortMove n) := by
  unfold State.abortMove
  split
  · exact .refl s
  · extract_lets s1 e _ _ s2
    have h_s1 : s.WoundDown s1 := by
      unfold s1 State.sealBack
      split
      · exact .ite ⟨rfl, rfl, rfl, rfl, rfl, rfl⟩ (.refl s)
      · exact .refl s
    have h_s2 : s1.WoundDown s2 := ⟨rfl, rfl, rfl, rfl, rfl, rfl⟩
    refine h_s1.trans (h_s2.trans (.ite ?_ (.refl _)))
    unfold State.commitSme State.journal
    extract_lets old s3
    have h_s3 : s2.WoundDown s3 := ⟨rfl, rfl, rfl, rfl, rfl, rfl⟩
    exact h_s3.trans (.ite (.ite ⟨rfl, rfl, rfl, rfl, rfl, rfl⟩ (.refl _)) (.refl _))

theorem commitSme_lets (r : RegionId) (seg : Nat) (e : Sme) :
    (s.commitSme r seg e).q = s.q ∧ (s.commitSme r seg e).map.moves = s.map.moves := by
  unfold State.commitSme State.journal
  extract_lets old s1
  split
  · split <;> exact ⟨rfl, rfl⟩
  · exact ⟨rfl, rfl⟩

/-- A move that ends is forgotten; no program is touched. -/
theorem abortMove_forgets (s : State) (n : Nat) : (s.abortMove n).q.progs = s.q.progs ∧ (s.abortMove n).map.moves = s.map.moves.del n := by
  unfold State.abortMove
  split
  · rename_i none
    exact ⟨rfl, (Tbl.del_of_find_none none).symm⟩
  · extract_lets s1 e _ _ s2
    have h_s1 : s1.q.progs = s.q.progs ∧ s1.map.moves = s.map.moves := by
      unfold s1 State.sealBack
      split
      · split <;> exact ⟨rfl, rfl⟩
      · exact ⟨rfl, rfl⟩
    obtain ⟨progs, moves⟩ := h_s1
    split
    · obtain ⟨q, m⟩ := s2.commitSme_lets _ _ _
      rw [q, m]
      exact ⟨progs, congrArg (fun t : Tbl Move => t.del n) moves⟩
    · exact ⟨progs, congrArg (fun t : Tbl Move => t.del n) moves⟩

theorem foldl_abortMove_forgets (l : List Nat) (s : State) :
    (l.foldl State.abortMove s).q.progs = s.q.progs ∧ (l.foldl State.abortMove s).map.moves = s.map.moves.filter (fun p => p.1 ∉ l) := by
  induction l generalizing s with
  | nil => simp
  | cons n l ih =>
    obtain ⟨progs, moves⟩ := s.abortMove_forgets n
    obtain ⟨progs', moves'⟩ := ih (s.abortMove n)
    refine ⟨progs'.trans progs, ?_⟩
    rw [List.foldl_cons, moves', moves, Tbl.del, List.filter_filter]
    refine List.filter_congr (fun p _ => ?_)
    by_cases h : p.1 = n <;> simp [h]

theorem abortAll_forgets (s : State) :
    ((s.map.moves.map (fun p => p.1)).foldl State.abortMove s).q.progs = s.q.progs ∧
    ((s.map.moves.map (fun p => p.1)).foldl State.abortMove s).map.moves = [] := by
  obtain ⟨progs, moves⟩ := foldl_abortMove_forgets (s.map.moves.map (fun p => p.1)) s
  refine ⟨progs, moves.trans (List.filter_eq_nil_iff.mpr (fun p hp => ?_))⟩
  simpa using ⟨p.2, hp⟩

/-! ### The Ledger, the stacks and the links at a flush -/

/-- Two states between which the sled's power, links and journal changed and events were told: work and data are as they were. -/
structure Standing (s t : State) : Prop where
  rest : t = { s with
    pond := t.pond, pwr := t.pwr, lake := t.lake, fw := t.fw, chn := t.chn, evt := t.evt, trc := t.trc, out := t.out,
    ports := { s.ports with fn := t.ports.fn } }

namespace Standing

theorem refl (s : State) : s.Standing s := ⟨rfl⟩

theorem trans (a : s.Standing t) (b : t.Standing u) : s.Standing u := by
  have h := b.rest
  rw [a.rest] at h
  exact ⟨h⟩

theorem ite {c : Prop} [Decidable c] (a : s.Standing t) (b : s.Standing u) : s.Standing (if c then t else u) := by
  split
  exacts [a, b]

theorem foldl {α : Type} {f : State → α → State} (hf : ∀ (t : State) a, t.Standing (f t a)) (l : List α) (s : State) :
    s.Standing (l.foldl f s) := by
  induction l generalizing s with
  | nil => exact .refl s
  | cons a l ih => exact (hf s a).trans (ih _)

theorem sled_eq (a : s.Standing t) : t.sled = s.sled := by rw [a.rest]
theorem q_eq (a : s.Standing t) : t.q = s.q := by rw [a.rest]
theorem lamp_eq (a : s.Standing t) : t.lamp = s.lamp := by rw [a.rest]
theorem map_eq (a : s.Standing t) : t.map = s.map := by rw [a.rest]
theorem mem_eq (a : s.Standing t) : t.mem = s.mem := by rw [a.rest]
theorem rt_eq (a : s.Standing t) : t.rt = s.rt := by rw [a.rest]
theorem stopStores_eq (a : s.Standing t) : t.ports.stopStores = s.ports.stopStores := by rw [a.rest]

end Standing

theorem OnlyTold.standing (a : s.OnlyTold t) : s.Standing t := by
  constructor
  rw [a.rest]

theorem selfRefresh_standing {k : Nat} {on : Bool} : s.Standing (s.selfRefresh k on) := .foldl (fun _ _ => .ite (.refl _) ⟨rfl⟩) _ _

theorem sleepRec_standing {src state reason : Nat} : s.Standing (s.sleepRec src state reason) := (s.trace_told _ _ _).standing.trans ⟨rfl⟩

theorem wakeRec_standing {src state cause : Nat} : s.Standing (s.wakeRec src state cause) := (s.trace_told _ _ _).standing.trans ⟨rfl⟩

theorem setPst_standing {i : Nat} {st : PState} {reason cause : Nat} : s.Standing (s.setPst i st reason cause) := by
  unfold State.setPst
  extract_lets old up s1
  have h_s1 : s.Standing s1 := .foldl (fun _ _ => .trans (.ite wakeRec_standing (.refl _)) (.ite (.refl _) sleepRec_standing)) _ _
  exact .ite (.refl s) (h_s1.trans ⟨rfl⟩)

theorem journal_standing {j : JRec} : s.Standing (s.journal j) := .ite ⟨rfl⟩ (.refl s)

theorem chainStop_standing : s.Standing s.chainStop := by
  unfold State.chainStop
  extract_lets s1
  have h_s1 : s.Standing s1 := by
    unfold s1
    split
    exacts [⟨rfl⟩, .refl s]
  exact h_s1.trans ⟨rfl⟩

/-! ### How many records they post -/

theorem selfRefresh_adds {k : Nat} {on : Bool} : s.Adds 0 (s.selfRefresh k on) := .foldl_none (fun _ _ => by
    extract_lets p
    exact .ite (.refl _) (.none rfl rfl)) _ _

theorem sleepRec_adds {src state reason : Nat} : s.Adds 1 (s.sleepRec src state reason) := Adds.trans (m := 0) trace_adds (.none rfl rfl)

theorem wakeRec_adds {src state cause : Nat} : s.Adds 1 (s.wakeRec src state cause) := Adds.trans (m := 0) trace_adds (.none rfl rfl)

theorem sourcesOf_length (i : Nat) : (sourcesOf i).length ≤ 4 := by
  unfold sourcesOf
  split_ifs <;> simp

theorem setPst_adds {i : Nat} {st : PState} {reason cause : Nat} : s.Adds 8 (s.setPst i st reason cause) := by
  unfold State.setPst
  extract_lets old up s1
  have h_s1 : s.Adds (2 * (sourcesOf i).length) s1 :=
    .foldl (fun _ _ => Adds.trans (n := 1) (m := 1) (.ite wakeRec_adds (.refl _)) (.ite (.refl _) sleepRec_adds)) _ _
  have few := sourcesOf_length i
  exact .ite (.refl s) (Adds.mono (n := 2 * (sourcesOf i).length + 0) (h_s1.trans (.none rfl rfl)) (by omega))

theorem journal_adds {j : JRec} : s.Adds 0 (s.journal j) := .ite (.none rfl rfl) (.refl s)

theorem chainStop_adds : s.Adds 0 s.chainStop := by
  unfold State.chainStop
  extract_lets s1
  refine .none ?_ ?_ <;> simp only [s1] <;> split <;> rfl

/-! ### The whole command -/

/-- The state as a flush is commanded and told, before anything stops. -/
def flushTold (s : State) (g : Nat) : State := (s.setSled .duskFlush).post (pairPost .dusk 0 0 g s.pwr.budget)

theorem flushTold_told (s : State) (g : Nat) : { s with sled := { s.sled with st := .duskFlush } }.OnlyTold (s.flushTold g) :=
  (s.setSled_told .duskFlush).trans (State.post_told _ _)

/-- A sled whose programs, schedules and moves a flush has ended. -/
def flushWork (s1 : State) : State :=
  let s2 : State := (s1.q.progs.map (fun p => p.1)).foldl (fun t p => t.cancelProg p eState 1) s1
  let s3 : State := s2.lampStop
  let s4 : State := ((s3.lamp.sch.filter (fun p => p.2.armed)).map (fun p => p.1)).foldl (fun t k =>
    ((t.updSched k (fun y => { y with armed := false, prog := none, insts := [] })).writeBlock k).post
      { ev := .schedDisarmed, okind := 4, obj := schObj k, shost := schHost k, p0 := 4 }) s3
  (s4.map.moves.map (fun p => p.1)).foldl State.abortMove s4

/-- A sled that takes no store, starts nothing and has given its power to the flush. -/
def flushHalt (s5 : State) : State :=
  { s5 with
    ports := { s5.ports with stopStores := true }
    map := { s5.map with trials := [] }
    q := { s5.q with dispatching := false }
    sled := { s5.sled with flushCmd := true }
    pwr := { s5.pwr with
      wb := 0, switching := none, measuring := none, dusks := satInc s5.pwr.dusks
      entries := s5.pwr.entries.map (fun p => (p.1, { p.2 with
        ceil := BitVec.ofNat 16 (if 16 ≤ p.1 ∧ p.1 < 20 then 400 else litFloor p.1)
        counted := BitVec.ofNat 16 (if 16 ≤ p.1 ∧ p.1 < 20 then 400 else litFloor p.1)
        perm := 0
        seq := p.2.seq + 1 })) } }

/-- A sled lit for the flush, its chain stopped and the flush in the journal. -/
def flushLight (s6 : State) : State :=
  ((List.range 21).foldl (fun t i =>
    let u := if i < 12 ∧ (t.ledger i).st = .banked then t.selfRefresh i false else t
    (u.setPst i .lit 0 4).trace 0 0x0A (i + (t.ledger i).ceil.toNat * 65536)) s6).chainStop.journal .flushBegin

theorem commandFlush_eq (s : State) (g : Nat) : s.commandFlush g = (s.flushTold g).flushWork.flushHalt.flushLight := by
  simp only [commandFlush, flushTold, flushWork, flushHalt, flushLight]

theorem flushWork_ends (s : State) (none : s.lamp.sch = []) :
    (∃ u : State, s.WoundDown u ∧ (∀ p, u.EndsAtFlush p) ∧ u.lampStop.WoundDown s.flushWork ∧ s.flushWork.q.progs = u.q.progs) ∧
    s.flushWork.map.moves = [] := by
  unfold flushWork
  extract_lets u s3 s4
  have h_u : s.WoundDown u := .foldl (fun _ _ => cancelProg_woundDown) _ _
  have none : s3.lamp.sch = [] := (congrArg (fun l : LampS => l.sch) h_u.lamp).trans none
  have h_s4 : s4 = s3 := by simp only [s4, none, List.filter_nil, List.map_nil, List.foldl_nil]
  obtain ⟨progs, moves⟩ := abortAll_forgets s4
  refine ⟨⟨u, h_u, s.cancelAll_ends, ?_, ?_⟩, moves⟩
  · change s3.WoundDown _
    rw [← h_s4]
    exact .foldl (fun _ _ => abortMove_woundDown) _ _
  · rw [progs, h_s4]
    rfl

theorem flushHalt_lets (s : State) :
    s.flushHalt.ports.stopStores = true ∧ s.flushHalt.q.dispatching = false ∧ s.flushHalt.sled = { s.sled with flushCmd := true } ∧
    s.flushHalt.lamp = s.lamp ∧ s.flushHalt.q.progs = s.q.progs ∧ s.flushHalt.map.moves = s.map.moves ∧ s.flushHalt.mem = s.mem ∧
    s.flushHalt.rt = s.rt ∧ s.flushHalt.evt = s.evt := ⟨rfl, rfl, rfl, rfl, rfl, rfl, rfl, rfl, rfl⟩

theorem flushLight_standing (s : State) : s.Standing s.flushLight :=
  (Standing.foldl (fun _ _ => .trans (.ite selfRefresh_standing (.refl _)) (setPst_standing.trans (trace_told _ _ _ _).standing)) _ _).trans
    (chainStop_standing.trans journal_standing)

theorem flushLight_adds (s : State) : s.Adds (9 * 21) s.flushLight :=
  Adds.trans (m := 0) (Adds.foldl (n := 9)
    (fun _ _ => Adds.trans (n := 8) (m := 1) (Adds.trans (n := 0) (m := 8) (.ite selfRefresh_adds (.refl _)) setPst_adds) trace_adds) (List.range 21) s)
    (Adds.trans (n := 0) chainStop_adds journal_adds)

/-- A commanded flush stops what runs; few records follow the one that tells it. -/
theorem commandFlush_stops {g : Nat} (flush : s.sled.flush = some (.dusk g)) (sch : s.lamp.sch = []) :
    s.FlushBegan (s.commandFlush g) g ∧ (s.flushTold g).Adds 200 (s.commandFlush g) ∧
      (s.commandFlush g).sled = { s.sled with st := .duskFlush, flushCmd := true } := by
  have told := s.flushTold_told g
  obtain ⟨⟨u, h_u, ends, h_work, progs⟩, moves⟩ := flushWork_ends (s.flushTold g) (.trans (congrArg (fun l : LampS => l.sch) told.lamp_eq) sch)
  rw [commandFlush_eq]
  have h_end := flushLight_standing (s.flushTold g).flushWork.flushHalt
  have adds := flushLight_adds (s.flushTold g).flushWork.flushHalt
  obtain ⟨stores, dispatch, halted, lamp6, progs6, moves6, mem6, rt6, evt6⟩ := flushHalt_lets (s.flushTold g).flushWork
  generalize (s.flushTold g).flushWork.flushHalt.flushLight = t at h_end adds ⊢
  generalize (s.flushTold g).flushWork.flushHalt = s6 at *
  generalize (s.flushTold g).flushWork = s5 at *
  generalize s.flushTold g = s1 at *
  have sled : s5.sled = { s.sled with st := .duskFlush } := h_work.sled.trans (h_u.sled.trans told.sled_eq)
  have sled : t.sled = { s.sled with st := .duskFlush, flushCmd := true } := by rw [h_end.sled_eq, halted, sled]
  refine ⟨⟨?_, ?_, ?_, ?_, ?_, ?_, ?_, ?_, ?_, ?_⟩, ?_, sled⟩
  · rw [sled]
  · rw [sled]
    exact flush
  · rw [sled]
  · rw [h_end.stopStores_eq, stores]
  · rw [h_end.q_eq, dispatch]
  · rw [h_end.lamp_eq, lamp6, h_work.lamp]
    rfl
  · intro p x hx
    refine ends p x ?_
    rwa [prog, ← progs, ← progs6, ← h_end.q_eq]
  · rw [h_end.map_eq, moves6, moves]
  · rw [h_end.mem_eq, mem6, h_work.mem]
    exact h_u.mem.trans told.mem_eq
  · rw [h_end.rt_eq, rt6, h_work.rt]
    exact h_u.rt.trans told.rt_eq
  · refine Adds.mono (Adds.after ?_ ?_ adds) (by omega)
    · rw [evt6, h_work.ring]
      exact h_u.ring
    · rw [evt6, h_work.prod]
      exact h_u.prod

theorem setSled_adds {st : SledSt} : s.Adds 3 (s.setSled st) := by
  unfold State.setSled
  extract_lets _ s1 s2
  have h_s2 : s.Adds 3 s2 := Adds.after (by rfl) (by rfl) (Adds.trans (t := s1.post _) post_adds trace_adds)
  exact .ite (.refl s) (Adds.trans (m := 0) h_s2 (.foldl_none (fun _ _ => signal_adds) _ _))

/-- A commanded flush posts DUSK_START and few records more. -/
theorem commandFlush_posts {g : Nat} (flush : s.sled.flush = some (.dusk g)) (sch : s.lamp.sch = []) :
    s.Posted (s.commandFlush g) 0x0505 0 0 ∧ s.Adds 205 (s.commandFlush g) := by
  obtain ⟨-, adds, -⟩ := commandFlush_stops flush sch
  refine ⟨?_, Adds.mono (Adds.trans (setSled_adds (st := .duskFlush)) (post_adds.trans adds)) (by omega)⟩
  have told := s.setSled_told .duskFlush
  exact posted_of_post told.posted (by rw [told.clk_eq]) (by rw [told.sled_eq]; nofun) adds (by omega) rfl rfl rfl

/-- A flush of a sled with the same data. -/
theorem FlushBegan.after {g : Nat} (began : t.FlushBegan u g) (mem : t.mem = s.mem) (rt : t.rt = s.rt) : s.FlushBegan u g :=
  { began with mem := began.mem.trans mem, rt := began.rt.trans rt }

/-- A trigger in READY or SERVE has the Pilot command the flush at once, unless it is paused or in a restart. -/
theorem duskTrigger_of_up {g : Nat} {input : Bool} (up : s.up = true) (pilot : s.wd.pilotRestart = false) (pause : s.inPause = false) :
    s.duskTrigger g input = { s with sled := { s.sled with flush := some (.dusk g) } }.commandFlush g := by
  have start : s.startFlush (.dusk g) = { s with sled := { s.sled with flush := some (.dusk g) } }.commandFlush g := by
    have runs : ¬ (s.wd.pilotRestart = true ∨ s.fw.act.any (fun a => a.paused) = true) := by
      rw [pilot]
      rw [State.inPause] at pause
      simp [pause]
    simp only [startFlush]
    rw [if_neg runs]
  rw [← start]
  unfold State.duskTrigger
  rcases (by simpa [State.up] using up : s.sled.st = .ready ∨ s.sled.st = .serve) with h | h <;> rw [h]

theorem duskTrigger_stops {g : Nat} {input : Bool} (up : s.up = true) (pilot : s.wd.pilotRestart = false) (pause : s.inPause = false)
    (sch : s.lamp.sch = []) :
    s.FlushBegan (s.duskTrigger g input) g ∧ s.Posted (s.duskTrigger g input) 0x0505 0 0 ∧ s.Adds 205 (s.duskTrigger g input) ∧
      (s.duskTrigger g input).sled = { s.sled with st := .duskFlush, flush := some (.dusk g), flushCmd := true } := by
  rw [duskTrigger_of_up up pilot pause]
  obtain ⟨posted, adds⟩ := commandFlush_posts (s := { s with sled := { s.sled with flush := some (.dusk g) } }) rfl sch
  obtain ⟨began, -, sled⟩ := commandFlush_stops (s := { s with sled := { s.sled with flush := some (.dusk g) } }) rfl sch
  exact ⟨began.after rfl rfl, posted.after (by rfl) (by rfl), adds.after (by rfl) (by rfl), sled⟩

end State

end Sys2Proof.Machine
end

section
/-! ## The latch and the bridge (14 R515, R517, R519) -/

namespace Sys2Proof.Machine

namespace State

variable {s t : State}

theorem advise_told (s : State) (reason : Nat) :
    { s with evt := { s.evt with advised := (s.advise reason).evt.advised } }.OnlyTold (s.advise reason) := by
  unfold State.advise
  split
  · exact .refl s
  · have told := State.post_told { s with evt := { s.evt with advised := reason :: s.evt.advised } } (pairPost .replaceAdvised 0 0 reason 0)
    rw [told.advised]
    exact told

theorem advise_adds {reason : Nat} : s.Adds 2 (s.advise reason) := .ite (.refl s) (.after (by rfl) (by rfl) post_adds)

/-- What goes on in service stays where it is outside READY and SERVE. -/
theorem InService.sled_of_not_up (a : s.InService t) (h : s.up = false) : t.sled = s.sled := by
  obtain e | ⟨up, -⟩ := a.up
  · rw [a.sled, e]
  · rw [h] at up
    cases up

theorem vigilSettle_sled : s.vigilSettle.sled = { s.sled with flush := none, flushCmd := false, vigilNext := none, vigilDone := true } := by
  unfold State.vigilSettle
  extract_lets u
  have h_u : s.Standing u := .foldl (fun _ _ => setPst_standing) _ _
  clear_value u
  change { u.sled with flush := none, flushCmd := false, vigilNext := none, vigilDone := true } = _
  rw [h_u.sled_eq]

theorem enterVigil_sled {cause : Nat} : (s.enterVigil cause).sled.st = .vigil ∧ (s.enterVigil cause).sled.bridge = s.sled.bridge := by
  unfold State.enterVigil
  extract_lets served skips s1 u _ s2 _ _ _ s3 _ s4
  have told : { s.post (pairPost .vigilEnter 0 0 cause 0) with sled := { (s.post (pairPost .vigilEnter 0 0 cause 0)).sled with st := .vigil } }.OnlyTold s1 :=
    State.setSled_told _ _
  have held : s1.InService u := (holdPorts_later (lasting := true).trans dropWork_later).inService rfl
  clear_value s1 u
  have e2 : s2.sled = u.sled := rfl
  have e3 : s3.sled = { s2.sled with boot := .none, vigilDone := false } := rfl
  have e4 : s4.sled.st = s3.sled.st ∧ s4.sled.bridge = s3.sled.bridge := by
    unfold s4
    split <;> exact ⟨rfl, rfl⟩
  clear_value s2 s3 s4
  have sled1 : s1.sled = { s.sled with st := .vigil } := by rw [told.sled_eq, (s.post_told _).sled_eq]
  have sled3 : s3.sled.st = .vigil ∧ s3.sled.bridge = s.sled.bridge := by
    rw [e3, e2, held.sled_of_not_up (by simp [State.up, sled1]), sled1]
    exact ⟨rfl, rfl⟩
  have sled4 : s4.sled.st = .vigil ∧ s4.sled.bridge = s.sled.bridge := ⟨e4.1.trans sled3.1, e4.2.trans sled3.2⟩
  split
  · unfold State.startFlush
    rw [journal_standing.sled_eq]
    exact sled3
  · rw [vigilSettle_sled]
    exact sled4

theorem askVigil_sled_of_up {cause : Nat} (up : s.up = true) :
    (s.askVigil cause).sled.st = .vigil ∧ (s.askVigil cause).sled.bridge = s.sled.bridge := by
  unfold State.askVigil
  rcases (by simpa [State.up] using up : s.sled.st = .ready ∨ s.sled.st = .serve) with h | h <;> rw [h] <;> exact enterVigil_sled

/-- An opened latch is posted, and the flush is told after it. -/
theorem latchOpen_flushes (up : s.up = true) (pilot : s.wd.pilotRestart = false) (pause : s.inPause = false) (sch : s.lamp.sch = [])
    (shut : s.sled.latchOpen = false) :
    ∃ t, exec .latchOpen s = .next t ∧ t.sled.latchOpen = true ∧ s.FlushBegan t (if s.safeNow then 4 else 5) ∧ s.Posted t 0x0907 0 0 ∧
      s.Posted t 0x0505 0 0 := by
  let s1 : State := { s with sled := { s.sled with latchOpen := true } }
  let s2 : State := s1.post (pairPost .latchOpen 0 0 (if s.safeNow then 1 else 0) 0)
  have told : s1.OnlyTold s2 := s1.post_told _
  have e : exec .latchOpen s = .next (s2.duskTrigger (if s.safeNow then 4 else 5) true) := by
    simp only [exec, execLatchOpen, shut, Bool.false_eq_true, if_false]
    rfl
  obtain ⟨began, posted, adds, sled⟩ := duskTrigger_stops (s := s2) (g := if s.safeNow then 4 else 5) (input := true)
    (by rw [State.up, told.sled_eq]; exact up) (by rw [told.wd_eq]; exact pilot) (by rw [State.inPause, told.fw_eq]; exact pause)
    (by rw [told.lamp_eq]; exact sch)
  refine ⟨_, e, ?_, began.after told.mem_eq told.rt_eq, ?_, posted.after told.posted (by rw [told.clk_eq])⟩
  · rw [sled, told.sled_eq]
  · exact posted_of_post (t := s1) (le_refl _) rfl (by intro h; rw [State.up] at up; rw [h] at up; cases up) adds (by omega) rfl rfl rfl

/-! ### The bridge -/

/-- A sled whose bridge has n links, after the loss of one was told. -/
def bridgeDown (s : State) (n : Nat) : State :=
  ({ s with sled := { s.sled with bridge := n } }.post (pairPost .bridgeLink 0 0 n 8)).advise 5

/-- A state with the event unit, the trace unit, the sent outputs and the pending vectors of another. -/
def telling (s t : State) : State := { s with evt := t.evt, trc := t.trc, out := t.out, ports := { s.ports with fn := t.ports.fn } }

theorem telling_trans (a : t = s.telling t) {u : State} (b : u = t.telling u) : u = s.telling u := by
  rw [a] at b
  exact b

theorem advise_telling (s : State) (reason : Nat) : s.advise reason = s.telling (s.advise reason) := (s.advise_told reason).rest

theorem post_advise_telling (s : State) (p : Post) (reason : Nat) : (s.post p).advise reason = s.telling ((s.post p).advise reason) :=
  telling_trans (s.post_told p).rest (advise_telling _ reason)

theorem bridgeDown_rest (s : State) (n : Nat) :
    s.bridgeDown n = { s with
      sled := { s.sled with bridge := n }, evt := (s.bridgeDown n).evt, trc := (s.bridgeDown n).trc, out := (s.bridgeDown n).out
      ports := { s.ports with fn := (s.bridgeDown n).ports.fn } } :=
  post_advise_telling { s with sled := { s.sled with bridge := n } } _ 5

theorem bridgeDown_later (s : State) (n : Nat) : s.Later true false (s.bridgeDown n) :=
  Later.sledUnit.trans (post_later.trans advise_later)

theorem bridgeDown_posts (awake : s.sled.st ≠ .off) (n : Nat) : s.Posted (s.bridgeDown n) 0x0705 0 0 :=
  posted_of_post (t := { s with sled := { s.sled with bridge := n } }) (le_refl _) rfl awake advise_adds (by omega) rfl rfl rfl

theorem bridgeLost_flushes {n : Nat} (up : s.up = true) (pilot : s.wd.pilotRestart = false) (pause : s.inPause = false) (sch : s.lamp.sch = [])
    (e : (State.post { s with sled := { s.sled with bridgeLost := true } } (pairPost .bridgeLost 0 0 n 8)).duskTrigger 6 true = t) :
    t.sled.bridge = s.sled.bridge ∧ t.sled.bridgeLost = true ∧ s.FlushBegan t 6 ∧ s.Posted t 0x0706 0 0 := by
  have awake : s.sled.st ≠ .off := by
    intro h
    simp [State.up, h] at up
  have told := State.post_told { s with sled := { s.sled with bridgeLost := true } } (pairPost .bridgeLost 0 0 n 8)
  obtain ⟨began, -, adds, sled⟩ := duskTrigger_stops (g := 6) (input := true)
    (s := State.post { s with sled := { s.sled with bridgeLost := true } } (pairPost .bridgeLost 0 0 n 8)) (by rw [State.up, told.sled_eq]; exact up)
    (by rw [told.wd_eq]; exact pilot) (by rw [State.inPause, told.fw_eq]; exact pause) (by rw [told.lamp_eq]; exact sch)
  rw [e] at began adds sled
  refine ⟨?_, ?_, began.after told.mem_eq told.rt_eq, ?_⟩
  · rw [sled, told.sled_eq]
  · rw [sled, told.sled_eq]
  · exact posted_of_post (t := { s with sled := { s.sled with bridgeLost := true } }) (le_refl _) rfl awake adds (by omega) rfl rfl rfl

theorem exec_bridgeLinkFail (s : State) : exec .bridgeLinkFail s = .next (
    if s.awake = false ∨ s.sled.bridge = 0 then s
    else if s.sled.bridge - 1 = 0 then (s.bridgeDown (s.sled.bridge - 1)).askVigil 0x0A
    else if 5 ≤ s.sled.bridge - 1 ∨ s.sled.bridgeLost = true then s.bridgeDown (s.sled.bridge - 1)
    else (State.post { s.bridgeDown (s.sled.bridge - 1) with sled := { (s.bridgeDown (s.sled.bridge - 1)).sled with bridgeLost := true } }
      (pairPost .bridgeLost 0 0 (s.sled.bridge - 1) 8)).duskTrigger 6 true) := rfl

/-- A lost link of the bridge: told and advised; with one to four links left the flush starts, with none the sled enters VIGIL. -/
theorem bridgeLinkFail_leads {n : Nat} (up : s.up = true) (pilot : s.wd.pilotRestart = false) (pause : s.inPause = false) (sch : s.lamp.sch = [])
    (links : s.sled.bridge = n + 1) (whole : s.sled.bridgeLost = false) :
    (5 ≤ n → ∃ t, exec .bridgeLinkFail s = .next t ∧ t.sled = { s.sled with bridge := n } ∧ s.Posted t 0x0705 0 0 ∧ s.DataKept t) ∧
    (1 ≤ n → n < 5 → ∃ t, exec .bridgeLinkFail s = .next t ∧ t.sled.bridge = n ∧ t.sled.bridgeLost = true ∧ s.FlushBegan t 6 ∧
      s.Posted t 0x0706 0 0) ∧
    (n = 0 → ∃ t, exec .bridgeLinkFail s = .next t ∧ t.sled.bridge = 0 ∧ t.sled.st = .vigil ∧ s.evt.prod < t.evt.prod) := by
  have awake : s.sled.st ≠ .off := by
    intro h
    simp [State.up, h] at up
  have rest := s.bridgeDown_rest n
  have told := bridgeDown_posts awake n
  have later := s.bridgeDown_later n
  have e : exec .bridgeLinkFail s = .next (
      if n = 0 then (s.bridgeDown n).askVigil 0x0A
      else if 5 ≤ n then s.bridgeDown n
      else ({ s.bridgeDown n with sled := { (s.bridgeDown n).sled with bridgeLost := true } }.post (pairPost .bridgeLost 0 0 n 8)).duskTrigger 6 true) := by
    have ready : ¬ (s.awake = false ∨ s.sled.bridge = 0) := by simp [State.awake, awake, links]
    rw [exec_bridgeLinkFail, if_neg ready, links, Nat.add_sub_cancel, whole]
    simp only [Bool.false_eq_true, or_false]
  generalize s.bridgeDown n = u at e rest told later
  refine ⟨fun many => ⟨u, ?_, ?_, told, ?_⟩, fun some few => ?_, fun none => ?_⟩
  · rw [e, if_neg (by omega), if_pos many]
  · rw [rest]
  · rw [rest]
    exact ⟨rfl, rfl, rfl, rfl, rfl⟩
  · rw [if_neg (by omega), if_neg (by omega)] at e
    have same : u.up = true ∧ u.wd.pilotRestart = false ∧ u.inPause = false ∧ u.lamp.sch = [] ∧ u.sled.bridge = n ∧ u.mem = s.mem ∧ u.rt = s.rt := by
      rw [rest]
      exact ⟨up, pilot, pause, sch, rfl, rfl, rfl⟩
    obtain ⟨up', pilot', pause', sch', links', mem, rt⟩ := same
    obtain ⟨bridge, lost, began, posted⟩ := bridgeLost_flushes (n := n) up' pilot' pause' sch' rfl
    exact ⟨_, e, bridge.trans links', lost, began.after mem rt, posted.after (later.posted rfl) (later.time rfl)⟩
  · subst none
    rw [if_pos rfl] at e
    have up' : u.up = true := by
      rw [rest]
      exact up
    obtain ⟨st, bridge⟩ := askVigil_sled_of_up (cause := 0x0A) up'
    refine ⟨_, e, bridge.trans ?_, st, told.1.trans_le (askVigil_later.posted rfl)⟩
    rw [rest]

end State

end Sys2Proof.Machine
end

section
/-! ## How a recovery ends (14 R506 to R510) -/

namespace Sys2Proof.Machine

theorem unitOfBit_obj_lt {bit : Nat} (h : bit < 1584) : (unitOfBit bit).obj.1 < 2 ^ 8 ∧ (unitOfBit bit).obj.2 < 2 ^ 32 := by
  unfold unitOfBit
  split_ifs <;> simp only [FUnit.obj] <;> omega

theorem Tbl.mem_put {α : Type} {t : Tbl α} {n : Nat} {x : α} {p : Nat × α} (h : p ∈ t.put n x) : p = (n, x) ∨ p ∈ t := by
  induction t with
  | nil => exact .inl (List.mem_singleton.mp h)
  | cons q t ih =>
    obtain ⟨k, v⟩ := q
    simp only [Tbl.put] at h
    split_ifs at h
    · exact List.mem_cons.mp h
    · exact (List.mem_cons.mp h).imp_right (List.mem_cons_of_mem _)
    · rcases List.mem_cons.mp h with h | h
      · exact .inr (h ▸ List.mem_cons_self)
      · exact (ih h).imp_right (List.mem_cons_of_mem _)

theorem Tbl.mem_set {α : Type} [DecidableEq α] {t : Tbl α} {n : Nat} {d x : α} {p : Nat × α} (h : p ∈ t.set n d x) : p = (n, x) ∨ p ∈ t := by
  unfold Tbl.set at h
  split at h
  · exact .inr (List.mem_of_mem_filter h)
  · exact mem_put h

/-! ### A dropped image leaves its segment at home -/

theorem SmeF.st_word (f : SmeF) (w : W64) : (Sme.mk f.word w).f.st = f.st := by
  ext i hi
  simp only [Sme.f, SmeF.word, BitVec.getElem_extractLsb', BitVec.getLsbD_append]
  simp [hi]

theorem SmeF.prior_word (f : SmeF) (w : W64) : (Sme.mk f.word w).f.prior = f.prior := by
  ext i hi
  simp only [Sme.f, SmeF.word, BitVec.getElem_extractLsb', BitVec.getLsbD_append]
  obtain rfl | rfl : i = 0 ∨ i = 1 := by omega
  all_goals simp

theorem Sme.src_edit (e : Sme) {g : SmeF → SmeF} (st : (g e.f).st = e.f.st) (prior : (g e.f).prior = e.f.prior) : (e.edit g).src = e.src := by
  have hs : (e.edit g).st = e.st := by rw [Sme.st, Sme.st, Sme.edit, SmeF.st_word, st]
  rw [Sme.src, Sme.src, hs, Sme.edit, SmeF.prior_word, prior]

/-- A core that does not hold a segment does not hold it with another flag for the place of its image. -/
theorem Sme.wick_home_edit {c : Nat} (e : Sme) {g : SmeF → SmeF} (st : (g e.f).st = e.f.st) (prior : (g e.f).prior = e.f.prior)
    (pond : (e.edit g).f.spr = false) : (e.edit g).home.any (FUnit.wick c).holds = false := by
  rw [Sme.home, Sme.src_edit e st prior, pond]
  split <;> rfl

theorem SmeF.spr_word (f : SmeF) (w : W64) : (Sme.mk f.word w).f.spr = f.spr := by
  simp only [Sme.f, SmeF.word, BitVec.getLsbD_append]
  simp

namespace State

variable {s t u : State}

theorem sme_journal {j : JRec} : (s.journal j).map.sme = s.map.sme := by
  rw [journal_standing.map_eq]

theorem sme_release {l : Loc} {len : Nat} {image : Bool} : (s.release l len image).map.sme = s.map.sme := by
  unfold State.release
  split <;> rfl

theorem sme_commitSme {r : RegionId} {seg : Nat} {e : Sme} :
    (s.commitSme r seg e).map.sme = s.map.sme.set (segKey r seg) (s.newSme r) e := by
  unfold State.commitSme
  extract_lets old s1
  have h_s1 : s1.map.sme = s.map.sme.set (segKey r seg) (s.newSme r) e := rfl
  split
  exacts [sme_journal.trans h_s1, h_s1]

theorem homesOn_eq_nil {v : FUnit} : s.homesOn v = [] ↔ ∀ p ∈ s.map.sme, p.2.home.any v.holds = false := by
  simp [State.homesOn, List.filter_eq_nil_iff]

theorem dropImage_homesOn {c : Nat} {r : RegionId} {seg : Nat} (none : s.homesOn (.wick c) = []) : (s.dropImage r seg).homesOn (.wick c) = [] := by
  unfold State.dropImage
  extract_lets e
  clear_value e
  split
  · exact none
  · rw [homesOn_eq_nil] at none ⊢
    intro p hp
    rw [sme_release, sme_commitSme] at hp
    rcases Tbl.mem_set hp with rfl | hp
    · exact e.wick_home_edit (g := fun f => { f with lend := false, spr := false, aux := 0 }) rfl rfl (SmeF.spr_word _ _)
    · exact none p hp

theorem foldl_dropImage_homesOn {c : Nat} {l : List Nat} (none : s.homesOn (.wick c) = []) :
    (l.foldl (fun t k => t.dropImage (keyRegion k) (keySeg k)) s).homesOn (.wick c) = [] := by
  induction l generalizing s with
  | nil => exact none
  | cons k l ih => exact ih (dropImage_homesOn none)

/-! ### The end of a recovery -/

/-- A state whose recovery of a unit has ended: the end is posted, and the fence stays. -/
structure Recovered (s : State) (v : FUnit) (t : State) : Prop where
  posted : s.Posted t 0x0704 v.obj.1 v.obj.2
  gone : ∀ x ∈ t.evt.recov, x.unit ≠ v
  fenced : t.fenced v = s.fenced v

/-- A state without the recovery of a unit. -/
def ending (s : State) (v : FUnit) : State := { s with evt := { s.evt with recov := s.evt.recov.filter (fun x => x.unit != v) } }

theorem InService.awake (a : s.InService t) (h : s.sled.st ≠ .off) : t.sled.st ≠ .off := by
  obtain e | ⟨-, up⟩ := a.up
  · rwa [e]
  · intro off
    simp [State.up, off] at up

theorem fenced_of_fmap {v : FUnit} (h : t.evt.fmap = s.evt.fmap) : t.fenced v = s.fenced v := by
  rw [State.fenced, State.fenced, h]

theorem recovered_of_post {w : FUnit} (small : w.obj.1 < 2 ^ 8 ∧ w.obj.2 < 2 ^ 32) {p : Post} (later : (s.ending w).Later true true t)
    (awake : s.sled.st ≠ .off) (ev : p.ev = .fenceRecovered) (okind : p.okind = w.obj.1) (obj : p.obj = w.obj.2) :
    s.Recovered w (t.post p) := by
  obtain ⟨kind, no⟩ := small
  have service := later.inService rfl
  have told := t.post_told p
  refine ⟨posted_of_post (n := 0) (later.posted rfl) (later.time rfl) (service.awake awake) (.refl _) (by omega) ?_ ?_ ?_, fun x hx => ?_, ?_⟩
  · simp only [Post.toRec, ev]
    rfl
  · simp only [Post.toRec, okind, BitVec.toNat_ofNat]
    exact Nat.mod_eq_of_lt kind
  · simp only [Post.toRec, obj, BitVec.toNat_ofNat]
    exact Nat.mod_eq_of_lt no
  · rw [told.recov] at hx
    have kept : x.unit ∈ (s.ending w).recovering := service.recovering ▸ List.mem_map_of_mem hx
    obtain ⟨y, hy, e⟩ := List.mem_map.mp kept
    rw [← e]
    simpa using (List.mem_filter.mp hy).2
  · exact fenced_of_fmap (told.fmap.trans service.fences)

theorem Recovered.after {v : FUnit} (a : t.Recovered v u) (b : s.Later true true t) : s.Recovered v u :=
  ⟨a.posted.after (b.posted rfl) (b.time rfl), a.gone, a.fenced.trans (fenced_of_fmap (b.inService rfl).fences)⟩

theorem recoverPond_posts (s : State) (v : Recov) (pages : List Nat) :
    ∃ t p, s.recoverPond v pages = t.post p ∧ s.Later true true t ∧ p.ev = .fenceRecovered ∧ p.okind = v.unit.obj.1 ∧ p.obj = v.unit.obj.2 := by
  unfold State.recoverPond
  extract_lets unit onUnit lostDirs s1 _ s2 homes imgs s3 counts s4 s5 s6
  have h_s1 : s.Later true true s1 := .foldl (fun _ _ => .ite loseDir_later (.refl _))
  have h_s2 : s.Later true true s2 := h_s1.trans (.same rfl rfl)
  have h_s3 : s.Later true true s3 := h_s2.trans (.foldl (fun _ _ => poisonSeg_later))
  have h_s4 : s.Later true true s4 := h_s3.trans dropImagesOn_later
  have h_s5 : s.Later true true s5 := h_s4.trans (.foldl (fun _ _ => post_later))
  have h_s6 : s.Later true true s6 := h_s5.trans (rebuildPages_later.trans fixOffers_later)
  exact ⟨s6, _, rfl, h_s6, rfl, rfl, rfl⟩

theorem endRecov_eq (s : State) (v : Recov) : ∃ p : Post, s.endRecov v = (s.ending v.unit).post p ∧ p.ev = .fenceRecovered ∧
    p.okind = v.unit.obj.1 ∧ p.obj = v.unit.obj.2 := ⟨_, rfl, rfl, rfl, rfl⟩

/-- The recovery of a unit without homes has nothing to move. -/
theorem recoverMoves_recovers {w : FUnit} (small : w.obj.1 < 2 ^ 8 ∧ w.obj.2 < 2 ^ 32) (awake : s.sled.st ≠ .off) (none : s.homesOn w = [])
    (under : w ∈ s.recovering) {lost : List Nat} {imgs : Nat} {lose move : State → Nat → State} :
    s.Recovered w (s.recoverMoves w lost imgs lose move) := by
  unfold State.recoverMoves
  extract_lets gone s1 s2
  have none1 : gone = [] := by simp [gone, none]
  have e1 : s1 = s.noteRecov w [] imgs := by simp [s1, none1]
  have homes1 : s1.homesOn w = [] := by
    rw [e1]
    exact none
  have e2 : s2 = s1 := by simp [s2, homes1]
  have later : s.Later true true s2 := by
    rw [e2, e1]
    exact noteRecov_later
  have homes2 : s2.homesOn w = [] := e2 ▸ homes1
  clear_value s2
  have under2 := (later.inService rfl).recovering ▸ under
  obtain ⟨x, hx, unit⟩ := List.mem_map.mp under2
  split
  · rename_i v found
    have unit : v.unit = w := by simpa using List.find?_some found
    rw [if_pos homes2]
    obtain ⟨p, e, ev, okind, obj⟩ := s2.endRecov_eq v
    rw [e, unit]
    rw [unit] at okind obj
    exact (recovered_of_post small (.refl _) ((later.inService rfl).awake awake) ev okind obj).after later
  · rename_i missing
    have := List.find?_eq_none.mp missing x hx
    simp [unit] at this

/-- A recovery of Pond ends at once; one of another unit ends when the unit holds no home. -/
theorem recover_recovers {w : FUnit} (small : w.obj.1 < 2 ^ 8 ∧ w.obj.2 < 2 ^ 32) (awake : s.sled.st ≠ .off) {v : Recov}
    (found : s.evt.recov.find? (fun v => v.unit == w) = some v)
    (free : s.homesOn w = [] ∨ (∃ n, w = .pch n) ∨ ∃ k, w = .stack k) (lost : List Nat) :
    s.Recovered w (s.recover w lost) := by
  have unit : v.unit = w := by simpa using List.find?_some found
  have under : w ∈ s.recovering := List.mem_map.mpr ⟨v, List.mem_of_find?_eq_some found, unit⟩
  have pond (pages : List Nat) : s.Recovered w ((s.ending w).recoverPond v pages) := by
    obtain ⟨t, p, e, later, ev, okind, obj⟩ := (s.ending w).recoverPond_posts v pages
    rw [e]
    exact recovered_of_post small later awake ev (unit ▸ okind) (unit ▸ obj)
  have other {p : Post} (ev : p.ev = .fenceRecovered) (okind : p.okind = w.obj.1) (obj : p.obj = w.obj.2) :
      s.Recovered w ((s.ending w).post p) := recovered_of_post small (.refl _) awake ev okind obj
  have moves {t : State} (later : s.Later true true t) (free' : t.homesOn w = []) {imgs : Nat}
      {lose move : State → Nat → State} : s.Recovered w (t.recoverMoves w lost imgs lose move) :=
    (recoverMoves_recovers small ((later.inService rfl).awake awake) free' ((later.inService rfl).recovering ▸ under)).after later
  have own (n : ∀ k, w ≠ .pch k) (m : ∀ k, w ≠ .stack k) : s.homesOn w = [] := by
    rcases free with h | ⟨k, h⟩ | ⟨k, h⟩
    exacts [h, absurd h (n k), absurd h (m k)]
  unfold State.recover
  rw [found]
  cases w with
  | pch n => exact pond lost
  | stack k => exact pond _
  | wick c =>
    have none := own nofun nofun
    exact moves (.foldl (fun _ _ => dropImage_later)) (foldl_dropImage_homesOn none)
  | die d =>
    have none := own nofun nofun
    exact moves (.refl s) none
  | lantern n => exact other rfl rfl rfl
  | codec n => exact other rfl rfl rfl
  | half n => exact other rfl rfl rfl

end State

end Sys2Proof.Machine
end

section
/-! ## Fences (14 R502 to R505) -/

namespace Sys2Proof.Machine

theorem unitOfBit_bit {b : Nat} : (unitOfBit b).bit = b := by
  unfold unitOfBit
  split_ifs <;> simp only [FUnit.bit] <;> omega

namespace State

variable {s t u : State}

theorem fenced_of_find {v : FUnit} {c : Byte} (h : s.evt.fmap.find v.bit = some c) : s.fenced v = true := by
  rw [State.fenced, Tbl.has, h]
  rfl

/-- A lasting state keeps every fence. -/
theorem Later.fenced {calm : Bool} (a : s.Later true calm t) {v : FUnit} (h : s.fenced v = true) : t.fenced v = true := by
  obtain ⟨c, hc⟩ := Option.isSome_iff_exists.mp h
  exact fenced_of_find (a.fences rfl _ _ hc)

theorem find_setBit {v : FUnit} (cause : Byte) (free : s.fenced v = false) : (s.setBit v cause).evt.fmap.find v.bit = some cause := by
  rw [State.setBit, if_neg (by simp [free])]
  exact Tbl.find_put_same _ _ _

theorem fenced_setBit (s : State) (v : FUnit) (cause : Byte) : (s.setBit v cause).fenced v = true := by
  cases h : s.fenced v with
  | false => exact fenced_of_find (find_setBit cause h)
  | true => exact setBit_later.fenced h

theorem sled_setBit {v : FUnit} {cause : Byte} : (s.setBit v cause).sled = s.sled := by
  unfold State.setBit
  split <;> rfl

theorem sled_foldl_setBit {l : List FUnit} {cause : Byte} : (l.foldl (fun (t : State) v => t.setBit v cause) s).sled = s.sled := by
  induction l generalizing s with
  | nil => rfl
  | cons v l ih => exact ih.trans sled_setBit

theorem foldl_setBit_later {l : List FUnit} {cause : Byte} : s.Later true false (l.foldl (fun (t : State) v => t.setBit v cause) s) :=
  .foldl (fun _ _ => setBit_later)

theorem fenced_foldl_setBit {l : List FUnit} {cause : Byte} {v : FUnit} (h : v ∈ l) :
    (l.foldl (fun (t : State) v => t.setBit v cause) s).fenced v = true := by
  induction l generalizing s with
  | nil => cases h
  | cons w l ih =>
    rcases List.mem_cons.mp h with rfl | h
    exacts [foldl_setBit_later.fenced (s := s.setBit v cause) (s.fenced_setBit v cause), ih h]

theorem insertPost_ne_nil (p : Post) (l : List Post) : insertPost p l ≠ [] := by
  cases l with
  | nil => exact List.cons_ne_nil _ _
  | cons q l =>
    unfold insertPost
    split <;> exact List.cons_ne_nil _ _

theorem postAll_prod (awake : s.sled.st ≠ .off) (p : Post) (l : List Post) : s.evt.prod < (s.postAll (p :: l)).evt.prod := by
  have some (k acc : List Post) (h : acc ≠ []) : k.foldl (fun acc p => insertPost p acc) acc ≠ [] := by
    induction k generalizing acc with
    | nil => exact h
    | cons q k ih => exact ih _ (insertPost_ne_nil q acc)
  obtain ⟨q, k, e⟩ := List.exists_cons_of_ne_nil (some l (insertPost p []) (insertPost_ne_nil p []))
  rw [State.postAll, List.foldl_cons, e, List.foldl_cons]
  have rest : (s.post q).Later true true (k.foldl State.post (s.post q)) := .foldl (fun _ _ => post_later)
  exact (post_prod awake q).trans_le (rest.posted rfl)

theorem postAdvising_prod (awake : s.sled.st ≠ .off) (p : Post) (reasons : List Nat) : s.evt.prod < (s.postAdvising p reasons).evt.prod :=
  postAll_prod (s := { s with evt := { s.evt with advised := (reasons.filter (fun r => !s.evt.advised.contains r)).reverse ++ s.evt.advised } })
    awake p _

/-- A state with the bits of a fence set, before it is told. -/
def fenceBits (s : State) (v : FUnit) (more : List FUnit) (cause : Byte) : State :=
  more.foldl (fun (t : State) v => t.setBit v 0x0E) (s.setBits v cause)

/-- The work units of a fence end once it is told. -/
def fenceWorks (s : State) (v : FUnit) (along : List FUnit) (cause : Byte) : State :=
  along.foldl (fun (t : State) v => t.fenceWork v 0x0E) (s.fenceWork v cause)

theorem fenceBits_later {v : FUnit} {more : List FUnit} {cause : Byte} : (s.setBit v cause).Later true false (s.fenceBits v more cause) :=
  .trans (.foldl (fun _ _ => setBit_later)) foldl_setBit_later

theorem sled_fenceBits {v : FUnit} {more : List FUnit} {cause : Byte} : (s.fenceBits v more cause).sled = s.sled :=
  sled_foldl_setBit.trans (sled_foldl_setBit.trans sled_setBit)

theorem fenceWorks_later {v : FUnit} {along : List FUnit} {cause : Byte} : s.Later true false (s.fenceWorks v along cause) :=
  fenceWork_later.trans (.foldl (fun _ _ => fenceWork_later))

theorem fenceAll_of_free {v : FUnit} {l : List FUnit} (free : s.fenced v = false) (cause : Byte) (setter : Nat) :
    ∃ p along, s.fenceAll (v :: l) cause setter =
      ((s.fenceBits v (l.filter (fun u => !s.fenced u)) cause).postAdvising p
        (s.fenceBits v (l.filter (fun u => !s.fenced u)) cause).fenceReasons).fenceWorks v along cause := by
  have own : (v :: l).filter (fun u => !s.fenced u) = v :: l.filter (fun u => !s.fenced u) := by simp [free]
  unfold State.fenceAll
  rw [own]
  exact ⟨_, _, rfl⟩

/-- A fence of a unit and of what shares its part: the first gets the cause, all are fenced, and an event tells it. -/
theorem fenceAll_fences {v : FUnit} {l : List FUnit} (free : s.fenced v = false) (awake : s.sled.st ≠ .off) (cause : Byte) (setter : Nat) :
    (s.fenceAll (v :: l) cause setter).evt.fmap.find v.bit = some cause ∧ s.evt.prod < (s.fenceAll (v :: l) cause setter).evt.prod ∧
    ∀ w ∈ l, (s.fenceAll (v :: l) cause setter).fenced w = true := by
  have later : s.Later true false (s.fenceAll (v :: l) cause setter) := fenceAll_later
  obtain ⟨p, along, e⟩ := fenceAll_of_free (l := l) free cause setter
  have first : s.Later true false (s.setBit v cause) := setBit_later
  have bits := fenceBits_later (s := s) (v := v) (more := l.filter (fun u => !s.fenced u)) (cause := cause)
  have fenced {w : FUnit} (h : w ∈ l.filter (fun u => !s.fenced u)) : (s.fenceBits v (l.filter (fun u => !s.fenced u)) cause).fenced w = true :=
    fenced_foldl_setBit h
  have sled := sled_fenceBits (s := s) (v := v) (more := l.filter (fun u => !s.fenced u)) (cause := cause)
  generalize s.fenceBits v (l.filter (fun u => !s.fenced u)) cause = s0 at e bits fenced sled
  have grown : s0.evt.prod < (s0.postAdvising p s0.fenceReasons).evt.prod := postAdvising_prod (by rwa [sled]) _ _
  have work : (s0.postAdvising p s0.fenceReasons).Later true false (s.fenceAll (v :: l) cause setter) := e ▸ fenceWorks_later
  have rest : s0.Later true false (s.fenceAll (v :: l) cause setter) := postAdvising_later.trans work
  refine ⟨(bits.trans rest).fences rfl _ _ (find_setBit cause free), ?_, fun w hw => ?_⟩
  · exact ((first.trans bits).posted rfl).trans_lt (grown.trans_le (work.posted rfl))
  · cases h : s.fenced w with
    | true => exact later.fenced h
    | false => exact rest.fenced (fenced (List.mem_filter.mpr ⟨hw, by simp [h]⟩))

theorem sharing_eq_cons (s : State) (v : FUnit) : ∃ l, s.sharing v = v :: l := by
  cases v <;> exact ⟨_, rfl⟩

theorem fenceUnits_fences {v : FUnit} {l : List FUnit} (free : s.fenced v = false) (awake : s.sled.st ≠ .off) (cause : Byte) (setter : Nat) :
    (s.fenceUnits (v :: l) cause setter).evt.fmap.find v.bit = some cause ∧ s.evt.prod < (s.fenceUnits (v :: l) cause setter).evt.prod ∧
    ∀ w ∈ v :: l, (s.fenceUnits (v :: l) cause setter).fenced w = true := by
  obtain ⟨own, grown, all⟩ := fenceAll_fences (l := l) free awake cause setter
  have later : (s.fenceAll (v :: l) cause setter).Later true false (s.fenceUnits (v :: l) cause setter) := .ite askVigil_later (.refl _)
  refine ⟨later.fences rfl _ _ own, grown.trans_le (later.posted rfl), fun w hw => ?_⟩
  rcases List.mem_cons.mp hw with rfl | hw
  exacts [later.fenced (fenced_of_find own), later.fenced (all w hw)]

theorem fenceUnits_of_fenced {v : FUnit} (h : s.fenced v = true) (cause : Byte) (setter : Nat) : s.fenceUnits [v] cause setter = s := by
  have all : s.fenceAll [v] cause setter = s := by simp [State.fenceAll, h]
  rw [State.fenceUnits, all]
  simp

end State

/-- A fence sets its bits with their causes, and nothing a second time. -/
theorem fenceSet_fences {s : State} {bit : Fin 1584} {cause : Byte} {setter : BitVec 2} (whole : Bool) (awake : s.sled.st ≠ .off)
    (low : 1 ≤ cause.toNat) (high : cause.toNat ≤ 0x0F) (real : cause ≠ 0x0D) (own : cause ≠ 0x0E) (known : setter ≠ 3) :
    (s.fenced (unitOfBit bit) = false → ∃ t, exec (.fenceSet bit cause ⟨setter, whole⟩) s = .next t ∧ t.fenced (unitOfBit bit) = true ∧
      t.evt.fmap.find bit = some cause ∧ s.evt.prod < t.evt.prod ∧ (∀ b c, s.evt.fmap.find b = some c → t.evt.fmap.find b = some c) ∧
      (whole = true → ∀ v ∈ s.sharing (unitOfBit bit), t.fenced v = true)) ∧
    (s.fenced (unitOfBit bit) = true → exec (.fenceSet bit cause ⟨setter, false⟩) s = .next s) := by
  have e (whole : Bool) : exec (.fenceSet bit cause ⟨setter, whole⟩) s =
      .next (s.fenceUnits (if whole then s.sharing (unitOfBit bit) else [unitOfBit bit]) cause setter.toNat) := by
    have ok : causeOk cause = true := by
      simp only [causeOk, low, high, and_self, decide_true, Bool.true_and, Bool.and_eq_true, bne_iff_ne]
      exact ⟨real, own⟩
    have heard : ¬ (s.awake = false ∨ causeOk cause = false ∨ setter = 3) := by simp only [State.awake, ok, known]; simp [awake]
    simp only [exec, execFenceSet, if_neg heard]
  refine ⟨fun free => ?_, fun fenced => by rw [e, if_neg nofun, State.fenceUnits_of_fenced fenced]⟩
  obtain ⟨more, shares⟩ := s.sharing_eq_cons (unitOfBit bit)
  obtain ⟨l, el, all⟩ : ∃ l, (if whole then s.sharing (unitOfBit bit) else [unitOfBit bit]) = unitOfBit bit :: l ∧
      (whole = true → s.sharing (unitOfBit bit) = unitOfBit bit :: l) := by
    cases whole
    exacts [⟨[], rfl, nofun⟩, ⟨more, shares, fun _ => shares⟩]
  obtain ⟨found, grown, fenced⟩ := State.fenceUnits_fences (l := l) free awake cause setter.toNat
  rw [unitOfBit_bit] at found
  exact ⟨_, el ▸ e whole, fenced _ List.mem_cons_self, found, grown, State.fenceUnits_later.fences rfl, fun h v hv => fenced v (all h ▸ hv)⟩

/-- Settles O41: fences and recoveries through the relation `State.Later`, the latch and the bridge through the command of the flush. -/
theorem fencesLatchAndBridge : Obligations.FencesLatchAndBridge := by
  unfold Obligations.FencesLatchAndBridge
  refine ⟨fun s bit cause setter whole awake low high real own known => fenceSet_fences whole awake low high real own known,
    fun s bit lost v pause awake found free => ?_, fun s up pilot pause sch shut => State.latchOpen_flushes up pilot pause sch shut,
    fun s open' => ?_, fun s n up pilot pause sch links whole => State.bridgeLinkFail_leads up pilot pause sch links whole⟩
  · obtain ⟨posted, gone, fenced⟩ := State.recover_recovers (unitOfBit_obj_lt bit.isLt) awake found free lost
    refine ⟨_, ?_, posted, gone, fenced⟩
    simp [exec, execFenceRecovery, pause]
  · simp [exec, execLatchOpen, open']

end Sys2Proof.Machine
end

section
/-! ## The end of a flush and the start of the sled (13 R453 to R455, R490) -/

namespace Sys2Proof.Machine

theorem readByte_flashBytes {m : List Host.Cell} {z : Nat} (h : z < 3 * 2 ^ 68 ∨ 4 * 2 ^ 68 ≤ z) : readByte (flashBytes m) z = 0 := by
  refine readByte_none (fun c hc e => ?_)
  have flash := of_decide_eq_true (List.mem_filter.mp hc).2
  omega

namespace State

variable {s t u : State}

theorem ent_powerDown_freed {input : Bool} {fault : Byte} (r : RegionId) : ((s.powerDown input fault).ent r).st = .freed := by
  rw [State.ent, Tbl.getD]
  cases h : (s.powerDown input fault).rt.ent.find r.toNat with
  | none => rfl
  | some e =>
    obtain ⟨p, -, hp⟩ := List.mem_map.mp (List.mem_of_mem_filter (Tbl.find_mem h))
    obtain ⟨-, rfl⟩ := Prod.mk.inj hp
    rfl

/-- Power goes off in a sled that has been in service since an earlier state. -/
theorem powerDown_wentOff (a : s.Later true true t) (input : Bool) (fault : Byte) : s.WentOff (t.powerDown input fault) where
  st := rfl
  q := rfl
  dir := rfl
  lamp := rfl
  map := congrArg (fun f => { State.reset.map with forms := f }) (a.inService rfl).forms
  grants := rfl
  freed := ent_powerDown_freed
  id := a.id
  mem _ h := readByte_flashBytes h

theorem Later.inputOn {lasting : Bool} (a : s.Later lasting true t) : t.inputOn = s.inputOn := by
  rw [State.inputOn, State.inputOn, (a.inService rfl).sag, (a.inService rfl).switchOpen]

/-- The state of the sled as its start begins. -/
def startsUp (s : State) : State :=
  { s with
    sled := { s.sled with st := .boot, boot := .rails, warm := false, dark := false, stayOff := false, safe := false, flush := none, flushCmd := false,
                          vigilNext := none, offNext := false, vigilDone := false, bridge := 8, bridgeLost := false, preserved := false, kept := [] }
    pwr := { s.pwr with sag := false, ride := 0, switchOpen := false, charge := 250 }
    chn := { s.chn with up := { s.chn.up with st := 1 }, dn := { s.chn.dn with st := 1 } }
    fw := { s.fw with tried := [], booted := 2 } }

theorem startSled_told (released : s.wd.btn ≠ 1) : s.startsUp.OnlyTold s.startSled := by
  unfold State.startSled
  extract_lets _ _ _ _ _ _ s1 s2
  have told : s.startsUp.OnlyTold s2 := (traceReset_told _ _).trans (trace_told _ _ _ _)
  rw [if_neg (by rw [told.wd_eq]; exact released)]
  exact told

end State

/-- A Pilot that has not commanded its flush is replaced by the island. -/
theorem pilotDuskTimeout_flushes {s : State} {g : Nat} (flush : s.sled.flush = some (.dusk g)) (waits : s.sled.flushCmd = false)
    (pause : s.inPause = false) (sch : s.lamp.sch = []) :
    ∃ t, exec .pilotDuskTimeout s = .next t ∧ s.FlushBegan t g ∧ s.Posted t 0x0505 0 0 := by
  refine ⟨_, ?_, (State.commandFlush_stops flush sch).1, (State.commandFlush_posts flush sch).1⟩
  simp [exec, execPilotDuskTimeout, flush, waits, pause]

/-- A flush that ends leaves the sled off. -/
theorem duskFlushEnd_goesOff {s : State} {g : Nat} (flush : s.sled.flush = some (.dusk g)) (cmd : s.sled.flushCmd = true) :
    ∃ t, exec .duskFlushEnd s = .next t ∧ s.WentOff t ∧ t.sled.dark = s.inputOn ∧ t.sled.stayOff = (g == 4) ∧ t.pending = s.pending := by
  simp only [exec, execDuskFlushEnd, flush, cmd, Bool.true_eq_false, if_false]
  have kept : s.Later true true (if (g = 4 ∨ g = 6) ∧ s.flushKeep.lake.mounted = true then s.flushKeep.checkpoint else s.flushKeep) :=
    .ite (State.flushKeep_later.trans State.checkpoint_later) State.flushKeep_later
  generalize (if (g = 4 ∨ g = 6) ∧ s.flushKeep.lake.mounted = true then s.flushKeep.checkpoint else s.flushKeep) = t at kept
  have off := State.powerDown_wentOff kept t.inputOn t.sled.startFault
  exact ⟨_, rfl, ⟨rfl, off.q, off.dir, off.lamp, off.map, off.grants, off.freed, off.id, off.mem⟩, kept.inputOn, rfl, kept.pending⟩

/-- A hold-up store that runs out ends a flush there. -/
theorem holdupStoreExhausted_goesOff {s : State} {f : Flush} (written : Nat) (awake : s.sled.st ≠ .off) (flush : s.sled.flush = some f) :
    ∃ t, exec (.holdupStoreExhausted written) s = .next t ∧ s.WentOff t ∧ t.sled.dark = s.inputOn := by
  simp only [exec, execHoldupStoreExhausted, State.awake, bne_eq_false_iff_eq, awake, if_false, flush]
  split
  · exact ⟨_, rfl, State.powerDown_wentOff State.flushSome_later _ _, rfl⟩
  · exact ⟨_, rfl, State.powerDown_wentOff (.refl s) _ _, rfl⟩

/-- A hold-up store that runs out before any flush ends a sled in a sag, and no other. -/
theorem holdupStoreExhausted_of_no_flush {s : State} (written : Nat) (awake : s.sled.st ≠ .off) (flush : s.sled.flush = none) :
    (s.pwr.sag = true → ∃ t, exec (.holdupStoreExhausted written) s = .next t ∧ s.WentOff t ∧ t.sled.dark = false) ∧
    (s.pwr.sag = false → exec (.holdupStoreExhausted written) s = .next s) := by
  simp only [exec, execHoldupStoreExhausted, State.awake, bne_eq_false_iff_eq, awake, if_false, flush]
  refine ⟨fun sag => ?_, fun steady => by simp [steady]⟩
  rw [if_pos sag]
  exact ⟨_, rfl, State.powerDown_wentOff (.refl s) _ _, rfl⟩

/-- A stable input starts a sled that may start by itself. -/
theorem inputStable_starts {s : State} (off : s.sled.st = .off) (free : s.sled.stayOff = false) (auto : s.autoOn = true) (released : s.wd.btn ≠ 1) :
    ∃ t, exec .inputStable s = .next t ∧ t.sled.st = .boot ∧ t.sled.boot = .rails ∧ t.sled.warm = false ∧
      t.sled.flush = none ∧ t.mem = s.mem ∧ t.lake = s.lake ∧ t.rt = s.rt := by
  have told := State.startSled_told released
  refine ⟨s.startSled, by simp [exec, execInputStable, off, free, auto], ?_, ?_, ?_, ?_, told.mem_eq, told.lake_eq, told.rt_eq⟩ <;>
    rw [told.sled_eq] <;> rfl

/-- Settles O36: the command of the flush for its start, the calm relation for its end. -/
theorem flushesEndInOff : Obligations.FlushesEndInOff := by
  unfold Obligations.FlushesEndInOff
  refine ⟨fun s g flush waits pause sch _ => pilotDuskTimeout_flushes flush waits pause sch, fun s g flush cmd => duskFlushEnd_goesOff flush cmd,
    fun s written f awake flush => holdupStoreExhausted_goesOff written awake flush,
    fun s written awake flush => holdupStoreExhausted_of_no_flush written awake flush,
    fun s off free => ⟨fun manual => ?_, inputStable_starts off free⟩⟩
  simp [exec, execInputStable, off, free, manual]

end Sys2Proof.Machine
end

section
/-! ## The Power Ledger (01 R34 to R36; 13 R467 to R474) -/

namespace Sys2Proof.Machine

/-! ### What the operations of the Ledger leave -/

/-- A state after grants were written, power states were taken and events were told: everything else is as it was. -/
structure State.Metered (s t : State) : Prop where
  rest : t = { s with
    pond := t.pond, pwr := { s.pwr with entries := t.pwr.entries }, evt := t.evt, trc := t.trc, out := t.out
    ports := { s.ports with fn := t.ports.fn } }

/-- A Ledger entry with a new grant word. -/
def Entry.granted (e : Entry) (ceil : Nat) (perm : BitVec 2) : Entry :=
  let c : W16 := BitVec.ofNat 16 ceil
  let lower := decide (ceil < e.ceil.toNat) || decide (e.perm < perm)
  let held := if lower ∧ c < e.ceil then e.ceil else c
  { e with ceil := c, perm := perm, seq := e.seq + 1, lowering := e.lowering || lower, counted := if e.counted < held then held else e.counted }

namespace State

variable {s t u : State}

namespace Metered

theorem refl (s : State) : s.Metered s := ⟨rfl⟩

theorem trans (a : s.Metered t) (b : t.Metered u) : s.Metered u := by
  have h := b.rest
  rw [a.rest] at h
  exact ⟨h⟩

theorem ite {c : Prop} [Decidable c] (a : s.Metered t) (b : s.Metered u) : s.Metered (if c then t else u) := by
  split
  exacts [a, b]

theorem foldl {α : Type} {f : State → α → State} (hf : ∀ (t : State) a, t.Metered (f t a)) (l : List α) (s : State) : s.Metered (l.foldl f s) := by
  induction l generalizing s with
  | nil => exact .refl s
  | cons a l ih => exact (hf s a).trans (ih _)

theorem dataKept (a : s.Metered t) : s.DataKept t := by
  rw [a.rest]
  exact ⟨rfl, rfl, rfl, rfl, rfl⟩

theorem pilotGrants (a : s.Metered t) : t.pilotGrants = s.pilotGrants := by
  rw [a.rest]
  rfl

end Metered

theorem OnlyTold.metered (a : s.OnlyTold t) : s.Metered t := by
  constructor
  rw [a.rest]

theorem OnlyTold.ledger (a : s.OnlyTold t) (i : Nat) : t.ledger i = s.ledger i := by rw [State.ledger, State.ledger, a.pwr_eq]

theorem setLedger_metered {i : Nat} {e : Entry} : s.Metered (s.setLedger i e) := ⟨rfl⟩

theorem ledger_writeGrant (s : State) (i ceil : Nat) (perm : BitVec 2) : (s.writeGrant i ceil perm).ledger i = (s.ledger i).granted ceil perm := by
  unfold State.writeGrant
  extract_lets
  exact ledger_setLedger _ _ _

theorem ledger_writeGrant_ne {i j : Nat} {ceil : Nat} {perm : BitVec 2} (h : j ≠ i) : (s.writeGrant i ceil perm).ledger j = s.ledger j := by
  unfold State.writeGrant
  extract_lets
  exact (ledger_setLedger_ne _ _ h).trans ((trace_told _ _ _ _).ledger j)

theorem writeGrant_metered {i ceil : Nat} {perm : BitVec 2} : s.Metered (s.writeGrant i ceil perm) :=
  (trace_told _ _ _ _).metered.trans setLedger_metered

/-! ### Answers to requests (13 R471) -/

theorem answerKind_of_quiet {l : List Nat} (quiet : ∀ j ∈ l, (s.ledger j).asks = false) : s.answerKind l = s := by
  have none : l.filter (fun i => (s.ledger i).asks) = [] := by simpa [List.filter_eq_nil_iff] using quiet
  unfold State.answerKind
  rw [none]
  rfl

theorem foldl_answerKind_of_quiet {l : List (List Nat)} (quiet : ∀ k ∈ l, ∀ j ∈ k, (s.ledger j).asks = false) : l.foldl State.answerKind s = s := by
  induction l with
  | nil => rfl
  | cons k l ih =>
    rw [List.foldl_cons, answerKind_of_quiet (quiet k List.mem_cons_self)]
    exact ih (fun k h => quiet k (List.mem_cons_of_mem _ h))

theorem answerAll_of_quiet (quiet : ∀ j, (s.ledger j).asks = false) : s.answerAll = s := foldl_answerKind_of_quiet (fun _ _ j _ => quiet j)

/-- What the Pilot would grant an entry for its request. -/
def wanted (s : State) (i : Nat) : Nat := min (max (s.ledger i).rceil.toNat ((s.ledger i).floor i)) (maxCeil i)

/-- An entry whose request has been granted in full. -/
def grantAsked (s : State) (i : Nat) : State :=
  (s.writeGrant i (s.wanted i) (if s.rtTile i then 0 else (s.ledger i).rperm)).setLedger i
    { (s.ledger i).granted (s.wanted i) (if s.rtTile i then 0 else (s.ledger i).rperm) with asks := false }

theorem answerEntry_of_fits {i share : Nat} (asks : (s.ledger i).asks = true)
    (fits : s.wanted i ≤ (s.ledger i).ceil.toNat ∨ s.wanted i ≤ (s.ledger i).count i + share) : s.answerEntry i share = s.grantAsked i := by
  unfold State.answerEntry
  rw [if_neg (by simp [asks])]
  extract_lets perm want give s1 x
  have full : give = want := by
    unfold give
    change s.wanted i ≤ _ ∨ s.wanted i ≤ _ at fits
    change (if s.wanted i ≤ _ then s.wanted i else min (s.wanted i) _) = s.wanted i
    split <;> omega
  have e : s1 = s.writeGrant i want perm := by rw [← full]
  have ex : x = (s.ledger i).granted want perm := by rw [← ledger_writeGrant, ← e]
  rw [e, ex, full, decide_eq_false (lt_irrefl want)]
  rfl

/-- Entries that each operation of a fold changes one by one. -/
theorem ledger_foldl {f : State → Nat → State} {g : Nat → Entry → Entry} (same : ∀ (t : State) i, (f t i).ledger i = g i (t.ledger i))
    (other : ∀ (t : State) i j, j ≠ i → (f t i).ledger j = t.ledger j) {l : List Nat} (once : l.Nodup) (s : State) (i : Nat) :
    (l.foldl f s).ledger i = if i ∈ l then g i (s.ledger i) else s.ledger i := by
  induction l generalizing s with
  | nil => rfl
  | cons k l ih =>
    obtain ⟨new, once⟩ := List.nodup_cons.mp once
    rw [List.foldl_cons, ih once]
    by_cases h : i = k
    · subst h
      rw [if_neg new, if_pos List.mem_cons_self, same]
    · rw [other _ _ _ h]
      simp [h]

theorem capRoom_of_count {i : Nat} {e : Entry} (count : e.count i = (s.ledger i).count i) : (s.setLedger i e).capRoom = s.capRoom := by
  have all (j : Nat) : ((s.setLedger i e).ledger j).count j = (s.ledger j).count j := by
    by_cases h : j = i
    · rw [h, ledger_setLedger, count]
    · rw [ledger_setLedger_ne _ _ h]
  simp only [State.capRoom, State.powerCount, State.capDw, all]
  rfl

/-- The Pilot grants one request in full where it fits under the cap. -/
theorem answerKind_of_one {l : List Nat} {i : Nat} (once : l.Nodup) (here : i ∈ l) (asks : (s.ledger i).asks = true)
    (others : ∀ j, j ≠ i → (s.ledger j).asks = false)
    (fits : s.wanted i ≤ (s.ledger i).ceil.toNat ∨ s.wanted i ≤ (s.ledger i).count i + s.capRoom) : s.answerKind l = s.grantAsked i := by
  have one : l.filter (fun j => (s.ledger j).asks) = [i] := by
    have same : l.filter (fun j => (s.ledger j).asks) = l.filter (fun j => j == i) := by
      refine List.filter_congr (fun j _ => ?_)
      by_cases h : j = i
      · simp [h, asks]
      · simp [h, others j h]
    rw [same, List.filter_beq, List.count_eq_one_of_mem once here]
    rfl
  unfold State.answerKind
  rw [one]
  extract_lets _ need total room
  have all : total = s.wanted i - (s.ledger i).count i := rfl
  have own : need i = s.wanted i - (s.ledger i).count i := rfl
  rw [List.foldl_cons, List.foldl_nil]
  refine answerEntry_of_fits asks (fits.imp_right (fun fits => ?_))
  rw [all, own, if_pos (by omega)]
  omega

theorem ledgerKinds_split (i : Fin 21) : ∃ before l after, ledgerKinds = before ++ l :: after ∧ i.val ∈ l ∧ l.Nodup ∧ ∀ k ∈ before, i.val ∉ k := by
  have some : ∀ i : Fin 21, i.val ∈ ledgerKinds.flatten := by decide
  have apart : ledgerKinds.Pairwise (fun k l => ∀ i ∈ k, i ∉ l) := by decide
  have once : ∀ l ∈ ledgerKinds, l.Nodup := by decide
  obtain ⟨l, hl, here⟩ := List.mem_flatten.mp (some i)
  obtain ⟨before, after, e⟩ := List.append_of_mem hl
  refine ⟨before, l, after, e, here, once l hl, fun k hk h => ?_⟩
  rw [e] at apart
  exact (List.pairwise_append.mp apart).2.2 k hk l List.mem_cons_self i h here

theorem ledger_grantAsked (s : State) (i : Nat) : (s.grantAsked i).ledger i =
    { (s.ledger i).granted (s.wanted i) (if s.rtTile i then 0 else (s.ledger i).rperm) with asks := false } := ledger_setLedger _ _ _

theorem ledger_grantAsked_ne {i j : Nat} (h : j ≠ i) : (s.grantAsked i).ledger j = s.ledger j :=
  (ledger_setLedger_ne _ _ h).trans (ledger_writeGrant_ne h)

theorem grantAsked_metered {i : Nat} : s.Metered (s.grantAsked i) := writeGrant_metered.trans setLedger_metered

theorem answerAll_of_one {i : Fin 21} (asks : (s.ledger i).asks = true) (others : ∀ j, j ≠ i.val → (s.ledger j).asks = false)
    (fits : s.wanted i ≤ (s.ledger i).ceil.toNat ∨ s.wanted i ≤ (s.ledger i).count i + s.capRoom) : s.answerAll = s.grantAsked i := by
  obtain ⟨before, l, after, e, here, once, apart⟩ := ledgerKinds_split i
  have rest : ∀ j, ((s.grantAsked i).ledger j).asks = false := by
    intro j
    by_cases h : j = i.val
    · rw [h, ledger_grantAsked]
    · rw [ledger_grantAsked_ne h, others j h]
  rw [State.answerAll, e, List.foldl_append, List.foldl_cons,
    foldl_answerKind_of_quiet (fun k hk j hj => others j (fun h => apart k hk (h ▸ hj))), answerKind_of_one once here asks others fits]
  exact foldl_answerKind_of_quiet (fun _ _ j _ => rest j)

/-! ### Permissions obeyed (13 R477; 04 R156) -/

theorem sleepRec_told {src state reason : Nat} : s.OnlyTold (s.sleepRec src state reason) :=
  (trace_told _ _ _ _).trans (withTrc_told _ _ (fun h => h))

theorem wakeRec_told {src state cause : Nat} : s.OnlyTold (s.wakeRec src state cause) :=
  (trace_told _ _ _ _).trans (withTrc_told _ _ (fun h => h))

/-- A power state is taken: its sources write their records, and the entry holds it. -/
theorem setPst_eq {i : Nat} {st : PState} {reason cause : Nat} : ∃ t, s.OnlyTold t ∧ s.setPst i st reason cause =
    if (s.ledger i).st = st then s else t.setLedger i { s.ledger i with st := st, trimAt := s.clk.ms } := by
  unfold State.setPst
  extract_lets old up s1 x
  have told : s.OnlyTold s1 := .foldl _ (fun t src => by
    extract_lets u
    have woken : t.OnlyTold u := by
      unfold u
      split
      exacts [wakeRec_told, .refl t]
    split
    exacts [woken, woken.trans sleepRec_told]) _ _
  have same : x = s.ledger i := told.ledger i
  exact ⟨s1, told, by rw [same]⟩

theorem setPst_metered {i : Nat} {st : PState} {reason cause : Nat} : s.Metered (s.setPst i st reason cause) := by
  obtain ⟨t, told, e⟩ := s.setPst_eq (i := i) (st := st) (reason := reason) (cause := cause)
  rw [e]
  exact .ite (.refl s) (told.metered.trans setLedger_metered)

theorem ledger_setPst (s : State) (i : Nat) (st : PState) (reason cause : Nat) : ((s.setPst i st reason cause).ledger i) =
    if (s.ledger i).st = st then s.ledger i else { s.ledger i with st := st, trimAt := s.clk.ms } := by
  obtain ⟨t, told, e⟩ := s.setPst_eq (i := i) (st := st) (reason := reason) (cause := cause)
  rw [e]
  split
  exacts [rfl, ledger_setLedger _ _ _]

theorem ledger_setPst_ne {i j : Nat} {st : PState} {reason cause : Nat} (h : j ≠ i) : (s.setPst i st reason cause).ledger j = s.ledger j := by
  obtain ⟨t, told, e⟩ := s.setPst_eq (i := i) (st := st) (reason := reason) (cause := cause)
  rw [e]
  split
  exacts [rfl, (ledger_setLedger_ne _ _ h).trans (told.ledger j)]

theorem pond_setPst {i : Nat} {st : PState} {reason cause : Nat} : (s.setPst i st reason cause).pond = s.pond := by
  obtain ⟨t, told, e⟩ := s.setPst_eq (i := i) (st := st) (reason := reason) (cause := cause)
  rw [e]
  split
  exacts [rfl, told.pond_eq]

/-- A state after controllers of Pond were set. -/
def Ponded (s t : State) : Prop := t = { s with pond := t.pond }

theorem Ponded.trans (a : s.Ponded t) (b : t.Ponded u) : s.Ponded u := by
  unfold Ponded at a b ⊢
  rw [a] at b
  exact b

theorem selfRefresh_ponded {k : Nat} {on : Bool} : s.Ponded (s.selfRefresh k on) := by
  have fold (l : List Nat) (f : State → Nat → State) (hf : ∀ (t : State) j, t.Ponded (f t j)) (t : State) : t.Ponded (l.foldl f t) := by
    induction l generalizing t with
    | nil => rfl
    | cons j l ih => exact (hf t j).trans (ih _)
  refine fold _ _ (fun t j => ?_) s
  dsimp only
  split <;> rfl

theorem Ponded.metered (a : s.Ponded t) : s.Metered t := by
  constructor
  rw [a]

theorem Ponded.ledger (a : s.Ponded t) (i : Nat) : t.ledger i = s.ledger i := by
  rw [a]
  rfl

/-- The controller in self-refresh, unless it trains. -/
def refreshed (t : State) (n : Nat) : State := if (t.pch n).training = true then t else t.setPch n { t.pch n with selfRef := true, debt := [], pd := [] }

theorem pch_refreshed (t : State) (n : Nat) : (t.refreshed n).pch n =
    if (t.pch n).training = true then t.pch n else { t.pch n with selfRef := true, debt := [], pd := [] } := by
  unfold refreshed
  split
  exacts [rfl, pch_setPch _ _ _]

theorem pch_refreshed_ne {t : State} {n m : Nat} (h : m ≠ n) : (t.refreshed n).pch m = t.pch m := by
  unfold refreshed
  split
  exacts [rfl, pch_setPch_ne _ _ h]

theorem selfRefresh_eq (k : Nat) : s.selfRefresh k true = (List.range 32).foldl (fun t j => t.refreshed (32 * k + j)) s := by
  simp only [State.selfRefresh, refreshed, true_and]

/-- A controller that does not train is in self-refresh once it has been refreshed. -/
theorem foldl_refreshed {l : List Nat} {m : Nat} (calm : (s.pch m).training = false) (h : (s.pch m).selfRef = true ∨ m ∈ l) :
    ((l.foldl State.refreshed s).pch m).selfRef = true := by
  induction l generalizing s with
  | nil => exact h.resolve_right List.not_mem_nil
  | cons n l ih =>
    rw [List.foldl_cons]
    by_cases e : m = n
    · subst e
      have own : (s.refreshed m).pch m = { s.pch m with selfRef := true, debt := [], pd := [] } := by
        rw [pch_refreshed, if_neg (by simp [calm])]
      exact ih (by rw [own]; exact calm) (.inl (by rw [own]))
    · have same : (s.refreshed n).pch m = s.pch m := pch_refreshed_ne e
      exact ih (by rw [same]; exact calm) (h.imp (fun h => by rw [same]; exact h) (fun h => (List.mem_cons.mp h).resolve_left e))

theorem selfRefresh_selfRef {k j : Nat} (h : j < 32) (calm : (s.pch (32 * k + j)).training = false) :
    ((s.selfRefresh k true).pch (32 * k + j)).selfRef = true := by
  have e : s.selfRefresh k true = ((List.range 32).map (fun j => 32 * k + j)).foldl State.refreshed s := by
    rw [selfRefresh_eq, List.foldl_map]
  rw [e]
  exact foldl_refreshed calm (.inr (List.mem_map.mpr ⟨j, List.mem_range.mpr h, rfl⟩))

theorem obey_metered {i : Nat} : s.Metered (s.obey i) := setPst_metered.trans (.ite selfRefresh_ponded.metered (.refl _))

theorem ledger_obey (s : State) (i j : Nat) : (s.obey i).ledger j = (s.setPst i (s.obeyed i) 1 2).ledger j := by
  unfold State.obey
  extract_lets t
  split
  exacts [selfRefresh_ponded.ledger j, rfl]

/-- What an entry and its stack are once the entry obeys its permission. -/
theorem obey_obeys (s : State) (i : Nat) :
    (∃ at', (s.obey i).ledger i = { s.ledger i with st := s.obeyed i, trimAt := at' }) ∧ (∀ j, j ≠ i → (s.obey i).ledger j = s.ledger j) ∧
    (i < 12 → (s.ledger i).perm = 2 → (s.ledger i).st ≠ .banked → ∀ j, j < 32 → (s.pch (32 * i + j)).training = false →
      ((s.obey i).pch (32 * i + j)).selfRef = true) := by
  refine ⟨?_, fun j h => ?_, fun tile perm lit j h calm => ?_⟩
  · rw [ledger_obey, ledger_setPst]
    split
    · rename_i h
      exact ⟨(s.ledger i).trimAt, by rw [← h]⟩
    · exact ⟨s.clk.ms, rfl⟩
  · rw [ledger_obey, ledger_setPst_ne h]
  · have banked : s.obeyed i = .banked := by simp [State.obeyed, perm]
    unfold State.obey
    extract_lets t
    rw [if_pos ⟨tile, banked, lit⟩]
    have same (n : Nat) : t.pch n = s.pch n := by
      rw [State.pch, State.pch, pond_setPst]
    exact selfRefresh_selfRef h (by rw [same]; exact calm)

end State

/-! ### The commands -/

theorem Entry.granted_counted (e : Entry) (ceil : W16) (perm : BitVec 2) :
    e.ceil ≤ (e.granted ceil.toNat perm).counted ∧ ceil ≤ (e.granted ceil.toNat perm).counted := by
  simp only [Entry.granted, BitVec.ofNat_toNat, BitVec.setWidth_eq]
  split_ifs <;> simp_all [BitVec.le_def, BitVec.lt_def] <;> omega

/-- An entry with a new request. -/
def Entry.asking (e : Entry) (ceil : W16) (perm : BitVec 2) : Entry := { e with rceil := ceil, rperm := perm, asks := true }

theorem ledgerRequest_answers {s : State} {i : Fin 21} {ceil : W16} {perm : BitVec 2} {want : Nat} (known : perm ≠ 3) (small : ceil.toNat ≤ 13500)
    (awake : s.sled.st ≠ .off) :
    (s.pilotGrants = false →
      exec (.ledgerRequest i ceil perm) s = .next (s.setLedger i { s.ledger i with rceil := ceil, rperm := perm, asks := true })) ∧
    (s.pilotGrants = true → (∀ j, j ≠ i.val → (s.ledger j).asks = false) →
      want = min (max ceil.toNat ((s.ledger i).floor i)) (maxCeil i) →
      want ≤ (s.ledger i).ceil.toNat ∨ want ≤ (s.ledger i).count i + s.capRoom →
      ∃ t, exec (.ledgerRequest i ceil perm) s = .next t ∧ (t.ledger i).ceil = BitVec.ofNat 16 want ∧
        (t.ledger i).perm = (if s.rtTile i = true then 0 else perm) ∧ (t.ledger i).seq = (s.ledger i).seq + 1 ∧
        (t.ledger i).rceil = ceil ∧ (t.ledger i).rperm = perm ∧ (t.ledger i).asks = false ∧ (∀ j, j ≠ i.val → t.ledger j = s.ledger j) ∧
        s.DataKept t) := by
  have heard : ¬ (perm = 3 ∨ 13500 < ceil.toNat ∨ s.awake = false) := by
    rintro (h | h | h)
    · exact known h
    · omega
    · simp [State.awake, awake] at h
  have e : exec (.ledgerRequest i ceil perm) s = .next (
      if s.pilotGrants = true then (s.setLedger i ((s.ledger i).asking ceil perm)).answerAll else s.setLedger i ((s.ledger i).asking ceil perm)) := by
    simp only [exec, execLedgerRequest, if_neg heard]
    rfl
  refine ⟨fun stalled => by rw [e, stalled]; rfl, fun grants others hw fits => ?_⟩
  rw [if_pos grants] at e
  have own : (s.setLedger i ((s.ledger i).asking ceil perm)).ledger i = _ := State.ledger_setLedger _ _ _
  have other {j : Nat} (h : j ≠ i.val) := s.ledger_setLedger_ne ((s.ledger i).asking ceil perm) h
  have room := State.capRoom_of_count (s := s) (i := i) (e := (s.ledger i).asking ceil perm) rfl
  have rt : (s.setLedger i ((s.ledger i).asking ceil perm)).rtTile i = s.rtTile i := by
    rw [State.rtTile, own]
    rfl
  have kept := State.setLedger_metered (s := s) (i := i) (e := (s.ledger i).asking ceil perm)
  generalize s.setLedger i ((s.ledger i).asking ceil perm) = s1 at *
  have wanted : s1.wanted i = want := by
    rw [State.wanted, own, hw]
    rfl
  have all := State.answerAll_of_one (s := s1) (i := i) (by rw [own]; rfl) (fun j h => by rw [other h, others j h])
    (by rw [wanted, own, room]; exact fits)
  have answer := s1.ledger_grantAsked i
  rw [wanted, rt, own] at answer
  refine ⟨_, e.trans (congrArg _ all), ?_⟩
  rw [answer]
  exact ⟨rfl, rfl, rfl, rfl, rfl, rfl, fun j h => (State.ledger_grantAsked_ne h).trans (other h),
    (kept.trans State.grantAsked_metered).dataKept⟩

/-- A grant of the Pilot that fits is written. -/
theorem ledgerGrant_writes {s : State} {i : Fin 21} {ceil : W16} {perm : BitVec 2} (grants : s.pilotGrants = true) :
    (s.grantFits i ceil.toNat perm = true →
      ∃ t, exec (.ledgerGrant i ceil perm) s = .next t ∧ (t.ledger i).ceil = ceil ∧ (t.ledger i).perm = perm ∧
        (t.ledger i).seq = (s.ledger i).seq + 1 ∧ (t.ledger i).ack = (s.ledger i).ack ∧ (s.ledger i).ceil ≤ (t.ledger i).counted ∧
        ceil ≤ (t.ledger i).counted ∧ (∀ j, j ≠ i.val → t.ledger j = s.ledger j) ∧ s.DataKept t) ∧
    (s.grantFits i ceil.toNat perm = false → exec (.ledgerGrant i ceil perm) s = .next s) := by
  simp only [exec, execLedgerGrant, grants, true_and]
  refine ⟨fun fits => ⟨_, congrArg _ (if_pos fits), ?_⟩, fun full => by rw [full]; rfl⟩
  obtain ⟨old, new⟩ := (s.ledger i).granted_counted ceil perm
  rw [State.ledger_writeGrant]
  exact ⟨by simp [Entry.granted], rfl, rfl, rfl, old, new, fun j h => State.ledger_writeGrant_ne h, State.writeGrant_metered.dataKept⟩

/-- The entry that an acknowledgement of the latest number leaves, before its unit obeys. -/
def Entry.acked (e : Entry) (stalled : Bool) : Entry :=
  { e with ack := e.seq, forcedClk := false, counted := if stalled then e.counted else e.ceil, lowering := stalled && e.lowering }

/-- An acknowledgement settles its lowering, and the unit takes the state that its permission allows. -/
theorem ledgerAck_settles {s : State} {i : Fin 21} {seq : Byte} (idle : s.pilotGrants = false ∨ (∀ j, (s.ledger j).asks = false)) :
    (seq = (s.ledger i).seq → ∃ t, exec (.ledgerAck i seq) s = .next t ∧ (t.ledger i).ack = seq ∧
      (t.ledger i).counted = (if s.pilotStalled = true then (s.ledger i).counted else (s.ledger i).ceil) ∧
      (t.ledger i).forcedClk = false ∧ (t.ledger i).ceil = (s.ledger i).ceil ∧
      (t.ledger i).st = (if (s.ledger i).perm = 2 then .banked
        else if (s.ledger i).perm = 1 ∧ (s.ledger i).st = .lit then .trimmed
        else if (s.ledger i).perm = 0 ∧ 12 ≤ i.val ∧ i.val < 16 ∧ s.pgActive i = true then .lit else (s.ledger i).st) ∧
      (i.val < 12 → (s.ledger i).perm = 2 → (s.ledger i).st ≠ .banked →
        ∀ j, j < 32 → (s.pch (32 * i + j)).training = false → (t.pch (32 * i + j)).selfRef = true) ∧
      (∀ j, j ≠ i.val → t.ledger j = s.ledger j) ∧ s.DataKept t) ∧
    (seq ≠ (s.ledger i).seq → (s.ledger i).seq - seq < (s.ledger i).seq - (s.ledger i).ack →
      exec (.ledgerAck i seq) s = .next (s.setLedger i { s.ledger i with ack := seq })) := by
  refine ⟨fun latest => ?_, fun old later => ?_⟩
  · subst latest
    have kept := (State.setLedger_metered (s := s) (i := i) (e := (s.ledger i).acked s.pilotStalled)).trans (State.obey_metered (i := i))
    have e : exec (.ledgerAck i (s.ledger i).seq) s = .next (
        if ((s.setLedger i ((s.ledger i).acked s.pilotStalled)).obey i).pilotGrants = true
        then ((s.setLedger i ((s.ledger i).acked s.pilotStalled)).obey i).answerAll else (s.setLedger i ((s.ledger i).acked s.pilotStalled)).obey i) := by
      simp only [exec, execLedgerAck, if_true]
      rfl
    have own : (s.setLedger i ((s.ledger i).acked s.pilotStalled)).ledger i = _ := State.ledger_setLedger _ _ _
    have other {j : Nat} (h : j ≠ i.val) := s.ledger_setLedger_ne ((s.ledger i).acked s.pilotStalled) h
    have pond : (s.setLedger i ((s.ledger i).acked s.pilotStalled)).pch = s.pch := rfl
    have obeyed : (s.setLedger i ((s.ledger i).acked s.pilotStalled)).obeyed i = s.obeyed i := by
      rw [State.obeyed, own]
      rfl
    obtain ⟨⟨at', entry⟩, others, stack⟩ := (s.setLedger i ((s.ledger i).acked s.pilotStalled)).obey_obeys i
    rw [own, obeyed] at entry
    rw [own, pond] at stack
    generalize (s.setLedger i ((s.ledger i).acked s.pilotStalled)).obey i = t at *
    have quiet : (if t.pilotGrants = true then t.answerAll else t) = t := by
      rw [kept.pilotGrants]
      rcases idle with stalled | quiet
      · rw [stalled]
        rfl
      · have all : ∀ j, (t.ledger j).asks = false := by
          intro j
          by_cases h : j = i.val
          · rw [h, entry]
            exact quiet i
          · rw [others j h, other h, quiet j]
        rw [State.answerAll_of_quiet all, ite_self]
    refine ⟨t, e.trans (congrArg _ quiet), ?_⟩
    rw [entry]
    exact ⟨rfl, rfl, rfl, rfl, rfl, stack, fun j h => (others j h).trans (other h), kept.dataKept⟩
  · simp only [exec, execLedgerAck, if_neg old, if_pos later]

/-- Above the cap every ceiling above its floor falls by a tenth. -/
theorem State.lowerTenth_lowers (s : State) {i : Nat} (h : i < 21) (above : (s.ledger i).floor i < (s.ledger i).ceil.toNat) :
    (s.lowerTenth.ledger i).ceil = BitVec.ofNat 16 (max ((s.ledger i).floor i) ((s.ledger i).ceil.toNat * 9 / 10)) := by
  unfold State.lowerTenth
  rw [State.ledger_foldl (g := fun i e => if e.floor i < e.ceil.toNat then e.granted (max (e.floor i) (e.ceil.toNat * 9 / 10)) e.perm else e)
    (fun t j => ?_) (fun t j k hk => ?_) List.nodup_range, if_pos (List.mem_range.mpr h), if_pos above]
  · rfl
  · dsimp only
    split
    exacts [State.ledger_writeGrant _ _ _ _, rfl]
  · dsimp only
    split
    exacts [State.ledger_writeGrant_ne hk, rfl]

theorem State.lowerTenth_metered {s : State} : s.Metered s.lowerTenth := .foldl (fun _ _ => .ite State.writeGrant_metered (.refl _)) _ _

/-- The state with the input as sampled. -/
def State.sampled (s : State) (vin iin pin : W16) : State := { s with pwr := { s.pwr with vin := vin, iin := iin, pin := pin } }

/-- A sample above the cap is posted, and the Pilot lowers. -/
theorem capSample_lowers {s : State} (vin iin pin : W16) (awake : s.sled.st ≠ .off) :
    (100 * pin.toNat ≤ 102 * s.capDw → exec (.capSample vin iin pin) s = .next { s with pwr := { s.pwr with vin := vin, iin := iin, pin := pin } }) ∧
    (102 * s.capDw < 100 * pin.toNat → ∃ t, exec (.capSample vin iin pin) s = .next t ∧ s.Posted t 0x0806 0 0 ∧ s.DataKept t ∧
      (s.pilotGrants = true → ∀ i, i < 21 → (s.ledger i).floor i < (s.ledger i).ceil.toNat →
        (t.ledger i).ceil = BitVec.ofNat 16 (max ((s.ledger i).floor i) ((s.ledger i).ceil.toNat * 9 / 10)))) := by
  refine ⟨fun within => by simp only [exec, execCapSample, within, or_true, if_true], fun beyond => ?_⟩
  have beyond' : ¬ (s.awake = false ∨ 100 * pin.toNat ≤ 102 * s.capDw) := by
    rintro (h | h)
    · simp [State.awake, awake] at h
    · omega
  have e : exec (.capSample vin iin pin) s = .next (
      (if (s.sampled vin iin pin).pilotGrants = true then (s.sampled vin iin pin).lowerTenth else s.sampled vin iin pin).post
        (pairPost .capExceed 0 0 (pin.toNat / 10) (s.capDw / 10))) := by
    simp only [exec, execCapSample, if_neg beyond']
    rfl
  have first : s.Later true true (s.sampled vin iin pin) := .power rfl rfl
  have grants : (s.sampled vin iin pin).pilotGrants = s.pilotGrants := rfl
  have kept : s.DataKept (s.sampled vin iin pin) := ⟨rfl, rfl, rfl, rfl, rfl⟩
  have same (i : Nat) : (s.sampled vin iin pin).ledger i = s.ledger i := rfl
  generalize s.sampled vin iin pin = s1 at *
  have later : s1.Later true true (if s1.pilotGrants = true then s1.lowerTenth else s1) := .ite State.lowerTenth_later (.refl _)
  have metered : s1.Metered (if s1.pilotGrants = true then s1.lowerTenth else s1) := .ite State.lowerTenth_metered (.refl _)
  have told := State.post_told (if s1.pilotGrants = true then s1.lowerTenth else s1) (pairPost .capExceed 0 0 (pin.toNat / 10) (s.capDw / 10))
  have both := first.trans later
  have data := (metered.trans told.metered).dataKept
  refine ⟨_, e, State.posted_of_post (n := 0) (both.posted rfl) (both.time rfl) ((both.inService rfl).awake awake) (.refl _) (by omega) rfl rfl rfl,
    ⟨data.mem.trans kept.mem, data.map.trans kept.map, data.rt.trans kept.rt, data.dir.trans kept.dir, data.lake.trans kept.lake⟩,
    fun g i h above => ?_⟩
  rw [told.ledger, if_pos (grants.trans g), State.lowerTenth_lowers s1 h (by rw [same]; exact above), same]

/-- The state with the clock of an entry's unit forced, before that is posted. -/
def State.forcing (s : State) (i : Nat) : State :=
  let s1 := s.setLedger i { s.ledger i with forcedClk := true }
  { s1 with pwr := { s1.pwr with forced := satInc s1.pwr.forced } }

/-- A lowering that is not acknowledged forces the clock, and that is posted. -/
theorem ledgerForced_posts {s : State} {i : Fin 21} (awake : s.sled.st ≠ .off) (late : (s.ledger i).ack ≠ (s.ledger i).seq)
    (lowering : (s.ledger i).lowering = true) (free : (s.ledger i).forcedClk = false) :
    ∃ t, exec (.ledgerForced i) s = .next t ∧ t.ledger i = { s.ledger i with forcedClk := true } ∧ s.Posted t 0x0708 12 i.val ∧
      t.pwr.forced = satInc s.pwr.forced ∧ s.DataKept t := by
  have e : exec (.ledgerForced i) s =
      .next ((s.forcing i).post (pairPost .ledgerForced 12 i (s.ledger i).seq.toNat (s.ledger i).ceil.toNat)) := by
    simp only [exec, execLedgerForced]
    rw [if_neg (by simp [State.awake, awake, late, lowering, free])]
    rfl
  have first : s.Later true true (s.forcing i) := State.setLedger_later.trans (.power rfl rfl)
  have told := (s.forcing i).post_told (pairPost .ledgerForced 12 i (s.ledger i).seq.toNat (s.ledger i).ceil.toNat)
  have kept : s.DataKept (s.forcing i) := ⟨rfl, rfl, rfl, rfl, rfl⟩
  have data := told.dataKept
  refine ⟨_, e, ?_, State.posted_of_post (t := s.forcing i) (n := 0) (first.posted rfl) (first.time rfl)
    ((first.inService rfl).awake awake) (.refl _) (by omega) rfl rfl ?_, ?_, ⟨data.mem.trans kept.mem, data.map.trans kept.map, data.rt.trans kept.rt, data.dir.trans kept.dir, data.lake.trans kept.lake⟩⟩
  · rw [told.ledger]
    exact State.ledger_setLedger _ _ _
  · simp only [Post.toRec, pairPost, BitVec.toNat_ofNat]
    omega
  · rw [told.pwr_eq]
    rfl

/-- Settles O38: each command through what `writeGrant`, `answerAll` and `obey` leave of the Ledger. -/
theorem ledgerGrantsFollowTheProtocol : Obligations.LedgerGrantsFollowTheProtocol := by
  unfold Obligations.LedgerGrantsFollowTheProtocol
  refine ⟨fun s i ceil perm want known small awake => ledgerRequest_answers known small awake, fun s i ceil perm grants => ledgerGrant_writes grants,
    fun s i seq idle => ledgerAck_settles idle, fun s i awake late lowering free => ?_, fun s i grants idle low draw => ?_,
    fun s i asks banked lit up => ?_, fun _ _ _ => rfl, fun s vin iin pin awake => capSample_lowers vin iin pin awake⟩
  · exact ledgerForced_posts awake late lowering free
  · have e : exec (.ledgerIdleLower i) s = .next (s.writeGrant i (max ((s.ledger i).floor i) ((s.ledger i).draw.toNat * 5 / 4)) (s.ledger i).perm) := by
      simp only [exec, execLedgerIdleLower]
      rw [if_pos ⟨grants, idle, max_lt low draw⟩]
    refine ⟨_, e, ?_⟩
    rw [State.ledger_writeGrant]
    exact ⟨rfl, rfl, rfl, State.writeGrant_metered.dataKept⟩
  · have e : exec (.hwWakeGrant i) s = .next ((s.writeGrant i ((s.ledger i).floor i) 0).setLedger i
        { (s.writeGrant i ((s.ledger i).floor i) 0).ledger i with asks := decide ((s.ledger i).floor i < (s.ledger i).rceil.toNat) }) := by
      simp only [exec, execHwWakeGrant]
      rw [if_neg (by simp [asks, banked, lit, up])]
    refine ⟨_, e, ?_⟩
    rw [State.ledger_setLedger, State.ledger_writeGrant]
    exact ⟨rfl, rfl, rfl, rfl, (State.writeGrant_metered.trans State.setLedger_metered).dataKept⟩

end Sys2Proof.Machine
end

section
/-! ## Odd entries (01 R28 to R32)

The statement's clauses on the rollback and on the drained change hold of every state. Its clause on the held load does not: a request carries its
line in 40 bits, and nothing in the hypotheses keeps the extent of its grant below line 2^40. -/

namespace Sys2Proof.Machine

namespace State

variable {s : State}

theorem journalEnt_standing {r : RegionId} : s.Standing (s.journalEnt r) := .ite journal_standing (.refl s)

theorem journalEnt_adds {r : RegionId} : s.Adds 0 (s.journalEnt r) := .ite journal_adds (.refl s)

/-- A control instruction of a program that is not cancelled completes with OK. -/
theorem ctlOk_of_running {p : Nat} {x : Prog} (running : s.prog p = some x) (kept : x.cancel = none) :
    s.ctlOk p 0 0 = s.setProg p { x with lastSt := 0, pc := x.nextPc, wait := .run, served := [] } := by
  simp only [State.ctlOk, State.goOn, running]
  split
  · rename_i c cancelled
    rw [kept] at cancelled
    cases cancelled
  · rfl

/-- The state with an entry restored from its shadow, before that is posted. -/
def restoring (s : State) (x : Stalled) : State :=
  let s1 := s.setEnt x.region { x.shadow with gen := x.shadow.gen + 2 + BitVec.ofNat 32 (2 * x.late) }
  { s1 with rt := { s1.rt with stalled := s1.rt.stalled.filter (fun y => y.region != x.region) } }

end State

/-- The rollback of an odd entry restores its shadow at the next even generation and is posted. -/
theorem rtRollback_restores {s : State} {region : RegionId} {x : Stalled} (found : s.rt.stalled.find? (fun x => x.region == region) = some x)
    (revoke : x.revoke = none) (prog : x.prog = none) (awake : s.sled.st ≠ .off) :
    ∃ t, exec (.rtRollback region) s = .next t ∧ t.ent region = { x.shadow with gen := x.shadow.gen + 2 + BitVec.ofNat 32 (2 * x.late) } ∧
      (∀ y ∈ t.rt.stalled, y.region ≠ region) ∧ s.Posted t 0x0405 1 region.toNat ∧ t.mem = s.mem ∧ t.map = s.map ∧ t.dir = s.dir := by
  have own : x.region = region := by simpa using List.find?_some found
  have e : exec (.rtRollback region) s = .next (s.rollback x) := by
    simp only [exec, execRtRollback, found, State.rollbackEnd, revoke, prog]
  subst own
  let p : Post := pairPost .rtRollback 1 x.region.toNat (x.shadow.gen + 2).toNat 0
  have first : s.Later true true (s.restoring x) := State.setEnt_later.trans (.same rfl rfl)
  have ent : (s.restoring x).ent x.region = _ := s.ent_setEnt x.region _
  have told := (s.restoring x).post_told p
  have kept : ((s.restoring x).post p).Standing (s.rollback x) := State.journalEnt_standing
  have adds : ((s.restoring x).post p).Adds 0 (s.rollback x) := State.journalEnt_adds
  have rt : (s.rollback x).rt = (s.restoring x).rt := kept.rt_eq.trans told.rt_eq
  have dir : (s.rollback x).dir = ((s.restoring x).post p).dir := by rw [kept.rest]
  have small : x.region.toNat < 2 ^ 32 := by omega
  refine ⟨_, e, ?_, ?_, ?_, kept.mem_eq.trans told.mem_eq, kept.map_eq.trans told.map_eq, dir.trans told.dir_eq⟩
  · rw [State.ent, rt, ← State.ent, ent]
  · intro y hy
    rw [rt] at hy
    simpa using (List.mem_filter.mp hy).2
  · exact State.posted_of_post (first.posted rfl) (first.time rfl) ((first.inService rfl).awake awake) adds (by omega) rfl rfl
      ((BitVec.toNat_ofNat _ _).trans (Nat.mod_eq_of_lt small))

/-- A narrowing change whose earlier requests have gone lets its instruction complete. -/
theorem narrowingChangeDrained_completes {s : State} {region : RegionId} {d : Drain} {x : Prog} (drains : s.rt.drains = [d])
    (own : d.region = region) (held : s.dir.held = []) (running : s.prog d.prog = some x) (kept : x.cancel = none) :
    ∃ t, exec (.narrowingChangeDrained region) s = .next t ∧ t.rt.drains = [] ∧
      t.prog d.prog = some { x with lastSt := 0, pc := x.nextPc, wait := .run, served := [] } ∧ t.mem = s.mem ∧ t.map = s.map := by
  have go : s.rt.drains.filter (fun d => d.region == region && s.drained region d.gen) = [d] := by simp [drains, own, State.drained, held]
  have gone : [d].filter (fun d' => !([d].contains d')) = [] := by simp
  have e : s.drainRegion region = { s with rt := { s.rt with drains := [] } }.ctlOk d.prog 0 0 := by
    dsimp only [State.drainRegion]
    rw [go, drains, gone]
    rfl
  refine ⟨s.drainRegion region, rfl, ?_⟩
  rw [e, State.ctlOk_of_running (s := { s with rt := { s.rt with drains := [] } }) running kept]
  exact ⟨rfl, State.prog_setProg _ _ _, rfl, rfl⟩

namespace FarExtent

/-- The even entry of region 1. -/
def entry : REnt := { REnt.freed with gen := 2, st := .active }

/-- An extent of region 1 that begins at line 2^40, which the 40-bit line of a held request cannot name. -/
def grant : Grant := { host := 0, region := 1, first := 2 ^ 18, count := 1, rw := true, dpa := 0 }

/-- A load of the first DPA of the extent, held on an odd entry. -/
def load : HReq :=
  { no := 0, host := 0, half := 0, dpa := 0, kind := .rd, nocache := false, region := 1, line := 0, gen := 2, ent := entry, gnt := none, data := 0,
    mask := 0, poison := false, why := .odd }

/-- An OPEN segment at near address 256. -/
def sme : Sme :=
  ⟨({ st := 2, spr := false, codec := 2, csize := 16, pin := false, lend := false, prior := 0, age := 0, aux := 0 } : SmeF).word, 256⟩

/-- The load is held; segment 2^34 of region 1, where the line lies, is in Pond and its first byte is 7. -/
def state : State :=
  { State.reset with
    rt := { State.reset.rt with ent := [(1, entry)], grants := [(0, grant)] }
    map := { State.reset.map with sme := [(segKey 1 (2 ^ 34), sme)] }
    mem := { State.reset.mem with bytes := [((Loc.near false 256).sector * 256, 7)] }
    dir := { State.reset.dir with held := [load] } }

theorem found : state.lookup 0 0 = some (0, grant, 2 ^ 40) := by decide +kernel

theorem inPond : state.InPond 1 (2 ^ 40 / 64) 256 := by constructor <;> decide +kernel

theorem untracked : state.Untracked 1 (2 ^ 40) := by constructor <;> decide +kernel

/-- The load is answered from line 0 of the region, whose bytes are zero. -/
theorem answered {t : State} (run : exec (.heldRequestResume 0 .ok 0) state = .next t) : t.out = [.data 0 0 0] := by
  have e : exec (.heldRequestResume 0 .ok 0) state = .next (state.runHeld 0 .ok 0 false false) := by
    have due : load.why = .odd ∧ (state.ent load.region).odd = false := by decide +kernel
    simp only [exec, execHeldRequestResume]
    exact congrArg _ (if_pos due)
  obtain rfl := Host.Outcome.next.inj (e.symm.trans run)
  decide +kernel

end FarExtent

/-- Refutes O5: where the extent of a grant begins at line 2^40, the line of a held load does not fit the 40 bits of the request, and the load is
answered from line 0 of the region. -/
theorem not_entryChangesEndEven : ¬ Obligations.EntryChangesEndEven := by
  unfold Obligations.EntryChangesEndEven
  rintro ⟨-, -, load⟩
  obtain ⟨t, run, -, answer, -⟩ := load FarExtent.state 0 .ok 0 FarExtent.load 0 (2 ^ 40) 256 FarExtent.grant (by decide +kernel) rfl rfl
    FarExtent.found rfl (by decide +kernel) (by decide +kernel) FarExtent.untracked FarExtent.inPond rfl
  rw [FarExtent.answered run] at answer
  revert answer
  decide +kernel

end Sys2Proof.Machine
end

section
/-! ## Segment Map Entries, their words and their locations (02 R57 to R60) -/

namespace Sys2Proof.Machine

/-- Reading back the word of some fields gives those fields. -/
@[simp] theorem SmeF.f_word (f : SmeF) (w : W64) : (Sme.mk f.word w).f = f := by
  obtain ⟨st, spr, codec, csize, pin, lend, prior, age, aux⟩ := f
  simp only [Sme.f, SmeF.word, SmeF.mk.injEq]
  refine ⟨?st, ?spr, ?codec, ?csize, ?pin, ?lend, ?prior, ?age, ?aux⟩
  case spr | pin | lend =>
    simp only [BitVec.getLsbD_append]
    simp
  all_goals
    ext i hi
    simp only [BitVec.getElem_extractLsb', BitVec.getLsbD_append]
    simp (disch := omega) only [if_neg, if_pos, Nat.sub_sub, Nat.reduceAdd, Nat.add_sub_cancel_left, Nat.zero_add]
    exact BitVec.getLsbD_eq_getElem hi

theorem ofBool_getLsbD {w : Nat} (x : BitVec w) (i : Nat) : BitVec.ofBool (x.getLsbD i) = x.extractLsb' i 1 := by
  ext j hj
  obtain rfl : j = 0 := by omega
  simp

/-- The fields of a word, side by side, are the word. -/
@[simp] theorem Sme.word_f (e : Sme) : e.f.word = e.w0 := by
  apply BitVec.eq_of_getLsbD_eq
  intro i hi
  simp only [Sme.f, SmeF.word, ofBool_getLsbD, BitVec.getLsbD_append, BitVec.getLsbD_extractLsb']
  split_ifs
  all_goals
    rw [decide_eq_true (by omega), Bool.true_and]
    congr 1
    omega

theorem segSt_code (st : SegSt) : segSt st.code = st := by
  cases st <;> rfl

theorem code_segSt : ∀ b : BitVec 3, (segSt b).code = b := by
  decide

theorem Sme.f_edit (e : Sme) (g : SmeF → SmeF) : (e.edit g).f = g e.f := SmeF.f_word _ _

/-! ### An entry at a location -/

theorem Sme.f_at (e : Sme) (l : Loc) :
    (e.at l).f = { e.f with st := (l.stOf e.f.codec).code, spr := l.isSpring, lend := false, prior := 0, aux := 0 } := SmeF.f_word _ _

theorem Sme.st_at (e : Sme) (l : Loc) : (e.at l).st = l.stOf e.f.codec := by
  rw [Sme.st, Sme.f_at, segSt_code]

/-- A location gives an entry a state with a home: no entry at a location is on the move. -/
theorem Sme.src_at (e : Sme) (l : Loc) : (e.at l).src = l.stOf e.f.codec := by
  have still : l.stOf e.f.codec ≠ .transit := by
    cases l with
    | near spr a => simp only [Loc.stOf]; split <;> nofun
    | flash f sec => nofun
    | tarn w sec => nofun
  rw [Sme.src, Sme.st_at, if_neg still]

theorem Sme.home_at_near (e : Sme) {spr : Bool} {a : Nat} (small : a < 2 ^ 32) : (e.at (.near spr a)).home = some (.near spr a) := by
  have place : (e.at (.near spr a)).w1.toNat % 2 ^ 32 = a := by
    simp only [Sme.at, Loc.word1, BitVec.toNat_ofNat]
    omega
  have here : (e.at (.near spr a)).f.spr = spr := by
    rw [Sme.f_at]
    cases spr <;> rfl
  rw [Sme.home, Sme.src_at, place, here]
  simp only [Loc.stOf]
  split_ifs <;> rfl

theorem Sme.home_at_flash (e : Sme) {f sec : Nat} (hf : f < 2 ^ 40) (hs : sec < 64) : (e.at (.flash f sec)).home = some (.flash f sec) := by
  have word : (e.at (.flash f sec)).w1.toNat = f * 64 + sec := by
    simp only [Sme.at, Loc.word1, BitVec.toNat_ofNat]
    omega
  have page : (f * 64 + sec) / 64 % 2 ^ 40 = f := by omega
  have sector : (f * 64 + sec) % 64 = sec := by omega
  rw [Sme.home, Sme.src_at, word, page, sector]
  rfl

theorem Sme.home_at_tarn (e : Sme) {w sec : Nat} (hw : w < 4096) (hs : sec < 2 ^ 40) : (e.at (.tarn w sec)).home = some (.tarn w sec) := by
  have word : (e.at (.tarn w sec)).w1.toNat = sec * 4096 + w := by
    simp only [Sme.at, Loc.word1, BitVec.toNat_ofNat]
    omega
  have window : (sec * 4096 + w) % 4096 = w := by omega
  have sector : (sec * 4096 + w) / 4096 % 2 ^ 40 = sec := by omega
  rw [Sme.home, Sme.src_at, word, window, sector]
  rfl

theorem Sme.near_st_at (e : Sme) (spr : Bool) (a : Nat) :
    ((e.at (.near spr a)).st = .opn ↔ e.f.codec = 2) ∧ ((e.at (.near spr a)).st = .packed ↔ e.f.codec ≠ 2) := by
  rw [Sme.st_at, Loc.stOf]
  split_ifs with h
  · simp [h]
  · simpa using h

/-- Settles O60: the word of the fields and the fields of the word read each other back, and each kind of location from its own word. -/
theorem segmentMapEntriesSpellTheirHomes : Obligations.SegmentMapEntriesSpellTheirHomes := by
  unfold Obligations.SegmentMapEntriesSpellTheirHomes
  refine ⟨Sme.word_f, SmeF.f_word, segSt_code, code_segSt, fun e spr a small => ⟨e.home_at_near small, e.near_st_at spr a⟩,
    fun e f sec hf hs => ⟨e.home_at_flash hf hs, e.st_at _⟩, fun e w sec hw hs => ⟨e.home_at_tarn hw hs, e.st_at _⟩, fun e l => ?_⟩
  simp [Sme.image, Sme.cs, Sme.f_at]

end Sys2Proof.Machine
end

section
/-! ## A store beyond line 2^40 of its region (O2)

The line that `State.lookup` finds is a natural number, and the request that carries it holds its low 40 bits. An extent that begins at line 2^40 of
its region is `FarExtent.grant`; the store to its first DPA is therefore a store to line 0, and the byte it should have overwritten stays. -/

namespace Sys2Proof.Machine

namespace FarExtent

/-- Host 0 reaches the far extent over half 0. Segment 0, where the store goes, is POISONED and takes no data. -/
def linked : State :=
  { state with
    sled := { State.reset.sled with st := .serve }
    ports := { State.reset.ports with half := [(0, { Half.reset with link := 2, hold := false, trained := true })] }
    map := { State.reset.map with sme := [(segKey 1 0, (Sme.new 0).poison 1), (segKey 1 (2 ^ 34), sme)] }
    dir := State.reset.dir }

theorem linked_mapped : linked.Mapped 0 0 0 0 0 grant (2 ^ 40) := by constructor <;> decide +kernel

theorem linked_untracked : linked.Untracked grant.region (2 ^ 40) := by constructor <;> decide +kernel

theorem linked_inPond : linked.InPond grant.region (2 ^ 40 / 64) 256 := by constructor <;> decide +kernel

/-- A line of zeros stored through the far extent leaves the byte 7 of its first line where it was. -/
theorem store_keeps_old_byte {t : State} (run : exec (.memWr 0 0 0 0 false false .ok 0) linked = .next t) :
    readByte t.mem.bytes (pondByte 256 0) = 7 := by
  obtain rfl := Host.Outcome.next.inj run
  decide +kernel

/-- The line of zeros written where the statement places it clears that byte. -/
theorem written_clears_old_byte : readByte (writeBytes linked.mem.bytes (pondByte 256 (2 ^ 40 % 64)) (lineData 0)) (pondByte 256 0) = 0 := by
  decide +kernel

end FarExtent

/-- Refutes O2: where the extent of a grant begins at line 2^40, the line of a store does not fit the 40 bits of the request, so the store goes to
line 0 of the region and the bytes of its own line stay as they were. -/
theorem not_hostStoresWriteTheirBytesOnly : ¬ Obligations.HostStoresWriteTheirBytesOnly := by
  unfold Obligations.HostStoresWriteTheirBytesOnly
  rintro ⟨store, -⟩
  obtain ⟨t, run, -, bytes, -⟩ := store FarExtent.linked 0 0 0 0 false .ok 0 0 0 (2 ^ 40) 256 FarExtent.grant FarExtent.linked_mapped
    FarExtent.linked_untracked FarExtent.linked_inPond rfl rfl rfl
  have old := FarExtent.store_keeps_old_byte run
  rw [bytes, FarExtent.written_clears_old_byte] at old
  exact absurd old (by decide)

end Sys2Proof.Machine
end

section
/-! ## The evacuation of a segment whose map entry has left the map cache (O16)

Where `map.away` holds the page of the segment's entry, `State.peerRead` has the page fetched and EVACUATE sends nothing before it is back. -/

namespace Sys2Proof.Machine

namespace AwayPage

/-- A PATTERN entry. -/
def sme : Sme :=
  ⟨({ st := 1, spr := false, codec := 1, csize := 0, pin := false, lend := false, prior := 0, age := 0, aux := 0 } : SmeF).word, 0xAB⟩

/-- EVACUATE of the region of handle register 0, with A = 0, B = 1, C = 2. -/
def word : W64 := BitVec.ofNat 64 (0x29 + 1 * 2 ^ 26 + 2 * 2 ^ 31)

/-- A control program of host 0 at EVACUATE: the handle is of region 1, the peer sled is 5 and its region 2. -/
def prog : Prog :=
  (((startProg 0 0 .control { cid := 7, irq := false, order := false, words := [word], args := [], h0 := BitVec.ofNat 64 (1 + 2 ^ 63) } 256).setG
    1 5).setG 2 2)

/-- Sled 5 is enrolled; segment 0 of region 1 is PATTERN and the page of its entry is not in the map cache. -/
def state : State :=
  { State.reset with
    sled := { State.reset.sled with st := .serve }
    rt := { State.reset.rt with ent := [(1, { REnt.freed with gen := 2, st := .active, owner := 0 })], peers := [(0, ⟨5, 1, true⟩)] }
    mgt := { State.reset.mgt with lanes := [(0, (5, 9))] }
    map := { State.reset.map with sme := [(segKey 1 0, sme)], away := [pageKey 1 0] }
    q := { State.reset.q with progs := [(0, prog)] } }

theorem atEvacuate : state.AtInstr 0 prog (isOp 0x29) word 0 := by constructor <;> decide +kernel

/-- EVACUATE sends no frame. -/
theorem evacuate_sends_nothing {t : State} (run : exec (.evacuate 0 .ok false) state = .next t) : t.out = [] := by
  obtain rfl := Host.Outcome.next.inj run
  decide +kernel

end AwayPage

/-- Refutes O16: where the map cache does not hold the segment's entry, EVACUATE waits for its page, and the DATA frame does not leave at once. -/
theorem not_segmentInstructionsActOnTheirRange : ¬ Obligations.SegmentInstructionsActOnTheirRange := by
  unfold Obligations.SegmentInstructionsActOnTheirRange
  rintro ⟨-, -, -, -, evacuate⟩
  obtain ⟨t, run, -, -, -, -, ⟨b, -, sent⟩, -⟩ := evacuate AwayPage.state 0 AwayPage.prog AwayPage.word 0 1 0 AwayPage.sme AwayPage.atEvacuate
    (by decide +kernel) (by decide +kernel) (by decide +kernel) (by decide +kernel) (by decide +kernel) (by decide +kernel) (by decide +kernel)
    (by decide +kernel) (by decide +kernel) (by decide +kernel) (by decide +kernel) (by decide +kernel) rfl rfl rfl rfl rfl rfl rfl rfl rfl
    (by decide +kernel) (by decide +kernel)
  rw [AwayPage.evacuate_sends_nothing run] at sent
  exact List.not_mem_nil sent

end Sys2Proof.Machine
end

section
/-! ## Copies that commit (02 R68, R75, R76) -/

namespace Sys2Proof.Machine

@[simp] theorem readSorted_length (n : Nat) (m : List Host.Cell) (a : Nat) : (readSorted n m a).length = n := by
  induction n generalizing m a with
  | zero => cases m <;> rfl
  | succ n ih =>
    cases m with
    | nil => simp [readSorted, ih]
    | cons c t =>
      simp only [readSorted]
      split_ifs <;> simp [ih]

namespace State

variable {s : State}

@[simp] theorem readRun_length (l : Loc) (n : Nat) : (s.readRun l n).length = n * 256 := readSorted_length _ _ _

/-! ### Nobody waits -/

theorem rerun_of_none {test : HReq → Bool} (none : ∀ x ∈ s.dir.held, test x = false) (c : Chk) (pick : W32) : s.rerun test c pick = s := by
  have gone : s.dir.held.filter test = [] := List.filter_eq_nil_iff.mpr (fun x hx => by simp [none x hx])
  rw [State.rerun, gone]
  rfl

theorem rerun_of_held_nil {test : HReq → Bool} (none : s.dir.held = []) (c : Chk) (pick : W32) : s.rerun test c pick = s :=
  rerun_of_none (by simp [none]) c pick

theorem wakePf_of_progs_nil (none : s.q.progs = []) : s.wakePf = s := by
  rw [State.wakePf, none]
  rfl

/-! ### What writing an entry, releasing a run and noting one leave -/

theorem journal_rest (j : JRec) : s.journal j = { s with lake := (s.journal j).lake } := by
  unfold State.journal
  split <;> rfl

theorem commitSme_rest (r : RegionId) (seg : Nat) (e : Sme) :
    s.commitSme r seg e = { s with map := (s.commitSme r seg e).map, lake := (s.commitSme r seg e).lake } := by
  unfold State.commitSme
  extract_lets old s1
  split
  · rw [journal_rest]
    rfl
  · rfl

@[simp] theorem commitSme_sb (r : RegionId) (seg : Nat) (e : Sme) : (s.commitSme r seg e).lake.sb = s.lake.sb := by
  unfold State.commitSme State.journal
  extract_lets old s1
  split_ifs <;> rfl

@[simp] theorem sme_commitSme_same (r : RegionId) (seg : Nat) (e : Sme) : (s.commitSme r seg e).sme r seg = e := by
  rw [State.sme, sme_commitSme, State.newSme, commitSme_rest]
  exact Tbl.getD_set_same _ _ _ _

theorem releaseHome_rest (e : Sme) : s.releaseHome e = { s with map := (s.releaseHome e).map } := by
  unfold State.releaseHome
  split
  · rfl
  · rw [State.release_rest]
  · rfl

theorem sme_releaseHome (e : Sme) (r : RegionId) (seg : Nat) : (s.releaseHome e).sme r seg = s.sme r seg := by
  have same : (s.releaseHome e).map.sme = s.map.sme := by
    unfold State.releaseHome
    split
    exacts [rfl, sme_release, rfl]
  rw [State.sme, State.newSme, same, releaseHome_rest]
  rfl

theorem noteRun_rest (r : RegionId) (seg : Nat) (e : Sme) : s.noteRun r seg e = { s with lake := (s.noteRun r seg e).lake } := by
  unfold State.noteRun
  split <;> rfl

@[simp] theorem noteRun_sb (r : RegionId) (seg : Nat) (e : Sme) : (s.noteRun r seg e).lake.sb = s.lake.sb := by
  unfold State.noteRun
  split <;> rfl

/-- A move that no instruction and no write-back waits for, where no request and no program waits, ends with the write of its entry: the image joins
the home it has, or the home moves. -/
theorem commitMove_quiet {n : Nat} {m : Move} (pick : W32) (held : s.dir.held = []) (progs : s.q.progs = [])
    (plain : m.why = .evict ∨ m.why = .demand) :
    s.commitMove n m pick = { s with map := (s.commitMove n m pick).map, lake := (s.commitMove n m pick).lake } ∧
    (s.commitMove n m pick).lake.sb = s.lake.sb ∧
    (∀ spr a, m.image = true → m.dest = .near spr a → (s.commitMove n m pick).sme m.region m.seg =
      (s.sme m.region m.seg).edit (fun f => { f with lend := true, spr := spr, aux := BitVec.ofNat 32 a, age := s.clk.age })) ∧
    (∀ spr a, m.image = false → m.sealing = false → m.dest = .near spr a → ∃ aux : SmeF → BitVec 32, (s.commitMove n m pick).sme m.region m.seg =
      ((s.sme m.region m.seg).at m.dest).edit (fun f => { f with age := s.clk.age, aux := aux f })) := by
  unfold State.commitMove
  extract_lets r e x _ s1 a former _ e1 s2 s3 s4 _ s5
  have plain4 : s4 = s3.noteRun r m.seg e1 := by
    simp only [s4]
    rw [if_neg (by rcases plain with w | w <;> simp [w])]
  have plain5 : s5 = s4 := by
    simp only [s5]
    rcases plain with w | w <;> simp [w]
  have sb5 : s5.lake.sb = s.lake.sb := by
    have freed : s3.lake = s2.lake := by
      simp only [s3]
      split_ifs
      · split
        · rw [release_rest]
        · rfl
      · rfl
      · rw [releaseHome_rest]
    rw [plain5, plain4, noteRun_sb, freed]
    exact commitSme_sb _ _ _
  have freed : s3 = { s2 with map := s3.map } ∧ s3.sme r m.seg = s2.sme r m.seg := by
    have kept (l : Loc) : (s2.release l e.cs true).sme r m.seg = s2.sme r m.seg := by
      rw [State.sme, State.newSme, sme_release, release_rest]
      rfl
    simp only [s3]
    split_ifs
    · split
      · exact ⟨by rw [release_rest], kept _⟩
      · exact ⟨rfl, rfl⟩
    · exact ⟨rfl, rfl⟩
    · exact ⟨releaseHome_rest e, sme_releaseHome e _ _⟩
  obtain ⟨rest3, sme3⟩ := freed
  have rest5 : s5 = { s with map := s5.map, lake := s5.lake } := by
    rw [plain5, plain4, noteRun_rest, rest3, show s2 = s1.commitSme r m.seg e1 from rfl, commitSme_rest]
  have sme5 : s5.sme r m.seg = e1 := by
    rw [plain5, plain4, noteRun_rest]
    exact sme3.trans (sme_commitSme_same _ _ _)
  have idle : ((s5.freeToken r m.seg pick).rerun (missOf r m.seg) .ok 0).wakePf = s5 := by
    have held5 : s5.dir.held = [] := by rw [rest5]; exact held
    rw [State.freeToken, rerun_of_held_nil held5, rerun_of_held_nil held5, wakePf_of_progs_nil (by rw [rest5]; exact progs)]
  rw [idle]
  refine ⟨rest5, sb5, fun spr b image dest => sme5.trans ?_, fun spr b image sealing dest => ?_⟩
  · simp only [e1, if_pos image, a, dest, Loc.isSpring]
    cases spr <;> rfl
  · refine ⟨fun f => if f.codec = 2 then e.f.aux else 0, sme5.trans ?_⟩
    simp [e1, image, sealing, dest, Loc.isLake, Loc.isNear, r, e]

end State

end Sys2Proof.Machine
end

section
/-! ## The end of a move, of a release and of a read (02 R68, R75, R76; 05 R218, R226; 07 R290) -/

namespace Sys2Proof.Machine

theorem Sme.home_edit (e : Sme) {g : SmeF → SmeF} (st : (g e.f).st = e.f.st) (prior : (g e.f).prior = e.f.prior) (spr : (g e.f).spr = e.f.spr) :
    (e.edit g).home = e.home := by
  rw [Sme.home, Sme.src_edit e st prior, Sme.f_edit, spr]
  rfl

/-- The far home of an entry does not depend on its SPR bit. -/
theorem Sme.home_edit_flash (e : Sme) {g : SmeF → SmeF} {f sec : Nat} (st : (g e.f).st = e.f.st) (prior : (g e.f).prior = e.f.prior)
    (home : e.home = some (.flash f sec)) : (e.edit g).home = some (.flash f sec) := by
  rw [Sme.home] at home ⊢
  rw [Sme.src_edit e st prior]
  split at home <;> simp_all [Sme.edit]

namespace State

variable {s t u : State}

/-! ### Reads that leave their block as it is -/

theorem afterRead_first_of_rested {h : Loc} (c : Chk)
    (rested : ∀ f x, h = .flash f x → (s.sb (sbOf f)).reads.getD (f % 32 * 4 + f / 1024 % 4) 0 < 50000) : s.afterRead h (.first c) = s := by
  cases h with
  | flash f x => exact if_pos (.inl (rested f x rfl))
  | near | tarn => rfl

theorem countRead_flash_reads (f x : Nat) (c : Chk) :
    ((s.countRead (.flash f x) (.first c)).sb (sbOf f)).reads.getD (f % 32 * 4 + f / 1024 % 4) 0 =
      (s.sb (sbOf f)).reads.getD (f % 32 * 4 + f / 1024 % 4) 0 + 1 := by
  simp only [State.countRead, State.sb_setSb, Tbl.getD, Tbl.find_put_same, Option.getD_some]

/-! ### What placing a segment leaves -/

/-- A change of the map, of Pond's queues and of Lake that leaves its reads in progress. -/
structure Placed (s t : State) : Prop where
  rest : t = { s with map := t.map, pond := t.pond, lake := t.lake }
  misses : t.lake.misses = s.lake.misses

namespace Placed

theorem refl (s : State) : s.Placed s := ⟨rfl, rfl⟩

theorem trans (a : s.Placed t) (b : t.Placed u) : s.Placed u := ⟨by rw [b.rest, a.rest], b.misses.trans a.misses⟩

theorem dir (a : s.Placed t) : t.dir = s.dir := by rw [a.rest]

theorem mem (a : s.Placed t) : t.mem = s.mem := by rw [a.rest]

theorem ite {c : Prop} [Decidable c] (a : s.Placed t) (b : s.Placed u) : s.Placed (if c then t else u) := by
  split
  exacts [a, b]

theorem foldl {α : Type} {f : State → α → State} (hf : ∀ (t : State) a, t.Placed (f t a)) (l : List α) : s.Placed (l.foldl f s) := by
  induction l generalizing s with
  | nil => exact .refl s
  | cons a l ih => exact (hf s a).trans ih

end Placed

theorem wakeSid_placed {l : Loc} {len : Nat} {p : PPort} {c : Nat} : s.Placed (s.wakeSid l len p c) :=
  ⟨by rw [wakeSid_rest], by rw [wakeSid_rest]⟩

theorem looked_placed {r : RegionId} {seg : Nat} : s.Placed (s.looked r seg) := by
  unfold State.looked
  split
  exacts [.refl s, ⟨rfl, rfl⟩]

theorem touch_placed {r : RegionId} {seg : Nat} : s.Placed (s.touch r seg) := by
  unfold State.touch
  extract_lets s0 e s1
  have h_s1 : s.Placed s1 := looked_placed.trans (.foldl (fun _ _ => wakeSid_placed) _)
  exact .ite h_s1 (h_s1.trans ⟨rfl, rfl⟩)

theorem journal_placed {j : JRec} : s.Placed (s.journal j) := .ite ⟨rfl, rfl⟩ (.refl s)

theorem commitSme_placed {r : RegionId} {seg : Nat} {e : Sme} : s.Placed (s.commitSme r seg e) :=
  .ite (Placed.trans (t := s.putSme r seg e) ⟨rfl, rfl⟩ journal_placed) ⟨rfl, rfl⟩

theorem startMove_placed {m : Move} : s.Placed (s.startMove m).1 := by
  unfold State.startMove
  extract_lets n e mp s1
  have h_s1 : s.Placed s1 := ⟨rfl, rfl⟩
  exact .ite h_s1 (h_s1.trans commitSme_placed)

theorem placePond_placed {r : RegionId} {seg cls : Nat} {why : MoveFor} {pick : W32} : s.Placed (s.placePond r seg cls why pick) := by
  unfold State.placePond
  extract_lets e lend far
  split
  · exact .refl s
  · split
    exacts [.refl s, startMove_placed]

theorem promote_placed {r : RegionId} {seg cls : Nat} {why : MoveFor} {pick : W32} : s.Placed (s.promote r seg cls why pick) :=
  .ite (.refl s) placePond_placed

/-! ### The load that waits -/

theorem readFar_line {r : RegionId} {seg j : Nat} {h : Loc} {b : List Byte} (home : (s.sme r seg).home = some h)
    (line : s.lineBytes (s.sme r seg) (some h) j = some b) : s.readFar r seg j = (s.touch r seg, .line b) := by
  unfold State.readFar
  extract_lets e
  rw [home]
  dsimp only
  rw [line]

/-- A held load whose line has come is answered with it. -/
theorem serveFar_answers {x : HReq} {h : Loc} {b : List Byte} (held : s.dir.held = [x]) (found : s.isLost x.region x.line = false)
    (home : (s.sme x.region (x.line.toNat / 64)).home = some h)
    (line : s.lineBytes (s.sme x.region (x.line.toNat / 64)) (some h) (x.line.toNat % 64) = some b) :
    .data x.host x.dpa (lineOfBytes b) ∈ (s.serveFar x).out ∧ (s.serveFar x).dir.held = [] ∧
      (s.serveFar x).lake.misses = s.lake.misses ∧ (s.serveFar x).mem = s.mem := by
  unfold State.serveFar
  extract_lets d s1 n
  have empty : s1.dir.held = [] := by simp [s1, held]
  have placed : s1.Placed (s1.touch x.region (n / 64)) := touch_placed
  rw [found, readFar_line (s := s1) home line]
  refine ⟨List.mem_cons_self, ?_, placed.misses, ?_⟩
  · exact (congrArg DirS.held placed.dir).trans empty
  · exact placed.mem

/-- The read of a segment for which one load waits answers the load. -/
theorem farServed_answers {r : RegionId} {seg : Nat} {pick : W32} {x : HReq} {h : Loc} {b : List Byte} (held : s.dir.held = [x])
    (progs : s.q.progs = []) (miss : missOf r seg x = true) (load : x.kind = .rd) (found : s.isLost r x.line = false)
    (home : (s.sme r seg).home = some h) (line : s.lineBytes (s.sme r seg) (some h) (x.line.toNat % 64) = some b) :
    .data x.host x.dpa (lineOfBytes b) ∈ (s.farServed r seg pick).out ∧ (s.farServed r seg pick).dir.held = [] ∧
      (s.farServed r seg pick).lake.misses = s.lake.misses ∧ (s.farServed r seg pick).mem = s.mem := by
  obtain ⟨-, region, segment⟩ : x.why = .miss ∧ x.region = r ∧ x.line.toNat / 64 = seg := by simpa [missOf, and_assoc] using miss
  have reads : s.dir.held.filter (fun x => missOf r seg x && x.kind.reads) = [x] := by simp [held, miss, load, ReqKind.reads]
  have none : s.storeWaits r seg = false := by simp [State.storeWaits, held, progs, load, ReqKind.stores, ReqKind.reads]
  subst region segment
  obtain ⟨answer, empty, misses, mem⟩ := serveFar_answers held found home line
  have placed := promote_placed (s := s.serveFar x) (r := x.region) (seg := x.line.toNat / 64) (cls := 1) (why := .demand) (pick := pick)
  have e : s.farServed x.region (x.line.toNat / 64) pick = (s.serveFar x).promote x.region (x.line.toNat / 64) 1 .demand pick := by
    unfold State.farServed
    extract_lets e reads' s1
    rw [none, show s1 = s.serveFar x by simp only [s1, reads', reads, List.foldl_cons, List.foldl_nil]]
    rfl
  rw [e, placed.misses, misses, placed.rest]
  exact ⟨answer, empty, rfl, mem⟩

/-- No read of a segment is in progress once its one read has ended. -/
theorem endMiss_of_sole {k : Nat} (sole : s.lake.misses = [(k, none)]) :
    ∃ p, s.endMiss k = { s with lake := { s.lake with misses := [] }, ports := p } := by
  unfold State.endMiss
  extract_lets ps
  rw [show ps = [] by simp [ps, sole], show s.lake.misses.filter (fun m => m.1 != k) = [] by simp [sole]]
  exact ⟨_, rfl⟩

end State

end Sys2Proof.Machine
end

section
/-! ## Moves commit the copied bytes (O6) -/

namespace Sys2Proof.Machine

namespace State

variable {s : State}

/-- The one read of a segment, which passed its check, answers the one load that waits for it. -/
theorem farRead_answers {r : RegionId} {seg : Nat} {pick : W32} {x : HReq} {h : Loc} {b : List Byte}
    (sole : s.lake.misses = [(segKey r seg, none)]) (epoch : s.epochOk h (s.sme r seg).cs = true)
    (rested : ∀ f y, h = .flash f y → (s.sb (sbOf f)).reads.getD (f % 32 * 4 + f / 1024 % 4) 0 < 50000)
    (held : s.dir.held = [x]) (progs : s.q.progs = []) (miss : missOf r seg x = true) (load : x.kind = .rd) (found : s.isLost r x.line = false)
    (home : (s.sme r seg).home = some h) (line : s.lineBytes (s.sme r seg) (some h) (x.line.toNat % 64) = some b) :
    let t := s.farRead r seg h (some .ok) (.first .ok) pick
    .data x.host x.dpa (lineOfBytes b) ∈ t.out ∧ t.dir.held = [] ∧ t.lake.misses = [] ∧ t.mem = s.mem := by
  obtain ⟨p, ended⟩ := endMiss_of_sole sole
  have e : s.farRead r seg h (some .ok) (.first .ok) pick = (s.endMiss (segKey r seg)).farServed r seg pick := by
    simp only [State.farRead, epoch, chkFails]
    exact congrArg (fun t : State => t.farServed r seg pick) (afterRead_first_of_rested .ok (by rw [ended]; exact rested))
  rw [e, ended]
  exact farServed_answers (s := { s with lake := { s.lake with misses := [] }, ports := p }) held progs miss load found home line

theorem lakeReadComplete_answers {r : RegionId} {seg f sec : Nat} {pick : W32} {x : HReq} {b : List Byte}
    (sole : s.lake.misses = [(segKey r seg, none)]) (served : s.missServed r seg = true) (here : s.pageAway r seg = false) (progs : s.q.progs = [])
    (home : (s.sme r seg).home = some (.flash f sec)) (rested : (s.sb (sbOf f)).reads.getD (f % 32 * 4 + f / 1024 % 4) 0 + 1 < 50000)
    (held : s.dir.held = [x]) (miss : missOf r seg x = true) (load : x.kind = .rd) (found : s.isLost r x.line = false)
    (line : s.lineBytes (s.sme r seg) (some (.flash f sec)) (x.line.toNat % 64) = some b) :
    ∃ t, exec (.lakeReadComplete r seg (.first .ok) pick) s = .next t ∧ .data x.host x.dpa (lineOfBytes b) ∈ t.out ∧
      t.dir.held = [] ∧ t.lake.misses = [] ∧ t.mem = s.mem := by
  have due : ¬ (s.lake.misses.any (fun m => m.1 == segKey r seg) = false ∨ s.missServed r seg = false) := by simp [sole, served]
  have e : exec (.lakeReadComplete r seg (.first .ok) pick) s =
      .next ((s.countRead (.flash f sec) (.first .ok)).farRead r seg (.flash f sec) (some .ok) (.first .ok) pick) := by
    simp only [exec, execLakeReadComplete, if_neg due, here, home, lakeChk, Bool.false_eq_true, if_false]
  refine ⟨_, e, farRead_answers (s := s.countRead (.flash f sec) (.first .ok)) sole rfl ?_ held progs miss load found home line⟩
  rintro f' y ⟨⟩
  rw [countRead_flash_reads]
  exact rested

theorem tarnReadComplete_answers {r : RegionId} {seg w sec : Nat} {pick : W32} {x : HReq} {b : List Byte}
    (sole : s.lake.misses = [(segKey r seg, none)]) (served : s.inPause = false) (here : s.pageAway r seg = false) (progs : s.q.progs = [])
    (home : (s.sme r seg).home = some (.tarn w sec)) (epoch : s.epochOk (.tarn w sec) (s.sme r seg).cs = true)
    (asked : s.ports.np.any (fun n => n.2.region == r && n.2.seg == seg && s.issued n.1) = true)
    (held : s.dir.held = [x]) (miss : missOf r seg x = true) (load : x.kind = .rd) (found : s.isLost r x.line = false)
    (line : s.lineBytes (s.sme r seg) (some (.tarn w sec)) (x.line.toNat % 64) = some b) :
    ∃ t, exec (.tarnReadComplete r seg .ok pick) s = .next t ∧ .data x.host x.dpa (lineOfBytes b) ∈ t.out ∧
      t.dir.held = [] ∧ t.lake.misses = [] ∧ t.mem = s.mem := by
  have due : ¬ (s.inPause = true ∨ s.ports.np.all (fun n => !(n.2.region == r && n.2.seg == seg && s.issued n.1)) = true ∨
      s.pageAway r seg = true) := by
    rw [List.all_eq_not_any_not]
    simp only [Bool.not_not, asked, served, here]
    decide
  simp only [exec, execTarnReadComplete, if_neg due, home]
  exact ⟨_, rfl, farRead_answers (s := { s with ports := { s.ports with np := s.ports.np.filter (fun p => !(p.2.region == r && p.2.seg == seg)) } })
    sole epoch nofun held progs miss load found home line⟩

theorem released_of_none {rel : Nat} (none : ∀ y ∈ s.dir.held, y.why ≠ .space) :
    s.released rel = { s with map := { s.map with rel := s.map.rel.del rel } } :=
  rerun_of_none (by simpa using none) .ok 0

theorem deadDest_wakeSid {l d : Loc} {len : Nat} {p : PPort} {c : Nat} : (s.wakeSid l len p c).deadDest d = s.deadDest d := by
  rw [wakeSid_rest]
  rfl

theorem readRun_wakeSid {l d : Loc} {n len : Nat} {p : PPort} {c : Nat} : (s.wakeSid l len p c).readRun d n = s.readRun d n := by
  rw [wakeSid_rest]
  rfl

/-- The copy writes its run, and the commit of the move touches no byte: what memory, the entry and the Region Table hold then. -/
theorem writeRun_commitMove {s0 : State} {n : Nat} {m : Move} {bytes : List Byte} (pick : W32) (calm : s.Calm)
    (pond : s0 = { s with pond := s0.pond, lake := s0.lake }) (plain : m.why = .evict ∨ m.why = .demand) :
    let w := s0.writeRun m.dest bytes
    let t := w.commitMove n m pick
    t.mem.bytes = writeBytes s.mem.bytes (m.dest.sector * 256) bytes ∧ s.MemKeptBut t (m.dest.sector * 256) bytes.length ∧
      t.rt = s.rt ∧ t.dir = s.dir ∧ t.lake.sb = s0.lake.sb ∧
      (∀ spr a, m.image = true → m.dest = .near spr a → (t.sme m.region m.seg) =
        (s.sme m.region m.seg).edit (fun f => { f with lend := true, spr := spr, aux := BitVec.ofNat 32 a, age := s.clk.age })) ∧
      (∀ spr a, m.image = false → m.sealing = false → m.dest = .near spr a → ∃ aux : SmeF → BitVec 32, t.sme m.region m.seg =
        ((s.sme m.region m.seg).at m.dest).edit (fun f => { f with age := s.clk.age, aux := aux f })) := by
  intro w t
  have written := s0.writeRun_written m.dest bytes
  have lake : w.lake = s0.lake := by rw [show w = s0.writeRun m.dest bytes from rfl, written.rest]
  have same : w.dir = s.dir ∧ w.q = s.q ∧ w.rt = s.rt ∧ w.clk = s.clk ∧ w.map = s.map := by
    rw [show w = s0.writeRun m.dest bytes from rfl, written.rest, pond]
    exact ⟨rfl, rfl, rfl, rfl, rfl⟩
  obtain ⟨dir, q, rt, clk, map⟩ := same
  have sme : w.sme m.region m.seg = s.sme m.region m.seg := by rw [State.sme, State.sme, State.newSme, State.newSme, map, rt]
  have mem0 : s0.mem = s.mem := by rw [pond]
  obtain ⟨rest, sb, image, home⟩ := w.commitMove_quiet (n := n) (m := m) pick (by rw [dir]; exact calm.held) (by rw [q]; exact calm.progs) plain
  have mem : t.mem = w.mem := by rw [show t = w.commitMove n m pick from rfl, rest]
  refine ⟨?_, ?_, ?_, ?_, ?_, ?_, ?_⟩
  · rw [mem, written.bytes, mem0]
  · intro x hx
    rw [mem, ← mem0]
    exact s0.writeRun_keeps m.dest bytes x hx
  · rw [show t = w.commitMove n m pick from rfl, rest]
    exact rt
  · rw [show t = w.commitMove n m pick from rfl, rest]
    exact dir
  · exact sb.trans (congrArg LakeS.sb lake)
  · intro spr a h1 h2
    rw [← sme, ← clk]
    exact image spr a h1 h2
  · intro spr a h1 h2 h3
    rw [← sme, ← clk]
    exact home spr a h1 h2 h3

/-- A verified copy of a segment that does not lie in Lake commits at its near destination. -/
theorem moveCopyDone_commits {n : Nat} {pick : W32} {m : Move} {h : Loc} {spr : Bool} {b : Nat} (calm : s.Calm)
    (move : s.map.moves.find n = some m) (image : m.image = false) (fresh : m.verified = false) (sealing : m.sealing = false) (why : m.why = .evict)
    (dest : m.dest = .near spr b) (small : b < 2 ^ 32) (home : (s.sme m.region m.seg).home = some h) (near : h.isLake = false)
    (live : s.dead h = false) (liveDest : s.deadDest m.dest = false) (epoch : s.epochOk h (s.sme m.region m.seg).cs = true)
    (go : s.moveHeld m = false) :
    ∃ t, exec (.moveCopyDone n true (.first .ok) pick) s = .next t ∧ (t.sme m.region m.seg).home = some m.dest ∧
      t.mem.bytes = writeBytes s.mem.bytes (m.dest.sector * 256) (s.readRun h (s.sme m.region m.seg).cs) ∧
      s.MemKeptBut t (m.dest.sector * 256) (256 * (s.sme m.region m.seg).cs) ∧ t.rt = s.rt ∧ t.dir = s.dir := by
  have page : ∀ f x, h ≠ .flash f x := by rintro f x rfl; cases near
  have counted : s.countRead h (.first .ok) = s := by cases h with
    | flash f x => exact absurd rfl (page f x)
    | near | tarn => rfl
  have notLake : m.dest.isLake = false := by rw [dest]; rfl
  have e : exec (.moveCopyDone n true (.first .ok) pick) s =
      .next (((s.wakeSid h (s.sme m.region m.seg).cs .move m.cls).writeRun m.dest (s.readRun h (s.sme m.region m.seg).cs)).commitMove n m pick) := by
    simp only [exec, execMoveCopyDone, move, image, fresh, go, home, epoch, lakeChk, chkFails, live, counted, noteChk, deadDest_wakeSid, liveDest,
      readRun_wakeSid, notLake, rescueSrc, Option.getD_some, Option.all_some, Bool.not_true, Bool.or_self, Bool.false_eq_true, or_self,
      if_false, false_and, Bool.true_eq_false, Option.getD_none]
    rw [afterRead_first_of_rested .ok (fun f x lake => absurd lake (page f x))]
  obtain ⟨bytes, kept, rt, dir, -, -, entry⟩ := s.writeRun_commitMove (n := n) (m := m) pick calm
    (s0 := s.wakeSid h (s.sme m.region m.seg).cs .move m.cls) (bytes := s.readRun h (s.sme m.region m.seg).cs)
    (by rw [wakeSid_rest]) (.inl why)
  obtain ⟨aux, entry⟩ := entry spr b image sealing dest
  refine ⟨_, e, ?_, bytes, ?_, rt, dir⟩
  · rw [entry, Sme.home_edit _ rfl rfl rfl, dest]
    exact Sme.home_at_near _ small
  · rw [Nat.mul_comm 256]
    rwa [readRun_length] at kept

/-- The copy of a page in Lake joins the segment's home as its image. -/
theorem imagePlaced_commits {n : Nat} {pick : W32} {m : Move} {f sec : Nat} {spr : Bool} {b : Nat} (calm : s.Calm)
    (move : s.map.moves.find n = some m) (image : m.image = true) (why : m.why = .demand) (dest : m.dest = .near spr b) (small : b < 2 ^ 32)
    (liveDest : s.deadDest m.dest = false) (home : (s.sme m.region m.seg).home = some (.flash f sec)) (sole : (s.sme m.region m.seg).image = none)
    (go : s.moveHeld m = false) (rested : (s.sb (sbOf f)).reads.getD (f % 32 * 4 + f / 1024 % 4) 0 + 1 < 50000) :
    ∃ t, exec (.imagePlaced n ⟨true, .first .ok⟩ pick) s = .next t ∧ (t.sme m.region m.seg).image = some m.dest ∧
      (t.sme m.region m.seg).home = some (.flash f sec) ∧
      t.mem.bytes = writeBytes s.mem.bytes (m.dest.sector * 256) (s.readRun (.flash f sec) m.len) ∧ t.rt = s.rt ∧ t.dir = s.dir := by
  have e : exec (.imagePlaced n ⟨true, .first .ok⟩ pick) s = .next ((((s.countRead (.flash f sec) (.first .ok)).writeRun m.dest
      (s.readRun (.flash f sec) m.len)).commitMove n m pick).afterRead (.flash f sec) (.first .ok)) := by
    have liveDest' : (s.countRead (.flash f sec) (.first .ok)).deadDest m.dest = false := liveDest
    simp only [exec, execImagePlaced, move, image, go, home, sole, lakeChk, chkFails, noteChk, liveDest', Option.getD_some, Option.getD_none,
      Option.all_some, Bool.true_eq_false, Bool.false_eq_true, or_self, if_false]
    rfl
  obtain ⟨bytes, -, rt, dir, sb, entry, -⟩ := s.writeRun_commitMove (n := n) (m := m) pick calm
    (s0 := s.countRead (.flash f sec) (.first .ok)) (bytes := s.readRun (.flash f sec) m.len) rfl (.inr why)
  have entry := entry spr b image dest
  rw [afterRead_first_of_rested .ok] at e
  · refine ⟨_, e, ?_, ?_, bytes, rt, dir⟩
    · rw [entry, Sme.image, Sme.f_edit, dest]
      simp only [if_true, BitVec.toNat_ofNat, Nat.mod_eq_of_lt small]
    · rw [entry]
      exact Sme.home_edit_flash _ rfl rfl home
  · rintro f' x ⟨⟩
    rw [State.sb, sb]
    exact (countRead_flash_reads (s := s) f sec .ok).trans_lt rested

end State

/-- Settles O6: where nobody waits, a move ends with its run and its entry alone, and the one load that waits for a read is answered from it. -/
theorem movesCommitTheCopiedBytes : Obligations.MovesCommitTheCopiedBytes := by
  unfold Obligations.MovesCommitTheCopiedBytes
  refine ⟨fun s n pick m h spr b calm move image fresh sealing why dest small home near live liveDest epoch go _ =>
      State.moveCopyDone_commits calm move image fresh sealing why dest small home near live liveDest epoch go, ?_,
    fun s n pick m f sec spr b calm move image why dest small liveDest home sole go rested =>
      State.imagePlaced_commits calm move image why dest small liveDest home sole go rested, ?_,
    fun s r seg f sec pick x b sole served here progs home rested held miss load found line =>
      State.lakeReadComplete_answers sole served here progs home rested held miss load found line,
    fun s r seg w sec pick x b sole served here progs home epoch asked held miss load found line =>
      State.tarnReadComplete_answers sole served here progs home epoch asked held miss load found line⟩
  · intro s rel x listed image none
    simp only [exec, execMoveSourceRelease, listed, image, State.released_of_none none]
    rfl
  · intro s rel x listed image none
    simp only [exec, execImageRelease, listed, image, State.released_of_none none]
    rfl

end Sys2Proof.Machine
end

section
/-! ## What leaves the clock alone

The clock turns at a tick and stands still through everything else that a running sled does: each operation that the engines of a tick reach leaves
`State.clk` as it was. The order is that of the model's files. -/

namespace Sys2Proof.Machine

/-- A state that an operation leaves behind without touching the clock. -/
structure State.SameClock (s t : State) : Prop where
  clk : t.clk = s.clk

namespace State

variable {s t u : State}

namespace SameClock

theorem refl (s : State) : s.SameClock s := ⟨rfl⟩

theorem trans (a : s.SameClock t) (b : t.SameClock u) : s.SameClock u := ⟨b.clk.trans a.clk⟩

theorem ite {c : Prop} [Decidable c] (a : s.SameClock t) (b : s.SameClock u) : s.SameClock (if c then t else u) := by
  split
  exacts [a, b]

theorem ite_fst {α : Type} {c : Prop} [Decidable c] {p q : State × α} (a : s.SameClock p.1) (b : s.SameClock q.1) :
    s.SameClock (if c then p else q).1 := by
  split
  exacts [a, b]

theorem of_eq {α : Type} {p : State × α} {a : α} (h : s.SameClock p.1) (e : p = (t, a)) : s.SameClock t := by
  rw [e] at h
  exact h

theorem foldl {α : Type} {f : State → α → State} {l : List α} (hf : ∀ (t : State) a, t.SameClock (f t a)) : s.SameClock (l.foldl f s) := by
  induction l generalizing s with
  | nil => exact .refl s
  | cons a l ih => exact (hf s a).trans ih

theorem foldl_fst {α β : Type} {f : State × β → α → State × β} {l : List α} {p : State × β} (hf : ∀ (q : State × β) a, q.1.SameClock (f q a).1) :
    p.1.SameClock (l.foldl f p).1 := by
  induction l generalizing p with
  | nil => exact .refl _
  | cons a l ih => exact (hf p a).trans ih

end SameClock

/-! ### The operations of `Machine/Ops.lean` -/

theorem send_clock {o : Output} : s.SameClock (s.send o) := ⟨(s.send_told o).clk_eq⟩

theorem setFn_clock {h : HostId} {f : Fn} : s.SameClock (s.setFn h f) := ⟨rfl⟩

theorem signal_clock {h : HostId} {vec : Nat} : s.SameClock (s.signal h vec) := .ite (.ite (.refl _) setFn_clock) send_clock

theorem notice_clock {h : HostId} : s.SameClock (s.notice h) := signal_clock

theorem setEnt_clock {r : RegionId} {e : REnt} : s.SameClock (s.setEnt r e) := ⟨rfl⟩

theorem change_clock {r : RegionId} {f : REnt → REnt} : s.SameClock (s.change r f) := .ite ⟨rfl⟩ setEnt_clock

theorem post_clock {p : Post} : s.SameClock (s.post p) := ⟨(s.post_told p).clk_eq⟩

theorem trace_clock {src rtype data : Nat} : s.SameClock (s.trace src rtype data) := ⟨(s.trace_told src rtype data).clk_eq⟩

theorem serveUpdate_clock : s.SameClock s.serveUpdate := by
  unfold State.serveUpdate
  split
  · exact ⟨(State.setSled_told _ _).clk_eq⟩
  · exact ⟨(State.setSled_told _ _).clk_eq⟩
  · exact .refl _

theorem setQueue_clock {h : HostId} {q : QueueNo} {x : Queue} : s.SameClock (s.setQueue h q x) := ⟨rfl⟩

theorem setProg_clock {p : Nat} {x : Prog} : s.SameClock (s.setProg p x) := ⟨rfl⟩

theorem writeCpl_clock {h : HostId} {qn : QueueNo} {c : Cpl} : s.SameClock (s.writeCpl h qn c) :=
  send_clock.trans (setQueue_clock.trans (.ite signal_clock (.refl _)))

theorem deliver_clock {h : HostId} {qn : QueueNo} {c : Cpl} :
    s.SameClock (s.deliver h qn c) := .ite setQueue_clock writeCpl_clock

theorem setLedger_clock {i : Nat} {e : Entry} : s.SameClock (s.setLedger i e) := ⟨rfl⟩

/-! ### The operations of `Machine/Seg.lean` -/

theorem putSme_clock {r : RegionId} {seg : Nat} {e : Sme} : s.SameClock (s.putSme r seg e) := ⟨rfl⟩

theorem journal_clock {j : JRec} : s.SameClock (s.journal j) := .ite ⟨rfl⟩ (.refl _)

theorem commitSme_clock {r : RegionId} {seg : Nat} {e : Sme} : s.SameClock (s.commitSme r seg e) :=
  putSme_clock.trans (.ite journal_clock (.refl _))

theorem journalEnt_clock {r : RegionId} : s.SameClock (s.journalEnt r) := .ite journal_clock (.refl _)

theorem sendTarn_clock {w sec : Nat} {l : List Byte} {n : Nat} : s.SameClock (s.sendTarn w sec l n) := by
  induction n with
  | zero => exact .refl s
  | succ n ih => exact ih.trans ⟨rfl⟩

theorem setPch_clock {n : Nat} {p : Pch} : s.SameClock (s.setPch n p) := ⟨rfl⟩

theorem setBankQ_clock {n : Nat} {q : BankQ} : s.SameClock (s.setBankQ n q) := ⟨rfl⟩

theorem bankUse_clock {a len : Nat} {port : PPort} {cls : Nat} : s.SameClock (s.bankUse a len port cls) := setBankQ_clock

theorem wakeSid_clock {l : Loc} {len : Nat} {port : PPort} {cls : Nat} : s.SameClock (s.wakeSid l len port cls) := by
  unfold State.wakeSid
  split
  · extract_lets n p
    exact .trans (.ite (.refl _) setPch_clock) bankUse_clock
  · exact .refl _

theorem writeRun_clock {l : Loc} {b : List Byte} : s.SameClock (s.writeRun l b) := by
  unfold State.writeRun
  extract_lets _ s1
  have h_s1 : s.SameClock s1 := ⟨rfl⟩
  split
  exacts [h_s1.trans sendTarn_clock, h_s1.trans wakeSid_clock]

theorem setSb_clock {n : Nat} {b : Sb} : s.SameClock (s.setSb n b) := ⟨rfl⟩

theorem nextStripe_clock {st : Strm} {p : State × Nat} (h : s.nextStripe st = some p) : s.SameClock p.1 := by
  unfold State.nextStripe at h
  extract_lets cur put fresh at h
  have put_clock (t : State) (sb idx : Nat) : t.SameClock (put t sb idx).1 := by
    cases st <;> exact ⟨rfl⟩
  have fresh_clock (t : State) (h : fresh t = some p) : t.SameClock p.1 := by
    obtain ⟨n, -, rfl⟩ := Option.map_eq_some_iff.mp h
    exact setSb_clock.trans (put_clock _ _ _)
  clear_value cur
  split at h
  · split at h
    · obtain rfl := Option.some.inj h
      exact put_clock _ _ _
    · exact setSb_clock.trans (fresh_clock _ h)
  · exact fresh_clock _ h

theorem stripeFull_clock {st : Strm} : s.SameClock (s.stripeFull st) := ⟨rfl⟩

theorem lakePlace_clock {st : Strm} {chip len move : Nat} {p : State × Loc} (h : s.lakePlace st chip len move = some p) :
    s.SameClock p.1 := by
  unfold State.lakePlace at h
  extract_lets into at h
  have into_clock (t : State) (no : Nat) (h : into t no = some p) : t.SameClock p.1 := by
    simp only [into] at h
    split at h
    · cases h
    · obtain ⟨n, -, rfl⟩ := Option.map_eq_some_iff.mp h
      exact ⟨rfl⟩
  split at h
  · cases h
    obtain ⟨q, -, hq⟩ := List.exists_of_findSome?_eq_some ‹_›
    split at hq
    · exact into_clock _ _ hq
    · cases hq
  · split at h
    · cases h
    · obtain ⟨q, hq, h⟩ := Option.bind_eq_some_iff.mp h
      exact stripeFull_clock.trans ((nextStripe_clock hq).trans (into_clock _ _ h))

theorem capCheck_clock : s.SameClock s.capCheck := by
  unfold State.capCheck
  extract_lets u c post _ s1
  have h_s1 : s.SameClock s1 := .ite (.ite ⟨rfl⟩ (.refl _)) (.ite (.trans ⟨by rfl⟩ post_clock) (.refl _))
  exact h_s1.trans (.ite (.ite ⟨rfl⟩ (.refl _)) (.ite (.trans ⟨by rfl⟩ post_clock) (.refl _)))

theorem looked_clock {r : RegionId} {seg : Nat} : s.SameClock (s.looked r seg) := by
  unfold State.looked
  split
  · exact .refl _
  · extract_lets l full
    exact ⟨rfl⟩

theorem touch_clock {s0 : State} {r : RegionId} {seg : Nat} : s0.SameClock (s0.touch r seg) :=
  looked_clock.trans (.trans (.foldl (fun _ _ => wakeSid_clock)) (.ite (.refl _) putSme_clock))

theorem touchStore_clock {s0 : State} {r : RegionId} {seg : Nat} : s0.SameClock (s0.touchStore r seg) := by
  unfold State.touchStore
  extract_lets s e
  have h_s : s0.SameClock s := looked_clock
  cases e.home with
  | none => exact h_s.trans putSme_clock
  | some l => exact h_s.trans (wakeSid_clock.trans putSme_clock)

theorem release_clock {l : Loc} {len : Nat} {image : Bool} :
    s.SameClock (s.release l len image) := .ite (.refl _) ⟨rfl⟩

theorem releaseHome_clock {e : Sme} : s.SameClock (s.releaseHome e) := by
  unfold State.releaseHome
  split
  exacts [.refl _, release_clock, .refl _]

theorem dropImage_clock {r : RegionId} {seg : Nat} : s.SameClock (s.dropImage r seg) := by
  unfold State.dropImage
  extract_lets e
  split
  exacts [.refl _, commitSme_clock.trans release_clock]

theorem startMove_clock {m : Move} :
    s.SameClock (s.startMove m).1 := .trans ⟨by rfl⟩ (.ite (.refl _) commitSme_clock)

theorem sealBack_clock {m : Move} : s.SameClock (s.sealBack m) := by
  unfold State.sealBack
  split
  exacts [.ite ⟨rfl⟩ (.refl _), .refl _]

theorem abortMove_clock {s0 : State} {n : Nat} : s0.SameClock (s0.abortMove n) := by
  unfold State.abortMove
  split
  · exact .refl _
  · extract_lets s e _ _ s1
    have h_s : s0.SameClock s := sealBack_clock
    have h_s1 : s0.SameClock s1 := h_s.trans ⟨rfl⟩
    exact h_s1.trans (.ite commitSme_clock (.refl _))

theorem cancelMove_clock {r : RegionId} {seg : Nat} : s.SameClock (s.cancelMove r seg) := by
  unfold State.cancelMove
  split
  exacts [abortMove_clock, .refl _]

theorem count_clock {r : RegionId} {f : RCnt → RCnt} : s.SameClock (s.count r f) := ⟨rfl⟩

theorem endTrial_clock {r : RegionId} {seg : Nat} : s.SameClock (s.endTrial r seg) := ⟨rfl⟩

theorem poisonSeg_clock {r : RegionId} {seg cause : Nat} : s.SameClock (s.poisonSeg r seg cause) := by
  unfold State.poisonSeg
  extract_lets s1 e s2 s3
  have h_s1 : s.SameClock s1 := cancelMove_clock
  have h_s2 : s.SameClock s2 := h_s1.trans commitSme_clock
  have h_s3 : s.SameClock s3 := by
    unfold s3
    split
    exacts [h_s2.trans release_clock, h_s2]
  exact h_s3.trans (endTrial_clock.trans count_clock)

theorem servedMalformed_clock {r : RegionId} {seg : Nat} : s.SameClock (s.servedMalformed r seg) := by
  unfold State.servedMalformed
  extract_lets e s1 runs
  have h_s1 : s.SameClock s1 := cancelMove_clock.trans commitSme_clock
  clear_value s1
  exact h_s1.trans (.trans ⟨by rfl⟩ (count_clock.trans post_clock))

theorem countRecov_clock {l : Loc} {r : RegionId} {seg : Nat} : s.SameClock (s.countRecov l r seg) := ⟨rfl⟩

theorem checkSme_clock {r : RegionId} {seg : Nat} : s.SameClock (s.checkSme r seg) := by
  unfold State.checkSme
  extract_lets e
  refine .ite servedMalformed_clock ?_
  split
  exacts [.ite dropImage_clock (.refl _), .ite (poisonSeg_clock.trans countRecov_clock) (.refl _), .refl _]

theorem corrected_clock {l : Loc} {symbols : Nat} : s.SameClock (s.corrected l symbols) := by
  unfold State.corrected
  split
  · extract_lets n p sec
    exact setPch_clock
  · extract_lets c
    exact ⟨rfl⟩
  · exact .refl _

theorem uncorrectable_clock {l : Loc} : s.SameClock (s.uncorrectable l) := by
  unfold State.uncorrectable
  split
  · extract_lets n p
    exact setPch_clock
  · extract_lets c
    exact ⟨rfl⟩
  · exact .refl _

theorem homeFault_clock {r : RegionId} {seg : Nat} {l : Loc} {tag form : Bool} : s.SameClock (s.homeFault r seg l tag form) := by
  unfold State.homeFault
  extract_lets e s1 s2 s3
  have h_s1 : s.SameClock s1 := .ite (.refl _) uncorrectable_clock
  have h_s2 : s.SameClock s2 := h_s1.trans poisonSeg_clock
  have h_s3 : s.SameClock s3 := h_s2.trans (.ite (count_clock.trans post_clock) (.refl _))
  exact h_s3.trans (.ite (count_clock.trans post_clock) post_clock)

theorem imageFault_clock {r : RegionId} {seg : Nat} {l : Loc} {tag form : Bool} :
    s.SameClock (s.imageFault r seg l tag form) := by
  unfold State.imageFault
  extract_lets e s1 s2 s3
  have h_s1 : s.SameClock s1 := .ite (.refl _) uncorrectable_clock
  have h_s2 : s.SameClock s2 := h_s1.trans (.ite (count_clock.trans post_clock) (.refl _))
  have h_s3 : s.SameClock s3 := h_s2.trans (.ite (count_clock.trans post_clock) (.refl _))
  exact h_s3.trans dropImage_clock

theorem commitOpen_clock {r : RegionId} {seg : Nat} {a : Nat} {bytes : List Byte} : s.SameClock (s.commitOpen r seg a bytes) :=
  writeRun_clock.trans (commitSme_clock.trans releaseHome_clock)

/-! ### The operations of `Machine/Engine.lean` -/

theorem submit_clock {r : RegionId} {seg n : Nat} : s.SameClock (s.submit r seg n) := ⟨rfl⟩

/-! ### The operations of `Machine/Dir.lean` -/

theorem dirDel_clock {r : RegionId} {line : BitVec 40} : s.SameClock (s.dirDel r line) := ⟨rfl⟩

theorem dirPut_clock {e : DEnt} : s.SameClock (s.dirPut e) := ⟨rfl⟩

theorem snoop_clock {e : DEnt} {kind : SnpKind} {hosts : List HostId} : s.SameClock (s.snoop e kind hosts) :=
  dirPut_clock.trans (.foldl (fun _ _ => ⟨rfl⟩))

theorem endLoss_clock {r : RegionId} {line : BitVec 40} : s.SameClock (s.endLoss r line) := ⟨rfl⟩

theorem freeSlots_clock {r : RegionId} : s.SameClock (s.freeSlots r) := ⟨rfl⟩

theorem recount_clock {r : RegionId} : s.SameClock (s.recount r) := change_clock.trans (freeSlots_clock.trans journalEnt_clock)

theorem dropGrant_clock {g : Nat} : s.SameClock (s.dropGrant g) := by
  unfold State.dropGrant
  split
  exacts [.refl _, .trans ⟨by rfl⟩ recount_clock]

/-! ### The operations of `Machine/QOps.lean` -/

theorem kickGroup_clock {tile : Nat} : s.SameClock (s.kickGroup tile) := ⟨rfl⟩

theorem leave_clock {p : Nat} : s.SameClock (s.leave p) := ⟨rfl⟩

theorem endProg_clock {p : Nat} {status : Byte} {detail : W16} {info : W64} : s.SameClock (s.endProg p status detail info) := by
  unfold State.endProg
  split
  · exact .refl _
  · extract_lets s1 s2 s3
    have h_s1 : s.SameClock s1 := leave_clock
    have h_s2 : s.SameClock s2 := h_s1.trans (.ite kickGroup_clock (.refl _))
    have h_s3 : s.SameClock s3 := h_s2.trans setQueue_clock
    exact .ite h_s2 (h_s3.trans deliver_clock)

theorem failProg_clock {p : Nat} {e : Err1} : s.SameClock (s.failProg p e) := endProg_clock

theorem goOn_clock {p : Nat} {f : Prog → Prog} : s.SameClock (s.goOn p f) := by
  unfold State.goOn
  split
  · exact .refl _
  · extract_lets y z
    split
    exacts [setProg_clock.trans endProg_clock, setProg_clock]

theorem ctlOk_clock {p d : Nat} {v : W64} : s.SameClock (s.ctlOk p d v) := goOn_clock

theorem ctlWait_clock {p : Nat} : s.SameClock (s.ctlWait p) := ⟨rfl⟩

/-! ### The operations of `Machine/Access.lean` -/

theorem startMiss_clock {r : RegionId} {seg : Nat} {p : Option Nat} : s.SameClock (s.startMiss r seg p) := by
  unfold State.startMiss
  extract_lets k _ s1
  have h_s1 : s.SameClock s1 := ⟨rfl⟩
  split
  exacts [h_s1.trans (.ite (.refl _) ⟨rfl⟩), h_s1]

theorem noteChk_clock {l : Loc} {c : Chk} : s.SameClock (s.noteChk l c) := by
  unfold State.noteChk
  split
  exacts [corrected_clock, .refl _]

theorem mend_clock {r : RegionId} {seg : Nat} {l : Loc} {c : Chk} {pick : W32} : s.SameClock (s.mend r seg l c pick) := by
  unfold State.mend
  extract_lets many e
  clear_value many
  split
  · refine .ite dropImage_clock (.ite ?_ (.refl _))
    split
    exacts [startMove_clock, .refl _]
  · exact .refl _

theorem readLine_clock {s0 : State} {r : RegionId} {seg j : Nat} {c : Chk} : s0.SameClock (s0.readLine r seg j c).1 := by
  unfold State.readLine
  extract_lets s e
  have h_s : s0.SameClock s := checkSme_clock
  refine .ite_fst h_s (.ite_fst (h_s.trans touch_clock) ?_)
  split
  · refine .ite_fst (h_s.trans imageFault_clock) ?_
    split
    exacts [h_s.trans (noteChk_clock.trans (touch_clock.trans mend_clock)), h_s.trans imageFault_clock]
  · extract_lets h
    refine .ite_fst h_s (.ite_fst (h_s.trans (homeFault_clock.trans touch_clock)) ?_)
    split
    exacts [h_s.trans (noteChk_clock.trans (touch_clock.trans mend_clock)), h_s.trans (homeFault_clock.trans touch_clock)]
  · exact h_s
  · exact h_s.trans touch_clock

theorem overAdmit_clock : s.SameClock s.overAdmit := ⟨rfl⟩

theorem placePond_clock {r : RegionId} {seg : Nat} {cls : Nat} {why : MoveFor} {pick : W32} :
    s.SameClock (s.placePond r seg cls why pick) := by
  unfold State.placePond
  extract_lets e lend far
  refine .ite (.refl _) ?_
  split
  exacts [.refl _, startMove_clock]

theorem lakeDest_clock {r : RegionId} {seg len : Nat} {p : State × Loc} (h : s.lakeDest r seg len = some p) :
    s.SameClock p.1 := by
  unfold State.lakeDest at h
  split at h
  · exact lakePlace_clock h
  · cases h

theorem demote_clock {r : RegionId} {seg cls : Nat} {why : MoveFor} : s.SameClock (s.demote r seg cls why) := by
  unfold State.demote
  extract_lets e x toTarn gut
  refine .ite (.refl _) ?_
  split
  · exact startMove_clock
  · refine .ite (.refl _) ?_
    split
    exacts [(lakeDest_clock (by assumption)).trans startMove_clock, .refl _]

theorem freeStack_clock {k cls : Nat} {enough : State → Bool} : s.SameClock (s.freeStack k cls enough) :=
  .trans (.foldl (fun _ _ => .ite (.refl _) dropImage_clock)) (.foldl (fun _ _ => .ite (.refl _) demote_clock))

theorem springOut_clock {s t : State} {c key cls : Nat} (h : s.springOut c key cls = some t) : s.SameClock t := by
  obtain ⟨a, -, rfl⟩ := Option.map_eq_some_iff.mp h
  exact startMove_clock

theorem roomSpring_clock {c len fuel : Nat} : s.SameClock (s.roomSpring c len fuel).1 := by
  induction fuel generalizing s with
  | zero => exact .refl s
  | succ fuel ih =>
    unfold State.roomSpring
    refine .ite_fst (.refl _) ?_
    split
    · exact .refl _
    · refine .ite_fst (.refl _) ?_
      extract_lets inCore
      split
      · exact dropImage_clock.trans ih
      · split
        · obtain ⟨p, -, h⟩ := Option.bind_eq_some_iff.mp ‹_›
          exact (springOut_clock h).trans ih
        · exact .refl _

theorem capacityFatal_clock {r : RegionId} {seg : Nat} : s.SameClock (s.capacityFatal r seg) := poisonSeg_clock.trans post_clock

theorem storeFresh_clock {r : RegionId} {seg : Nat} {b : List Byte} {pick : W32} {last : Bool} :
    s.SameClock (s.storeFresh r seg b pick last).1 := by
  unfold State.storeFresh
  extract_lets u k s1
  have h_s1 : s.SameClock s1 := freeStack_clock
  split
  exacts [commitOpen_clock, .ite_fst capacityFatal_clock (h_s1.trans (.ite_fst (.refl _) capacityFatal_clock))]

theorem storeSeg_clock {s0 : State} {r : RegionId} {seg off : Nat} {p : List (Option Byte)} {c : Chk} {pick : W32} {past last : Bool} :
    s0.SameClock (s0.storeSeg r seg off p c pick past last).1 := by
  unfold State.storeSeg
  extract_lets s s1 s2 e adm b
  have h_s : s0.SameClock s := checkSme_clock
  have h_s2 : s0.SameClock s2 := h_s.trans (cancelMove_clock.trans endTrial_clock)
  refine .ite_fst (h_s.trans startMiss_clock) (.ite_fst (h_s.trans touch_clock) (.ite_fst h_s ?_))
  clear_value adm
  split
  · extract_lets h s3 old _ s4
    have h_s4 : s0.SameClock s4 := h_s2.trans (noteChk_clock.trans ⟨rfl⟩)
    refine .ite_fst (h_s2.trans (homeFault_clock.trans touch_clock)) (.ite_fst (h_s4.trans (touchStore_clock.trans mend_clock)) ?_)
    split
    · exact h_s2.trans (homeFault_clock (tag := false) (form := true))
    · split
      exacts [h_s2.trans capacityFatal_clock, h_s2, h_s2.trans (noteChk_clock.trans (overAdmit_clock.trans storeFresh_clock)),
        h_s2.trans (noteChk_clock.trans storeFresh_clock)]
  · split
    exacts [h_s2.trans capacityFatal_clock, h_s2, h_s2.trans (.ite_fst capacityFatal_clock startMiss_clock)]
  · split
    exacts [h_s2.trans capacityFatal_clock, h_s2, h_s2.trans (overAdmit_clock.trans storeFresh_clock), h_s2.trans storeFresh_clock]

theorem poisonWrite_clock {r : RegionId} {line : Nat} {h : HostId} : s.SameClock (s.poisonWrite r line h) :=
  count_clock.trans (.ite (.refl _) (.trans ⟨by rfl⟩ post_clock))

theorem poisonRead_clock {r : RegionId} : s.SameClock (s.poisonRead r) := count_clock

/-! ### The operations of `Machine/HostReq.lean` -/

theorem answerPoison_clock {x : HReq} : s.SameClock (s.answerPoison x) := by
  unfold State.answerPoison
  split
  exacts [send_clock, send_clock, .refl _, send_clock]

theorem unmapped_clock {x : HReq} : s.SameClock (s.unmapped x) :=
  answerPoison_clock.trans (.ite (.refl _) (.trans ⟨by rfl⟩ post_clock))

theorem roWrite_clock {x : HReq} {g : Nat} {r : RegionId} {line : Nat} : s.SameClock (s.roWrite x g r line) :=
  answerPoison_clock.trans (.ite (.refl _) (.trans ⟨by rfl⟩ post_clock))

theorem askWake_clock {t : Nat} : s.SameClock (s.askWake t) := setLedger_clock

theorem bankWait_clock {a no : Nat} {rt : Bool} : s.SameClock (s.bankWait a no rt) := .ite (.refl _) setBankQ_clock

theorem wakeFor_clock {r : RegionId} {l : List (Nat × Nat)} : s.SameClock (s.wakeFor r l) :=
  .ite (.refl _) (.foldl (fun t seg => by
    cases t.asleep r seg with
    | none => exact .refl _
    | some k => exact askWake_clock))

theorem dirStep_clock {r : RegionId} {line : BitVec 40} {h : HostId} {want : DirWant} :
    s.SameClock (s.dirStep r line h want).1 := by
  unfold State.dirStep
  split
  · split
    · exact .refl _
    · exact .refl _
    · split
      exacts [.ite_fst (.refl _) (snoop_clock.trans ⟨rfl⟩), dirPut_clock]
    · split
      exacts [.ite_fst (.refl _) (snoop_clock.trans ⟨rfl⟩), dirPut_clock]
  · refine .ite_fst (.refl _) ?_
    extract_lets e mine others
    split
    · exact dirPut_clock
    · exact .ite_fst (.refl _) snoop_clock
    · exact .ite_fst (.refl _) (.ite_fst dirPut_clock snoop_clock)
    · exact .ite_fst (.refl _) snoop_clock
    · exact .refl _
    · exact .ite_fst (.refl _) (.ite_fst dirDel_clock snoop_clock)

theorem dirFor_clock {x : HReq} {r : RegionId} {line : Nat} :
    s.SameClock (s.dirFor x r line).1 := .ite_fst (.refl _) dirStep_clock

theorem serveRead_clock {x : HReq} {r : RegionId} {line : Nat} {c : Chk} : s.SameClock (s.serveRead x r line c).1 := by
  unfold State.serveRead
  refine .ite_fst (poisonRead_clock.trans answerPoison_clock) ?_
  split
  · exact (dirFor_clock.of_eq (by assumption))
  · refine .ite_fst ((dirFor_clock.of_eq (by assumption)).trans send_clock) ?_
    split
    · exact (dirFor_clock.of_eq (by assumption)).trans askWake_clock
    · split
      · exact (dirFor_clock.of_eq (by assumption)).trans bankWait_clock
      · split
        · exact (((dirFor_clock.of_eq (by assumption)).trans readLine_clock).of_eq (by assumption)).trans send_clock
        · exact (((dirFor_clock.of_eq (by assumption)).trans readLine_clock).of_eq (by assumption)).trans (poisonRead_clock.trans answerPoison_clock)
        · exact (((dirFor_clock.of_eq (by assumption)).trans readLine_clock).of_eq (by assumption)).trans startMiss_clock

theorem storeInto_clock {x : HReq} {r : RegionId} {line : Nat} {c : Chk} {pick : W32} {past last : Bool} :
    s.SameClock (s.storeInto x r line c pick past last).1 := by
  unfold State.storeInto
  extract_lets seg before
  split
  · exact askWake_clock
  · split
    · exact bankWait_clock
    · split
      · exact (storeSeg_clock.of_eq (by assumption))
      · exact (storeSeg_clock.of_eq (by assumption))
      · exact (storeSeg_clock.of_eq (by assumption)).trans (.ite poisonWrite_clock (.refl _))

theorem serveWrite_clock {x : HReq} {g : Nat} {gr : Grant} {line : Nat} {c : Chk} {pick : W32} {past last : Bool} :
    s.SameClock (s.serveWrite x g gr line c pick past last).1 := by
  unfold State.serveWrite
  extract_lets r l
  refine .ite_fst roWrite_clock (.ite_fst answerPoison_clock ?_)
  split
  · exact (dirFor_clock.of_eq (by assumption))
  · split
    · exact (((dirFor_clock.of_eq (by assumption)).trans storeInto_clock).of_eq (by assumption))
    · extract_lets s3 s4
      have h_s3 : s.SameClock s3 := (((dirFor_clock.of_eq (by assumption)).trans storeInto_clock).of_eq (by assumption)).trans
        (.ite endLoss_clock (.refl _))
      have h_s4 : s.SameClock s4 := h_s3.trans (.ite (.ite dirPut_clock dirDel_clock) (.refl _))
      exact h_s4.trans answerPoison_clock

theorem serveReq_clock {x : HReq} {c : Chk} {pick : W32} {past last : Bool} : s.SameClock (s.serveReq x c pick past last).1 := by
  unfold State.serveReq
  refine .ite_fst storeInto_clock ?_
  split
  exacts [unmapped_clock, .ite_fst (.refl _) (.ite_fst answerPoison_clock (.ite_fst serveRead_clock serveWrite_clock))]

theorem runHeld_clock {no : Nat} {c : Chk} {pick : W32} {past last : Bool} : s.SameClock (s.runHeld no c pick past last) := by
  unfold State.runHeld
  split
  · exact .refl _
  · extract_lets x
    split
    all_goals
      rename_i served
      exact (serveReq_clock.of_eq served).trans ⟨rfl⟩

theorem rerun_clock {test : HReq → Bool} {c : Chk} {pick : W32} : s.SameClock (s.rerun test c pick) :=
  .foldl_fst (p := (s, c, pick)) (fun _ _ => runHeld_clock)

/-! ### The operations of `Machine/Lamp.lean` -/

theorem updSched_clock {k : Nat} {f : Sched → Sched} : s.SameClock (s.updSched k f) := ⟨rfl⟩

theorem lampStore_clock {k : Nat} {r : RegionId} {off : Nat} {b : List Byte} : s.SameClock (s.lampStore k r off b).1 := by
  unfold State.lampStore
  extract_lets line seg at0 x dead d
  have h_d : s.SameClock d.1 := .ite_fst dirStep_clock (.refl _)
  refine .ite_fst (.refl _) ?_
  clear_value d
  split
  · exact h_d.trans ⟨rfl⟩
  · split
    · exact h_d.trans ((storeInto_clock.of_eq (by assumption)).trans (.ite dirDel_clock (.refl _)))
    · rename_i stored
      exact h_d.trans ((storeInto_clock.of_eq stored).trans ⟨rfl⟩)

theorem writeBlock_clock {k : Nat} : s.SameClock (s.writeBlock k) := by
  unfold State.writeBlock
  split
  exacts [.refl _, lampStore_clock]

theorem idleWords_clock {k : Nat} : s.SameClock (s.idleWords k) := by
  unfold State.idleWords
  split
  exacts [.refl _, .foldl (fun _ _ => lampStore_clock)]

theorem disarm_clock {k : Nat} : s.SameClock (s.disarm k) := by
  unfold State.disarm
  split
  exacts [.refl _, .ite (.refl _) (updSched_clock.trans (idleWords_clock.trans writeBlock_clock))]

theorem disarmFor_clock {k cause : Nat} : s.SameClock (s.disarmFor k cause) := by
  unfold State.disarmFor
  split
  exacts [.refl _, .ite (.refl _) (disarm_clock.trans post_clock)]

theorem writeLamp_clock {k : Nat} {x : Sched} {step : Nat} {st : Lamp} {late : Bool} {d : Nat} :
    s.SameClock (s.writeLamp k x step st late d) := by
  unfold State.writeLamp
  split
  · exact .refl _
  · extract_lets r
    have h_r : s.SameClock r.1 := lampStore_clock
    exact h_r.trans (.ite disarmFor_clock (.refl _))

theorem countFb_clock {k : Nat} {l : Lamp} : s.SameClock (s.countFb k l) := by
  unfold State.countFb
  extract_lets s1
  have h_s1 : s.SameClock s1 := updSched_clock
  split
  exacts [h_s1.trans ⟨rfl⟩, h_s1]

theorem updInst_clock {k step d : Nat} {f : Inst → Inst} : s.SameClock (s.updInst k step d f) := updSched_clock

theorem settleFb_clock {k step d : Nat} {l : Lamp} : s.SameClock (s.settleFb k step d l) := by
  unfold State.settleFb
  split
  · exact .refl _
  · extract_lets s1 s2
    have h_s1 : s.SameClock s1 := updInst_clock.trans countFb_clock
    have h_s2 : s.SameClock s2 := h_s1.trans (.ite (.refl _) writeLamp_clock)
    exact h_s2.trans writeBlock_clock

theorem voidSteps_clock {k : Nat} {bad : LStep → Bool} : s.SameClock (s.voidSteps k bad) := by
  unfold State.voidSteps
  split
  · exact .refl _
  · extract_lets idx s1
    have h_s1 : s.SameClock s1 := updSched_clock
    exact h_s1.trans (.foldl (fun _ _ => updInst_clock.trans (.ite (.refl _) (updSched_clock.trans settleFb_clock))))

theorem lampRegionGone_clock {r : RegionId} : s.SameClock (s.lampRegionGone r) :=
  .foldl (fun _ _ => .trans (.ite disarmFor_clock (.refl _)) voidSteps_clock)

theorem prefetchGone_clock {h : HostId} : s.SameClock (s.prefetchGone h) := .foldl (fun _ _ => .ite abortMove_clock (.refl _))

theorem lampGrantsGone_clock {h : HostId} : s.SameClock (s.lampGrantsGone h) :=
  .trans (.foldl (fun _ _ => .ite voidSteps_clock disarmFor_clock)) prefetchGone_clock

theorem placeSpring_clock {r : RegionId} {seg core cls : Nat} {why : MoveFor} {pick : W32} :
    s.SameClock (s.placeSpring r seg core cls why pick) := by
  unfold State.placeSpring
  extract_lets e lend c near
  refine .ite (.refl _) (.ite placePond_clock ?_)
  refine .ite (.refl _) (.ite (.refl _) ?_)
  refine .ite placePond_clock ?_
  split
  · exact (roomSpring_clock.of_eq (by assumption)).trans startMove_clock
  · exact (roomSpring_clock.of_eq (by assumption))
  · exact (roomSpring_clock.of_eq (by assumption)).trans placePond_clock

theorem placeInst_clock {k : Nat} {x : Sched} {i : Inst} {t : LStep} {pick : W32} : s.SameClock (s.placeInst k x i t pick) :=
  .foldl (fun _ _ => .ite (.refl _) (.ite placeSpring_clock placePond_clock))

theorem lampPlace_clock {pick : W32} : s.SameClock (s.lampPlace pick) :=
  .ite (.refl _) (.foldl (fun _ _ => .ite (.foldl (fun _ _ => by
    split
    exacts [.ite placeInst_clock (.refl _), .refl _])) (.refl _)))

/-! ### The operations of `Machine/Reset.lean` -/

theorem withdraw_clock {o : Nat} {status : Byte} {detail : W16} : s.SameClock (s.withdraw o status detail) := by
  unfold State.withdraw
  split
  exacts [.refl _, .trans ⟨by rfl⟩ failProg_clock]

theorem endRevoke_clock {g : Nat} : s.SameClock (s.endRevoke g) := by
  unfold State.endRevoke
  split
  exacts [.refl _, .trans ⟨by rfl⟩ (.foldl (fun _ _ => ctlOk_clock))]

theorem fixOffers_clock : s.SameClock s.fixOffers :=
  .trans (.foldl (fun _ _ => by
    split
    · split
      exacts [withdraw_clock, .refl _]
    · exact ⟨rfl⟩)) (.foldl (fun _ _ => endRevoke_clock))

/-! ### The operations of `Machine/Power.lean` -/

theorem wbRun_clock : s.SameClock s.wbRun := .foldl (fun _ _ => .ite demote_clock (.refl _))

theorem writeback_clock : s.SameClock s.writeback := .trans ⟨by rfl⟩ (.ite (.refl _) wbRun_clock)

theorem reclaimStack_clock {k : Nat} : s.SameClock (s.reclaimStack k) := .ite freeStack_clock (.refl _)

theorem reclaim_clock : s.SameClock s.reclaim :=
  .foldl (fun _ _ => .ite (.ite ⟨rfl⟩ reclaimStack_clock) (.ite (post_clock.trans (.trans ⟨by rfl⟩ reclaimStack_clock))
    (.refl _)))

theorem writeGrant_clock {i : Nat} {ceil : Nat} {perm : BitVec 2} : s.SameClock (s.writeGrant i ceil perm) :=
  trace_clock.trans setLedger_clock

theorem answerEntry_clock {i share : Nat} :
    s.SameClock (s.answerEntry i share) := .ite (.refl _) (writeGrant_clock.trans setLedger_clock)

theorem answerKind_clock {l : List Nat} : s.SameClock (s.answerKind l) := .foldl (fun _ _ => answerEntry_clock)

theorem answerAll_clock : s.SameClock s.answerAll := .foldl (fun _ _ => answerKind_clock)

theorem makeRoom_clock {extra : Nat} : s.SameClock (s.makeRoom extra) :=
  .ite (.refl _) (.trans ⟨by rfl⟩ (.ite (.refl _) (.foldl (fun _ _ => .ite (.refl _) writeGrant_clock))))

theorem raiseRt_clock {k : Nat} : s.SameClock (s.raiseRt k) := .ite (setLedger_clock.trans writeGrant_clock) makeRoom_clock

theorem rtFlags_clock : s.SameClock s.rtFlags :=
  .ite (.refl _) (.foldl (fun _ _ => .ite (.refl _) (.ite raiseRt_clock (setLedger_clock.trans writeGrant_clock))))

theorem settleAcks_clock : s.SameClock s.settleAcks := .ite (.refl _) ⟨rfl⟩

/-! ### The operations of `Machine/Fence.lean` -/

theorem metaWrite_clock {chip : Nat} {b : List Byte} {p : State × Nat} (h : s.metaWrite chip b = some p) : s.SameClock p.1 := by
  unfold State.metaWrite at h
  split at h
  · obtain rfl := Option.some.inj h
    rename_i t f x h_t
    have h_u : t.SameClock { t with map := { t.map with moveNo := t.map.moveNo + 1 } } := ⟨rfl⟩
    dsimp only
    exact .trans (lakePlace_clock h_t) (h_u.trans writeRun_clock)
  · cases h

theorem storePage?_clock {s t : State} {page : Nat} (h : s.storePage? page = some t) : s.SameClock t := by
  unfold State.storePage? at h
  extract_lets put at h
  have put_clock (u : State) (w : Nat) : u.SameClock (put u w) := ⟨rfl⟩
  split at h
  · cases h
    exact put_clock _ _
  · obtain ⟨p, hp, rfl⟩ := Option.map_eq_some_iff.mp h
    exact (metaWrite_clock hp).trans (put_clock _ _)

/-! ### The operations of `Machine/LakeOps.lean` -/

theorem evictPage_clock {page : Nat} : s.SameClock (s.evictPage page) := by
  unfold State.evictPage
  extract_lets here s1 s2
  have h_s1 : s.SameClock s1 := .foldl (fun _ _ => dropImage_clock)
  have h_s2 : s.SameClock s2 := h_s1.trans (.foldl (fun _ _ => demote_clock))
  refine .ite h_s2 ?_
  split
  · rename_i stored
    exact (h_s2.trans (storePage?_clock stored)).trans ⟨rfl⟩
  · exact h_s2

theorem trimMap_clock : s.SameClock s.trimMap :=
  .ite (.refl _) (.foldl (fun t k => by
    extract_lets l
    refine .ite (.refl _) ?_
    cases t.pageVictim l with
    | none => exact .refl _
    | some p => exact evictPage_clock))

theorem gcFlags_clock : s.SameClock s.gcFlags := .ite (.refl _) ⟨rfl⟩

/-! ### The operations of `Machine/Tallow.lean` -/

theorem okOn_clock {p : Nat} {f : Prog → Prog} : s.SameClock (s.okOn p f) := goOn_clock

/-! ### The operations of `Machine/Ctl.lean` -/

theorem stallEntry_clock {r : RegionId} {p g : Option Nat} : s.SameClock (s.stallEntry r p g) := ⟨rfl⟩

theorem narrowDone_clock {p : Nat} {r : RegionId} :
    s.SameClock (s.narrowDone p r) := .ite ctlOk_clock (.trans ⟨by rfl⟩ ctlWait_clock)

theorem recallRegion_clock {r : RegionId} : s.SameClock (s.recallRegion r) := .foldl (fun _ _ => .ite dirDel_clock snoop_clock)

theorem sealSpent_clock {n cs : Nat} : s.SameClock (s.sealSpent n cs) := ⟨rfl⟩

theorem opStart_clock {n : Nat} {o : COp} {r : RegionId} {seg : Nat} : s.SameClock (s.opStart n o r seg).1 := by
  unfold State.opStart
  extract_lets e why lend far barred go c
  have go_clock {t : State} {l : Loc} {image : Bool} : t.SameClock (go t l image).1 := startMove_clock
  clear_value go
  split
  · refine .ite_fst ?_ ?_
    · split
      exacts [go_clock, .refl _]
    · split
      · rename_i h
        split at h
        · cases h
        · exact (lakePlace_clock h).trans (startMove_clock.trans sealSpent_clock)
      · exact .refl _
  · refine .ite_fst (.refl _) ?_
    split
    exacts [go_clock, .refl _]
  · split
    · exact go_clock
    · split
      · exact (lakeDest_clock (by assumption)).trans go_clock
      · refine .ite_fst (.refl _) ?_
        split
        exacts [go_clock, .refl _]
  · split
    · refine .ite_fst (.refl _) (.ite_fst (.refl _) ?_)
      split
      exacts [(roomSpring_clock.of_eq (by assumption)).trans go_clock, roomSpring_clock.of_eq (by assumption),
        roomSpring_clock.of_eq (by assumption)]
    · refine .ite_fst (.refl _) ?_
      split
      exacts [go_clock, .refl _]
    · refine .ite_fst (.refl _) ?_
      split
      exacts [(lakeDest_clock (by assumption)).trans go_clock, .ite_fst (.refl _) (.refl _)]
    · refine .ite_fst (.refl _) ?_
      split
      exacts [go_clock, .refl _]
  · exact .refl _

theorem opFail_clock {n seg : Nat} {status : Byte} {detail : W16} : s.SameClock (s.opFail n seg status detail) := ⟨rfl⟩

theorem opStarts_clock {n : Nat} {o : COp} : s.SameClock (s.opStarts n o) :=
  .foldl (fun t0 p => by
    extract_lets t
    have h_t : t0.SameClock t := checkSme_clock
    refine .ite h_t (.ite h_t ?_)
    split
    exacts [h_t.trans (opStart_clock.of_eq (by assumption)), h_t.trans ((opStart_clock.of_eq (by assumption)).trans opFail_clock)])

theorem setOwed_clock {n : Nat} {l : List (Nat × Bool)} : s.SameClock (s.setOwed n l) := ⟨rfl⟩

theorem sealTrials_clock {n : Nat} {o : COp} : s.SameClock (s.sealTrials n o) := by
  unfold State.sealTrials
  extract_lets r step p
  have h_p : s.SameClock p.1 := .foldl_fst (p := (s, [])) (fun _ _ => by
    unfold step
    extract_lets t e tile
    refine .ite_fst (.refl _) (.ite_fst (.refl _) ?_)
    split
    exacts [.refl _, setLedger_clock, submit_clock])
  exact h_p.trans setOwed_clock

theorem sealChange_clock {n : Nat} {o : COp} : s.SameClock (s.sealChange n o) :=
  change_clock.trans (.trans ⟨by rfl⟩ (journalEnt_clock.trans (fixOffers_clock.trans
    (.trans (.foldl (fun _ _ => lampGrantsGone_clock)) ⟨rfl⟩))))

theorem endWindow_clock {w : Nat} : s.SameClock (s.endWindow w) := ⟨rfl⟩

theorem opEnd_clock {n : Nat} {o : COp} : s.SameClock (s.opEnd n o) := by
  unfold State.opEnd
  extract_lets _ _ s1 ps _ s2
  have h_s1 : s.SameClock s1 := ⟨rfl⟩
  have h_s2 : s.SameClock s2 := h_s1.trans (.ite ⟨rfl⟩ (.refl _))
  split
  · exact h_s2.trans (.foldl (fun _ _ => failProg_clock))
  · split
    · exact h_s1.trans narrowDone_clock
    · exact h_s1.trans (endWindow_clock.trans (.foldl (fun _ _ => ctlOk_clock)))
    · exact h_s1.trans ctlOk_clock
    · exact h_s1.trans ctlOk_clock
    · exact h_s1.trans ctlOk_clock
    · exact h_s1.trans ctlOk_clock

theorem sealBegin_clock {n : Nat} {o : COp} : s.SameClock (s.sealBegin n o) := by
  unfold State.sealBegin
  extract_lets r s1 s2 need _ stop
  have h_s1 : s.SameClock s1 := recallRegion_clock
  have h_s2 : s.SameClock s2 := h_s1.trans sealTrials_clock
  exact .ite (h_s1.trans setOwed_clock) (h_s2.trans (.ite (.refl _) (.ite (.trans ⟨by rfl⟩ failProg_clock)
    (.ite (.trans ⟨by rfl⟩ failProg_clock) (.trans ⟨by rfl⟩ sealChange_clock)))))

theorem opRun_clock {n : Nat} {o : COp} : s.SameClock (s.opRun n o) := by
  unfold State.opRun
  extract_lets s2
  have h_s2 : s.SameClock s2 := .ite (.refl _) opStarts_clock
  split
  exacts [h_s2, h_s2.trans (.ite (.refl _) (.ite opEnd_clock (.refl _)))]

theorem runOp_clock {n : Nat} : s.SameClock (s.runOp n) := by
  unfold State.runOp
  split
  · exact .refl _
  · refine .ite (.refl _) ?_
    refine .ite ?_ opRun_clock
    extract_lets s1
    have h_s1 : s.SameClock s1 := sealBegin_clock
    split
    exacts [h_s1.trans (.ite (.refl _) opRun_clock), h_s1]

theorem runOps_clock : s.SameClock s.runOps := .foldl (fun _ _ => runOp_clock)

/-! ### The operations of `Machine/Moves.lean` -/

theorem wakePf_clock : s.SameClock s.wakePf := .foldl (fun _ _ => okOn_clock)

/-! ### The operations of `Machine/RegionC.lean` -/

theorem dcEvent_clock {h : HostId} {v : DcEv} : s.SameClock (s.dcEvent h v) := .trans ⟨by rfl⟩ notice_clock

theorem recallHost_clock {h : HostId} {r : RegionId} : s.SameClock (s.recallHost h r) := .foldl (fun _ _ => snoop_clock)

theorem revokeChange_clock {g : Nat} : s.SameClock (s.revokeChange g) := by
  unfold State.revokeChange
  split
  · exact endRevoke_clock
  · extract_lets ps _ s1 s2
    have h_s1 : s.SameClock s1 := .trans ⟨by rfl⟩ dropGrant_clock
    have h_s2 : s.SameClock s2 := h_s1.trans (lampGrantsGone_clock.trans (fixOffers_clock.trans (serveUpdate_clock.trans notice_clock)))
    exact h_s2.trans (.foldl (fun _ _ => narrowDone_clock))

theorem revokeOn_clock {g : Nat} {stall : Bool} : s.SameClock (s.revokeOn g stall) := by
  unfold State.revokeOn
  split
  · extract_lets r due s1 _ u
    have h_s1 : s.SameClock s1 := .ite recallHost_clock (.refl _)
    have h_u : s.SameClock u := h_s1.trans stallEntry_clock
    clear_value u
    exact .ite (.refl _) (.ite (h_s1.trans ⟨rfl⟩) (.ite (h_s1.trans ⟨rfl⟩)
      (.ite (h_u.trans ⟨rfl⟩) (h_s1.trans revokeChange_clock))))
  · exact .refl _

theorem runRevokes_clock : s.SameClock s.runRevokes := .foldl (fun _ _ => revokeOn_clock)

theorem freeRegion_clock {r : RegionId} : s.SameClock (s.freeRegion r) := by
  unfold State.freeRegion
  extract_lets e s1 s2 _ s3 _ _ _ s4
  have h_s1 : s.SameClock s1 := .ite journal_clock (.refl _)
  have h_s2 : s.SameClock s2 := h_s1.trans (.foldl (fun _ _ => cancelMove_clock))
  have h_s3 : s.SameClock s3 := h_s2.trans setEnt_clock
  have h_s4 : s.SameClock s4 := h_s3.trans ⟨rfl⟩
  exact h_s4.trans (lampRegionGone_clock.trans (fixOffers_clock.trans serveUpdate_clock))

theorem recallRange_clock {r : RegionId} {first count : Nat} : s.SameClock (s.recallRange r first count) :=
  .foldl (fun _ _ => .ite dirDel_clock snoop_clock)

/-! ### The operations of `Machine/PeerC.lean` -/

theorem sendFrame_clock {m : PMove} {k : FrameKind} {region : RegionId} {seg seq count : Nat} {payload : List Byte} :
    s.SameClock (s.sendFrame m k region seg seq count payload) :=
  .ite send_clock (.refl _)

theorem putPm_clock {m : PMove} : s.SameClock (s.putPm m) := ⟨rfl⟩

theorem startPm_clock {m : PMove} :
    s.SameClock (s.startPm m) := .ite ⟨rfl⟩ (.trans ⟨by rfl⟩ (.ite sendFrame_clock (.refl _)))

theorem endPm_clock {m : PMove} : s.SameClock (s.endPm m) := by
  unfold State.endPm
  extract_lets _ s1
  have h_s1 : s.SameClock s1 := ⟨rfl⟩
  split
  exacts [h_s1.trans (.trans ⟨by rfl⟩ startPm_clock), h_s1]

theorem revokeAll_clock {r : RegionId} : s.SameClock (s.revokeAll r) :=
  .foldl (fun _ _ => .ite (.refl _) (.trans ⟨by rfl⟩ dcEvent_clock))

theorem leaveDone_clock {n : Nat} : s.SameClock (s.leaveDone n) := by
  unfold State.leaveDone
  split
  exacts [.refl _, .ite (.refl _) (.trans ⟨by rfl⟩ (freeRegion_clock.trans narrowDone_clock))]

theorem unEvacuate_clock {r : RegionId} : s.SameClock (s.unEvacuate r) := by
  unfold State.unEvacuate
  split
  · exact .refl _
  · extract_lets _ s1 n
    have h_s1 : s.SameClock s1 := ⟨rfl⟩
    exact h_s1.trans (change_clock.trans journalEnt_clock)

theorem failPm_clock {m : PMove} {status : Byte} {detail : W16} : s.SameClock (s.failPm m status detail) := by
  unfold State.failPm
  extract_lets s1
  have h_s1 : s.SameClock s1 := endPm_clock
  split
  · exact h_s1
  · extract_lets s2
    have h_s2 : s.SameClock s2 := h_s1.trans (.ite unEvacuate_clock (.refl _))
    exact h_s2.trans opEnd_clock

theorem okPm_clock {m : PMove} : s.SameClock (s.okPm m) := by
  unfold State.okPm
  extract_lets s1
  have h_s1 : s.SameClock s1 := endPm_clock
  split
  exacts [h_s1, h_s1.trans (.ite (.trans ⟨by rfl⟩ (revokeAll_clock.trans leaveDone_clock)) opEnd_clock)]

theorem peerRead_clock {s0 : State} {r : RegionId} {seg : Nat} {c : Chk} {got : Bool} : s0.SameClock (s0.peerRead r seg c got).1 := by
  unfold State.peerRead
  refine .ite_fst (.refl _) (.ite_fst wakeFor_clock ?_)
  extract_lets ex s e
  have h_s : s0.SameClock s := checkSme_clock
  refine .ite_fst (.foldl (fun _ _ => snoop_clock)) (.ite_fst h_s (.ite_fst (h_s.trans startMiss_clock) ?_))
  split
  · refine .ite_fst (h_s.trans imageFault_clock) ?_
    split
    exacts [h_s.trans (noteChk_clock.trans touch_clock), h_s.trans imageFault_clock]
  · refine .ite_fst (h_s.trans startMiss_clock) (.ite_fst (h_s.trans (homeFault_clock (tag := c == .tag) (form := false))) ?_)
    split
    exacts [h_s.trans (.trans (.ite noteChk_clock (.refl _)) touch_clock), h_s.trans (homeFault_clock (tag := false) (form := true))]
  · exact h_s.trans touch_clock

theorem pump_clock {m : PMove} {c : Chk} {n : Nat} : s.SameClock (s.pump m c n) := by
  induction n generalizing s m c with
  | zero => exact .refl s
  | succ n ih =>
    unfold State.pump
    refine .ite (.ite (.refl _) (.trans (putPm_clock.trans sendFrame_clock) (.ite okPm_clock (.refl _)))) (.ite (.refl _) ?_)
    extract_lets k
    split
    · exact (peerRead_clock.of_eq (by assumption)).trans (putPm_clock.trans (sendFrame_clock.trans ih))
    · exact peerRead_clock.of_eq (by assumption)
    · exact (peerRead_clock.of_eq (by assumption)).trans failPm_clock
    · exact (peerRead_clock.of_eq (by assumption)).trans failPm_clock

theorem peerWrite_clock {s0 : State} {r : RegionId} {seg : Nat} {b : List Byte} {pick : W32} :
    s0.SameClock (s0.peerWrite r seg b pick).1 := by
  unfold State.peerWrite
  extract_lets s1 s s2 s3
  have h_s1 : s0.SameClock s1 := recallRange_clock
  have h_s : s0.SameClock s := h_s1.trans checkSme_clock
  have h_s2 : s0.SameClock s2 := h_s.trans cancelMove_clock
  have h_s3 : s0.SameClock s3 := h_s2.trans endTrial_clock
  refine .ite_fst h_s (.ite_fst (h_s.trans poisonWrite_clock) ?_)
  split
  · exact h_s
  · exact h_s.trans capacityFatal_clock
  · split
    all_goals
      rename_i stored
      exact ((h_s3.trans (.trans (.ite overAdmit_clock (.refl _)) storeFresh_clock)).of_eq stored).trans ⟨rfl⟩

theorem drainPm_clock {m : PMove} {pick : W32} {n : Nat} : s.SameClock (s.drainPm m pick n) := by
  induction n generalizing s m with
  | zero => exact .refl s
  | succ n ih =>
    unfold State.drainPm
    refine .ite (sendFrame_clock.trans (.ite okPm_clock endPm_clock)) ?_
    split
    · exact putPm_clock
    · extract_lets seg
      clear_value seg
      split
      · exact (peerWrite_clock.of_eq (by assumption)).trans putPm_clock
      · exact (peerWrite_clock.of_eq (by assumption)).trans (.trans (.ite sendFrame_clock (.refl _)) (putPm_clock.trans ih))

theorem evacStart_clock {n : Nat} {o : COp} : s.SameClock (s.evacStart n o) :=
  recallRegion_clock.trans (.ite (.refl _) (startPm_clock.trans (.ite pump_clock (.refl _))))

theorem runPeers_clock : s.SameClock s.runPeers :=
  .ite (.refl _) (.trans (.foldl (fun _ _ => .ite (.refl _) evacStart_clock)) (.trans (.foldl (fun _ _ => by
    split
    exacts [.refl _, .ite pump_clock drainPm_clock])) (.foldl (fun _ _ => leaveDone_clock))))

/-! ### The operations of `Machine/FenceC.lean` -/

theorem safeUpdate_clock : s.SameClock s.safeUpdate := .trans ⟨by rfl⟩ (.ite post_clock (.refl _))

/-! ### The operations of `Machine/Back.lean` -/

theorem wakeGroups_clock : s.SameClock s.wakeGroups :=
  .foldl (fun _ _ => by
    split
    exacts [.ite askWake_clock (.refl _), .refl _])

theorem runEngines_clock : s.SameClock s.runEngines := by
  unfold State.runEngines
  extract_lets s1 s2 s3 s4 s5 s6 s7
  have h_s1 : s.SameClock s1 := rerun_clock.trans fixOffers_clock
  have h_s2 : s.SameClock s2 := h_s1.trans (runRevokes_clock.trans (runOps_clock.trans runPeers_clock))
  have h_s3 : s.SameClock s3 := h_s2.trans (reclaim_clock.trans writeback_clock)
  have h_s4 : s.SameClock s4 := h_s3.trans (gcFlags_clock.trans (trimMap_clock.trans lampPlace_clock))
  have h_s5 : s.SameClock s5 := h_s4.trans (settleAcks_clock.trans (rtFlags_clock.trans capCheck_clock))
  have h_s6 : s.SameClock s6 := h_s5.trans wakeGroups_clock
  have h_s7 : s.SameClock s7 := h_s6.trans (.ite answerAll_clock (.refl _))
  exact h_s7.trans (safeUpdate_clock.trans wakePf_clock)

end State

end Sys2Proof.Machine
end

section
/-! ## The tick of the store clock (02 R61, R73) -/

namespace Sys2Proof.Machine

namespace State

theorem msTick_clk (s : State) :
    s.msTick.clk = { s.clk with ms := s.clk.ms + 1, store := if s.sled.st = .off then s.clk.store else s.clk.store + 1 } := by
  by_cases off : s.sled.st = .off <;> simp [State.msTick, State.wdTick, off]

/-- A tick of the store clock turns the clock, and where the sled is up its engines then run. -/
theorem storeClockTick_eq (s : State) : exec .storeClockTick s = .next (if s.msTick.up then s.msTick.runEngines else s.msTick) := rfl

end State

/-- Settles O8: the engines of a tick leave the clock alone, so every tick ends with the clock that `msTick` has set. -/
theorem storeClockAdvancesAtEveryTick : Obligations.StoreClockAdvancesAtEveryTick := by
  unfold Obligations.StoreClockAdvancesAtEveryTick
  intro s
  have clk : s.msTick.SameClock (if s.msTick.up then s.msTick.runEngines else s.msTick) := .ite State.runEngines_clock (.refl _)
  have later : s.Later false false (if s.msTick.up then s.msTick.runEngines else s.msTick) :=
    State.msTick_later.trans (.ite State.runEngines_later (.refl _))
  refine ⟨_, s.storeClockTick_eq, ?_, ?_, later.pending⟩
  all_goals rw [clk.clk, s.msTick_clk]

end Sys2Proof.Machine
end

section
/-! ## What a tick of the clocks, the age sweep and a trial write (02 R61, R73; 03 R129, R135) -/

namespace Sys2Proof.Machine

namespace State

variable {s : State}

/-! ### The map behind a written entry -/

theorem map_journal (j : JRec) : (s.journal j).map = s.map := by rw [journal_rest]

/-- A written entry changes the map by itself alone. -/
theorem map_commitSme (r : RegionId) (seg : Nat) (e : Sme) :
    (s.commitSme r seg e).map = { s.map with sme := s.map.sme.set (segKey r seg) (s.newSme r) e } := by
  unfold State.commitSme
  extract_lets old s1
  split
  exacts [map_journal _, rfl]

/-! ### Entries that a malformed one leaves -/

theorem abortMove_away (n : Nat) : (s.abortMove n).map.away = s.map.away := by
  unfold State.abortMove
  split
  · rfl
  · rename_i m _
    extract_lets s0 e _ _ s1
    have back : s0.map = s.map := by
      simp only [s0, State.sealBack]
      split
      · split <;> rfl
      · rfl
    have kept : s1.map.away = s.map.away :=
      (show s1.map.away = s0.map.away from rfl).trans (congrArg MapS.away back)
    split
    · rw [map_commitSme, kept]
    · exact kept

theorem cancelMove_away (r : RegionId) (seg : Nat) : (s.cancelMove r seg).map.away = s.map.away := by
  unfold State.cancelMove
  split
  exacts [abortMove_away _, rfl]

theorem servedMalformed_away (r : RegionId) (seg : Nat) : (s.servedMalformed r seg).map.away = s.map.away := by
  unfold State.servedMalformed
  extract_lets e s1 runs
  have kept : s1.map.away = s.map.away := by
    simp only [s1, map_commitSme, cancelMove_away]
  rw [(post_told _ _).map_eq]
  exact kept

theorem foldl_servedMalformed_away (l : List Nat) :
    (l.foldl (fun t k => t.servedMalformed (keyRegion k) (keySeg k)) s).map.away = s.map.away := by
  induction l generalizing s with
  | nil => rfl
  | cons k l ih => exact ih.trans (servedMalformed_away _ _)

/-! ### Ages that the sweep has seen -/

theorem sweptBorn_recent (age : W16) : (s.clk.age - s.sweptBorn age).toNat ≤ 32768 := by
  unfold State.sweptBorn
  split_ifs with far
  · bv_omega
  · omega

theorem swept_recent (e : Sme) : (s.clk.age - (s.swept e).f.age).toNat ≤ 32768 := by
  unfold State.swept
  extract_lets a last old x
  rw [Sme.f_edit]
  exact s.sweptBorn_recent e.f.age

/-- Once the sweep has passed a region, the creation age of its untouched segments stays recent. -/
theorem foldl_sweptBorn_recent {k : Nat} (l : List (RegionId × REnt)) (born : Tbl W16)
    (due : (∃ p ∈ l, p.1.toNat = k) ∨ (s.clk.age - born.getD k 0).toNat ≤ 32768) :
    (s.clk.age - (l.foldl (fun t p => t.put p.1.toNat (s.sweptBorn (t.getD p.1.toNat 0))) born).getD k 0).toNat ≤ 32768 := by
  induction l generalizing born with
  | nil =>
    obtain ⟨p, hp, -⟩ | recent := due
    exacts [absurd hp List.not_mem_nil, recent]
  | cons p l ih =>
    refine ih _ ?_
    by_cases here : p.1.toNat = k
    · right
      subst here
      rw [Tbl.getD, Tbl.find_put_same]
      exact s.sweptBorn_recent _
    · rw [Tbl.getD, Tbl.find_put_ne _ _ (Ne.symm here)]
      obtain ⟨q, hq, rfl⟩ | recent := due
      · obtain rfl | hq := List.mem_cons.mp hq
        exacts [absurd rfl here, .inl ⟨q, hq, rfl⟩]
      · exact .inr recent

end State

end Sys2Proof.Machine
end

section
/-! ## Clocks, sweeps and trials (O7) -/

namespace Sys2Proof.Machine

/-! ### Forms -/

theorem Sme.f_form (e : Sme) (st : SegSt) (codec csize : Nat) (w : W64) :
    (e.form st codec csize w).f = { st := st.code, spr := e.f.spr, codec := BitVec.ofNat 3 codec, csize := BitVec.ofNat 5 csize, pin := e.f.pin,
                                    lend := false, prior := 0, age := e.f.age, aux := 0 } := SmeF.f_word _ _

/-- An OPEN entry at a near address of Pond is not in Spring. -/
theorem Sme.pond_of_home {e : Sme} {a : Nat} (home : e.home = some (.near false a)) : e.f.spr = false := by
  rw [Sme.home] at home
  split at home <;> simp_all

theorem firstFit_small {used : List (Nat × Nat)} {base blocks len a : Nat} (found : firstFit used base blocks len = some a) : len ≤ 16 := by
  obtain ⟨b, -, found⟩ := List.exists_of_findSome?_eq_some found
  obtain ⟨o, ho, -⟩ := List.exists_of_findSome?_eq_some found
  have := List.mem_range.mp ho
  omega

namespace State

variable {s : State}

/-- A run that Pond has room for fits a block. -/
theorem allocPond_small {k len a : Nat} {u : Use} {pick : W32} (found : s.allocPond k len u pick = some a) : len ≤ 16 := by
  unfold State.allocPond at found
  split at found
  · cases found
  · extract_lets used p at found
    split at found
    · rename_i fits
      simp only [Bool.and_eq_true, decide_eq_true_eq] at fits
      obtain ⟨⟨-, fits⟩, -⟩ := fits
      omega
    · obtain ⟨n, -, found⟩ := List.exists_of_findSome?_eq_some found
      exact firstFit_small found

theorem bestForm_codec {r : RegionId} {lzv exp : Option Packed} {b : List Byte} {codec : Nat} {x : Packed}
    (best : s.bestForm r lzv exp b = some (codec, x)) : codec = 3 ∨ codec = 4 := by
  unfold State.bestForm at best
  extract_lets form at best
  have own {c : Nat} {y : Option Packed} {z : Nat × Packed} (h : form c y = some z) : z.1 = c := by
    simp only [form] at h
    split at h
    · obtain ⟨v, -, rfl⟩ := Option.map_eq_some_iff.mp h
      rfl
    · cases h
  clear_value form
  split at best
  · rename_i y z hy hz
    have := own hy
    have := own hz
    split at best <;> cases best <;> tauto
  · obtain h | ⟨-, h⟩ := Option.or_eq_some_iff.mp best
    exacts [.inl (own h), .inr (own h)]

theorem paid_of_ops_nil {r : RegionId} {seg : Nat} (none : s.q.ops = []) : s.paid r seg = s := by
  have same : { s.q with ops := [] } = s.q := by rw [← none]
  rw [State.paid, none]
  exact congrArg (fun q => { s with q := q }) same

/-- A segment in Pond in OPEN form takes 16 sectors, and its source is that form. -/
theorem InPond.src {r : RegionId} {seg a : Nat} (p : s.InPond r seg a) : (s.sme r seg).src = .opn := by
  rw [Sme.src, p.opn]
  rfl

theorem InPond.cs {r : RegionId} {seg a : Nat} (p : s.InPond r seg a) : (s.sme r seg).cs = 16 := by
  have good := p.good
  simp only [State.malformed, Bool.or_eq_false_iff, Bool.not_eq_false', p.src] at good
  obtain ⟨⟨⟨⟨⟨form, -⟩, -⟩, -⟩, -⟩, -⟩ := good
  simp only [formOk, Bool.and_eq_true, beq_iff_eq] at form
  exact form.2

/-! ### The clock commands -/

theorem packDelayExpiry_submits {r : RegionId} {seg a n : Nat} (up : s.up = true) (pond : s.InPond r seg a)
    (fresh : s.map.trials.has (segKey r seg) = false) (engine : s.trialEngine (a / 2 ^ 23 / 32) = some n) (serves : s.serves (.region r) = true)
    (rested : s.pwr.packMs ≤ (s.clk.store - (s.sme r seg).f.aux.setWidth 31).toNat) (untried : (s.sme r seg).f.aux.getLsbD 31 = false)
    (due : s.map.trialAfter.getD (segKey r seg) 0 ≤ s.clk.ms) : exec (.packDelayExpiry r seg) s = .next (s.submit r seg n) := by
  have tile : ((s.sme r seg).home.bind Loc.tile).getD 0 = a / 2 ^ 23 / 32 := by rw [pond.home]; rfl
  simp only [exec, execPackDelayExpiry, tile, engine, up, serves, pond.opn, rested, untried, due, pond.good, fresh, pond.still]
  rfl

/-- Every malformed entry of the map cache has been served as such. -/
def servedAll (s : State) : State :=
  ((s.map.sme.filter (fun p => s.malformed p.2 && !s.map.away.contains (pageKey (keyRegion p.1) (keySeg p.1)))).map (fun p => p.1)).foldl
    (fun t k => t.servedMalformed (keyRegion k) (keySeg k)) s

/-- Every resident entry and every region's untouched segments have an age that the sweep has seen. -/
def renewed (s : State) : State :=
  { s with
    map := { s.map with sme := s.map.sme.map (fun (p : Nat × Sme) =>
      if s.map.away.contains (pageKey (keyRegion p.1) (keySeg p.1)) then p else (p.1, s.swept p.2)) }
    rt := { s.rt with born := s.regions.foldl (fun t p => t.put p.1.toNat (s.sweptBorn (t.getD p.1.toNat 0))) s.rt.born } }

theorem ageSweep_eq : exec .ageSweep s = .next s.servedAll.renewed := rfl

theorem servedAll_clk : s.servedAll.clk = s.clk := (SameClock.foldl (s := s) (fun _ _ => servedMalformed_clock)).clk

theorem servedAll_away : s.servedAll.map.away = s.map.away := foldl_servedMalformed_away _

theorem servedAll_of_good (good : ∀ p ∈ s.map.sme, s.malformed p.2 = false) : s.servedAll = s := by
  have none : s.map.sme.filter (fun p => s.malformed p.2 && !s.map.away.contains (pageKey (keyRegion p.1) (keySeg p.1))) = [] :=
    List.filter_eq_nil_iff.mpr (fun p hp => by simp [good p hp])
  rw [State.servedAll, none]
  rfl

theorem ageSweep_keeps_recent (s : State) : ∃ t, exec .ageSweep s = .next t ∧
    (∀ p ∈ t.map.sme, s.map.away.contains (pageKey (keyRegion p.1) (keySeg p.1)) = false → (s.clk.age - p.2.f.age).toNat ≤ 32768) ∧
    ((∀ p ∈ s.map.sme, s.malformed p.2 = false) →
      t = { s with map := { s.map with sme := t.map.sme }, rt := { s.rt with born := t.rt.born } } ∧ t.map.sme.length = s.map.sme.length ∧
      ∀ p ∈ s.regions, (s.clk.age - t.rt.born.getD p.1.toNat 0).toNat ≤ 32768) := by
  refine ⟨_, ageSweep_eq, fun p hp resident => ?_, fun good => ?_⟩
  · obtain ⟨q, -, rfl⟩ := List.mem_map.mp hp
    rw [← servedAll_away] at resident
    by_cases gone : s.servedAll.map.away.contains (pageKey (keyRegion q.1) (keySeg q.1)) = true
    · rw [if_pos gone, gone] at resident
      cases resident
    · rw [if_neg gone, ← servedAll_clk]
      exact s.servedAll.swept_recent q.2
  · rw [servedAll_of_good good]
    exact ⟨rfl, List.length_map _, fun p hp => s.foldl_sweptBorn_recent _ _ (.inl ⟨p, hp, rfl⟩)⟩

end State

end Sys2Proof.Machine
end

section
/-! ## Trials that end (O7) -/

namespace Sys2Proof.Machine

theorem Tbl.has_del_same {α : Type} (t : Tbl α) (n : Nat) : (t.del n).has n = false := by
  rw [Tbl.has, Tbl.find_del_same]
  rfl

theorem Sme.cs_form (e : Sme) (st : SegSt) (codec : Nat) {csize : Nat} (w : W64) (small : csize ≤ 16) : (e.form st codec csize w).cs = csize := by
  rw [Sme.cs, Sme.f_form, BitVec.toNat_ofNat]
  omega

theorem Sme.home_form_packed {e : Sme} {codec csize d : Nat} (pond : e.f.spr = false) (small : d < 2 ^ 32) :
    (e.form .packed codec csize (BitVec.ofNat 64 d)).home = some (.near false d) := by
  have st : (e.form .packed codec csize (BitVec.ofNat 64 d)).st = .packed := by
    rw [Sme.st, Sme.f_form]
    rfl
  have place : (e.form .packed codec csize (BitVec.ofNat 64 d)).w1.toNat % 2 ^ 32 = d := by
    simp only [Sme.form, BitVec.toNat_ofNat]
    omega
  rw [Sme.home, Sme.src, st, place, Sme.f_form, pond]
  rfl

namespace State

variable {s t : State}

/-! ### What a commit of a trial gives -/

theorem commitTrial_zero {r : RegionId} {seg a : Nat} {spr : Bool} {lzv exp : Option Packed} {pick : W32}
    (home : (s.sme r seg).home = some (.near spr a)) (zero : allZero (s.readRun (.near spr a) 16) = true) :
    ∃ e : Sme, e.st = .zero ∧ e.home = none ∧ s.commitTrial r seg lzv exp pick = ((s.commitSme r seg e).releaseHome (s.sme r seg), .done) := by
  have e : s.commitTrial r seg lzv exp pick = ((s.commitSme r seg
      { ((s.sme r seg).form .zero 0 0 0) with w0 := (((s.sme r seg).form .zero 0 0 0).edit (fun f => { f with spr := false })).w0 }).releaseHome
      (s.sme r seg), .done) := by
    simp only [State.commitTrial, home, zero, if_true]
  have st : (({ ((s.sme r seg).form .zero 0 0 0) with
      w0 := (((s.sme r seg).form .zero 0 0 0).edit (fun f => { f with spr := false })).w0 } : Sme)).st = .zero := by
    rw [Sme.st, Sme.edit, SmeF.f_word, Sme.f_form]
    rfl
  refine ⟨_, st, ?_, e⟩
  rw [Sme.home, Sme.src, st]
  rfl

/-- A state with other pack statistics. -/
def withForms (s : State) (forms : List (Nat × List Byte × Option Packed)) : State := { s with map := { s.map with forms := forms } }

theorem noteForm_noted (r : RegionId) (codec : Nat) (x : Option Packed) (b : List Byte) : ∃ forms, s.noteForm r codec x b = s.withForms forms := by
  unfold State.noteForm
  extract_lets key
  split
  exacts [⟨s.map.forms, rfl⟩, ⟨_, rfl⟩]

/-- A trial whose form fits writes it to a run of its own. -/
theorem commitTrial_packed {r : RegionId} {seg a d codec : Nat} {lzv exp : Option Packed} {x : Packed} {pick : W32}
    (home : (s.sme r seg).home = some (.near false a)) (data : allZero (s.readRun (.near false a) 16) = false)
    (mixed : isPattern (s.readRun (.near false a) 16) = false) (best : s.bestForm r lzv exp (s.readRun (.near false a) 16) = some (codec, x))
    (room : s.allocPond (s.anchorOf r seg) x.csize (s.useOf r seg .store) pick = some d) :
    ∃ forms, s.commitTrial r seg lzv exp pick =
      ((((s.withForms forms).writeRun (.near false d) (x.run ++ zeros (x.csize * 256 - x.run.length))).commitSme r seg
        ((s.sme r seg).form .packed codec x.csize (BitVec.ofNat 64 d))).releaseHome (s.sme r seg), .done) := by
  obtain ⟨forms, noted⟩ : ∃ forms, (s.noteForm r 3 lzv (s.readRun (.near false a) 16)).noteForm r 4 exp (s.readRun (.near false a) 16) =
      s.withForms forms := by
    obtain ⟨lzvForms, first⟩ := s.noteForm_noted r 3 lzv (s.readRun (.near false a) 16)
    obtain ⟨forms, second⟩ := (s.withForms lzvForms).noteForm_noted r 4 exp (s.readRun (.near false a) 16)
    exact ⟨forms, by rw [first, second]; rfl⟩
  have room' : (s.withForms forms).allocPond ((s.withForms forms).anchorOf r seg) x.csize ((s.withForms forms).useOf r seg .store) pick = some d := room
  refine ⟨forms, ?_⟩
  simp only [State.commitTrial, home, data, mixed, best, noted, room', Bool.false_eq_true, if_false]

/-! ### The end of a trial -/

/-- The end of a trial leaves the entry. -/
theorem sme_endTrial_paid (r : RegionId) (seg : Nat) : ((s.endTrial r seg).paid r seg).sme r seg = s.sme r seg := rfl

/-- A trial that has found a form ends with its commit. -/
theorem trialPackDone_of_done {r : RegionId} {seg a : Nat} {lzv exp : Option Packed} {pick : W32} (pond : s.InPond r seg a)
    (runs : s.map.trials.has (segKey r seg) = true) (calm : s.pchPanic (a / 2 ^ 23) = false) (wfLzv : lzv.all Packed.wf = true)
    (wfExp : exp.all Packed.wf = true) (done : ((s.endTrial r seg).paid r seg).commitTrial r seg lzv exp pick = (t, .done)) :
    exec (.trialPackDone r seg lzv exp .ok pick) s = .next t := by
  have panic : s.panicAt (some (.near false a)) = false := calm
  simp only [exec, execTrialPackDone, wfLzv, wfExp, runs, panic, sme_endTrial_paid, pond.home, pond.opn, noteChk, done, chkFails, mend, Bool.true_eq_false,
    Bool.false_eq_true, or_self, if_false, ne_eq, not_true]

/-- A committed entry behind which its old home is released. -/
theorem released_entry (r : RegionId) (seg : Nat) (e old : Sme) :
    ((s.commitSme r seg e).releaseHome old).sme r seg = e ∧ ((s.commitSme r seg e).releaseHome old).mem = s.mem := by
  refine ⟨(sme_releaseHome _ _ _).trans (sme_commitSme_same _ _ _), ?_⟩
  rw [releaseHome_rest, commitSme_rest]

/-- The run of a segment of zeros is released, and the segment is ZERO. -/
theorem trialPackDone_zero {r : RegionId} {seg a : Nat} {pick : W32} (pond : s.InPond r seg a)
    (runs : s.map.trials.has (segKey r seg) = true) (calm : s.pchPanic (a / 2 ^ 23) = false) (zero : allZero (s.readRun (.near false a) 16) = true) :
    ∃ t, exec (.trialPackDone r seg none none .ok pick) s = .next t ∧ (t.sme r seg).st = .zero ∧ (t.sme r seg).home = none ∧
      t.map.trials.has (segKey r seg) = false ∧ t.map.rel.find s.map.relNo = some ⟨.near false a, 16, false⟩ ∧ t.mem = s.mem := by
  obtain ⟨e, st, home, done⟩ := ((s.endTrial r seg).paid r seg).commitTrial_zero (lzv := none) (exp := none) (pick := pick)
    pond.home zero
  refine ⟨_, trialPackDone_of_done pond runs calm rfl rfl done, ?_⟩
  obtain ⟨sme, mem⟩ := released_entry (s := (s.endTrial r seg).paid r seg) r seg e (((s.endTrial r seg).paid r seg).sme r seg)
  refine ⟨by rw [sme, st], by rw [sme, home], ?_, ?_, mem⟩
  all_goals
    simp only [State.releaseHome, sme_endTrial_paid, pond.home, State.release, pond.cs, map_commitSme]
  · exact Tbl.has_del_same _ _
  · exact Tbl.find_put_same _ _ _

/-- A segment whose stored form fits is written to a run of its own. -/
theorem trialPackDone_packs {r : RegionId} {seg a d codec : Nat} {lzv exp : Option Packed} {x : Packed} {pick : W32} (pond : s.InPond r seg a)
    (runs : s.map.trials.has (segKey r seg) = true) (calm : s.pchPanic (a / 2 ^ 23) = false) (ops : s.q.ops = [])
    (wfLzv : lzv.all Packed.wf = true) (wfExp : exp.all Packed.wf = true) (data : allZero (s.readRun (.near false a) 16) = false)
    (mixed : isPattern (s.readRun (.near false a) 16) = false) (best : s.bestForm r lzv exp (s.readRun (.near false a) 16) = some (codec, x))
    (small : d < 2 ^ 32) (room : s.allocPond (s.anchorOf r seg) x.csize (s.useOf r seg .store) pick = some d) :
    ∃ t, exec (.trialPackDone r seg lzv exp .ok pick) s = .next t ∧ (t.sme r seg).st = .packed ∧
      (t.sme r seg).home = some (.near false d) ∧ (t.sme r seg).f.codec.toNat = codec ∧ (t.sme r seg).cs = x.csize ∧
      t.mem.bytes = writeBytes s.mem.bytes ((Loc.near false d).sector * 256) (x.run ++ zeros (x.csize * 256 - x.run.length)) := by
  have paid : (s.endTrial r seg).paid r seg = s.endTrial r seg := paid_of_ops_nil ops
  obtain ⟨forms, done⟩ := (s.endTrial r seg).commitTrial_packed pond.home data mixed best room
  refine ⟨_, trialPackDone_of_done pond runs calm wfLzv wfExp (by rw [paid]; exact done), ?_⟩
  obtain ⟨sme, mem⟩ := released_entry (s := ((s.endTrial r seg).withForms forms).writeRun (.near false d)
    (x.run ++ zeros (x.csize * 256 - x.run.length))) r seg (((s.endTrial r seg).sme r seg).form .packed codec x.csize (BitVec.ofNat 64 d))
    ((s.endTrial r seg).sme r seg)
  rw [sme, mem]
  refine ⟨?_, Sme.home_form_packed (Sme.pond_of_home pond.home) small, ?_, Sme.cs_form _ _ _ _ (allocPond_small room),
    (writeRun_written _ _ _).bytes⟩
  · rw [Sme.st, Sme.f_form]
    rfl
  · rw [Sme.f_form]
    obtain rfl | rfl := bestForm_codec best <;> rfl

theorem storeClockTick_down (down : s.up = false) : exec .storeClockTick s = .next s.msTick := by
  have same : s.msTick.up = s.up := rfl
  rw [storeClockTick_eq, same, down]
  rfl

end State

/-- Settles O7: the clock commands are the functions they name, and a trial ends with the entry of its form. -/
theorem clocksSweepsAndTrials : Obligations.ClocksSweepsAndTrials := by
  unfold Obligations.ClocksSweepsAndTrials
  refine ⟨fun s awake => ?_, fun s down => ?_, State.ageSweep_keeps_recent,
    fun s r seg a n up pond fresh engine serves rested untried due =>
      State.packDelayExpiry_submits up pond fresh engine serves rested untried due,
    fun s r seg a pick pond runs calm zero => State.trialPackDone_zero pond runs calm zero,
    fun s r seg a d codec lzv exp x pick pond runs calm ops wfLzv wfExp data mixed best small room =>
      State.trialPackDone_packs pond runs calm ops wfLzv wfExp data mixed best small room,
    fun s r seg lzv exp chk pick malformed => ?_⟩
  · simp only [exec, execAgeClockTick, if_neg awake]
  · refine ⟨_, State.storeClockTick_down down, ?_, ?_, ?_, ?_, ⟨rfl, rfl, rfl, rfl, rfl⟩⟩
    · rw [s.msTick_clk]
    · rw [s.msTick_clk]
    · simp only [State.msTick, State.wdTick]
      split <;> rfl
    · rw [s.msTick_clk]
  · have bad : lzv.all Packed.wf = false ∨ exp.all Packed.wf = false := by
      rwa [Instr.wf, Bool.not_eq_true, Bool.and_eq_false_iff] at malformed
    simp only [exec, execTrialPackDone, if_pos bad]

end Sys2Proof.Machine
end

section
/-! ## The canonical form of the stored bytes (O57; assumption log 7) -/

namespace Sys2Proof.Machine

/-- A step that goes on has found the queue empty and idled, or has run the command in front on the state with the rest of the queue. -/
theorem State.step_cases {s t : State} (h : step s = .next t) :
    s.pending = [] ∧ t = s ∨ ∃ c rest, s.pending = c :: rest ∧ exec c { s with pending := rest } = .next t := by
  unfold step at h
  split at h
  · case h_1 empty =>
    cases h
    exact .inl ⟨empty, rfl⟩
  · case h_2 c rest queued => exact .inr ⟨c, rest, queued, h⟩

/-- Settles O57: the queue holds no stored byte, and every command leads to a later state, whose bytes are in the form of those before. -/
theorem everyStepKeepsMemoryCanonical : Obligations.EveryStepKeepsMemoryCanonical := by
  unfold Obligations.EveryStepKeepsMemoryCanonical
  intro s t safe h
  obtain ⟨-, rfl⟩ | ⟨c, rest, -, run⟩ := State.step_cases h
  · exact safe
  · have later : State.Later { s with pending := rest } false false t := State.exec_later t run
    exact later.mem safe

end Sys2Proof.Machine
end

section
/-! ## What the events of Pond's controllers change (04 R145 to R177)

An event writes controllers and nothing else of the state; a list of controllers is written one by one, each by itself. -/

namespace Sys2Proof.Machine

theorem Tbl.put_put {α : Type} (t : Tbl α) (n : Nat) (x y : α) : (t.put n x).put n y = t.put n y := by
  induction t with
  | nil => simp [Tbl.put]
  | cons p t ih =>
    obtain ⟨k, v⟩ := p
    simp only [Tbl.put]
    split_ifs with lower same
    · simp [Tbl.put]
    · simp [Tbl.put]
    · simp [Tbl.put, lower, same, ih]

theorem Pch.ne_reset_of_svc {p : Pch} (h : p.svc = true) : p ≠ .reset := by
  rintro rfl
  cases h

namespace State

/-- Two states that differ in Pond's controllers alone. -/
def Controlled (s t : State) : Prop := t = { s with pond := { s.pond with pch := t.pond.pch } }

/-- Two states that differ in one controller alone. -/
structure Sets (s : State) (n : Nat) (t : State) : Prop where
  rest : s.Controlled t
  others : ∀ m, m ≠ n → t.pch m = s.pch m

variable {s t u : State} {n : Nat}

namespace Controlled

theorem refl (s : State) : s.Controlled s := rfl

theorem trans (a : s.Controlled t) (b : t.Controlled u) : s.Controlled u := by
  unfold Controlled at a b ⊢
  rw [a] at b
  exact b

theorem dataKept (a : s.Controlled t) : s.DataKept t := by
  rw [a]
  exact ⟨rfl, rfl, rfl, rfl, rfl⟩

theorem sled_eq (a : s.Controlled t) : t.sled = s.sled := by rw [a]
theorem id_eq (a : s.Controlled t) : t.id = s.id := by rw [a]
theorem evt_eq (a : s.Controlled t) : t.evt = s.evt := by rw [a]
theorem pwr_eq (a : s.Controlled t) : t.pwr = s.pwr := by rw [a]
theorem stk_eq (a : s.Controlled t) (k : Nat) : t.stk k = s.stk k := by rw [a]; rfl
theorem fenced_eq (a : s.Controlled t) (v : FUnit) : t.fenced v = s.fenced v := by rw [State.fenced, a.evt_eq]; rfl
theorem pchFenced_eq (a : s.Controlled t) (m : Nat) : t.pchFenced m = s.pchFenced m := by simp only [State.pchFenced, a.fenced_eq]

end Controlled

theorem setPch_sets (s : State) (n : Nat) (p : Pch) : s.Sets n (s.setPch n p) := ⟨rfl, fun _ h => pch_setPch_ne s p h⟩

namespace Sets

theorem refl (s : State) (n : Nat) : s.Sets n s := ⟨.refl s, fun _ _ => rfl⟩

theorem ite {c : Prop} [Decidable c] (a : s.Sets n t) (b : s.Sets n u) : s.Sets n (if c then t else u) := by
  split
  exacts [a, b]

variable {f : State → Nat → State} (hf : ∀ (t : State) m, t.Sets m (f t m)) {l : List Nat}
include hf

theorem foldl (l : List Nat) (s : State) : s.Controlled (l.foldl f s) := by
  induction l generalizing s with
  | nil => exact .refl s
  | cons a l ih => exact (hf s a).rest.trans (ih _)

theorem foldl_of_not_mem (h : n ∉ l) : (l.foldl f s).pch n = s.pch n := by
  induction l generalizing s with
  | nil => rfl
  | cons a l ih =>
    obtain ⟨own, rest⟩ := not_or.mp (mt List.mem_cons.mpr h)
    exact (ih rest).trans ((hf s a).others n own)

/-- A controller of the list holds what its own turn has written; where it has only one turn, it comes to it as it was. -/
theorem foldl_of_mem (h : n ∈ l) : ∃ u, s.Controlled u ∧ (l.Nodup → u.pch n = s.pch n) ∧ (l.foldl f s).pch n = (f u n).pch n := by
  induction l generalizing s with
  | nil => cases h
  | cons a l ih =>
    by_cases later : n ∈ l
    · obtain ⟨u, rest, same, turn⟩ := ih (s := f s a) later
      refine ⟨u, (hf s a).rest.trans rest, fun once => (same once.of_cons).trans ((hf s a).others n ?_), turn⟩
      rintro rfl
      exact (List.nodup_cons.mp once).1 later
    · obtain rfl : n = a := (List.mem_cons.mp h).resolve_right later
      exact ⟨s, .refl s, fun _ => rfl, foldl_of_not_mem hf later⟩

end Sets

/-- A controller that works is in service, not fenced and out of self-refresh. -/
theorem pchWorks_iff : s.pchWorks n = true ↔ (s.pch n).svc = true ∧ s.pchFenced n = false ∧ (s.pch n).selfRef = false := by
  simp [State.pchWorks, and_assoc]

end State

end Sys2Proof.Machine
end

section
/-! ## Urgency, PANIC and refresh (04 R145 to R155) -/

namespace Sys2Proof.Machine

namespace State

variable {s : State} {n : Nat}

/-! ### Urgency -/

/-- The age of a request stands in its controller's queues. -/
theorem ageReq_rest (s : State) (n : Nat) (port : PPort) (level : Nat) :
    s.ageReq n port level = { s with pond := { s.pond with bq := (s.ageReq n port level).pond.bq } } := by
  unfold State.ageReq
  split <;> rfl

/-- A request that reaches a level below 3 ages and is not counted; one that reaches level 3 counts its port's target miss. -/
theorem exec_urgencyThreshold {pch : Fin 384} (port : PPort) (works : s.pchWorks pch = true) :
    exec (.urgencyThreshold pch port .p50) s = .next (s.ageReq pch port 1) ∧
    exec (.urgencyThreshold pch port .p75) s = .next (s.ageReq pch port 2) ∧
    exec (.urgencyThreshold pch port .p100) s = .next { s.ageReq pch port 3 with pond := { (s.ageReq pch port 3).pond with
      missHost := if port = .host then satInc s.pond.missHost else s.pond.missHost
      missWick := if port = .wick then satInc s.pond.missWick else s.pond.missWick
      missCodec := if port = .codec then satInc s.pond.missCodec else s.pond.missCodec
      missMove := if port = .move then satInc s.pond.missMove else s.pond.missMove } } := by
  have heard : ¬ s.pchWorks pch = false := by simp [works]
  refine ⟨?half, ?threeQuarters, ?whole⟩
  case half | threeQuarters =>
    simp only [exec, execUrgencyThreshold, if_neg heard, urgLevel]
    rfl
  case whole =>
    simp only [exec, execUrgencyThreshold, if_neg heard, urgLevel]
    rw [ageReq_rest]
    cases port <;> rfl

/-! ### PANIC -/

/-- The refresh debt of a controller is repaid (04 R152). -/
def repay (t : State) (m : Nat) : State := t.setPch m { t.pch m with debt := [] }

theorem repay_sets (t : State) (m : Nat) : t.Sets m (t.repay m) := setPch_sets _ _ _

theorem debt_foldl_repay {l : List Nat} (h : n ∈ l) : ((l.foldl State.repay s).pch n).debt = [] := by
  obtain ⟨u, -, -, turn⟩ := Sets.foldl_of_mem (s := s) repay_sets h
  rw [turn, State.repay, pch_setPch]

/-- A half that signals for the first time presents PANIC to its list and counts it; no pseudo-channel leaves PANIC. -/
theorem presentPanic_of_quiet {half : Nat} (quiet : s.pond.panic.has half = false) (l : List Nat) :
    s.presentPanic half l = { s with pond := { s.pond with
      panic := s.pond.panic.put half l
      asserts := (l.filter (fun n => !s.pchPanic n)).foldl (fun v _ => satInc v) s.pond.asserts } } := by
  have absent : s.pond.panic.find half = none := by simpa [Tbl.has] using quiet
  simp only [State.presentPanic, Tbl.getD, absent, Option.getD_none, List.filter_nil, List.foldl_nil]

theorem exec_panicAssert {half : Fin 16} (quiet : s.pond.panic.has half = false) (streams : ∃ x ∈ s.ports.streams, x.half = half.val) :
    exec (.panicAssert half) s = .next (s.presentPanic half (s.aheadPchs half)) := by
  have heard : ¬ (s.pond.panic.has half ∨ s.ports.streams.all (fun t => t.half != half.val)) := by
    simpa [quiet] using streams
  simp only [exec, execPanicAssert, if_neg heard]

/-- What a half presents PANIC to is under PANIC. -/
theorem pchPanic_of_find {half : Nat} {l : List Nat} (presented : s.pond.panic.find half = some l) (h : n ∈ l) : s.pchPanic n = true :=
  List.any_eq_true.mpr ⟨(half, l), Tbl.find_mem presented, by simpa using h⟩

/-- The only half that signals withdraws PANIC: every pseudo-channel of its list repays. -/
theorem clearPanic_of_alone {half : Nat} {l : List Nat} (alone : s.pond.panic = [(half, l)]) :
    s.clearPanic half = l.foldl State.repay { s with pond := { s.pond with panic := [] } } := by
  have list : s.pond.panic.getD half [] = l := by simp [alone, Tbl.getD, Tbl.find]
  have rest : s.pond.panic.del half = [] := by simp [alone, Tbl.del]
  simp only [State.clearPanic, list, rest, State.pchPanic, List.any_nil, Bool.not_false, List.filter_true]
  rfl

/-! ### Refresh and power-down -/

theorem exec_refreshDue {pch : Fin 384} {bank : Fin 64} (works : s.pchWorks pch = true) (thermal : (s.pch pch).steady = false)
    (idle : (s.pch pch).training = false) (panic : s.pchPanic pch = true) :
    exec (.refreshDue pch bank) s = .next (
      if (s.pch pch).debt.getD bank 0 < s.postpone then
        s.setPch pch { s.pch pch with debt := (s.pch pch).debt.put bank ((s.pch pch).debt.getD bank 0 + 1) }
      else { s with pond := { s.pond with forced := satInc s.pond.forced } }) := by
  simp [exec, execRefreshDue, works, thermal, idle, panic]

end State

/-- Settles O9: each event by the equation of its command. -/
theorem pondUrgencyAndRefresh : Obligations.PondUrgencyAndRefresh := by
  unfold Obligations.PondUrgencyAndRefresh
  refine ⟨fun s pch port works => State.exec_urgencyThreshold port works, fun s half quiet streams => ?assert, fun s half l alone => ?clear,
    fun s pch bank works thermal idle panic room => ?postponed, fun s pch bank works thermal idle panic full => ?forced,
    fun s pch works steady => ?steady, fun s pch works change panic => ?mode, fun s pch sid works low high free out => ?down⟩
  case assert =>
    have presents := s.presentPanic_of_quiet quiet (s.aheadPchs half)
    have found : (s.presentPanic half (s.aheadPchs half)).pond.panic.find half = some (s.aheadPchs half) := by
      rw [presents]
      exact Tbl.find_put_same _ _ _
    refine ⟨_, State.exec_panicAssert quiet streams, found, fun n h => State.pchPanic_of_find found h, ?_⟩
    rw [presents]
  case clear =>
    have cleared := State.Sets.foldl State.repay_sets l { s with pond := { s.pond with panic := [] } }
    refine ⟨_, rfl, ?_⟩
    rw [State.clearPanic_of_alone alone]
    refine ⟨?_, fun n h => State.debt_foldl_repay h, ?_⟩
    · rw [cleared]
    · exact cleared
  case postponed => rw [State.exec_refreshDue works thermal idle panic, if_pos room]
  case forced => rw [State.exec_refreshDue works thermal idle panic, if_neg (Nat.not_lt.mpr full)]
  case steady => simp [exec, execSteadyRefreshDue, works, steady]
  case mode => simp [exec, execRefModeBoundary, works, change, panic]
  case down =>
    have timed : (s.pch pch).pdTimer ≠ 0 := by
      intro zero
      simp [zero] at low
    have heard : ¬ (s.pchWorks pch = false ∨ (s.pch pch).pdTimer = 0 ∨ 256 < (s.pch pch).pdTimer.toNat ∨ s.pdHeld pch = true ∨
        (s.pch pch).pd.contains sid.val = true) := by
      simp only [works, timed, Nat.not_lt.mpr high, free, out]
      decide
    simp only [exec, execPdTimerExpiry, if_neg heard]

end Sys2Proof.Machine
end

section
/-! ## Temperature, retraining, corrections and command parity (04 R151, R157 to R165; 13 R482) -/

namespace Sys2Proof.Machine

/-- Below 95 °C a stack without a throttle level gets none (13 R482). -/
theorem thrLevel_of_cool {v : Int} (cool : v < 95) : thrLevel 0 v = 0 := by
  unfold thrLevel
  split_ifs <;> omega

namespace State

variable {s t : State} {n : Nat}

theorem setPch_setPch (s : State) (n : Nat) {p q : Pch} (hp : p.svc = true) (hq : q.svc = true) : (s.setPch n p).setPch n q = s.setPch n q := by
  simp only [State.setPch, Tbl.set, if_neg (Pch.ne_reset_of_svc hp), if_neg (Pch.ne_reset_of_svc hq), Tbl.put_put]

/-! ### A retrain becomes due (R158) -/

theorem needTrain_sets (s : State) (n : Nat) (cause : BitVec 3) : s.Sets n (s.needTrain n cause) := by
  unfold State.needTrain
  extract_lets p
  refine .ite (.refl s n) ?_
  split
  exacts [setPch_sets _ _ _, setPch_sets _ _ _]

theorem needTrain_of_idle (svc : (s.pch n).svc = true) (free : s.pchFenced n = false) (idle : (s.pch n).due = none) (cause : BitVec 3) :
    s.needTrain n cause =
      s.setPch n { s.pch n with due := some { cause := cause, err := cause == 2, forced := false, running := false } } := by
  simp [State.needTrain, svc, free, idle]

/-! ### Temperature (R151; 13 R482) -/

/-- A temperature makes a retrain due where it has drifted 15 °C from the controller's last training (R158). -/
def driftTrain (v : W16) (t : State) (n : Nat) : State :=
  if 15 ≤ v.toInt - (t.pch n).tTrain.toInt ∨ v.toInt - (t.pch n).tTrain.toInt ≤ -15 then t.needTrain n 1 else t

theorem driftTrain_sets (v : W16) (t : State) (n : Nat) : t.Sets n (t.driftTrain v n) := .ite (needTrain_sets _ _ _) (.refl _ _)

theorem due_driftTrain (v : W16) (svc : (s.pch n).svc = true) (free : s.pchFenced n = false) (idle : (s.pch n).due = none) :
    ((s.driftTrain v n).pch n).due.isSome = decide (15 ≤ v.toInt - (s.pch n).tTrain.toInt ∨ v.toInt - (s.pch n).tTrain.toInt ≤ -15) := by
  unfold driftTrain
  split
  case isTrue drifts => rw [needTrain_of_idle svc free idle, pch_setPch, decide_eq_true drifts]; rfl
  case isFalse near => rw [idle, decide_eq_false near]; rfl

/-- Below 95 °C a stack without a throttle level keeps none. -/
theorem stackHeat_of_cool {k : Nat} {v : W16} (free : s.stackFenced k = false) (level : s.pwr.thr.getD k 0 = 0) (cool : v.toInt < 95) :
    ∃ p : PwrS, s.stackHeat k v = { s with pwr := p } ∧ p.thr.getD k 0 = 0 := by
  have hot : ¬ 105 ≤ v.toInt := by omega
  have e : s.stackHeat k v = ({ s with pwr := { s.pwr with thr := s.pwr.thr.put k 0 } } : State).countThr s := by
    simp only [State.stackHeat, free, level, thrLevel_of_cool cool, if_neg hot, Nat.lt_irrefl, if_false, Bool.false_eq_true]
  exact ⟨_, e, Tbl.getD_put_same _ _ _ _⟩

/-- The temperature record of a stack is written. -/
def setStk (s : State) (k : Nat) (y : Stk) : State := { s with pond := { s.pond with stk := s.pond.stk.set k .reset y } }

theorem stk_setStk (s : State) (k : Nat) (y : Stk) : (s.setStk k y).stk k = y := Tbl.getD_set_same _ _ _ _

/-- A good reading: the stack's record holds it, the throttle follows it, and every controller of the stack is looked at for drift. -/
theorem exec_stackTempRead {stack : Fin 12} {v : W16} (awake : s.sled.st ≠ .off) (alive : s.sled.st ≠ .dead)
    (good : goodTemp (s.stk stack).last v = true) :
    ∃ y : Stk, y.tNow = v ∧ y.valid = true ∧ v.toInt ≤ y.tMax.toInt ∧ exec (.stackTempRead stack (some v)) s =
      .next (((List.range 32).map (fun i => 32 * stack.val + i)).foldl (State.driftTrain v) ((s.setStk stack y).stackHeat stack v)) := by
  have e : exec (.stackTempRead stack (some v)) s = execStackTempRead stack (some v) s := rfl
  have read : (some v).filter (goodTemp (s.stk stack).last) = some v := by simp [good]
  simp only [e, List.foldl_map]
  unfold execStackTempRead
  extract_lets x put lost
  split
  · exact absurd ‹_› awake
  · exact absurd ‹_› alive
  · rw [read]
    refine ⟨_, ?_, ?_, ?_, rfl⟩
    · rfl
    · rfl
    · dsimp only
      split
      case isTrue below => exact below.2
      case isFalse => exact le_refl _

/-- The temperature read, its stack's throttle, and the retrains that its drift makes due. -/
theorem stackTempRead_reads {stack : Fin 12} {v : W16} (awake : s.sled.st ≠ .off) (alive : s.sled.st ≠ .dead)
    (good : goodTemp (s.stk stack).last v = true) (cool : v.toInt < 95) (level : s.pwr.thr.getD stack 0 = 0) (free : s.stackFenced stack = false) :
    ∃ t, exec (.stackTempRead stack (some v)) s = .next t ∧ (t.stk stack).tNow = v ∧ (t.stk stack).valid = true ∧
      v.toInt ≤ (t.stk stack).tMax.toInt ∧ t.pwr.thr.getD stack 0 = 0 ∧
      (∀ n : Fin 384, n.val / 32 = stack.val → (s.pch n).svc = true → s.pchFenced n = false → (s.pch n).due = none →
        ((t.pch n).due.isSome = decide (15 ≤ v.toInt - (s.pch n).tTrain.toInt ∨ v.toInt - (s.pch n).tTrain.toInt ≤ -15))) ∧ s.DataKept t := by
  obtain ⟨y, now, valid, highest, e⟩ := exec_stackTempRead awake alive good
  obtain ⟨p, heat, cold⟩ := stackHeat_of_cool (s := s.setStk stack y) free level cool
  rw [heat] at e
  have rest := Sets.foldl (driftTrain_sets v) ((List.range 32).map (fun i => 32 * stack.val + i)) { s.setStk stack y with pwr := p }
  have record := rest.stk_eq stack
  rw [show State.stk { s.setStk stack y with pwr := p } stack = y from stk_setStk s stack y] at record
  refine ⟨_, e, by rw [record, now], by rw [record, valid], by rw [record]; exact highest, by rw [rest.pwr_eq]; exact cold, ?_, ?_⟩
  · intro n of svc free idle
    have mem : n.val ∈ (List.range 32).map (fun i => 32 * stack.val + i) :=
      List.mem_map.mpr ⟨n.val % 32, List.mem_range.mpr (by omega), by omega⟩
    have once : ((List.range 32).map (fun i => 32 * stack.val + i)).Nodup := List.nodup_range.map (fun i j h => by simpa using h)
    obtain ⟨u, before, same, turn⟩ := Sets.foldl_of_mem (s := { s.setStk stack y with pwr := p }) (driftTrain_sets v) mem
    have own : u.pch n = s.pch n := same once
    rw [turn, due_driftTrain v (by rw [own, svc]) (by rw [before.pchFenced_eq]; exact free) (by rw [own, idle]), own]
  · rw [rest]
    exact ⟨rfl, rfl, rfl, rfl, rfl⟩

/-! ### Retraining (R157 to R162) -/

/-- A controller after a retrain that found new settings. -/
def retrainedPch (s : State) (n : Nat) (d : Due) : Pch :=
  { s.pch n with
    due := none, trainCnt := satInc (s.pch n).trainCnt, cause := d.cause, tTrain := (s.stk (n / 32)).tNow.setWidth 8, parity := false
    errRuns := if d.err then (s.pch n).errRuns + 1 else (s.pch n).errRuns, errAt := if d.err then s.clk.ms else (s.pch n).errAt
    trainNo := s.pond.trainNo + 1 }

/-- The state after such a retrain, which counts among all trainings. -/
def afterRetrain (s : State) (n : Nat) (d : Due) : State :=
  State.setPch { s with pond := { s.pond with trainNo := s.pond.trainNo + 1 } } n (s.retrainedPch n d)

/-- A Banked permission that came during the retrain puts the controller into self-refresh (R174). -/
def retrained (s : State) (n : Nat) (d : Due) : State :=
  if (s.ledger (n / 32)).st = .banked then (s.afterRetrain n d).setPch n { (s.afterRetrain n d).pch n with selfRef := true, debt := [], pd := [] }
  else s.afterRetrain n d

theorem pch_afterRetrain (s : State) (n : Nat) (d : Due) : (s.afterRetrain n d).pch n = s.retrainedPch n d := pch_setPch _ _ _

theorem bankDrain_of_empty (reqs : (s.bankQ n).reqs = []) (ports : (s.bankQ n).atPort = []) (held : ∀ x ∈ s.dir.held, x.why ≠ .bank) :
    s.bankDrain n = s := by
  have nobody : s.dir.held.filter (fun x => x.why == .bank) = [] := List.filter_eq_nil_iff.mpr (by simpa using held)
  simp [State.bankDrain, State.rerun, BankQ.drain, reqs, ports, nobody]

theorem retrained_rest (s : State) (n : Nat) (d : Due) :
    s.retrained n d = { s with pond := { s.pond with pch := (s.retrained n d).pond.pch, trainNo := s.pond.trainNo + 1 } } := by
  unfold retrained
  split <;> rfl

theorem pch_retrained_ne {m : Nat} (d : Due) (h : m ≠ n) : (s.retrained n d).pch m = s.pch m := by
  have first : (s.afterRetrain n d).pch m = s.pch m := pch_setPch_ne _ _ h
  unfold retrained
  split
  exacts [(pch_setPch_ne _ _ h).trans first, first]

theorem pch_retrained (s : State) (n : Nat) (d : Due) :
    ((s.retrained n d).pch n).due = none ∧ ((s.retrained n d).pch n).trainCnt = satInc (s.pch n).trainCnt ∧
    ((s.retrained n d).pch n).cause = d.cause ∧ ((s.retrained n d).pch n).tTrain = (s.stk (n / 32)).tNow.setWidth 8 ∧
    ((s.retrained n d).pch n).parity = false := by
  unfold retrained
  split
  · rw [pch_setPch, pch_afterRetrain]
    exact ⟨rfl, rfl, rfl, rfl, rfl⟩
  · rw [pch_afterRetrain]
    exact ⟨rfl, rfl, rfl, rfl, rfl⟩

theorem exec_retrainDone {pch : Fin 384} {d : Due} (due : (s.pch pch).due = some d) (runs : d.running = true) (reqs : (s.bankQ pch).reqs = [])
    (ports : (s.bankQ pch).atPort = []) (held : ∀ x ∈ s.dir.held, x.why ≠ .bank) :
    exec (.retrainDone pch true) s = .next (s.retrained pch d) := by
  have drained : (s.retrained pch d).bankDrain pch = s.retrained pch d := by
    have rest := s.retrained_rest pch d
    apply bankDrain_of_empty
    · rw [rest]; exact reqs
    · rw [rest]; exact ports
    · rw [rest]; exact held
  have e : exec (.retrainDone pch true) s = .next ((s.retrained pch d).bankDrain pch) := by
    simp only [exec, execRetrainDone, due, runs, Bool.true_eq_false, if_false, if_true]
    rfl
  rw [e, drained]

/-! ### The window of corrected sectors (R158, R161) -/

/-- A window above the threshold, with no retrain for error rate before: the event is posted and a retrain is due. -/
theorem ceWindowEnd_above {pch : Fin 384} (svc : (s.pch pch).svc = true) (free : s.pchFenced pch = false) (idle : (s.pch pch).due = none)
    (awake : s.sled.st ≠ .off) (above : s.ceThresh < (s.pch pch).window) (first : (s.pch pch).errRuns = 0) :
    ∃ t, exec (.ceWindowEnd pch) s = .next t ∧ (t.pch pch).window = 0 ∧
      (t.pch pch).due = some { cause := 2, err := true, forced := false, running := false } ∧ s.Posted t 0x0101 8 pch.val ∧ s.DataKept t := by
  have counts : ¬ ((s.pch pch).window ≤ s.ceThresh ∨ (s.pch pch).svc = false ∨ s.pchFenced pch = true) := by
    simp [svc, free, above]
  let s1 := s.setPch pch { s.pch pch with window := 0 }
  let s2 := s1.post (pairPost .pchCeHigh 8 pch (s.pch pch).window s.ceThresh)
  let s3 := s2.setPch pch { s2.pch pch with errRuns := 0 }
  have e : exec (.ceWindowEnd pch) s = .next (s3.needTrain pch 2) := by
    simp only [exec, execCeWindowEnd, if_neg counts, if_pos (Or.inl first)]
    rfl
  have told : s1.OnlyTold s2 := State.post_told _ _
  have same : s2.pch pch = { s.pch pch with window := 0 } := by
    rw [State.pch, told.pond_eq]
    exact pch_setPch _ _ _
  have own : s3.pch pch = { s.pch pch with window := 0, errRuns := 0 } := by
    rw [pch_setPch, same]
  have fences : s3.pchFenced pch = false := by
    rw [(setPch_sets s2 pch _).rest.pchFenced_eq, State.pchFenced, State.fenced, State.fenced, told.fmap]
    exact free
  have due := needTrain_of_idle (s := s3) (by rw [own]; exact svc) fences (by rw [own]; exact idle) 2
  have rest : s2.Controlled (s3.needTrain pch 2) := (setPch_sets s2 pch _).rest.trans (needTrain_sets _ _ _).rest
  refine ⟨_, e, ?_, ?_, ?_, ?_⟩
  · rw [due, pch_setPch, own]
  · rw [due, pch_setPch]
    rfl
  · refine posted_of_post (p := pairPost .pchCeHigh 8 pch (s.pch pch).window s.ceThresh) (t := s1) (n := 0) (le_refl _) rfl awake
      (.none ?_ ?_) (Nat.zero_le _) rfl rfl ?_
    · rw [rest.evt_eq]
    · rw [rest.evt_eq]
    · exact Nat.mod_eq_of_lt (pch.isLt.trans (by decide))
  · have kept := rest.dataKept
    exact ⟨kept.mem.trans told.mem_eq, kept.map.trans told.map_eq, kept.rt.trans told.rt_eq,
      kept.dir.trans told.dir_eq, kept.lake.trans told.lake_eq⟩

/-! ### Scrub (R149, R164, R165) -/

/-- A sector corrected in one symbol leaves its segment where it is. -/
theorem mend_of_single (s : State) (r : RegionId) (seg : Nat) (l : Loc) (pick : W32) : s.mend r seg l (.corrected 1) pick = s := rfl

/-- The scrub of a sector that needs one correction reads it and counts the correction. -/
theorem exec_scrubDue_corrected {pch : Fin 384} {sector : BitVec 23} {pick : W32} {k : Nat} {l : Loc} (works : s.pchWorks pch = true)
    (calm : s.pchPanic pch = false) (idle : (s.pch pch).training = false) (scrubs : s.pond.errctl.extractLsb' 16 8 ≠ 0)
    (used : s.sectorUse (pch.val * 2 ^ 23 + sector.toNat) = some (k, l)) :
    exec (.scrubDue pch sector (.corrected 1) pick) s =
      .next ((s.wakeSid (.near false (pch.val * 2 ^ 23 + sector.toNat)) 1 .move 3).corrected (.near false (pch.val * 2 ^ 23 + sector.toNat)) 1) := by
  have heard : ¬ (s.pchWorks pch = false ∨ s.pond.errctl.extractLsb' 16 8 = 0 ∨ s.pchPanic pch = true ∨ (s.pch pch).training = true) := by
    simp only [works, scrubs, calm, idle]
    decide
  simp only [exec, execScrubDue, if_neg heard, used, chkFails, mend_of_single, Bool.false_eq_true, if_false]
  rfl

/-- A read of a controller that has no SID in power-down leaves the controllers as they are. -/
theorem pch_wakeSid_of_awake {a : Nat} (m len : Nat) (port : PPort) (cls : Nat) (up : (s.pch (a / 2 ^ 23)).pd = []) :
    (s.wakeSid (.near false a) len port cls).pch m = s.pch m := by
  simp only [State.wakeSid, up, List.isEmpty_nil, if_true]
  rfl

theorem scrubDue_counts {pch : Fin 384} {sector : BitVec 23} {pick : W32} {k : Nat} {l : Loc} (works : s.pchWorks pch = true)
    (calm : s.pchPanic pch = false) (idle : (s.pch pch).training = false) (scrubs : s.pond.errctl.extractLsb' 16 8 ≠ 0)
    (used : s.sectorUse (pch.val * 2 ^ 23 + sector.toNat) = some (k, l)) (up : (s.pch pch).pd = []) :
    ∃ t, exec (.scrubDue pch sector (.corrected 1) pick) s = .next t ∧ (t.pch pch).ce1 = satInc (s.pch pch).ce1 ∧
      (t.pch pch).window = (s.pch pch).window + 1 ∧ t.mem = s.mem ∧ t.map = s.map ∧ t.rt = s.rt ∧ t.dir = s.dir := by
  have place : (pch.val * 2 ^ 23 + sector.toNat) / 2 ^ 23 = pch.val := by
    have low := sector.isLt
    omega
  have run := exec_scrubDue_corrected (pick := pick) works calm idle scrubs used
  generalize pch.val * 2 ^ 23 + sector.toNat = a at place run
  have same := pch_wakeSid_of_awake (s := s) (a := a) pch 1 .move 3 (by rw [place]; exact up)
  have rest := s.wakeSid_rest (.near false a) 1 .move 3
  generalize s.wakeSid (.near false a) 1 .move 3 = u at run same rest
  have own : ((u.corrected (.near false a) 1).pch pch).ce1 = satInc (u.pch pch).ce1 ∧
      ((u.corrected (.near false a) 1).pch pch).window = (u.pch pch).window + 1 := by
    simp only [State.corrected, place, pch_setPch, if_true, and_self]
  refine ⟨_, run, by rw [own.1, same], by rw [own.2, same], ?_⟩
  rw [rest]
  exact ⟨rfl, rfl, rfl, rfl⟩

end State

/-- Settles O10: each command by its equation; drifts controller by controller, each looked at once. -/
theorem pondTemperatureAndRetraining : Obligations.PondTemperatureAndRetraining := by
  unfold Obligations.PondTemperatureAndRetraining
  refine ⟨fun s stack v awake alive good _ cool level free => State.stackTempRead_reads awake alive good cool level free,
    fun s pch svc free idle => ?command, fun s pch d turn due => ?start, fun s pch d due waits panic => ?timeout,
    fun s pch d due runs reqs ports held => ?done,
    fun s pch svc free idle awake above first => State.ceWindowEnd_above svc free idle awake above first, fun s pch below => ?below,
    fun s pch works first => ?first, fun s pch works again idle => ?again,
    fun s pch sector pick k l works calm idle scrubs used up => State.scrubDue_counts works calm idle scrubs used up⟩
  case command =>
    simp only [exec, execRetrainRequest, State.needTrain_of_idle svc free idle]
    rfl
  case start => simp [exec, execRetrainStart, turn, due]
  case timeout => simp [exec, execRetrainPanicTimeout, due, waits, panic]
  case done =>
    obtain ⟨ended, counted, cause, temp, parity⟩ := s.pch_retrained pch d
    refine ⟨_, State.exec_retrainDone due runs reqs ports held, ended, counted, cause, temp, parity, fun n h => State.pch_retrained_ne d h, ?_⟩
    rw [s.retrained_rest pch d]
  case below => simp [exec, execCeWindowEnd, below]
  case first => simp [exec, execCommandParityError, works, first]
  case again =>
    obtain ⟨svc, free, -⟩ := State.pchWorks_iff.mp works
    let p : Pch := { s.pch pch with parity := false, capar := satInc (s.pch pch).capar }
    have e : exec (.commandParityError pch) s = .next ((s.setPch pch p).needTrain pch 3) := by
      simp only [exec, execCommandParityError, works, again, Bool.true_eq_false, if_false, if_true]
      rfl
    have own : (s.setPch pch p).pch pch = p := State.pch_setPch s pch p
    have fences : (s.setPch pch p).pchFenced pch = false := free
    rw [e, State.needTrain_of_idle (by rw [own]; exact svc) fences (by rw [own]; exact idle), own,
      State.setPch_setPch _ _ (by exact svc) (by exact svc)]
    rfl

end Sys2Proof.Machine
end

section
/-! ## Fences of Pond's units (14 R502 to R505)

A fence of a pseudo-channel or a stack sets Fence Map bits of Pond alone, so it never takes the last Lantern, and it leaves every segment in its
place. -/

namespace Sys2Proof.Machine

/-- Pseudo-channels and stacks. -/
def FUnit.ofPond : FUnit → Bool
  | .pch _ | .stack _ => true
  | _ => false

/-- The bits of Pond's units lie above those of the Lanterns. -/
theorem FUnit.le_bit_of_ofPond {v : FUnit} (h : v.ofPond = true) : 148 ≤ v.bit := by
  cases v with
  | pch n => exact Nat.le_add_right 148 n
  | stack n => exact Nat.le_add_right_of_le (by decide)
  | _ => cases h

/-- A written entry is outside a filter that does not take its key. -/
theorem Tbl.filter_put {α : Type} (t : Tbl α) {n : Nat} (x : α) {p : Nat × α → Bool} (out : ∀ y, p (n, y) = false) :
    (t.put n x).filter p = t.filter p := by
  induction t with
  | nil => simp [Tbl.put, out]
  | cons q t ih =>
    obtain ⟨k, v⟩ := q
    simp only [Tbl.put]
    split_ifs with lower same
    · simp [out]
    · subst same
      simp [out]
    · simp [List.filter_cons, ih]

namespace State

/-- A state after units of Pond were fenced and that was told: the Fence Map and its copies, what PANIC names and the throttle levels have changed,
and no Lantern is fenced. -/
structure PondFencing (s t : State) : Prop where
  rest : t = { s with
    pond := { s.pond with panic := t.pond.panic }, pwr := { s.pwr with thr := t.pwr.thr }, evt := t.evt, fw := t.fw, trc := t.trc, out := t.out
    ports := { s.ports with fn := t.ports.fn } }
  lanterns : t.fencedIn 96 100 = s.fencedIn 96 100

variable {s t u : State} {n m : Nat}

namespace PondFencing

theorem refl (s : State) : s.PondFencing s := ⟨rfl, rfl⟩

theorem trans (a : s.PondFencing t) (b : t.PondFencing u) : s.PondFencing u := by
  refine ⟨?_, b.lanterns.trans a.lanterns⟩
  have h := b.rest
  rw [a.rest] at h
  exact h

theorem foldl {α : Type} {f : State → α → State} {l : List α} (hf : ∀ (t : State), ∀ a ∈ l, t.PondFencing (f t a)) :
    s.PondFencing (l.foldl f s) := by
  induction l generalizing s with
  | nil => exact .refl s
  | cons a l ih => exact (hf s a List.mem_cons_self).trans (ih fun t b h => hf t b (List.mem_cons_of_mem a h))

theorem sled_eq (a : s.PondFencing t) : t.sled = s.sled := by rw [a.rest]
theorem mem_eq (a : s.PondFencing t) : t.mem = s.mem := by rw [a.rest]
theorem rt_eq (a : s.PondFencing t) : t.rt = s.rt := by rw [a.rest]
theorem map_eq (a : s.PondFencing t) : t.map = s.map := by rw [a.rest]

end PondFencing

theorem OnlyTold.pondFencing (a : s.OnlyTold t) : s.PondFencing t := by
  refine ⟨?_, by rw [State.fencedIn, a.fmap]; rfl⟩
  rw [a.rest]

theorem setBit_pondFencing {v : FUnit} (pond : v.ofPond = true) (cause : Byte) : s.PondFencing (s.setBit v cause) := by
  unfold State.setBit
  split
  · exact .refl s
  · refine ⟨rfl, congrArg List.length (Tbl.filter_put _ _ fun y => decide_eq_false ?_)⟩
    have place := FUnit.le_bit_of_ofPond pond
    simp only
    omega

theorem ofPond_of_mem_implied {v w : FUnit} (pond : v.ofPond = true) (h : w ∈ s.implied v) : w.ofPond = true := by
  cases v with
  | pch k =>
    simp only [State.implied] at h
    split at h
    · obtain rfl := List.mem_singleton.mp (List.mem_filter.mp h).1
      rfl
    · cases h
  | stack k =>
    obtain ⟨y, -, rfl⟩ := List.mem_map.mp (List.mem_filter.mp h).1
    rfl
  | _ => cases pond

theorem setBits_pondFencing {v : FUnit} (pond : v.ofPond = true) (cause : Byte) : s.PondFencing (s.setBits v cause) :=
  (setBit_pondFencing pond cause).trans (.foldl fun _ _ h => setBit_pondFencing (ofPond_of_mem_implied pond h) _)

/-- Reasons of REPLACE_ADVISED are noted as advised (R515). -/
def advising (s : State) (fresh : List Nat) : State := { s with evt := { s.evt with advised := fresh.reverse ++ s.evt.advised } }

/-- An event posts with one record for each new reason. -/
theorem postAdvising_eq (s : State) (p : Post) (reasons : List Nat) : ∃ fresh : List Nat, fresh.length ≤ reasons.length ∧
    s.postAdvising p reasons = (s.advising fresh).postAll (p :: fresh.map (fun r => pairPost .replaceAdvised 0 0 r 0)) :=
  ⟨_, List.length_filter_le _ _, rfl⟩

theorem postAdvising_pondFencing {p : Post} {reasons : List Nat} : s.PondFencing (s.postAdvising p reasons) := by
  obtain ⟨fresh, -, e⟩ := s.postAdvising_eq p reasons
  rw [e]
  exact PondFencing.trans (t := s.advising fresh) ⟨rfl, rfl⟩ (State.postAll_told _ _).pondFencing

theorem fenceWork_pondFencing {v : FUnit} (pond : v.ofPond = true) (cause : Byte) : s.PondFencing (s.fenceWork v cause) := by
  have opened : s.PondFencing (if s.inService then s.openRecov v cause else s) := by
    split
    exacts [⟨rfl, rfl⟩, .refl s]
  cases v with
  | pch k => exact opened.trans ⟨rfl, rfl⟩
  | stack k => exact opened.trans ⟨rfl, rfl⟩
  | _ => cases pond

theorem fenceWork_adds {v : FUnit} (pond : v.ofPond = true) (cause : Byte) : s.Adds 0 (s.fenceWork v cause) := by
  have opened : s.Adds 0 (if s.inService then s.openRecov v cause else s) := .ite (.none rfl rfl) (.refl s)
  cases v with
  | pch k => exact Adds.trans (m := 0) opened (.none rfl rfl)
  | stack k => exact Adds.trans (m := 0) opened (.none rfl rfl)
  | _ => cases pond

/-- A fence of one unit that is in service: its bits, its event, and what it and the stack that goes with it lose. -/
theorem fenceAll_one {v : FUnit} (free : s.fenced v = false) (cause : Byte) (setter : Nat) :
    ∃ along : List FUnit, (∀ w ∈ along, w ∈ s.implied v) ∧ s.fenceAll [v] cause setter =
      ((s.setBits v cause).postAdvising (fencePost (v.ev cause.toNat) v.obj.1 v.obj.2 cause.toNat setter ((s.implied v).length + 1))
        (s.setBits v cause).fenceReasons).fenceWorks v along cause := by
  have own : [v].filter (fun u => !s.fenced u) = [v] := by simp [free]
  unfold State.fenceAll
  rw [own]
  simp only [List.append_nil]
  exact ⟨_, fun w h => (List.mem_filter.mp h).1, rfl⟩

theorem fenceWorks_pondFencing {v : FUnit} {along : List FUnit} (pond : v.ofPond = true) (also : ∀ w ∈ along, w.ofPond = true) (cause : Byte) :
    s.PondFencing (s.fenceWorks v along cause) :=
  (fenceWork_pondFencing pond cause).trans (.foldl fun _ w h => fenceWork_pondFencing (also w h) _)

theorem fenceAll_pondFencing {v : FUnit} (pond : v.ofPond = true) (cause : Byte) (setter : Nat) : s.PondFencing (s.fenceAll [v] cause setter) := by
  cases free : s.fenced v with
  | true =>
    rw [show s.fenceAll [v] cause setter = s by simp [State.fenceAll, free]]
    exact .refl s
  | false =>
    obtain ⟨along, also, e⟩ := s.fenceAll_one free cause setter
    rw [e]
    exact (setBits_pondFencing pond cause).trans (postAdvising_pondFencing.trans
      (fenceWorks_pondFencing pond (fun w h => ofPond_of_mem_implied pond (also w h)) cause))

/-- A fence of a unit of Pond is no cause of VIGIL. -/
theorem fenceUnit_ofPond {v : FUnit} (pond : v.ofPond = true) (cause : Byte) (setter : Nat) :
    s.fenceUnit v cause setter = s.fenceAll [v] cause setter := by
  have same := (s.fenceAll_pondFencing pond cause setter).lanterns
  unfold State.fenceUnit State.fenceUnits
  exact if_neg (fun h => h.2 (same.symm.trans h.1))

theorem fenceUnit_pondFencing {v : FUnit} (pond : v.ofPond = true) (cause : Byte) (setter : Nat) : s.PondFencing (s.fenceUnit v cause setter) := by
  rw [fenceUnit_ofPond pond]
  exact fenceAll_pondFencing pond cause setter

/-! ### The event of a fence -/

theorem insertPost_perm (p : Post) (l : List Post) : (insertPost p l).Perm (p :: l) := by
  induction l with
  | nil => exact .refl _
  | cons q l ih =>
    unfold insertPost
    split
    exacts [(ih.cons q).trans (.swap p q l), .refl _]

theorem foldl_insertPost_perm (l acc : List Post) : (l.foldl (fun acc p => insertPost p acc) acc).Perm (l ++ acc) := by
  induction l generalizing acc with
  | nil => exact .refl _
  | cons p l ih => exact (ih _).trans (((insertPost_perm p acc).append_left l).trans List.perm_middle)

/-- Each of a few records of one moment is in the ring after them. -/
theorem posted_of_postAll {l : List Post} {p : Post} (awake : s.sled.st ≠ .off) (h : p ∈ l) (after : (s.postAll l).Adds n u)
    (few : 2 * l.length + n ≤ 2000) {code okind obj : Nat} (hc : (p.toRec s.time).code.toNat = code)
    (hk : (p.toRec s.time).okind.toNat = okind) (ho : (p.toRec s.time).obj.toNat = obj) : s.Posted u code okind obj := by
  have perm := foldl_insertPost_perm l []
  rw [List.append_nil] at perm
  unfold State.postAll at after
  generalize l.foldl (fun acc p => insertPost p acc) [] = k at perm after
  obtain ⟨a, b, rfl⟩ := List.append_of_mem (perm.mem_iff.mpr h)
  have size : b.length ≤ l.length := by
    rw [← perm.length_eq, List.length_append, List.length_cons]
    omega
  have told : s.OnlyTold (a.foldl State.post s) := .foldl _ State.post_told a s
  rw [List.foldl_append, List.foldl_cons] at after
  exact posted_of_post told.posted (by rw [told.clk_eq]) (by rw [told.sled_eq]; exact awake) ((Adds.foldl (fun _ _ => post_adds) b _).trans after)
    (by omega) hc hk ho

/-- An event that is posted with its REPLACE_ADVISED records is in the ring after them. -/
theorem posted_of_postAdvising {p : Post} {reasons : List Nat} (awake : s.sled.st ≠ .off) (after : (s.postAdvising p reasons).Adds n u)
    (few : 2 * reasons.length + n ≤ 1000) {code okind obj : Nat} (hc : (p.toRec s.time).code.toNat = code)
    (hk : (p.toRec s.time).okind.toNat = okind) (ho : (p.toRec s.time).obj.toNat = obj) : s.Posted u code okind obj := by
  obtain ⟨fresh, fewer, e⟩ := s.postAdvising_eq p reasons
  rw [e] at after
  refine posted_of_postAll (s := s.advising fresh) awake List.mem_cons_self after ?_ hc hk ho
  rw [List.length_cons, List.length_map]
  omega

theorem fenceReasons_length : s.fenceReasons.length ≤ 5 := by
  unfold State.fenceReasons
  simp only [List.length_append]
  have one (c : Prop) [Decidable c] (r : Nat) : (if c then [r] else []).length ≤ 1 := by
    split <;> simp
  have h1 := one (0 < s.fencedIn 532 544) 1
  have h2 := one (8 < s.fencedIn 148 532) 2
  have h3 := one (4 < s.fencedIn 0 96) 3
  have h4 := one (0 < s.fencedIn 96 100) 4
  have h5 := one (16 < s.fencedIn 560 1584) 8
  omega

theorem fenceWorks_adds {v : FUnit} {along : List FUnit} (pond : v.ofPond = true) (also : ∀ w ∈ along, w.ofPond = true) (cause : Byte) :
    s.Adds 0 (s.fenceWorks v along cause) := by
  have rest {t : State} (l : List FUnit) (h : ∀ w ∈ l, w.ofPond = true) : t.Adds 0 (l.foldl (fun (t : State) v => t.fenceWork v 0x0E) t) := by
    induction l generalizing t with
    | nil => exact .refl t
    | cons w l ih =>
      exact Adds.trans (m := 0) (fenceWork_adds (h w List.mem_cons_self) _) (ih fun x hx => h x (List.mem_cons_of_mem w hx))
  exact Adds.trans (m := 0) (fenceWork_adds pond cause) (rest along also)

/-- The fence of a unit of Pond is told with the code of its event and its object. -/
theorem fenceUnit_posts {v : FUnit} (pond : v.ofPond = true) (free : s.fenced v = false) (awake : s.sled.st ≠ .off) (cause : Byte) (setter : Nat)
    {code okind obj : Nat} (hc : (v.ev cause.toNat).info.1 % 2 ^ 16 = code) (hk : v.obj.1 % 2 ^ 8 = okind) (ho : v.obj.2 % 2 ^ 32 = obj) :
    s.Posted (s.fenceUnit v cause setter) code okind obj := by
  obtain ⟨along, also, e⟩ := s.fenceAll_one free cause setter
  have bits : s.PondFencing (s.setBits v cause) := setBits_pondFencing pond cause
  have later : s.Later true false (s.setBits v cause) := setBits_later
  rw [fenceUnit_ofPond pond, e]
  refine Posted.after (t := s.setBits v cause) ?_ (later.posted rfl) (later.time rfl)
  have few := (s.setBits v cause).fenceReasons_length
  exact posted_of_postAdvising (by rw [bits.sled_eq]; exact awake)
    (fenceWorks_adds pond (fun w h => ofPond_of_mem_implied pond (also w h)) cause) (by omega) hc hk ho

theorem fenced_fenceUnit (v : FUnit) (awake : s.sled.st ≠ .off) (cause : Byte) (setter : Nat) : (s.fenceUnit v cause setter).fenced v = true := by
  cases h : s.fenced v with
  | true => exact fenceUnit_later.fenced h
  | false => exact (fenceUnits_fences h awake cause setter).2.2 v List.mem_cons_self

/-- A fence of a stack fences each of its pseudo-channels (R504). -/
theorem fenced_pch_of_stack {k y : Nat} (free : s.fenced (.stack k) = false) (few : y < 32) (cause : Byte) (setter : Nat) :
    (s.fenceUnit (.stack k) cause setter).fenced (.pch (32 * k + y)) = true := by
  cases h : s.fenced (.pch (32 * k + y)) with
  | true => exact fenceUnit_later.fenced h
  | false =>
    obtain ⟨along, -, e⟩ := s.fenceAll_one free cause setter
    have implied : FUnit.pch (32 * k + y) ∈ s.implied (.stack k) :=
      List.mem_filter.mpr ⟨List.mem_map.mpr ⟨y, List.mem_range.mpr few, rfl⟩, by simp [h]⟩
    have bit : (s.setBits (.stack k) cause).fenced (.pch (32 * k + y)) = true := fenced_foldl_setBit implied
    rw [fenceUnit_ofPond rfl, e]
    exact (postAdvising_later.trans fenceWorks_later).fenced bit

end State

end Sys2Proof.Machine
end

section
/-! ## Pond's fences by its own events, and the end of its training (04 R175 to R178; 16 R563) -/

namespace Sys2Proof.Machine

namespace State

variable {s t u : State} {n : Nat}

/-! ### Fences -/

theorem pchStall_fences {pch : Fin 384} (works : s.pchWorks pch = true) (idle : (s.pch pch).training = false) (awake : s.sled.st ≠ .off) :
    ∃ t, exec (.pchStall pch) s = .next t ∧ t.fenced (.pch pch) = true ∧ t.evt.fmap.find (148 + pch.val) = some 4 ∧
      s.Posted t 0x0104 8 pch.val ∧ t.mem = s.mem ∧ t.rt = s.rt ∧ t.map = s.map := by
  have free : s.fenced (.pch pch) = false := (Bool.or_eq_false_iff.mp (pchWorks_iff.mp works).2.1).1
  have e : exec (.pchStall pch) s = .next (s.fenceUnit (.pch pch) 4 1) := by
    simp [exec, execPchStall, works, idle]
  have frame := s.fenceUnit_pondFencing (v := .pch pch) rfl 4 1
  obtain ⟨found, -, fenced⟩ := fenceUnits_fences (l := []) free awake 4 1
  exact ⟨_, e, fenced _ List.mem_cons_self, found,
    fenceUnit_posts rfl free awake 4 1 rfl rfl (Nat.mod_eq_of_lt (pch.isLt.trans (by decide))), frame.mem_eq, frame.rt_eq, frame.map_eq⟩

theorem stackInitTimeout_fences {stack : Fin 12} (trains : s.sled.boot = .pond) (awake : s.sled.st ≠ .off) (free : s.stackFenced stack = false) :
    ∃ t, exec (.stackInitTimeout stack) s = .next t ∧ t.evt.fmap.find (532 + stack.val) = some 0x0A ∧
      (∀ y : Fin 32, t.fenced (.pch (32 * stack.val + y.val)) = true) ∧ s.Posted t 0x0106 9 stack.val ∧ t.mem = s.mem ∧ t.rt = s.rt := by
  have e : exec (.stackInitTimeout stack) s = .next (s.fenceUnit (.stack stack) 0x0A 0) := by
    simp [exec, execStackInitTimeout, trains]
  have frame := s.fenceUnit_pondFencing (v := .stack stack) rfl 0x0A 0
  obtain ⟨found, -, -⟩ := fenceUnits_fences (l := []) free awake 0x0A 0
  exact ⟨_, e, found, fun y => fenced_pch_of_stack free y.isLt 0x0A 0,
    fenceUnit_posts rfl free awake 0x0A 0 rfl rfl (Nat.mod_eq_of_lt (stack.isLt.trans (by decide))), frame.mem_eq, frame.rt_eq⟩

/-! ### The end of training -/

/-- A controller that is not fenced enters service as the training of a number. -/
def startPch (no : Nat) (t : State) (n : Nat) : State :=
  if t.pchFenced n then t
  else t.setPch n { t.pch n with
    svc := true, selfRef := false, steady := (t.pch n).refMode, debt := [], pd := [], due := none, parity := false, cause := 0
    trainCnt := satInc (t.pch n).trainCnt, tTrain := (t.stk (n / 32)).tNow.setWidth 8, trainNo := no }

theorem startPch_sets (no : Nat) (t : State) (n : Nat) : t.Sets n (t.startPch no n) := .ite (.refl t n) (setPch_sets t n _)

/-- The pseudo-channels whose training has failed are fenced. -/
def fencePchs (s : State) (failed : List (Fin 384)) : State := (failed.map (fun f => f.val)).foldl (fun t n => t.fenceUnit (.pch n) 2 0) s

/-- All of Pond has entered service or is fenced. -/
def pondStarted (s : State) (failed : List (Fin 384)) : State :=
  let t := (List.range 384).foldl (fun t n => t.startPch (s.pond.trainNo + 1) n) (s.fencePchs failed)
  { t with pond := { t.pond with trainNo := s.pond.trainNo + 1 } }

theorem exec_pondStartupDone {failed : List (Fin 384)} (trains : s.sled.boot = .pond) :
    exec (.pondStartupDone failed) s = .next (
      if (s.pondStarted failed).pondOk then
        { s.pondStarted failed with sled := { (s.pondStarted failed).sled with boot := if (s.pondStarted failed).hasLake then .mount else .ready } }
      else (s.pondStarted failed).enterVigil 7) := by
  simp only [exec, execPondStartupDone, trains, ne_eq, not_true_eq_false, if_false, State.pondStarted, State.fencePchs, State.startPch]

theorem fencePchs_pondFencing (s : State) (failed : List (Fin 384)) : s.PondFencing (s.fencePchs failed) :=
  .foldl fun _ _ _ => fenceUnit_pondFencing rfl 2 0

theorem fencePchs_later (s : State) (failed : List (Fin 384)) : s.Later true false (s.fencePchs failed) := .foldl fun _ _ => fenceUnit_later

theorem fenced_foldl_fenceUnit {l : List Nat} (awake : s.sled.st ≠ .off) (h : n ∈ l) :
    (l.foldl (fun t n => t.fenceUnit (.pch n) 2 0) s).fenced (.pch n) = true := by
  induction l generalizing s with
  | nil => cases h
  | cons a l ih =>
    have frame := s.fenceUnit_pondFencing (v := .pch a) rfl 2 0
    rcases List.mem_cons.mp h with rfl | later
    · have rest : (s.fenceUnit (.pch n) 2 0).Later true false (l.foldl (fun t n => t.fenceUnit (.pch n) 2 0) (s.fenceUnit (.pch n) 2 0)) :=
        .foldl fun _ _ => fenceUnit_later
      exact rest.fenced (fenced_fenceUnit _ awake 2 0)
    · exact ih (by rw [frame.sled_eq]; exact awake) later

/-- Entering service changes controllers alone, and counts among all trainings. -/
theorem pondStarted_controlled (s : State) (failed : List (Fin 384)) :
    State.Controlled { s.fencePchs failed with pond := { (s.fencePchs failed).pond with trainNo := s.pond.trainNo + 1 } } (s.pondStarted failed) := by
  have rest := Sets.foldl (startPch_sets (s.pond.trainNo + 1)) (List.range 384) (s.fencePchs failed)
  unfold pondStarted
  generalize (List.range 384).foldl _ _ = t at rest ⊢
  rw [rest]
  rfl

theorem pch_pondStarted (s : State) (failed : List (Fin 384)) (n : Nat) :
    (s.pondStarted failed).pch n = ((List.range 384).foldl (State.startPch (s.pond.trainNo + 1)) (s.fencePchs failed)).pch n := by
  unfold pondStarted
  generalize (List.range 384).foldl _ _ = t
  rfl

theorem pchFenced_pondStarted (s : State) (failed : List (Fin 384)) (n : Nat) :
    (s.pondStarted failed).pchFenced n = (s.fencePchs failed).pchFenced n := (s.pondStarted_controlled failed).pchFenced_eq n

theorem sled_pondStarted (s : State) (failed : List (Fin 384)) : (s.pondStarted failed).sled = s.sled :=
  (s.pondStarted_controlled failed).sled_eq.trans (s.fencePchs_pondFencing failed).sled_eq

/-- A controller that is not fenced is in service, in the refresh mode it asks for. -/
theorem startPch_starts (no : Nat) (free : s.pchFenced n = false) :
    ((s.startPch no n).pch n).svc = true ∧ ((s.startPch no n).pch n).steady = (s.pch n).refMode := by
  simp only [startPch, free, Bool.false_eq_true, if_false, pch_setPch, and_self]

/-- Without a fence every pseudo-channel enters service, and Pond training has ended within the limits. -/
theorem pondStartupDone_serves (trains : s.sled.boot = .pond) (unset : s.evt.fmap = []) :
    ∃ t, exec (.pondStartupDone []) s = .next t ∧ (∀ n : Fin 384, (t.pch n).svc = true ∧ (t.pch n).steady = (s.pch n).refMode) ∧
      t.sled.boot = (if s.hasLake then .mount else .ready) ∧ s.DataKept t := by
  have free (v : FUnit) : s.fenced v = false := by
    rw [State.fenced, unset]
    rfl
  have unfenced (m : Nat) : s.pchFenced m = false := by rw [State.pchFenced, free, free]; rfl
  have rest : State.Controlled { s with pond := { s.pond with trainNo := s.pond.trainNo + 1 } } (s.pondStarted []) := s.pondStarted_controlled []
  have same : s.fencePchs [] = s := rfl
  have enters (n : Fin 384) : ((s.pondStarted []).pch n).svc = true ∧ ((s.pondStarted []).pch n).steady = (s.pch n).refMode := by
    obtain ⟨u, before, once, turn⟩ := Sets.foldl_of_mem (s := s) (startPch_sets (s.pond.trainNo + 1)) (List.mem_range.mpr n.isLt)
    have started := startPch_starts (s := u) (s.pond.trainNo + 1) ((before.pchFenced_eq n).trans (unfenced n))
    rw [pch_pondStarted, same, turn, ← once List.nodup_range]
    exact started
  have e := exec_pondStartupDone (failed := []) trains
  generalize s.pondStarted [] = t at rest enters e
  have within : t.pondOk = true := by
    have noStack : (List.range 12).filter t.stackFenced = [] :=
      List.filter_eq_nil_iff.mpr fun k _ => by rw [State.stackFenced, rest.fenced_eq, State.fenced, unset]; exact Bool.false_ne_true
    have noPch : (List.range 384).filter t.pchFenced = [] :=
      List.filter_eq_nil_iff.mpr fun m _ => by rw [rest.pchFenced_eq]; exact Bool.eq_false_iff.mp (unfenced m)
    rw [State.pondOk, noStack, noPch]
    rfl
  rw [if_pos within] at e
  have lake : t.hasLake = s.hasLake := by rw [State.hasLake, rest.id_eq]; rfl
  have kept := rest.dataKept
  exact ⟨_, e, enters, by rw [← lake], kept.mem, kept.map, kept.rt, kept.dir, kept.lake⟩

/-! ### VIGIL after a failed start (15 R538, R539) -/

theorem Standing.wd_eq (a : s.Standing t) : t.wd = s.wd := by rw [a.rest]

theorem vigilSettle_wd : s.vigilSettle.wd = s.wd := by
  unfold State.vigilSettle
  extract_lets u
  have h_u : s.Standing u := .foldl (fun _ _ => setPst_standing) _ _
  clear_value u
  exact h_u.wd_eq

theorem enterVigil_vcause (s : State) (cause : Nat) : (s.enterVigil cause).wd.vcause = BitVec.ofNat 8 cause := by
  unfold State.enterVigil
  extract_lets served skips s1 u _ s2 _ _ _ s3 _ s4
  have e3 : s3.wd.vcause = BitVec.ofNat 8 cause := rfl
  have e4 : s4.wd = s3.wd := by
    unfold s4
    split <;> rfl
  clear_value s3 s4
  split
  · unfold State.startFlush
    rw [journal_standing.wd_eq]
    exact e3
  · rw [vigilSettle_wd, e4, e3]

/-- Fences beyond the limit end Pond training in VIGIL. -/
theorem pondStartupDone_fails {failed : List (Fin 384)} (trains : s.sled.boot = .pond) (awake : s.sled.st ≠ .off)
    (many : 64 < ((List.range 384).filter (fun n => decide (n ∈ failed.map (fun f => f.val)) || s.pchFenced n)).length) :
    ∃ t, exec (.pondStartupDone failed) s = .next t ∧ t.sled.st = .vigil ∧ t.wd.vcause = 7 := by
  have fences (n : Nat) (h : (decide (n ∈ failed.map (fun f => f.val)) || s.pchFenced n) = true) : (s.pondStarted failed).pchFenced n = true := by
    rw [pchFenced_pondStarted]
    rcases Bool.or_eq_true_iff.mp h with h | h
    · exact Bool.or_eq_true_iff.mpr (.inl (fenced_foldl_fenceUnit awake (of_decide_eq_true h)))
    · have later := s.fencePchs_later failed
      exact Bool.or_eq_true_iff.mpr ((Bool.or_eq_true_iff.mp h).imp later.fenced later.fenced)
  have beyond : (s.pondStarted failed).pondOk = false := by
    have more := (List.monotone_filter_right (List.range 384) fences).length_le
    refine decide_eq_false fun within => ?_
    have few := within.2
    omega
  refine ⟨_, exec_pondStartupDone trains, ?_⟩
  rw [if_neg (by rw [beyond]; decide)]
  exact ⟨enterVigil_sled.1, enterVigil_vcause _ 7⟩

end State

/-- Settles O11: the fences by what a fence of Pond's units sets and tells, the end of training controller by controller. -/
theorem pondFencesAndStart : Obligations.PondFencesAndStart := by
  unfold Obligations.PondFencesAndStart
  refine ⟨fun s pch works idle awake => State.pchStall_fences works idle awake,
    fun s stack trains awake free => State.stackInitTimeout_fences trains awake free, fun s failed trains unset passed => ?served,
    fun s failed trains awake _ _ many => State.pondStartupDone_fails trains awake many⟩
  case served =>
    subst passed
    exact State.pondStartupDone_serves trains unset

end Sys2Proof.Machine
end

section
/-! ## What the counting of Lake leaves (05 R200, R201, R208; 13 R460) -/

namespace Sys2Proof.Machine

namespace State

/-- A state after Lake's flags and phase and the dirty-Keep budget were reckoned anew and that was told. -/
structure Reckoned (s t : State) : Prop where
  rest : t = { s with
    lake := { s.lake with wear := t.lake.wear, urgent := t.lake.urgent, bgc := t.lake.bgc }
    pwr := { s.pwr with budget := t.pwr.budget, admission := t.pwr.admission }
    evt := t.evt, trc := t.trc, out := t.out, ports := { s.ports with fn := t.ports.fn } }

variable {s t u : State}

namespace Reckoned

theorem refl (s : State) : s.Reckoned s := ⟨rfl⟩

theorem trans (a : s.Reckoned t) (b : t.Reckoned u) : s.Reckoned u := by
  have h := b.rest
  rw [a.rest] at h
  exact ⟨h⟩

theorem ite {c : Prop} [Decidable c] (a : s.Reckoned t) (b : s.Reckoned u) : s.Reckoned (if c then t else u) := by
  split
  exacts [a, b]

theorem mem_eq (a : s.Reckoned t) : t.mem = s.mem := by rw [a.rest]
theorem map_eq (a : s.Reckoned t) : t.map = s.map := by rw [a.rest]
theorem rt_eq (a : s.Reckoned t) : t.rt = s.rt := by rw [a.rest]
theorem dir_eq (a : s.Reckoned t) : t.dir = s.dir := by rw [a.rest]
theorem sb_eq (a : s.Reckoned t) (n : Nat) : t.sb n = s.sb n := by rw [a.rest]; rfl
theorem retired_eq (a : s.Reckoned t) : t.lake.retired = s.lake.retired := by rw [a.rest]
theorem progFail_eq (a : s.Reckoned t) : t.lake.progFail = s.lake.progFail := by rw [a.rest]
theorem eraseFail_eq (a : s.Reckoned t) : t.lake.eraseFail = s.lake.eraseFail := by rw [a.rest]
theorem stripes_eq (a : s.Reckoned t) : t.lake.stripes = s.lake.stripes := by rw [a.rest]

end Reckoned

theorem OnlyTold.reckoned (a : s.OnlyTold t) : s.Reckoned t := by
  constructor
  rw [a.rest]

theorem advise_reckoned (s : State) (reason : Nat) : s.Reckoned (s.advise reason) :=
  Reckoned.trans ⟨by rfl⟩ (s.advise_told reason).reckoned

/-- A new budget, which BUDGET_LOW and HOLDUP_FAIL may tell (13 R460, R465). -/
theorem rebudget_rest (s : State) : s.rebudget = { s with
    pwr := { s.pwr with budget := s.rebudget.pwr.budget, admission := s.rebudget.pwr.admission }
    evt := s.rebudget.evt, trc := s.rebudget.trc, out := s.rebudget.out, ports := { s.ports with fn := s.rebudget.ports.fn } } := by
  have told : ∃ b a, State.OnlyTold { s with pwr := { s.pwr with budget := b, admission := a } } s.rebudget := by
    unfold State.rebudget
    extract_lets _ b old d g a s1 s2
    have told2 : s1.OnlyTold s2 := by
      unfold s2
      split
      exacts [State.post_told _ _, .refl s1]
    refine ⟨b, a, ?_⟩
    split
    exacts [told2.trans (State.post_told _ _), told2]
  obtain ⟨b, a, told⟩ := told
  rw [told.pwr_eq]
  exact told.rest

theorem rebudget_reckoned (s : State) : s.Reckoned s.rebudget := by
  constructor
  rw [rebudget_rest]

theorem rebudget_lake (s : State) : s.rebudget.lake = s.lake := by rw [rebudget_rest]

theorem rebudget_adds : s.Adds 4 s.rebudget :=
  .after (by rfl) (by rfl) (Adds.trans (n := 2) (m := 2) (.ite post_adds (.refl _)) (.ite post_adds (.refl _)))

theorem gcFlags_rest (s : State) : s.gcFlags = { s with lake := { s.lake with urgent := s.gcFlags.lake.urgent, bgc := s.gcFlags.lake.bgc } } := by
  unfold State.gcFlags
  split <;> rfl

theorem gcFlags_reckoned (s : State) : s.Reckoned s.gcFlags := by
  constructor
  rw [gcFlags_rest]

theorem setWear_reckoned (s : State) (w : Wear) : s.Reckoned { s with lake := { s.lake with wear := w } } := ⟨rfl⟩

/-- The phase that is due, when it lies beyond the present one, is taken, and told. -/
theorem evalWear_advances (lake : s.hasLake = true) (due : s.lake.wear.code < s.wearNow.code) :
    State.Reckoned { s with lake := { s.lake with wear := s.wearNow } } s.evalWear ∧ s.evalWear.lake.wear = s.wearNow := by
  have heard : ¬ (s.hasLake = false ∨ s.wearNow.code ≤ s.lake.wear.code) := by
    rw [lake]
    simpa using due
  generalize e : s.evalWear = t
  unfold State.evalWear at e
  generalize s.wearNow = w at heard e ⊢
  extract_lets old now _ s1 ev s2 at e
  have ev_told (t : State) (n : Nat) (e : Ev) : t.OnlyTold (ev t n e) := by
    simp only [ev]
    split
    exacts [State.post_told _ _, .refl t]
  have told : s1.OnlyTold s2 := (ev_told _ _ _).trans ((ev_told _ _ _).trans (ev_told _ _ _))
  have advised : s2.Reckoned (if 2 ≤ now.code then s2.advise 7 else s2) ∧ (if 2 ≤ now.code then s2.advise 7 else s2).lake = s2.lake := by
    split
    exacts [⟨advise_reckoned s2 7, (s2.advise_told 7).lake_eq⟩, ⟨.refl s2, rfl⟩]
  rw [if_neg heard] at e
  subst e
  refine ⟨told.reckoned.trans (advised.1.trans (rebudget_reckoned _)), ?_⟩
  rw [rebudget_lake, advised.2, told.lake_eq]

theorem evalWear_reckoned (s : State) : s.Reckoned s.evalWear := by
  by_cases due : s.hasLake = true ∧ s.lake.wear.code < s.wearNow.code
  · exact (s.setWear_reckoned _).trans (evalWear_advances due.1 due.2).1
  · have rests : s.hasLake = false ∨ s.wearNow.code ≤ s.lake.wear.code := by
      rcases not_and_or.mp due with h | h
      exacts [.inl (Bool.eq_false_iff.mpr h), .inr (Nat.le_of_not_lt h)]
    have still : s.evalWear = s := if_pos rests
    rw [still]
    exact .refl s

end State

end Sys2Proof.Machine
end

section
/-! ## What writing to Lake's streams leaves (05 R191 to R199) -/

namespace Sys2Proof.Machine

namespace State

/-- A state after superblocks and stripes of the streams were opened and filled. -/
structure Striped (s t : State) : Prop where
  rest : t = { s with lake := { s.lake with
    sb := t.lake.sb, hostOpen := t.lake.hostOpen, coldOpen := t.lake.coldOpen, metaOpen := t.lake.metaOpen
    stripes := t.lake.stripes, stripeNo := t.lake.stripeNo } }

/-- A state after pages of the map were written through the meta stream: their bytes, their entries in the index, and the streams have changed. -/
structure MapStored (s t : State) : Prop where
  rest : t = { s with
    mem := t.mem, map := { s.map with moveNo := t.map.moveNo }
    lake := { s.lake with
      sb := t.lake.sb, hostOpen := t.lake.hostOpen, coldOpen := t.lake.coldOpen, metaOpen := t.lake.metaOpen
      stripes := t.lake.stripes, stripeNo := t.lake.stripeNo
      mapAt := t.lake.mapAt, idxAt := t.lake.idxAt, idxDirty := t.lake.idxDirty } }

variable {s t u : State}

theorem Striped.trans (a : s.Striped t) (b : t.Striped u) : s.Striped u := by
  have h := b.rest
  rw [a.rest] at h
  exact ⟨h⟩

namespace MapStored

theorem refl (s : State) : s.MapStored s := ⟨rfl⟩

theorem trans (a : s.MapStored t) (b : t.MapStored u) : s.MapStored u := by
  have h := b.rest
  rw [a.rest] at h
  exact ⟨h⟩

theorem foldl {α : Type} {f : State → α → State} (hf : ∀ (t : State) a, t.MapStored (f t a)) (l : List α) (s : State) :
    s.MapStored (l.foldl f s) := by
  induction l generalizing s with
  | nil => exact .refl s
  | cons a l ih => exact (hf s a).trans (ih _)

end MapStored

theorem Striped.mapStored (a : s.Striped t) : s.MapStored t := by
  constructor
  rw [a.rest]

/-! ### The streams (R191 to R193) -/

theorem setSb_striped {n : Nat} {b : Sb} : s.Striped (s.setSb n b) := ⟨rfl⟩

theorem stripeFull_striped {st : Strm} : s.Striped (s.stripeFull st) := ⟨rfl⟩

theorem nextStripe_striped {st : Strm} {p : State × Nat} (h : s.nextStripe st = some p) : s.Striped p.1 := by
  unfold State.nextStripe at h
  extract_lets cur put fresh at h
  have put_striped (t : State) (sb idx : Nat) : t.Striped (put t sb idx).1 := by
    cases st <;> exact ⟨rfl⟩
  have fresh_striped (t : State) (h : fresh t = some p) : t.Striped p.1 := by
    obtain ⟨n, -, rfl⟩ := Option.map_eq_some_iff.mp h
    exact setSb_striped.trans (put_striped _ _ _)
  clear_value cur
  split at h
  · split at h
    · obtain rfl := Option.some.inj h
      exact put_striped _ _ _
    · exact setSb_striped.trans (fresh_striped _ h)
  · exact fresh_striped _ h

theorem lakePlace_striped {st : Strm} {chip len move : Nat} {p : State × Loc} (h : s.lakePlace st chip len move = some p) : s.Striped p.1 := by
  unfold State.lakePlace at h
  extract_lets into at h
  have into_striped (t : State) (no : Nat) (h : into t no = some p) : t.Striped p.1 := by
    simp only [into] at h
    split at h
    · cases h
    · obtain ⟨n, -, rfl⟩ := Option.map_eq_some_iff.mp h
      exact ⟨rfl⟩
  split at h
  · cases h
    obtain ⟨q, -, open'⟩ := List.exists_of_findSome?_eq_some ‹_›
    split at open'
    · exact into_striped _ _ open'
    · cases open'
  · split at h
    · cases h
    · obtain ⟨q, next, h⟩ := Option.bind_eq_some_iff.mp h
      exact stripeFull_striped.trans ((nextStripe_striped next).trans (into_striped _ _ h))

/-! ### Map and index pages (R196) -/

theorem metaWrite_mapStored {chip : Nat} {b : List Byte} {p : State × Nat} (h : s.metaWrite chip b = some p) : s.MapStored p.1 := by
  unfold State.metaWrite at h
  split at h
  · obtain rfl := Option.some.inj h
    rename_i placed
    exact (lakePlace_striped placed).mapStored.trans ⟨rfl⟩
  · cases h

theorem storePage_mapStored (s : State) (page : Nat) : s.MapStored (s.storePage page) := by
  unfold State.storePage
  cases stored : s.storePage? page with
  | none => exact .refl s
  | some t =>
    unfold State.storePage? at stored
    extract_lets put at stored
    have put_mapStored (u : State) (w : Nat) : u.MapStored (put u w) := ⟨rfl⟩
    split at stored
    · cases stored
      exact put_mapStored _ _
    · obtain ⟨p, written, rfl⟩ := Option.map_eq_some_iff.mp stored
      exact (metaWrite_mapStored written).trans (put_mapStored _ _)

theorem storeIndex_mapStored (s : State) : s.MapStored s.storeIndex :=
  .foldl (fun t i => by
    split
    · rename_i written
      exact (metaWrite_mapStored written).trans ⟨rfl⟩
    · exact .refl t) _ s

/-! ### Checkpoints (R199) -/

/-- The map pages of the Keep regions and the index are written. -/
def pagesStored (s : State) : State := (s.keepPages.foldl State.storePage s).storeIndex

theorem pagesStored_mapStored (s : State) : s.MapStored s.pagesStored := (MapStored.foldl storePage_mapStored _ s).trans (storeIndex_mapStored _)

/-- A checkpoint holds the Keep regions as they stand when its pages have been written, and frees the records before the latest one. -/
theorem checkpoint_eq (lake : s.hasLake = true) : ∃ toc ring,
    ring = s.pagesStored.lake.jour.drop s.pagesStored.lake.jmark ++ [JRec.checkpoint toc s.lake.wseq] ∧
    s.checkpoint = { s.pagesStored with lake := { s.pagesStored.lake with
      ckptOld := s.pagesStored.lake.ckpt, ckpt := s.pagesStored.snapshot, btab := s.pagesStored.blockTable, jour := ring, jmark := ring.length
      jseq := s.pagesStored.lake.jseq + 1, wseq := s.pagesStored.lake.wseq + 2, nandPg := s.pagesStored.lake.nandPg + 2 } } := by
  refine ⟨(s.pagesStored.lake.idxAt.map (fun p => p.2)).foldl max 0, _, rfl, ?_⟩
  unfold State.checkpoint
  rw [lake]
  rfl

theorem MapStored.keeps_eq (a : s.MapStored t) (r : RegionId) : t.keeps r = s.keeps r := by
  rw [a.rest]
  rfl

/-- Pages that were written leave what a checkpoint holds of the regions and the segments; its root lists follow the index. -/
theorem MapStored.snapshot_eq (a : s.MapStored t) : t.snapshot =
    { s.snapshot with roots := t.lake.idxAt.filter (fun p => s.keeps (BitVec.ofNat 14 (p.1 / 2 ^ 17))), blocks := t.blockTable } := by
  have rt : t.rt = s.rt := by rw [a.rest]
  have sme : t.map.sme = s.map.sme := by rw [a.rest]
  simp only [State.snapshot, a.keeps_eq, rt, sme]

/-- A checkpoint writes the records and the map, and leaves regions and segments as they are. -/
theorem checkpoint_holds (lake : s.hasLake = true) : ∃ toc,
    s.checkpoint.lake.ckpt.ent = s.snapshot.ent ∧ s.checkpoint.lake.ckpt.sme = s.snapshot.sme ∧
    s.checkpoint.lake.ckpt.roots = s.checkpoint.lake.idxAt.filter (fun p => s.keeps (BitVec.ofNat 14 (p.1 / 2 ^ 17))) ∧
    s.checkpoint.lake.ckpt.blocks = s.checkpoint.lake.btab ∧ s.checkpoint.lake.ckptOld = s.lake.ckpt ∧
    s.checkpoint.lake.jour = s.lake.jour.drop s.lake.jmark ++ [JRec.checkpoint toc s.lake.wseq] ∧
    s.checkpoint.lake.jmark = s.checkpoint.lake.jour.length ∧ s.checkpoint.lake.jseq = s.lake.jseq + 1 ∧ s.checkpoint.rt = s.rt ∧
    s.checkpoint.map.sme = s.map.sme ∧ s.checkpoint.dir = s.dir := by
  obtain ⟨toc, ring, newest, e⟩ := checkpoint_eq lake
  have stored := s.pagesStored_mapStored
  rw [e]
  generalize s.pagesStored = t at stored newest
  have holds := stored.snapshot_eq
  have ent : t.snapshot.ent = s.snapshot.ent := by rw [holds]
  have sme : t.snapshot.sme = s.snapshot.sme := by rw [holds]
  refine ⟨toc, ent, sme, congrArg Ckpt.roots holds, rfl, ?_, ?_, rfl, ?_, ?_, ?_, ?_⟩
  case refine_2 => rw [newest, stored.rest]
  all_goals rw [stored.rest]

/-- A checkpoint leaves what the sled does and whether Lake is mounted. -/
theorem checkpoint_stands (s : State) : s.checkpoint.sled = s.sled ∧ s.checkpoint.rt = s.rt ∧ s.checkpoint.lake.mounted = s.lake.mounted ∧
    s.checkpoint.lake.wp = s.lake.wp := by
  cases lake : s.hasLake with
  | false =>
    unfold State.checkpoint
    rw [lake]
    exact ⟨rfl, rfl, rfl, rfl⟩
  | true =>
    obtain ⟨toc, ring, -, e⟩ := checkpoint_eq lake
    rw [e, s.pagesStored_mapStored.rest]
    exact ⟨rfl, rfl, rfl, rfl⟩

end State

end Sys2Proof.Machine
end

section
/-! ## Lake stripes, checkpoints, collection and patrol (O12) -/

namespace Sys2Proof.Machine

/-- An entry that joins a run in Lake: one with an image keeps it, any other lies there alone (02 R68, R77). -/
def Sme.intoLake (e : Sme) (l : Loc) : Sme :=
  if e.f.lend then { e.edit (fun f => { f with st := 4, prior := 0 }) with w1 := l.word1 } else e.at l

theorem Sme.home_intoLake (e : Sme) {f sec : Nat} (hf : f < 2 ^ 40) (hs : sec < 64) :
    (e.intoLake (.flash f sec)).home = some (.flash f sec) := by
  unfold Sme.intoLake
  split
  case isFalse => exact e.home_at_flash hf hs
  case isTrue =>
    have fields : (Sme.mk (e.edit (fun f => { f with st := 4, prior := 0 })).w0 (Loc.flash f sec).word1).f =
        { e.f with st := 4, prior := 0 } := SmeF.f_word _ _
    have st : (Sme.mk (e.edit (fun f => { f with st := 4, prior := 0 })).w0 (Loc.flash f sec).word1).st = .lake := by
      rw [Sme.st, fields]
      rfl
    have src : (Sme.mk (e.edit (fun f => { f with st := 4, prior := 0 })).w0 (Loc.flash f sec).word1).src = .lake := by
      rw [Sme.src, st]
      rfl
    have word : (Loc.flash f sec).word1.toNat = f * 64 + sec := by
      simp only [Loc.word1, BitVec.toNat_ofNat]
      omega
    have page : (f * 64 + sec) / 64 % 2 ^ 40 = f := by omega
    have sector : (f * 64 + sec) % 64 = sec := by omega
    rw [Sme.home, src, word, page, sector]

namespace State

variable {s t : State}

/-! ### A stripe is programmed (R193, R194) -/

/-- The entry of a segment and the summary of its new run are written, and its former home is released. -/
def landRun (s : State) (m : Move) : State :=
  ((s.commitSme m.region m.seg ((s.sme m.region m.seg).intoLake m.dest)).releaseHome (s.sme m.region m.seg)).noteRun m.region m.seg
    ((s.sme m.region m.seg).intoLake m.dest)

/-- The move of an eviction into Lake, for which nobody waits, ends with its entry and its summary. -/
theorem commitMove_intoLake {n f sec : Nat} {m : Move} (pick : W32) (held : s.dir.held = []) (progs : s.q.progs = []) (image : m.image = false)
    (sealing : m.sealing = false) (why : m.why = .evict) (dest : m.dest = .flash f sec) :
    s.commitMove n m pick = State.landRun { s with map := { s.map with moves := s.map.moves.del n } } m := by
  unfold State.commitMove
  extract_lets r e x _ s1 a former _ e1 s2 s3 s4 _ s5
  have entry : e1 = e.intoLake m.dest := by
    simp only [e1, image, sealing, dest, Loc.isLake, Loc.isNear, Sme.intoLake, Bool.false_eq_true, if_false, true_and]
    rfl
  have s5_eq : s5 = s1.landRun m := by
    simp only [s5, s4, s3, s2, entry, why, image, sealing]
    rfl
  have rest : s5 = { s with map := s5.map, lake := s5.lake } := by
    rw [s5_eq, landRun, noteRun_rest, releaseHome_rest, commitSme_rest]
  have idle : s5.dir.held = [] := by rw [rest]; exact held
  have ended : s5.q.progs = [] := by rw [rest]; exact progs
  rw [State.freeToken, rerun_of_held_nil idle, rerun_of_held_nil idle, wakePf_of_progs_nil ended, s5_eq]

theorem stripes_commitSme (r : RegionId) (seg : Nat) (e : Sme) : (s.commitSme r seg e).lake.stripes = s.lake.stripes := by
  unfold State.commitSme State.journal
  extract_lets old s1
  split_ifs <;> rfl

theorem moves_releaseHome (e : Sme) : (s.releaseHome e).map.moves = s.map.moves := by
  unfold State.releaseHome
  split
  · rfl
  · rw [release_rest]
  · rfl

theorem stripes_noteRun (r : RegionId) (seg : Nat) (e : Sme) : (s.noteRun r seg e).lake.stripes = s.lake.stripes := by
  unfold State.noteRun
  split <;> rfl

theorem landRun_rest (m : Move) : s.landRun m = { s with map := (s.landRun m).map, lake := (s.landRun m).lake } := by
  rw [landRun, noteRun_rest, releaseHome_rest, commitSme_rest]

theorem moves_landRun (m : Move) : (s.landRun m).map.moves = s.map.moves := by
  rw [landRun, noteRun_rest]
  exact (moves_releaseHome _).trans (commitSme_lets _ _ _).2

theorem stripes_landRun (m : Move) : (s.landRun m).lake.stripes = s.lake.stripes := by
  rw [landRun, stripes_noteRun, releaseHome_rest]
  exact stripes_commitSme _ _ _

theorem sme_landRun (m : Move) : (s.landRun m).sme m.region m.seg = (s.sme m.region m.seg).intoLake m.dest := by
  rw [landRun, noteRun_rest]
  exact (sme_releaseHome _ _ _).trans (sme_commitSme_same _ _ _)

/-- A programmed stripe is off the open list, and its free sectors read zero. -/
theorem programStripe_rest {n : Nat} {x : Stripe} (listed : s.lake.stripes.find n = some x) : s.programStripe n = { s with
    mem := { s.mem with bytes := s.mem.bytes.filter (fun c =>
      !(decide (3 * 2 ^ 68 ≤ c.1 ∧ c.1 < 4 * 2 ^ 68) && x.freeSector (c.1 / 256 - 3 * 2 ^ 60))) }
    lake := (s.programStripe n).lake } ∧ (s.programStripe n).lake.stripes = s.lake.stripes.del n := by
  unfold State.programStripe
  rw [listed]
  exact ⟨rfl, rfl⟩

/-- A stripe whose one run is a verified eviction is programmed, and the eviction commits. -/
theorem stripeProgrammed_commits {n k f sec : Nat} {x : Stripe} {m : Move} (calm : s.Calm) (runs : s.nandStopped = false)
    (listed : s.lake.stripes.find n = some x) (due : s.stripeDue x = true) (sole : x.moves = [k]) (move : s.map.moves.find k = some m)
    (verified : m.verified = true) (image : m.image = false) (sealing : m.sealing = false) (why : m.why = .evict) (dest : m.dest = .flash f sec)
    (hf : f < 2 ^ 40) (hs : sec < 64) :
    ∃ t, exec (.stripeProgrammed n []) s = .next t ∧ t.lake.stripes.find n = none ∧ t.map.moves.find k = none ∧
      (t.sme m.region m.seg).home = some (.flash f sec) ∧
      t.mem = { s.mem with bytes := s.mem.bytes.filter (fun c =>
        !(decide (3 * 2 ^ 68 ≤ c.1 ∧ c.1 < 4 * 2 ^ 68) && x.freeSector (c.1 / 256 - 3 * 2 ^ 60))) } ∧
      t.rt = s.rt ∧ t.dir = s.dir := by
  obtain ⟨rest, stripes⟩ := programStripe_rest listed
  have ready : s.nandStopped = false ∧ s.stripeDue x = true ∧ x.moves.all (fun n => (s.map.moves.find n).all (fun m => m.verified)) = true := by
    simp [runs, due, sole, move, verified]
  have moves : (s.programStripe n).map.moves.find k = some m := by rw [rest]; exact move
  have done : s.stripeDone n x [] = (s.programStripe n).commitMove k m 0 := by
    simp [State.stripeDone, sole, moves, verified]
  have e : exec (.stripeProgrammed n []) s = .next ((s.programStripe n).commitMove k m 0) := by
    simp only [exec, execStripeProgrammed, listed, if_pos ready, done]
  rw [commitMove_intoLake 0 (by rw [rest]; exact calm.held) (by rw [rest]; exact calm.progs) image sealing why dest] at e
  refine ⟨_, e, ?_, ?_, ?_, ?_⟩
  · rw [stripes_landRun, stripes]
    exact Tbl.find_del_same _ _
  · rw [moves_landRun]
    exact Tbl.find_del_same _ _
  · rw [sme_landRun, dest]
    exact Sme.home_intoLake _ hf hs
  · rw [landRun_rest, rest]
    exact ⟨rfl, rfl, rfl⟩

/-! ### Collection (R201 to R203) -/

/-- A superblock that has not come to its last erasures is free after one, with its retired blocks. -/
theorem erased_of_young {n : Nat} (young : (s.sb n).erase + 1 < 4500) : ∃ l : LakeS,
    l.sb = s.lake.sb.set n .reset { s.sb n with st := .free, erase := (s.sb n).erase + 1, reads := [] } ∧ l.retired = s.lake.retired ∧
    l.eraseFail = s.lake.eraseFail ∧ State.Reckoned { s with lake := l } (s.erased n) := by
  unfold State.erased
  extract_lets b c s1 _ s2 s3
  have plain : s3 = s2 := if_neg (Nat.not_le.mpr young)
  refine ⟨s2.lake, rfl, rfl, rfl, ?_⟩
  rw [plain]
  exact (gcFlags_reckoned s2).trans (rebudget_reckoned _)

theorem sb_erased {n : Nat} (young : (s.sb n).erase + 1 < 4500) :
    (s.erased n).sb n = { s.sb n with st := .free, erase := (s.sb n).erase + 1, reads := [] } := by
  obtain ⟨l, sb, -, -, reckoned⟩ := erased_of_young young
  rw [reckoned.sb_eq, State.sb, sb]
  exact Tbl.getD_set_same _ _ _ _

/-- A superblock on which no home lies holds no valid sector. -/
theorem validOn_of_no_home {n : Nat} (none : ∀ p ∈ s.map.sme, ∀ f sec, p.2.home = some (.flash f sec) → sbOf f ≠ n) : s.validOn n = 0 := by
  refine List.sum_eq_zero fun v hv => ?_
  obtain ⟨p, hp, rfl⟩ := List.mem_map.mp hv
  split
  · rename_i f sec home
    exact if_neg (none p hp f sec home)
  · rfl

theorem gcSuperblockDone_frees {n : Nat} (may : s.gcFlags.gcMay n = true) (young : (s.sb n).erase + 1 < 4500) (idle : s.sbBusy n = false)
    (none : ∀ p ∈ s.map.sme, ∀ f sec, p.2.home = some (.flash f sec) → sbOf f ≠ n) :
    ∃ t, exec (.gcSuperblockDone n true) s = .next t ∧ (t.sb n).st = .free ∧ (t.sb n).erase = (s.sb n).erase + 1 ∧ (t.sb n).reads = [] ∧
      (t.sb n).retired = (s.sb n).retired ∧ t.mem = s.mem ∧ t.map = s.map ∧ t.rt = s.rt ∧ t.dir = s.dir := by
  have flags := s.gcFlags_reckoned
  have sb : s.gcFlags.sb n = s.sb n := flags.sb_eq n
  have valid : s.gcFlags.validOn n = 0 := validOn_of_no_home (by rw [flags.map_eq]; exact none)
  have still : s.gcFlags.sbBusy n = false := by
    rw [State.sbBusy, flags.stripes_eq, flags.map_eq]
    exact idle
  have e : exec (.gcSuperblockDone n true) s = .next (s.gcFlags.erased n) := by
    simp [exec, execGcSuperblockDone, may, valid, still]
  have fresh := sb_erased (s := s.gcFlags) (by rw [sb]; exact young)
  obtain ⟨l, -, -, -, reckoned⟩ := erased_of_young (s := s.gcFlags) (by rw [sb]; exact young)
  rw [sb] at fresh
  exact ⟨_, e, by rw [fresh], by rw [fresh], by rw [fresh], by rw [fresh], reckoned.mem_eq.trans flags.mem_eq, reckoned.map_eq.trans flags.map_eq,
    reckoned.rt_eq.trans flags.rt_eq, reckoned.dir_eq.trans flags.dir_eq⟩

/-! ### Patrol (R204, R205) -/

/-- Each block of a list is read 37 times. -/
theorem getD_foldl_reads {l : List Nat} (once : l.Nodup) (t : Tbl Nat) {m : Nat} (h : m ∈ l) :
    (l.foldl (fun t m => t.put m (t.getD m 0 + 37)) t).getD m 0 = t.getD m 0 + 37 := by
  have others (k : List Nat) (u : Tbl Nat) (out : m ∉ k) : (k.foldl (fun t m => t.put m (t.getD m 0 + 37)) u).getD m 0 = u.getD m 0 := by
    induction k generalizing u with
    | nil => rfl
    | cons a k ih =>
      obtain ⟨first, rest⟩ := not_or.mp (List.mem_cons.not.mp out)
      exact (ih _ rest).trans (Tbl.getD_put_ne u _ _ first)
  induction l generalizing t with
  | nil => cases h
  | cons a l ih =>
    obtain ⟨fresh, once⟩ := List.nodup_cons.mp once
    rcases List.mem_cons.mp h with rfl | h
    · exact (others l _ fresh).trans (Tbl.getD_put_same t _ _ _)
    · have other : m ≠ a := fun same => fresh (same ▸ h)
      rw [List.foldl_cons, ih once _ h, Tbl.getD_put_ne t _ _ other]

theorem reads_samplePages {n m : Nat} (small : m < 128) (good : m ∉ (s.sb n).retired) :
    ((s.samplePages n).sb n).reads.getD m 0 = (s.sb n).reads.getD m 0 + 37 := by
  rw [State.samplePages, sb_setSb]
  exact getD_foldl_reads (List.nodup_range.filter _) _ (List.mem_filter.mpr ⟨List.mem_range.mpr small, by simpa using good⟩)

/-- A sample that finds nothing to relocate notes its time and its reads. -/
theorem exec_patrolDue_calm {n : Nat} (mounted : s.lake.mounted = true) (open' : s.lake.wp = false) (wear : s.lake.wear ≠ .spent)
    (flush : s.sled.flush = none) (valid : s.validOn n ≠ 0) (young : s.clk.ms - (s.sb n).progAt ≤ 180 * 86400000)
    (rested : ∀ p ∈ ((s.samplePages n).sb n).reads, p.2 < 50000) : exec (.patrolDue n false []) s = .next (s.samplePages n) := by
  have heard : ¬ (s.lake.mounted = false ∨ s.lake.wp = true ∨ s.lake.wear = .spent ∨ s.sled.flush.isSome = true ∨ s.validOn n = 0) := by
    simp [mounted, open', wear, flush, valid]
  have still : ¬ (false = true ∨ ([] : List (Fin 128)) ≠ [] ∨ decide (s.clk.ms - (s.sb n).progAt > 180 * 86400000) = true) := by
    simpa using young
  have undisturbed : ((s.samplePages n).sb n).reads.filter (fun p => decide (50000 ≤ p.2)) = [] :=
    List.filter_eq_nil_iff.mpr fun p hp => by simpa using rested p hp
  simp only [exec, execPatrolDue, if_neg heard]
  rw [if_neg still, undisturbed]
  rfl

end State

/-- Settles O12: each command by its equation; a commit into Lake by what landing a run leaves, a checkpoint by what writing the map leaves. -/
theorem lakeStripesAndCollection : Obligations.LakeStripesAndCollection := by
  unfold Obligations.LakeStripesAndCollection
  refine ⟨fun s n x listed => ?timer,
    fun s n k x m f sec h calm runs listed due sole move verified image sealing why dest hf hs _ _ =>
      State.stripeProgrammed_commits calm runs listed due sole move verified image sealing why dest hf hs,
    fun s mounted open' flush lake => ?checkpoint, fun s n may young idle none => State.gcSuperblockDone_frees may young idle none,
    fun s n mounted open' wear flush valid young rested => ?patrol⟩
  case timer => simp only [exec, execStripeTimer, Tbl.upd, listed]
  case checkpoint =>
    obtain ⟨toc, holds⟩ := State.checkpoint_holds lake
    exact ⟨_, toc, by simp [exec, execCheckpointDue, mounted, open', flush], holds⟩
  case patrol =>
    have sampled : (s.samplePages n).sb n = { s.sb n with sampleAt := s.clk.ms, reads := ((s.samplePages n).sb n).reads } := by
      rw [State.samplePages, State.sb_setSb]
    refine ⟨_, State.exec_patrolDue_calm mounted open' wear flush valid young rested, ?_, fun m small good => State.reads_samplePages small good, ?_⟩
    · rw [sampled]
    · rw [← sampled, State.samplePages, State.sb_setSb]

end Sys2Proof.Machine
end

section
/-! ## What leaves Lake's records standing

The links that a restart takes down end what their hosts asked for, and held requests run. They write through Lake's streams and its journal;
what the checkpoints hold, how Lake is mounted, its wear and its errors stay. The order is that of the model's files. -/

namespace Sys2Proof.Machine

/-- Lake without what a placement, a release, a read in progress and a journal record change. -/
def LakeS.standing (l : LakeS) : LakeS :=
  { l with sb := [], hostOpen := none, coldOpen := none, metaOpen := none, stripes := [], stripeNo := 0, resv := 0, misses := [], jour := []
           wseq := 0, jseq := 0, nandPg := 0 }

/-- A state that an operation leaves behind with Lake's standing records. -/
structure State.KeepsLake (s t : State) : Prop where
  standing : t.lake.standing = s.lake.standing

namespace State

variable {s t u : State}

theorem OnlyTold.keepsLake (told : s.OnlyTold t) : s.KeepsLake t := ⟨by rw [told.lake_eq]⟩

namespace KeepsLake

theorem refl (s : State) : s.KeepsLake s := ⟨rfl⟩

theorem trans (a : s.KeepsLake t) (b : t.KeepsLake u) : s.KeepsLake u := ⟨b.standing.trans a.standing⟩

theorem ite {c : Prop} [Decidable c] (a : s.KeepsLake t) (b : s.KeepsLake u) : s.KeepsLake (if c then t else u) := by
  split
  exacts [a, b]

theorem ite_fst {α : Type} {c : Prop} [Decidable c] {p q : State × α} (a : s.KeepsLake p.1) (b : s.KeepsLake q.1) :
    s.KeepsLake (if c then p else q).1 := by
  split
  exacts [a, b]

theorem of_eq {α : Type} {p : State × α} {a : α} (h : s.KeepsLake p.1) (e : p = (t, a)) : s.KeepsLake t := by
  rw [e] at h
  exact h

theorem foldl {α : Type} {f : State → α → State} {l : List α} (hf : ∀ (t : State) a, t.KeepsLake (f t a)) : s.KeepsLake (l.foldl f s) := by
  induction l generalizing s with
  | nil => exact .refl s
  | cons a l ih => exact (hf s a).trans ih

theorem foldl_fst {α β : Type} {f : State × β → α → State × β} {l : List α} {p : State × β} (hf : ∀ (q : State × β) a, q.1.KeepsLake (f q a).1) :
    p.1.KeepsLake (l.foldl f p).1 := by
  induction l generalizing p with
  | nil => exact .refl _
  | cons a l ih => exact (hf p a).trans ih

theorem ckpt_eq (a : s.KeepsLake t) : t.lake.ckpt = s.lake.ckpt := by
  have same : t.lake.standing.ckpt = s.lake.standing.ckpt := congrArg LakeS.ckpt a.standing
  exact same

theorem ckptOld_eq (a : s.KeepsLake t) : t.lake.ckptOld = s.lake.ckptOld := by
  have same : t.lake.standing.ckptOld = s.lake.standing.ckptOld := congrArg LakeS.ckptOld a.standing
  exact same

end KeepsLake

/-! ### The operations of `Machine/Ops.lean` -/

theorem send_keepsLake {o : Output} : s.KeepsLake (s.send o) := (s.send_told o).keepsLake

theorem signal_keepsLake {h : HostId} {vec : Nat} : s.KeepsLake (s.signal h vec) := .ite (.ite (.refl _) ⟨rfl⟩) send_keepsLake

theorem notice_keepsLake {h : HostId} : s.KeepsLake (s.notice h) := signal_keepsLake

theorem change_keepsLake {r : RegionId} {f : REnt → REnt} : s.KeepsLake (s.change r f) := .ite ⟨rfl⟩ ⟨rfl⟩

theorem post_keepsLake {p : Post} : s.KeepsLake (s.post p) := (s.post_told p).keepsLake

theorem trace_keepsLake {src rtype data : Nat} : s.KeepsLake (s.trace src rtype data) := (s.trace_told src rtype data).keepsLake

theorem serveUpdate_keepsLake : s.KeepsLake s.serveUpdate := by
  unfold State.serveUpdate
  split
  · exact ⟨by rw [(State.setSled_told _ _).lake_eq]⟩
  · exact ⟨by rw [(State.setSled_told _ _).lake_eq]⟩
  · exact .refl _

theorem setQueue_keepsLake {h : HostId} {q : QueueNo} {x : Queue} : s.KeepsLake (s.setQueue h q x) := ⟨rfl⟩

theorem setProg_keepsLake {p : Nat} {x : Prog} : s.KeepsLake (s.setProg p x) := ⟨rfl⟩

theorem writeCpl_keepsLake {h : HostId} {qn : QueueNo} {c : Cpl} : s.KeepsLake (s.writeCpl h qn c) :=
  send_keepsLake.trans (setQueue_keepsLake.trans (.ite signal_keepsLake (.refl _)))

theorem deliver_keepsLake {h : HostId} {qn : QueueNo} {c : Cpl} : s.KeepsLake (s.deliver h qn c) := .ite setQueue_keepsLake writeCpl_keepsLake

/-! ### The operations of `Machine/Seg.lean` -/

theorem putSme_keepsLake {r : RegionId} {seg : Nat} {e : Sme} : s.KeepsLake (s.putSme r seg e) := ⟨rfl⟩

theorem journal_keepsLake {j : JRec} : s.KeepsLake (s.journal j) := .ite ⟨rfl⟩ (.refl _)

theorem commitSme_keepsLake {r : RegionId} {seg : Nat} {e : Sme} : s.KeepsLake (s.commitSme r seg e) :=
  putSme_keepsLake.trans (.ite journal_keepsLake (.refl _))

theorem journalEnt_keepsLake {r : RegionId} : s.KeepsLake (s.journalEnt r) := .ite journal_keepsLake (.refl _)

theorem wakeSid_keepsLake {l : Loc} {len : Nat} {port : PPort} {cls : Nat} : s.KeepsLake (s.wakeSid l len port cls) := ⟨by rw [wakeSid_rest]⟩

theorem writeRun_keepsLake {l : Loc} {b : List Byte} : s.KeepsLake (s.writeRun l b) := ⟨by rw [(writeRun_written _ _ _).rest]⟩

theorem lakePlace_keepsLake {st : Strm} {chip len move : Nat} {p : State × Loc} (placed : s.lakePlace st chip len move = some p) : s.KeepsLake p.1 :=
  ⟨by rw [(lakePlace_striped placed).rest]; rfl⟩

theorem looked_keepsLake {r : RegionId} {seg : Nat} : s.KeepsLake (s.looked r seg) := by
  unfold State.looked
  split
  exacts [.refl _, ⟨rfl⟩]

theorem touch_keepsLake {s0 : State} {r : RegionId} {seg : Nat} : s0.KeepsLake (s0.touch r seg) :=
  looked_keepsLake.trans (.trans (.foldl (fun _ _ => wakeSid_keepsLake)) (.ite (.refl _) putSme_keepsLake))

theorem touchStore_keepsLake {s0 : State} {r : RegionId} {seg : Nat} : s0.KeepsLake (s0.touchStore r seg) := by
  unfold State.touchStore
  extract_lets s e
  have h_s : s0.KeepsLake s := looked_keepsLake
  cases e.home with
  | none => exact h_s.trans putSme_keepsLake
  | some l => exact h_s.trans (wakeSid_keepsLake.trans putSme_keepsLake)

theorem release_keepsLake {l : Loc} {len : Nat} {image : Bool} : s.KeepsLake (s.release l len image) := ⟨by rw [release_rest]⟩

theorem releaseHome_keepsLake {e : Sme} : s.KeepsLake (s.releaseHome e) := ⟨by rw [releaseHome_rest]⟩

theorem dropImage_keepsLake {r : RegionId} {seg : Nat} : s.KeepsLake (s.dropImage r seg) := by
  unfold State.dropImage
  extract_lets e
  split
  exacts [.refl _, commitSme_keepsLake.trans release_keepsLake]

theorem startMove_keepsLake {m : Move} : s.KeepsLake (s.startMove m).1 := .trans ⟨by rfl⟩ (.ite (.refl _) commitSme_keepsLake)

theorem sealBack_keepsLake {m : Move} : s.KeepsLake (s.sealBack m) := by
  unfold State.sealBack
  split
  exacts [.ite ⟨rfl⟩ (.refl _), .refl _]

theorem abortMove_keepsLake {s0 : State} {n : Nat} : s0.KeepsLake (s0.abortMove n) := by
  unfold State.abortMove
  split
  · exact .refl _
  · extract_lets s e _ _ s1
    have h_s : s0.KeepsLake s := sealBack_keepsLake
    have h_s1 : s0.KeepsLake s1 := h_s.trans ⟨rfl⟩
    exact h_s1.trans (.ite commitSme_keepsLake (.refl _))

theorem cancelMove_keepsLake {r : RegionId} {seg : Nat} : s.KeepsLake (s.cancelMove r seg) := by
  unfold State.cancelMove
  split
  exacts [abortMove_keepsLake, .refl _]

theorem count_keepsLake {r : RegionId} {f : RCnt → RCnt} : s.KeepsLake (s.count r f) := ⟨rfl⟩

theorem endTrial_keepsLake {r : RegionId} {seg : Nat} : s.KeepsLake (s.endTrial r seg) := ⟨rfl⟩

theorem poisonSeg_keepsLake {r : RegionId} {seg cause : Nat} : s.KeepsLake (s.poisonSeg r seg cause) := by
  unfold State.poisonSeg
  extract_lets s1 e s2 s3
  have h_s1 : s.KeepsLake s1 := cancelMove_keepsLake
  have h_s2 : s.KeepsLake s2 := h_s1.trans commitSme_keepsLake
  have h_s3 : s.KeepsLake s3 := by
    unfold s3
    split
    exacts [h_s2.trans release_keepsLake, h_s2]
  exact h_s3.trans (endTrial_keepsLake.trans count_keepsLake)

theorem servedMalformed_keepsLake {r : RegionId} {seg : Nat} : s.KeepsLake (s.servedMalformed r seg) := by
  unfold State.servedMalformed
  extract_lets e s1 runs
  have h_s1 : s.KeepsLake s1 := cancelMove_keepsLake.trans commitSme_keepsLake
  clear_value s1
  exact h_s1.trans (.trans ⟨by rfl⟩ (count_keepsLake.trans post_keepsLake))

theorem checkSme_keepsLake {r : RegionId} {seg : Nat} : s.KeepsLake (s.checkSme r seg) := by
  unfold State.checkSme
  extract_lets e
  refine .ite servedMalformed_keepsLake ?_
  split
  exacts [.ite dropImage_keepsLake (.refl _), .ite (poisonSeg_keepsLake.trans ⟨rfl⟩) (.refl _), .refl _]

theorem corrected_keepsLake {l : Loc} {symbols : Nat} : s.KeepsLake (s.corrected l symbols) := by
  unfold State.corrected
  split
  exacts [⟨rfl⟩, ⟨rfl⟩, .refl _]

theorem uncorrectable_keepsLake {l : Loc} : s.KeepsLake (s.uncorrectable l) := by
  unfold State.uncorrectable
  split
  exacts [⟨rfl⟩, ⟨rfl⟩, .refl _]

theorem homeFault_keepsLake {r : RegionId} {seg : Nat} {l : Loc} {tag form : Bool} : s.KeepsLake (s.homeFault r seg l tag form) := by
  unfold State.homeFault
  extract_lets e s1 s2 s3
  have h_s1 : s.KeepsLake s1 := .ite (.refl _) uncorrectable_keepsLake
  have h_s2 : s.KeepsLake s2 := h_s1.trans poisonSeg_keepsLake
  have h_s3 : s.KeepsLake s3 := h_s2.trans (.ite (count_keepsLake.trans post_keepsLake) (.refl _))
  exact h_s3.trans (.ite (count_keepsLake.trans post_keepsLake) post_keepsLake)

theorem imageFault_keepsLake {r : RegionId} {seg : Nat} {l : Loc} {tag form : Bool} : s.KeepsLake (s.imageFault r seg l tag form) := by
  unfold State.imageFault
  extract_lets e s1 s2 s3
  have h_s1 : s.KeepsLake s1 := .ite (.refl _) uncorrectable_keepsLake
  have h_s2 : s.KeepsLake s2 := h_s1.trans (.ite (count_keepsLake.trans post_keepsLake) (.refl _))
  have h_s3 : s.KeepsLake s3 := h_s2.trans (.ite (count_keepsLake.trans post_keepsLake) (.refl _))
  exact h_s3.trans dropImage_keepsLake

theorem commitOpen_keepsLake {r : RegionId} {seg : Nat} {a : Nat} {bytes : List Byte} : s.KeepsLake (s.commitOpen r seg a bytes) :=
  writeRun_keepsLake.trans (commitSme_keepsLake.trans releaseHome_keepsLake)

/-! ### The operations of `Machine/Dir.lean` -/

theorem dirDel_keepsLake {r : RegionId} {line : BitVec 40} : s.KeepsLake (s.dirDel r line) := ⟨rfl⟩

theorem dirPut_keepsLake {e : DEnt} : s.KeepsLake (s.dirPut e) := ⟨rfl⟩

theorem snoop_keepsLake {e : DEnt} {kind : SnpKind} {hosts : List HostId} : s.KeepsLake (s.snoop e kind hosts) :=
  dirPut_keepsLake.trans (.foldl (fun _ _ => ⟨rfl⟩))

theorem endLoss_keepsLake {r : RegionId} {line : BitVec 40} : s.KeepsLake (s.endLoss r line) := ⟨rfl⟩

theorem freeSlots_keepsLake {r : RegionId} : s.KeepsLake (s.freeSlots r) := ⟨rfl⟩

theorem recount_keepsLake {r : RegionId} : s.KeepsLake (s.recount r) := change_keepsLake.trans (freeSlots_keepsLake.trans journalEnt_keepsLake)

theorem dropGrant_keepsLake {g : Nat} : s.KeepsLake (s.dropGrant g) := by
  unfold State.dropGrant
  split
  exacts [.refl _, .trans ⟨by rfl⟩ recount_keepsLake]

theorem fatalTo_keepsLake {h : HostId} : s.KeepsLake (s.fatalTo h) := send_keepsLake

theorem loseDir_keepsLake {r : RegionId} : s.KeepsLake (s.loseDir r) :=
  .ite (.refl _) (.trans (.foldl (fun _ _ => fatalTo_keepsLake)) (.trans ⟨by rfl⟩
    (.trans (.foldl (fun _ _ => notice_keepsLake)) (change_keepsLake.trans post_keepsLake))))

theorem loseLine_keepsLake {r : RegionId} {line : BitVec 40} {h : HostId} : s.KeepsLake (s.loseLine r line h) :=
  dirDel_keepsLake.trans (post_keepsLake.trans (count_keepsLake.trans (.ite (.refl _) (.ite loseDir_keepsLake ⟨rfl⟩))))

theorem dirForget_keepsLake {h : HostId} {r : RegionId} : s.KeepsLake (s.dirForget h r) := ⟨rfl⟩

theorem settleBusy_keepsLake : s.KeepsLake s.settleBusy := ⟨rfl⟩

theorem endHostGrants_keepsLake {h : HostId} : s.KeepsLake (s.endHostGrants h) := by
  unfold State.endHostGrants
  extract_lets gs rs s1 s2
  have h_s1 : s.KeepsLake s1 := .foldl (fun _ _ => .foldl (fun _ _ => loseLine_keepsLake))
  have h_s2 : s.KeepsLake s2 := h_s1.trans (.foldl (fun _ _ => dropGrant_keepsLake))
  exact h_s2.trans (.trans (.foldl (fun _ _ => dirForget_keepsLake.trans freeSlots_keepsLake)) settleBusy_keepsLake)

/-! ### The operations of `Machine/QOps.lean` -/

theorem endProg_keepsLake {p : Nat} {status : Byte} {detail : W16} {info : W64} : s.KeepsLake (s.endProg p status detail info) := by
  unfold State.endProg
  split
  · exact .refl _
  · extract_lets s1 s2 s3
    have h_s1 : s.KeepsLake s1 := ⟨rfl⟩
    have h_s2 : s.KeepsLake s2 := h_s1.trans (.ite ⟨rfl⟩ (.refl _))
    have h_s3 : s.KeepsLake s3 := h_s2.trans setQueue_keepsLake
    exact .ite h_s2 (h_s3.trans deliver_keepsLake)

theorem failProg_keepsLake {p : Nat} {e : Err1} : s.KeepsLake (s.failProg p e) := endProg_keepsLake

theorem goOn_keepsLake {p : Nat} {f : Prog → Prog} : s.KeepsLake (s.goOn p f) := by
  unfold State.goOn
  split
  · exact .refl _
  · extract_lets y z
    split
    exacts [setProg_keepsLake.trans endProg_keepsLake, setProg_keepsLake]

theorem ctlOk_keepsLake {p d : Nat} {v : W64} : s.KeepsLake (s.ctlOk p d v) := goOn_keepsLake

theorem cancelProg_keepsLake {p : Nat} {status : Byte} {detail : W16} : s.KeepsLake (s.cancelProg p status detail) := by
  unfold State.cancelProg
  split
  exacts [.refl _, .ite setProg_keepsLake endProg_keepsLake]

theorem mutedCancel_keepsLake {p : Nat} : s.KeepsLake (s.mutedCancel p) := by
  unfold State.mutedCancel
  split
  exacts [.refl _, setProg_keepsLake.trans cancelProg_keepsLake]

/-! ### The operations of `Machine/Access.lean` -/

theorem startMiss_keepsLake {r : RegionId} {seg : Nat} {p : Option Nat} : s.KeepsLake (s.startMiss r seg p) := by
  unfold State.startMiss
  extract_lets k _ s1
  have h_s1 : s.KeepsLake s1 := ⟨rfl⟩
  split
  exacts [h_s1.trans (.ite (.refl _) ⟨rfl⟩), h_s1]

theorem noteChk_keepsLake {l : Loc} {c : Chk} : s.KeepsLake (s.noteChk l c) := by
  unfold State.noteChk
  split
  exacts [corrected_keepsLake, .refl _]

theorem mend_keepsLake {r : RegionId} {seg : Nat} {l : Loc} {c : Chk} {pick : W32} : s.KeepsLake (s.mend r seg l c pick) := by
  unfold State.mend
  extract_lets many e
  clear_value many
  split
  · refine .ite dropImage_keepsLake (.ite ?_ (.refl _))
    split
    exacts [startMove_keepsLake, .refl _]
  · exact .refl _

theorem readLine_keepsLake {s0 : State} {r : RegionId} {seg j : Nat} {c : Chk} : s0.KeepsLake (s0.readLine r seg j c).1 := by
  unfold State.readLine
  extract_lets s e
  have h_s : s0.KeepsLake s := checkSme_keepsLake
  refine .ite_fst h_s (.ite_fst (h_s.trans touch_keepsLake) ?_)
  split
  · refine .ite_fst (h_s.trans imageFault_keepsLake) ?_
    split
    exacts [h_s.trans (noteChk_keepsLake.trans (touch_keepsLake.trans mend_keepsLake)), h_s.trans imageFault_keepsLake]
  · extract_lets h
    refine .ite_fst h_s (.ite_fst (h_s.trans (homeFault_keepsLake.trans touch_keepsLake)) ?_)
    split
    exacts [h_s.trans (noteChk_keepsLake.trans (touch_keepsLake.trans mend_keepsLake)), h_s.trans (homeFault_keepsLake.trans touch_keepsLake)]
  · exact h_s
  · exact h_s.trans touch_keepsLake

theorem overAdmit_keepsLake : s.KeepsLake s.overAdmit := ⟨rfl⟩

theorem lakeDest_keepsLake {r : RegionId} {seg len : Nat} {p : State × Loc} (h : s.lakeDest r seg len = some p) : s.KeepsLake p.1 := by
  unfold State.lakeDest at h
  split at h
  · exact lakePlace_keepsLake h
  · cases h

theorem demote_keepsLake {r : RegionId} {seg cls : Nat} {why : MoveFor} : s.KeepsLake (s.demote r seg cls why) := by
  unfold State.demote
  extract_lets e x toTarn gut
  refine .ite (.refl _) ?_
  split
  · exact startMove_keepsLake
  · refine .ite (.refl _) ?_
    split
    exacts [(lakeDest_keepsLake (by assumption)).trans startMove_keepsLake, .refl _]

theorem freeStack_keepsLake {k cls : Nat} {enough : State → Bool} : s.KeepsLake (s.freeStack k cls enough) :=
  .trans (.foldl (fun _ _ => .ite (.refl _) dropImage_keepsLake)) (.foldl (fun _ _ => .ite (.refl _) demote_keepsLake))

theorem capacityFatal_keepsLake {r : RegionId} {seg : Nat} : s.KeepsLake (s.capacityFatal r seg) := poisonSeg_keepsLake.trans post_keepsLake

theorem storeFresh_keepsLake {r : RegionId} {seg : Nat} {b : List Byte} {pick : W32} {last : Bool} :
    s.KeepsLake (s.storeFresh r seg b pick last).1 := by
  unfold State.storeFresh
  extract_lets u k s1
  have h_s1 : s.KeepsLake s1 := freeStack_keepsLake
  split
  exacts [commitOpen_keepsLake, .ite_fst capacityFatal_keepsLake (h_s1.trans (.ite_fst (.refl _) capacityFatal_keepsLake))]

theorem storeSeg_keepsLake {s0 : State} {r : RegionId} {seg off : Nat} {p : List (Option Byte)} {c : Chk} {pick : W32} {past last : Bool} :
    s0.KeepsLake (s0.storeSeg r seg off p c pick past last).1 := by
  unfold State.storeSeg
  extract_lets s s1 s2 e adm b
  have h_s : s0.KeepsLake s := checkSme_keepsLake
  have h_s2 : s0.KeepsLake s2 := h_s.trans (cancelMove_keepsLake.trans endTrial_keepsLake)
  refine .ite_fst (h_s.trans startMiss_keepsLake) (.ite_fst (h_s.trans touch_keepsLake) (.ite_fst h_s ?_))
  clear_value adm
  split
  · extract_lets h s3 old _ s4
    have h_s4 : s0.KeepsLake s4 := h_s2.trans (noteChk_keepsLake.trans ⟨rfl⟩)
    refine .ite_fst (h_s2.trans (homeFault_keepsLake.trans touch_keepsLake)) (.ite_fst (h_s4.trans (touchStore_keepsLake.trans mend_keepsLake)) ?_)
    split
    · exact h_s2.trans (homeFault_keepsLake (tag := false) (form := true))
    · split
      exacts [h_s2.trans capacityFatal_keepsLake, h_s2, h_s2.trans (noteChk_keepsLake.trans (overAdmit_keepsLake.trans storeFresh_keepsLake)),
        h_s2.trans (noteChk_keepsLake.trans storeFresh_keepsLake)]
  · split
    exacts [h_s2.trans capacityFatal_keepsLake, h_s2, h_s2.trans (.ite_fst capacityFatal_keepsLake startMiss_keepsLake)]
  · split
    exacts [h_s2.trans capacityFatal_keepsLake, h_s2, h_s2.trans (overAdmit_keepsLake.trans storeFresh_keepsLake), h_s2.trans storeFresh_keepsLake]

theorem poisonWrite_keepsLake {r : RegionId} {line : Nat} {h : HostId} : s.KeepsLake (s.poisonWrite r line h) :=
  count_keepsLake.trans (.ite (.refl _) (.trans ⟨by rfl⟩ post_keepsLake))

theorem poisonRead_keepsLake {r : RegionId} : s.KeepsLake (s.poisonRead r) := count_keepsLake

/-! ### The operations of `Machine/HostReq.lean` -/

theorem answerPoison_keepsLake {x : HReq} : s.KeepsLake (s.answerPoison x) := by
  unfold State.answerPoison
  split
  exacts [send_keepsLake, send_keepsLake, .refl _, send_keepsLake]

theorem unmapped_keepsLake {x : HReq} : s.KeepsLake (s.unmapped x) :=
  answerPoison_keepsLake.trans (.ite (.refl _) (.trans ⟨by rfl⟩ post_keepsLake))

theorem roWrite_keepsLake {x : HReq} {g : Nat} {r : RegionId} {line : Nat} : s.KeepsLake (s.roWrite x g r line) :=
  answerPoison_keepsLake.trans (.ite (.refl _) (.trans ⟨by rfl⟩ post_keepsLake))

theorem askWake_keepsLake {t : Nat} : s.KeepsLake (s.askWake t) := ⟨rfl⟩

theorem bankWait_keepsLake {a no : Nat} {rt : Bool} : s.KeepsLake (s.bankWait a no rt) := .ite (.refl _) ⟨rfl⟩

theorem dirStep_keepsLake {r : RegionId} {line : BitVec 40} {h : HostId} {want : DirWant} : s.KeepsLake (s.dirStep r line h want).1 := by
  unfold State.dirStep
  split
  · split
    · exact .refl _
    · exact .refl _
    · split
      exacts [.ite_fst (.refl _) (snoop_keepsLake.trans ⟨rfl⟩), dirPut_keepsLake]
    · split
      exacts [.ite_fst (.refl _) (snoop_keepsLake.trans ⟨rfl⟩), dirPut_keepsLake]
  · refine .ite_fst (.refl _) ?_
    extract_lets e mine others
    split
    · exact dirPut_keepsLake
    · exact .ite_fst (.refl _) snoop_keepsLake
    · exact .ite_fst (.refl _) (.ite_fst dirPut_keepsLake snoop_keepsLake)
    · exact .ite_fst (.refl _) snoop_keepsLake
    · exact .refl _
    · exact .ite_fst (.refl _) (.ite_fst dirDel_keepsLake snoop_keepsLake)

theorem dirFor_keepsLake {x : HReq} {r : RegionId} {line : Nat} : s.KeepsLake (s.dirFor x r line).1 := .ite_fst (.refl _) dirStep_keepsLake

theorem serveRead_keepsLake {x : HReq} {r : RegionId} {line : Nat} {c : Chk} : s.KeepsLake (s.serveRead x r line c).1 := by
  unfold State.serveRead
  refine .ite_fst (poisonRead_keepsLake.trans answerPoison_keepsLake) ?_
  split
  · exact dirFor_keepsLake.of_eq (by assumption)
  · rename_i s1 asked
    have h_s1 : s.KeepsLake s1 := dirFor_keepsLake.of_eq asked
    refine .ite_fst (h_s1.trans send_keepsLake) ?_
    split
    · exact h_s1.trans askWake_keepsLake
    · split
      · exact h_s1.trans bankWait_keepsLake
      · have h_read {u : State} {a : Rd} (read : s1.readLine r (line / 64) (line % 64) c = (u, a)) : s.KeepsLake u :=
          (h_s1.trans readLine_keepsLake).of_eq read
        split
        · exact (h_read (by assumption)).trans send_keepsLake
        · exact (h_read (by assumption)).trans (poisonRead_keepsLake.trans answerPoison_keepsLake)
        · exact (h_read (by assumption)).trans startMiss_keepsLake

theorem storeInto_keepsLake {x : HReq} {r : RegionId} {line : Nat} {c : Chk} {pick : W32} {past last : Bool} :
    s.KeepsLake (s.storeInto x r line c pick past last).1 := by
  unfold State.storeInto
  extract_lets seg before
  split
  · exact askWake_keepsLake
  · split
    · exact bankWait_keepsLake
    · split
      · exact storeSeg_keepsLake.of_eq (by assumption)
      · exact storeSeg_keepsLake.of_eq (by assumption)
      · exact (storeSeg_keepsLake.of_eq (by assumption)).trans (.ite poisonWrite_keepsLake (.refl _))

theorem serveWrite_keepsLake {x : HReq} {g : Nat} {gr : Grant} {line : Nat} {c : Chk} {pick : W32} {past last : Bool} :
    s.KeepsLake (s.serveWrite x g gr line c pick past last).1 := by
  unfold State.serveWrite
  extract_lets r l
  refine .ite_fst roWrite_keepsLake (.ite_fst answerPoison_keepsLake ?_)
  split
  · exact dirFor_keepsLake.of_eq (by assumption)
  · rename_i s1 asked
    have h_s1 : s.KeepsLake s1 := dirFor_keepsLake.of_eq asked
    split
    · exact (h_s1.trans storeInto_keepsLake).of_eq (by assumption)
    · rename_i s2 stored
      have h_s2 : s.KeepsLake s2 := (h_s1.trans storeInto_keepsLake).of_eq stored
      extract_lets s3 s4
      have h_s3 : s.KeepsLake s3 := h_s2.trans (.ite endLoss_keepsLake (.refl _))
      have h_s4 : s.KeepsLake s4 := h_s3.trans (.ite (.ite dirPut_keepsLake dirDel_keepsLake) (.refl _))
      exact h_s4.trans answerPoison_keepsLake

theorem serveReq_keepsLake {x : HReq} {c : Chk} {pick : W32} {past last : Bool} : s.KeepsLake (s.serveReq x c pick past last).1 := by
  unfold State.serveReq
  refine .ite_fst storeInto_keepsLake ?_
  split
  exacts [unmapped_keepsLake, .ite_fst (.refl _) (.ite_fst answerPoison_keepsLake (.ite_fst serveRead_keepsLake serveWrite_keepsLake))]

theorem runHeld_keepsLake {no : Nat} {c : Chk} {pick : W32} {past last : Bool} : s.KeepsLake (s.runHeld no c pick past last) := by
  unfold State.runHeld
  split
  · exact .refl _
  · extract_lets x
    split
    all_goals
      rename_i served
      exact (serveReq_keepsLake.of_eq served).trans ⟨rfl⟩

theorem rerun_keepsLake {test : HReq → Bool} {c : Chk} {pick : W32} : s.KeepsLake (s.rerun test c pick) :=
  .foldl_fst (p := (s, c, pick)) (fun _ _ => runHeld_keepsLake)

theorem endMiss_keepsLake {k : Nat} : s.KeepsLake (s.endMiss k) := .trans ⟨by rfl⟩ (.foldl (fun _ _ => ⟨rfl⟩))

/-! ### The operations of `Machine/Lamp.lean` -/

theorem updSched_keepsLake {k : Nat} {f : Sched → Sched} : s.KeepsLake (s.updSched k f) := ⟨rfl⟩

theorem lampStore_keepsLake {k : Nat} {r : RegionId} {off : Nat} {b : List Byte} : s.KeepsLake (s.lampStore k r off b).1 := by
  unfold State.lampStore
  extract_lets line seg at0 x dead d
  have h_d : s.KeepsLake d.1 := .ite_fst dirStep_keepsLake (.refl _)
  refine .ite_fst (.refl _) ?_
  clear_value d
  split
  · exact h_d.trans ⟨rfl⟩
  · split
    · exact h_d.trans ((storeInto_keepsLake.of_eq (by assumption)).trans (.ite dirDel_keepsLake (.refl _)))
    · rename_i stored
      exact h_d.trans ((storeInto_keepsLake.of_eq stored).trans ⟨rfl⟩)

theorem writeBlock_keepsLake {k : Nat} : s.KeepsLake (s.writeBlock k) := by
  unfold State.writeBlock
  split
  exacts [.refl _, lampStore_keepsLake]

theorem idleWords_keepsLake {k : Nat} : s.KeepsLake (s.idleWords k) := by
  unfold State.idleWords
  split
  exacts [.refl _, .foldl (fun _ _ => lampStore_keepsLake)]

theorem disarm_keepsLake {k : Nat} : s.KeepsLake (s.disarm k) := by
  unfold State.disarm
  split
  exacts [.refl _, .ite (.refl _) (updSched_keepsLake.trans (idleWords_keepsLake.trans writeBlock_keepsLake))]

theorem disarmFor_keepsLake {k cause : Nat} : s.KeepsLake (s.disarmFor k cause) := by
  unfold State.disarmFor
  split
  exacts [.refl _, .ite (.refl _) (disarm_keepsLake.trans post_keepsLake)]

theorem writeLamp_keepsLake {k : Nat} {x : Sched} {step : Nat} {st : Lamp} {late : Bool} {d : Nat} :
    s.KeepsLake (s.writeLamp k x step st late d) := by
  unfold State.writeLamp
  split
  · exact .refl _
  · extract_lets r
    have h_r : s.KeepsLake r.1 := lampStore_keepsLake
    exact h_r.trans (.ite disarmFor_keepsLake (.refl _))

theorem countFb_keepsLake {k : Nat} {l : Lamp} : s.KeepsLake (s.countFb k l) := by
  unfold State.countFb
  extract_lets s1
  have h_s1 : s.KeepsLake s1 := updSched_keepsLake
  split
  exacts [h_s1.trans ⟨rfl⟩, h_s1]

theorem updInst_keepsLake {k step d : Nat} {f : Inst → Inst} : s.KeepsLake (s.updInst k step d f) := updSched_keepsLake

theorem settleFb_keepsLake {k step d : Nat} {l : Lamp} : s.KeepsLake (s.settleFb k step d l) := by
  unfold State.settleFb
  split
  · exact .refl _
  · extract_lets s1 s2
    have h_s1 : s.KeepsLake s1 := updInst_keepsLake.trans countFb_keepsLake
    have h_s2 : s.KeepsLake s2 := h_s1.trans (.ite (.refl _) writeLamp_keepsLake)
    exact h_s2.trans writeBlock_keepsLake

theorem voidSteps_keepsLake {k : Nat} {bad : LStep → Bool} : s.KeepsLake (s.voidSteps k bad) := by
  unfold State.voidSteps
  split
  · exact .refl _
  · extract_lets idx s1
    have h_s1 : s.KeepsLake s1 := updSched_keepsLake
    exact h_s1.trans (.foldl (fun _ _ => updInst_keepsLake.trans (.ite (.refl _) (updSched_keepsLake.trans settleFb_keepsLake))))

theorem prefetchGone_keepsLake {h : HostId} : s.KeepsLake (s.prefetchGone h) := .foldl (fun _ _ => .ite abortMove_keepsLake (.refl _))

theorem lampGrantsGone_keepsLake {h : HostId} : s.KeepsLake (s.lampGrantsGone h) :=
  .trans (.foldl (fun _ _ => .ite voidSteps_keepsLake disarmFor_keepsLake)) prefetchGone_keepsLake

theorem dropSched_keepsLake {k cause : Nat} : s.KeepsLake (s.dropSched k cause) := disarmFor_keepsLake.trans ⟨rfl⟩

/-! ### The operations of `Machine/Reset.lean` -/

theorem freeLines_keepsLake {c : Chk} {pick : W32} :
    s.KeepsLake (s.freeLines c pick) := .trans (.foldl (fun _ _ => endMiss_keepsLake)) rerun_keepsLake

theorem loseWindow_keepsLake {w : Nat} : s.KeepsLake (s.loseWindow w) := by
  unfold State.loseWindow
  split
  · exact .refl _
  · extract_lets inW into s1 homes s2 _ _ s3
    have h_s1 : s.KeepsLake s1 := .foldl (fun _ _ => abortMove_keepsLake)
    have h_s2 : s.KeepsLake s2 := h_s1.trans (.foldl (fun _ _ => poisonSeg_keepsLake))
    have h_s3 : s.KeepsLake s3 := h_s2.trans ⟨rfl⟩
    exact h_s3.trans post_keepsLake

theorem loseWindows_keepsLake {h : HostId} {c : Chk} {pick : W32} : s.KeepsLake (s.loseWindows h c pick) :=
  .trans (.foldl (fun _ _ => loseWindow_keepsLake)) (.trans ⟨by rfl⟩
    (.trans (.foldl (fun _ _ => endMiss_keepsLake)) (.foldl (fun _ _ => rerun_keepsLake))))

theorem withdraw_keepsLake {o : Nat} {status : Byte} {detail : W16} : s.KeepsLake (s.withdraw o status detail) := by
  unfold State.withdraw
  split
  exacts [.refl _, .trans ⟨by rfl⟩ failProg_keepsLake]

theorem endRevoke_keepsLake {g : Nat} : s.KeepsLake (s.endRevoke g) := by
  unfold State.endRevoke
  split
  exacts [.refl _, .trans ⟨by rfl⟩ (.foldl (fun _ _ => ctlOk_keepsLake))]

theorem fixOffers_keepsLake : s.KeepsLake s.fixOffers :=
  .trans (.foldl (fun _ _ => by
    split
    · split
      exacts [withdraw_keepsLake, .refl _]
    · exact ⟨rfl⟩)) (.foldl (fun _ _ => endRevoke_keepsLake))

theorem endGrants_keepsLake {h : HostId} {c : Chk} {pick : W32} : s.KeepsLake (s.endGrants h c pick) := by
  unfold State.endGrants
  extract_lets gs offers s1 s2 s3 s4
  have h_s1 : s.KeepsLake s1 := endHostGrants_keepsLake
  have h_s2 : s.KeepsLake s2 := h_s1.trans (.foldl (fun _ _ => withdraw_keepsLake))
  have h_s3 : s.KeepsLake s3 := h_s2.trans (.foldl (fun _ _ => endRevoke_keepsLake))
  have h_s4 : s.KeepsLake s4 := h_s3.trans loseWindows_keepsLake
  exact h_s4.trans (freeLines_keepsLake.trans (lampGrantsGone_keepsLake.trans (fixOffers_keepsLake.trans serveUpdate_keepsLake)))

theorem traceReset_keepsLake {domain : Nat} : s.KeepsLake (s.traceReset domain) := trace_keepsLake

theorem resetHost_keepsLake {h : HostId} {row : Nat} : s.KeepsLake (s.resetHost h row) := by
  unfold State.resetHost
  extract_lets s1 _ _ s2 s3 s4 s5
  have h_s2 : s.KeepsLake s2 := post_keepsLake.trans (traceReset_keepsLake.trans ⟨rfl⟩)
  have h_s4 : s.KeepsLake s4 := h_s2.trans (.trans (.foldl (fun _ _ => mutedCancel_keepsLake)) (.foldl (fun _ _ => dropSched_keepsLake)))
  have h_s5 : s.KeepsLake s5 := h_s4.trans endGrants_keepsLake
  clear_value s5
  exact h_s5.trans ⟨rfl⟩

theorem hostEvent_keepsLake {h : HostId} {row : Nat} {link cold : Bool} : s.KeepsLake (s.hostEvent h row link cold) := by
  unfold State.hostEvent
  refine .ite ⟨rfl⟩ ?_
  extract_lets s1
  have h_s1 : s.KeepsLake s1 := resetHost_keepsLake
  clear_value s1
  exact h_s1.trans (.ite ⟨rfl⟩ ⟨rfl⟩)

theorem halfEvent_keepsLake {half row : Nat} : s.KeepsLake (s.halfEvent half row) := .foldl (fun _ _ => hostEvent_keepsLake)

theorem dropLink_keepsLake {half row : Nat} : s.KeepsLake (s.dropLink half row) := .trans ⟨by rfl⟩ halfEvent_keepsLake

/-! ### What a restart drops -/

theorem holdPorts_keepsLake : s.KeepsLake s.holdPorts := .foldl (fun _ _ => .trans (.ite dropLink_keepsLake (.refl _)) ⟨rfl⟩)

theorem dropWork_keepsLake : s.KeepsLake s.dropWork := ⟨rfl⟩

end State

end Sys2Proof.Machine
end

section
/-! ## Lake: failed programs, erases and dies, mount, wear and format (05 R206, R208, R215, R220, R225 to R229; 14 R505; 18 R610) -/

namespace Sys2Proof.Machine

namespace State

variable {s t u : State}

/-! ### Blocks that retire (R206) -/

theorem replaceRuns_of_no_moves {gone : Nat → Bool} (none : s.map.moves = []) : s.replaceRuns gone = s := by
  rw [State.replaceRuns, none]
  rfl

theorem relocatePages_of_no_home {test : Nat → Bool} {cls : Nat} (none : ∀ p ∈ s.map.sme, ∀ f sec, p.2.home ≠ some (.flash f sec)) :
    s.relocatePages test cls = s := by
  unfold State.relocatePages
  rw [List.filter_eq_nil_iff.mpr]
  · rfl
  · intro p hp
    split
    · rename_i f sec home
      exact absurd home (none p hp f sec)
    · exact Bool.false_ne_true

/-- A block on which nothing lies and nothing is on its way to leaves its superblock, and is counted. -/
theorem retireBlock_of_empty {n member : Nat} (good : (s.sb n).retired.contains member = false) (moves : s.map.moves = [])
    (none : ∀ p ∈ s.map.sme, ∀ f sec, p.2.home ≠ some (.flash f sec)) : ∃ l : LakeS,
    l.sb = s.lake.sb.set n .reset { s.sb n with retired := (s.sb n).retired ++ [member] } ∧ l.retired = s.lake.retired + 1 ∧
    l.progFail = s.lake.progFail ∧ l.eraseFail = s.lake.eraseFail ∧ State.Reckoned { s with lake := l } (s.retireBlock n member) := by
  unfold State.retireBlock
  rw [if_neg (by rw [good]; exact Bool.false_ne_true)]
  extract_lets _ s1 _ s2
  have still : (s2.replaceRuns (inBlock n member)).relocatePages (inBlock n member) 3 = s2 := by
    rw [replaceRuns_of_no_moves (s := s2) moves]
    exact relocatePages_of_no_home (s := s2) none
  have told : (s2.journal (.retire n member)).Reckoned (s2.journal (.retire n member)).evalWear := evalWear_reckoned _
  rw [still]
  refine ⟨(s2.journal (.retire n member)).lake, ?_, ?_, ?_, ?_, ?_⟩
  case refine_5 =>
    have rest : s2.journal (.retire n member) = { s with lake := (s2.journal (.retire n member)).lake } := journal_rest _
    rwa [← rest]
  all_goals
    unfold State.journal
    split <;> rfl

theorem programFail_retires {n : Nat} {ch : Fin 32} {x : Stripe} (listed : s.lake.stripes.find n = some x) (moves : s.map.moves = [])
    (none : ∀ p ∈ s.map.sme, ∀ f sec, p.2.home ≠ some (.flash f sec)) (good : (s.sb x.sb).retired.contains (ch.val * 4 + x.idx % 4) = false) :
    ∃ t, exec (.programFail n ch) s = .next t ∧ t.lake.progFail = satInc s.lake.progFail ∧ t.lake.retired = s.lake.retired + 1 ∧
      (t.sb x.sb).retired = (s.sb x.sb).retired ++ [ch.val * 4 + x.idx % 4] ∧ t.mem = s.mem ∧ t.map = s.map ∧ t.rt = s.rt := by
  let s1 : State := { s with lake := { s.lake with progFail := satInc s.lake.progFail } }
  have e : exec (.programFail n ch) s = .next (s1.retireBlock x.sb (ch.val * 4 + x.idx % 4)) := by
    simp only [exec, execProgramFail, listed]
    rfl
  obtain ⟨l, sb, retired, fails, -, reckoned⟩ := retireBlock_of_empty (s := s1) (n := x.sb) good moves none
  refine ⟨_, e, reckoned.progFail_eq.trans fails, reckoned.retired_eq.trans retired, ?_, reckoned.mem_eq, reckoned.map_eq, reckoned.rt_eq⟩
  rw [reckoned.sb_eq, State.sb, sb, Tbl.getD_set_same]
  rfl

theorem eraseFail_retires {n : Nat} {member : Fin 128} (closed : (s.sb n).st = .closed) (valid : s.validOn n = 0) (mounted : s.lake.mounted = true)
    (moves : s.map.moves = []) (idle : s.sbBusy n = false) (none : ∀ p ∈ s.map.sme, ∀ f sec, p.2.home ≠ some (.flash f sec))
    (good : (s.sb n).retired.contains member.val = false) (young : (s.sb n).erase + 1 < 4500) :
    ∃ t, exec (.eraseFail n member) s = .next t ∧ t.lake.eraseFail = satInc s.lake.eraseFail ∧ (t.sb n).st = .free ∧
      (t.sb n).retired = (s.sb n).retired ++ [member.val] ∧ t.mem = s.mem ∧ t.map = s.map ∧ t.rt = s.rt := by
  let s1 : State := { s with lake := { s.lake with eraseFail := satInc s.lake.eraseFail } }
  have heard : ¬ ((s.sb n).st ≠ .closed ∨ s.validOn n ≠ 0 ∨ s.sbBusy n = true ∨ s.lake.mounted = false) := by
    simp [closed, valid, idle, mounted]
  have e : exec (.eraseFail n member) s = .next ((s1.retireBlock n member).erased n) := by
    simp only [exec, execEraseFail, if_neg heard]
    rfl
  obtain ⟨l, sb, -, -, fails, reckoned⟩ := retireBlock_of_empty (s := s1) (n := n) good moves none
  have left : (s1.retireBlock n member).sb n = { s.sb n with retired := (s.sb n).retired ++ [member.val] } := by
    rw [reckoned.sb_eq, State.sb, sb, Tbl.getD_set_same]
    rfl
  generalize s1.retireBlock n member = u at e left reckoned
  have still : (u.sb n).erase + 1 < 4500 := by rw [left]; exact young
  obtain ⟨k, -, -, kept, erased⟩ := erased_of_young still
  refine ⟨_, e, ?_, ?_, ?_, erased.mem_eq.trans reckoned.mem_eq, erased.map_eq.trans reckoned.map_eq, erased.rt_eq.trans reckoned.rt_eq⟩
  · exact (erased.eraseFail_eq.trans kept).trans (reckoned.eraseFail_eq.trans fails)
  · rw [sb_erased still]
  · rw [sb_erased still, left]

/-! ### Dies (R227) -/

theorem replaceRuns_adds {gone : Nat → Bool} : s.Adds 0 (s.replaceRuns gone) :=
  .foldl_none (fun t p => by
    extract_lets n m strm _ t1
    have first : t.Adds 0 t1 := .none rfl rfl
    split
    · rename_i q placed
      have evt : q.1.evt = t1.evt := by rw [(lakePlace_striped placed).rest]
      have written : (q.1.writeRun q.2 (q.1.readRun m.dest m.len)).evt = q.1.evt := by rw [(writeRun_written _ _ _).rest]
      refine Adds.trans (n := 0) (m := 0) first (.none ?_ ?_)
      all_goals
        simp only
        split
        exacts [by rw [written, evt], by rw [evt]]
    · exact Adds.trans (n := 0) (m := 0) first (.none abortMove_woundDown.ring abortMove_woundDown.prod)) _ s

theorem fenceWork_die_adds {d : Nat} {cause : Byte} : s.Adds 4 (s.fenceWork (.die d) cause) := by
  have opened : s.Adds 0 (if s.inService then s.openRecov (.die d) cause else s) := .ite (.none rfl rfl) (.refl s)
  exact Adds.trans (n := 0) (m := 4) opened (Adds.trans (n := 0) (m := 4) replaceRuns_adds rebudget_adds)

theorem fenceWork_die_fmap {d : Nat} {cause : Byte} : (s.fenceWork (.die d) cause).evt.fmap = s.evt.fmap := by
  have opened : (if s.inService then s.openRecov (.die d) cause else s).evt.fmap = s.evt.fmap := by
    split <;> rfl
  have work (t : State) (gone : Nat → Bool) : (t.replaceRuns gone).rebudget.evt.fmap = t.evt.fmap :=
    ((replaceRuns_later (lasting := true).trans rebudget_later).inService rfl).fences
  exact (work _ _).trans opened

/-- The fence of a die: its bit, its event, and what it loses. -/
theorem fenceAll_die {d : Nat} (free : s.fenced (.die d) = false) (cause : Byte) (setter : Nat) : s.fenceAll [.die d] cause setter =
    ((s.setBits (.die d) cause).postAdvising (fencePost ((FUnit.die d).ev cause.toNat) (FUnit.die d).obj.1 (FUnit.die d).obj.2 cause.toNat setter
      ((s.implied (.die d)).length + 1)) (s.setBits (.die d) cause).fenceReasons).fenceWorks (.die d) [] cause := by
  obtain ⟨along, also, e⟩ := s.fenceAll_one free cause setter
  have alone : along = [] := List.eq_nil_iff_forall_not_mem.mpr fun w h => List.not_mem_nil (also w h)
  rwa [alone] at e

/-- A fence of a die takes no Lantern, so it is no cause of VIGIL. -/
theorem fenceUnit_die {d : Nat} (free : s.fenced (.die d) = false) (cause : Byte) (setter : Nat) :
    s.fenceUnit (.die d) cause setter = s.fenceAll [.die d] cause setter := by
  have lanterns : (s.fenceAll [.die d] cause setter).fencedIn 96 100 = s.fencedIn 96 100 := by
    have bit : (s.setBits (.die d) cause).fencedIn 96 100 = s.fencedIn 96 100 := by
      change (s.setBit (.die d) cause).fencedIn 96 100 = s.fencedIn 96 100
      rw [State.setBit, if_neg (by rw [free]; exact Bool.false_ne_true)]
      refine congrArg List.length (Tbl.filter_put _ _ fun y => decide_eq_false ?_)
      simp only [FUnit.bit]
      omega
    rw [fenceAll_die free, State.fencedIn, fenceWorks, List.foldl_nil, fenceWork_die_fmap]
    exact postAdvising_pondFencing.lanterns.trans bit
  unfold State.fenceUnit State.fenceUnits
  exact if_neg fun h => h.2 (lanterns.symm.trans h.1)

/-- A fence of one unit, whose work tells few events, is told with the code of its event and its object. -/
theorem posts_of_fenceUnit {v : FUnit} {along : List FUnit} {cause : Byte} {setter bits : Nat} (awake : s.sled.st ≠ .off)
    (e : s.fenceUnit v cause setter = ((s.setBits v cause).postAdvising (fencePost (v.ev cause.toNat) v.obj.1 v.obj.2 cause.toNat setter bits)
      (s.setBits v cause).fenceReasons).fenceWorks v along cause) (works : ∀ t : State, t.Adds 4 (t.fenceWorks v along cause))
    {code okind obj : Nat} (hc : (v.ev cause.toNat).info.1 % 2 ^ 16 = code) (hk : v.obj.1 % 2 ^ 8 = okind) (ho : v.obj.2 % 2 ^ 32 = obj) :
    s.Posted (s.fenceUnit v cause setter) code okind obj := by
  have later : s.Later true false (s.setBits v cause) := setBits_later
  have few := (s.setBits v cause).fenceReasons_length
  have same : (s.setBits v cause).sled = s.sled := sled_foldl_setBit.trans sled_setBit
  rw [e]
  refine Posted.after (t := s.setBits v cause) ?_ (later.posted rfl) (later.time rfl)
  exact posted_of_postAdvising (by rw [same]; exact awake) (works _) (by omega) hc hk ho

theorem lakeDieFail_fences {die : Fin 1024} (lake : s.hasLake = true) (fitted : die.val % 32 < s.id.variant.dies) (up : s.up = true)
    (free : s.fenced (.die die) = false) :
    ∃ t, exec (.lakeDieFail die) s = .next t ∧ t.evt.fmap.find (560 + die.val) = some 0x0B ∧ s.Posted t 0x0204 11 die.val := by
  have awake : s.sled.st ≠ .off := by
    intro off
    simp [State.up, off] at up
  have e : exec (.lakeDieFail die) s = .next (s.fenceUnit (.die die) 0x0B (if s.sled.boot = .mount then 0 else 1)) := by
    simp [exec, execLakeDieFail, lake, fitted, up]
  exact ⟨_, e, (fenceUnits_fences (l := []) free awake _ _).1,
    posts_of_fenceUnit awake ((fenceUnit_die free _ _).trans (fenceAll_die free _ _)) (fun _ => fenceWork_die_adds) rfl rfl
      (Nat.mod_eq_of_lt (die.isLt.trans (by decide)))⟩

/-! ### Mount (R215, R229) -/

/-- The first key of a sorted table comes before the others. -/
theorem lt_of_sorted {α : Type} {k : Nat} {v : α} {l : Tbl α} (sorted : Tbl.sorted ((k, v) :: l) = true) :
    (∀ p ∈ l, k < p.1) ∧ Tbl.sorted l = true := by
  induction l generalizing k v with
  | nil => exact ⟨fun _ h => absurd h List.not_mem_nil, rfl⟩
  | cons q l ih =>
    obtain ⟨first, rest⟩ : k < q.1 ∧ Tbl.sorted (q :: l) = true := by simpa [Tbl.sorted] using sorted
    refine ⟨fun p h => ?_, rest⟩
    rcases List.mem_cons.mp h with rfl | later
    exacts [first, first.trans ((ih rest).1 p later)]

theorem find_foldl_put_of_ne {α : Type} {f : α → α} {l : Tbl α} {r : Nat} (others : ∀ p ∈ l, p.1 ≠ r) (t : Tbl α) :
    Tbl.find (l.foldl (fun t p => t.put p.1 (f p.2)) t) r = t.find r := by
  induction l generalizing t with
  | nil => rfl
  | cons p l ih =>
    rw [List.foldl_cons, ih fun q h => others q (List.mem_cons_of_mem p h)]
    exact Tbl.find_put_ne t _ (others p List.mem_cons_self).symm

/-- The entries of a sorted table put one by one into another: each is found there. -/
theorem find_foldl_put_of_sorted {α : Type} {f : α → α} {l : Tbl α} (sorted : l.sorted = true) {r : Nat} {x : α} (listed : l.find r = some x)
    (t : Tbl α) : Tbl.find (l.foldl (fun t p => t.put p.1 (f p.2)) t) r = some (f x) := by
  induction l generalizing t with
  | nil => cases listed
  | cons p l ih =>
    obtain ⟨first, rest⟩ := lt_of_sorted sorted
    rw [List.foldl_cons]
    rw [Tbl.find] at listed
    split at listed
    · rename_i here
      cases listed
      rw [find_foldl_put_of_ne fun q h => here ▸ (first q h).ne', here]
      exact Tbl.find_put_same _ _ _
    · exact ih rest listed _

/-- A mount whose journal holds no record after the checkpoint brings back the regions of the checkpoint. -/
theorem replay_of_no_records (records : s.lake.jour.drop s.lake.jmark = []) (lost : s.sled.preserved = false) :
    (s.replay false).lake.mounted = true ∧ (s.replay false).lake.wp = false ∧
    (s.replay false).rt.ent = s.lake.ckpt.ent.foldl (fun t p => t.put p.1 p.2.replayed) s.rt.ent := by
  unfold State.replay
  extract_lets base recs c age kept _ _ _ s1 s2 s3
  have empty : recs = [] := records
  have brought : s3 = s1 := by
    have s2_eq : s2 = s1 := if_neg (by rw [lost]; exact Bool.false_ne_true)
    unfold s3
    rw [empty, s2_eq]
    rfl
  have regions : c = s.lake.ckpt := by
    unfold c
    rw [empty]
    rfl
  obtain ⟨-, rt, mounted, wp⟩ := checkpoint_stands { s3 with
    sled := { s3.sled with preserved := false, kept := [] }
    mem := { s3.mem with bytes := s3.mem.bytes.filter (fun x => decide (3 * 2 ^ 68 ≤ x.1 ∧ x.1 < 4 * 2 ^ 68)) } }
  rw [rt, mounted, wp, brought]
  refine ⟨rfl, rfl, ?_⟩
  rw [← regions]

theorem lakeMountDone_brings {r : Nat} {e : REnt} (mount : s.sled.boot = .mount) (records : s.lake.jour.drop s.lake.jmark = [])
    (lost : s.sled.preserved = false) (sorted : s.lake.ckpt.ent.sorted = true) (listed : s.lake.ckpt.ent.find r = some e) :
    ∃ t, exec (.lakeMountDone .latest []) s = .next t ∧ t.sled.boot = .ready ∧ t.lake.mounted = true ∧ t.lake.wp = false ∧
      t.rt.ent.find r = some e.replayed := by
  let s1 : State := { s with
    lake := { s.lake with bbt := true }, sled := { s.sled with kept := s.sled.kept.filter (fun p => !([] : List Nat).contains p.1) } }
  have run : exec (.lakeMountDone .latest []) s = .next { s1.replay false with sled := { (s1.replay false).sled with boot := .ready } } := by
    simp only [exec, execLakeMountDone]
    rw [if_neg (not_not_intro mount), if_pos (by decide)]
    rfl
  obtain ⟨mounted, wp, ent⟩ := replay_of_no_records (s := s1) records lost
  exact ⟨_, run, rfl, mounted, wp, by rw [ent]; exact find_foldl_put_of_sorted sorted listed _⟩

theorem lakeMountDone_of_neither (mount : s.sled.boot = .mount) :
    ∃ t, exec (.lakeMountDone .neither []) s = .next t ∧ t.sled.st = .vigil ∧ t.wd.vcause = 8 := by
  have run : exec (.lakeMountDone .neither []) s = .next ((s.post { ev := .lakeMountFail, okind := 0, obj := 0 }).enterVigil 8) := by
    simp only [exec, execLakeMountDone]
    rw [if_neg (not_not_intro mount), if_neg (not_not_intro rfl)]
  exact ⟨_, run, enterVigil_sled.1, enterVigil_vcause _ 8⟩

/-! ### Wear and channel groups (R208, R220) -/

theorem wearEval_advances (mounted : s.lake.mounted = true) (lake : s.hasLake = true) (due : s.lake.wear.code < s.wearNow.code) :
    ∃ t, exec .wearEval s = .next t ∧ t.lake.wear = s.wearNow ∧ s.evt.prod ≤ t.evt.prod ∧ t.mem = s.mem ∧ t.map = s.map ∧ t.rt = s.rt := by
  obtain ⟨reckoned, wear⟩ := evalWear_advances lake due
  have later : s.Later true true s.evalWear := evalWear_later
  exact ⟨_, congrArg Host.Outcome.next (if_pos mounted), wear, later.posted rfl, reckoned.mem_eq, reckoned.map_eq, reckoned.rt_eq⟩

theorem channelGroupWakeDone_lights {group : Fin 4} (dark : (s.ledger (16 + group.val)).st ≠ .lit) (allowed : (s.ledger (16 + group.val)).perm = 0) :
    ∃ t, exec (.channelGroupWakeDone group) s = .next t ∧ (t.ledger (16 + group.val)).st = .lit ∧
      (t.ledger (16 + group.val)).asks = false ∧ s.DataKept t := by
  let s1 := s.setLedger (16 + group.val) { s.ledger (16 + group.val) with asks := false }
  have run : exec (.channelGroupWakeDone group) s = .next (s1.setPst (16 + group.val) .lit 0 0) :=
    congrArg Host.Outcome.next (if_neg (by simp [dark, allowed]))
  have entry : s1.ledger (16 + group.val) = { s.ledger (16 + group.val) with asks := false } := ledger_setLedger _ _ _
  have lit : (s1.setPst (16 + group.val) .lit 0 0).ledger (16 + group.val) =
      { s.ledger (16 + group.val) with st := .lit, asks := false, trimAt := s1.clk.ms } := by
    rw [ledger_setPst, entry, if_neg dark]
  obtain ⟨t, told, e⟩ := s1.setPst_eq (i := 16 + group.val) (st := .lit) (reason := 0) (cause := 0)
  refine ⟨_, run, by rw [lit], by rw [lit], ?_⟩
  rw [e]
  split
  exacts [⟨rfl, rfl, rfl, rfl, rfl⟩, ⟨told.mem_eq, told.map_eq, told.rt_eq, told.dir_eq, told.lake_eq⟩]

/-! ### Format (18 R610) -/

/-- A restart leaves what Lake's checkpoints hold. -/
theorem restart_stands (s : State) (rcause : Nat) : (s.restart rcause).lake.ckpt = s.lake.ckpt ∧ (s.restart rcause).lake.ckptOld = s.lake.ckptOld ∧
    (s.restart rcause).mgt.formatting = false ∧ (s.restart rcause).sled.st = .boot ∧ (s.restart rcause).sled.boot = .verify ∧
    (s.restart rcause).wd.rcause = BitVec.ofNat 4 rcause := by
  unfold State.restart
  extract_lets s1 _ _ _ _ _ _ _ _ _ _ _ _ s2
  have kept : s.KeepsLake s1 := holdPorts_keepsLake.trans dropWork_keepsLake
  clear_value s1
  have told := (s2.setSled_told .boot).trans (traceReset_told _ 1)
  rw [told.lake_eq, told.mgt_eq, told.sled_eq, told.wd_eq]
  exact ⟨kept.ckpt_eq, kept.ckptOld_eq, rfl, rfl, rfl, rfl⟩

theorem lakeFormatDone_restarts (formatting : s.mgt.formatting = true) :
    ∃ t, exec .lakeFormatDone s = .next t ∧ t.lake.ckpt = { Ckpt.empty with blocks := s.blockTable } ∧ t.lake.ckptOld = Ckpt.empty ∧
      t.mgt.formatting = false ∧ t.sled.st = .boot ∧ t.sled.boot = .verify ∧ t.wd.rcause = 3 := by
  let s1 : State := { s with
    lake := { s.lake with jour := [.checkpoint 0 s.lake.wseq], jmark := 1, ckpt := { Ckpt.empty with blocks := s.blockTable }, btab := s.blockTable,
                          ckptOld := .empty, mapAt := [], idxAt := [], idxDirty := [], wp := false }
    sled := { s.sled with preserved := false, kept := [] } }
  have run : exec .lakeFormatDone s = .next (s1.restart 3) := congrArg Host.Outcome.next (if_neg (by simp [formatting]))
  exact ⟨_, run, s1.restart_stands 3⟩

end State

open State in
/-- Settles O13: failed programs and erases retire their blocks, a failed die is fenced, a mount brings back the checkpoint's regions, and a format
leaves none and restarts the sled, the links' end having left Lake's records standing. -/
theorem lakeFailuresMountAndFormat : Obligations.LakeFailuresMountAndFormat :=
  ⟨fun _ _ _ _ listed moves none good => programFail_retires listed moves none good,
    fun _ _ _ closed valid mounted moves idle none good young => eraseFail_retires closed valid mounted moves idle none good young,
    fun _ mounted lake due => wearEval_advances mounted lake due,
    fun _ _ lake fitted up free => lakeDieFail_fences lake fitted up free,
    fun _ _ _ mount records lost sorted listed => lakeMountDone_brings mount records lost sorted listed,
    fun _ mount _ => lakeMountDone_of_neither mount,
    fun _ _ dark allowed => channelGroupWakeDone_lights dark allowed,
    fun _ formatting => lakeFormatDone_restarts formatting⟩

end Sys2Proof.Machine
end

section
/-! ## A held load beyond line 2^40 of its region (O4)

The state of `FarExtent` refutes the clause on held loads here as it does in O5: the request carries its line in 40 bits, and the load of line 2^40 is
answered from line 0. -/

namespace Sys2Proof.Machine

/-- Refutes O4: where the extent of a grant begins at line 2^40, a load held on an odd entry is answered with the line of zeros at line 0 of the
region, and not with the stored line of the extent, whose first byte is 7. -/
theorem not_snoopAnswersAndHeldRequests : ¬ Obligations.SnoopAnswersAndHeldRequests := by
  unfold Obligations.SnoopAnswersAndHeldRequests
  rintro ⟨-, -, -, load, -⟩
  obtain ⟨t, run, answer, -⟩ := load FarExtent.state 0 .ok 0 FarExtent.load 0 (2 ^ 40) 256 FarExtent.grant (by decide +kernel) rfl rfl
    FarExtent.found rfl (by decide +kernel) (by decide +kernel) FarExtent.untracked FarExtent.inPond rfl
  rw [FarExtent.answered run] at answer
  revert answer
  decide +kernel

end Sys2Proof.Machine
end

section
/-! ## A segment that a peer pulls while its map entry is away (O17)

Segment 1 of region 1 is ZERO in `AwayPage.state`, and the page of its entry is not in the map cache: `State.peerRead` has the page fetched first, and
the DATA frame follows only when it is back (02 R64, R65). -/

namespace Sys2Proof.Machine

namespace AwayPage

/-- Sled 5 asks for segment 1 of region 1. -/
def pull : PFrame := { src := 5, tag := 1, region := 1, seg := 1, seq := 0, count := 1, payload := [] }

/-- The PULL draws no frame. -/
theorem pull_sends_nothing {t : State} (run : exec (.peerPullFrame 9 pull ⟨true, .ok⟩) state = .next t) : t.out = [] := by
  obtain rfl := Host.Outcome.next.inj run
  decide +kernel

end AwayPage

/-- Refutes O17: where the map cache does not hold the entry of the ZERO segment that a peer's PULL asks for, neither its DATA frame nor DONE leaves at
once. -/
theorem not_peerMovesExchangeFrames : ¬ Obligations.PeerMovesExchangeFrames := by
  unfold Obligations.PeerMovesExchangeFrames
  rintro ⟨-, -, -, -, pull, -⟩
  obtain ⟨t, run, sent, -⟩ := pull AwayPage.state 9 AwayPage.pull 5 (by decide +kernel) (by decide +kernel) rfl (by decide +kernel) rfl
    (by decide +kernel) (by decide +kernel) rfl rfl (by decide +kernel) (by decide +kernel)
  rw [AwayPage.pull_sends_nothing run] at sent
  exact List.cons_ne_nil _ _ sent.symm

end Sys2Proof.Machine
end

section
/-! ## A revoke that ends a prefetch (O15)

Once a host has lost its extent, `State.prefetchGone` abandons the prefetches of its programs that lie in it (09 R375, R388): the move ends, and the map
does not stay as it was. -/

namespace Sys2Proof.Machine

namespace LostPrefetch

/-- Region 1 of host 0, granted to host 1. -/
def grant : Grant := { host := 1, region := 1, first := 0, count := 1, rw := true, dpa := 0 }

/-- The control program of host 0 that waits in its REGION.REVOKE. -/
def revoker : Prog :=
  { startProg 0 0 .control { cid := 7, irq := false, order := false, words := [BitVec.ofNat 64 (0x22 + 1 * 2 ^ 13)], args := [], h0 := 0 } 256 with
    wait := .control }

/-- The program of host 1 that waits for its prefetch, move 0. -/
def prefetcher : Prog :=
  { startProg 1 0 .compute { cid := 8, irq := false, order := false, words := [], args := [], h0 := BitVec.ofNat 64 (1 + 2 ^ 63) } 0 with
    wait := .prefetch, pf := [0] }

/-- Segment 0 of region 1, stored OPEN in Lake, on its way out of there. -/
def sme : Sme :=
  ⟨({ st := 6, spr := false, codec := 2, csize := 16, pin := false, lend := false, prior := 2, age := 0, aux := 0 } : SmeF).word, 0⟩

/-- Host 1 has not answered the revoke of its grant, and segment 0 is on its way to Pond for its program. -/
def state : State :=
  { State.reset with
    sled := { State.reset.sled with st := .serve }
    rt := { State.reset.rt with
      ent := [(1, { REnt.freed with gen := 2, st := .active, owner := 0 })], grants := [(0, grant)]
      revokes := [(0, { progs := [0], stage := .waitRelease })] }
    map := { State.reset.map with sme := [(segKey 1 0, sme)], moves := [(0, mkMove 1 0 (.near false 256) 16 false 3 .demand)], moveNo := 1 }
    q := { State.reset.q with progs := [(0, revoker), (1, prefetcher)] } }

/-- The forced release ends the move. -/
theorem revoke_ends_move {t : State} (run : exec (.revokeTimeout 0 false) state = .next t) : t.map.moves = [] := by
  obtain rfl := Host.Outcome.next.inj run
  decide +kernel

end LostPrefetch

/-- Refutes O15: where the host that lets its revoke time out has a prefetch under way in the extent, the forced release abandons it, and the map
changes. -/
theorem not_regionsAreRevokedSealedAndFreed : ¬ Obligations.RegionsAreRevokedSealedAndFreed := by
  unfold Obligations.RegionsAreRevokedSealedAndFreed
  rintro ⟨-, timeout, -⟩
  obtain ⟨t, run, -, -, -, -, -, map⟩ := timeout LostPrefetch.state 0 LostPrefetch.grant 0 LostPrefetch.revoker rfl rfl rfl rfl rfl
    (by decide +kernel) (by decide +kernel) rfl rfl (by decide +kernel)
  have ended := LostPrefetch.revoke_ends_move run
  rw [map] at ended
  exact List.cons_ne_nil _ _ ended

end Sys2Proof.Machine
end

section
/-! ## Control instructions and programs that end (08 R325, R327, R334, R335)

What a control instruction does that its program stands at, how it completes or waits, and how a program ends with its completion. -/

namespace Sys2Proof.Machine

namespace State

variable {s t : State} {p : Nat} {x : Prog}

/-- A program at an instruction whose operands are well formed runs its effect. -/
theorem control_of_at {sel : W64 → Bool} {w e : W64} {check : Prog → W64 → W64 → Option W16} {f : Prog → W64 → W64 → State}
    (here : s.AtInstr p x sel w e) (formed : check x w e = none) : s.control p sel check f = f x w e := by
  have instr : s.instr p sel check f = f x w e := by
    simp only [State.instr, here.prog, here.run, here.cur, formed, here.taken, if_true, Bool.true_eq_false, if_false]
  simp only [State.control, here.prog, here.run, here.cur, here.clean, instr, ne_eq, not_true_eq_false, false_and, if_false, Bool.true_eq_false]

theorem guarded_of_none {l : List (Option Err1)} {f : State} (fine : ∀ y ∈ l, y = none) : s.guarded p l f = f := by
  rw [State.guarded, List.findSome?_eq_none_iff.mpr fine]

/-- A program that nothing has cancelled goes on at its next word. -/
theorem goOn_of_running {f : Prog → Prog} (running : s.prog p = some x) (free : x.cancel = none) :
    s.goOn p f = s.setProg p (x.onward (f x)) := by
  simp only [State.goOn, running, free]
  rfl

theorem ctlOk_completes {d : Nat} {v : W64} (running : s.prog p = some x) (free : x.cancel = none) :
    s.ctlOk p d v = s.setProg p (x.completed d v) := goOn_of_running running free

theorem ctlWait_prog (running : s.prog p = some x) : (s.ctlWait p).prog p = some { x with wait := .control } := by
  simp only [State.ctlWait, State.prog] at running ⊢
  rw [Tbl.find_upd, if_pos rfl, running]
  rfl

/-! ### The completion of a program that ends -/

/-- A completion that the ring takes at once is written. -/
theorem deliver_of_canPost {h : HostId} {q : QueueNo} {c : Cpl} (ready : s.CanPost h q) : s.deliver h q c = s.writeCpl h q c :=
  if_neg (by
    rintro (full | held | stopped)
    exacts [Bool.false_ne_true (ready.room.symm.trans full), held ready.none, ready.takes stopped])

theorem writeCpl_sent (h : HostId) (q : QueueNo) (c : Cpl) :
    .completion h q (s.queue h q).cqtail (s.queue h q).phase (s.queue h q).sqhead c ∈ (s.writeCpl h q c).out := by
  unfold State.writeCpl
  extract_lets x last s1
  split
  · obtain ⟨l, e⟩ := (s1.signal_told h (q.toNat + 2)).sent
    rw [e]
    exact List.mem_append_right _ List.mem_cons_self
  · exact List.mem_cons_self

theorem deliver_map {h : HostId} {q : QueueNo} {c : Cpl} : (s.deliver h q c).map = s.map := by
  unfold State.deliver State.writeCpl
  extract_lets x last s1
  split
  · rfl
  · split
    exacts [(s1.signal_told h (q.toNat + 2)).map_eq, rfl]

theorem endProg_map {status : Byte} {detail : W16} {info : W64} : (s.endProg p status detail info).map = s.map := by
  unfold State.endProg
  split
  · rfl
  · extract_lets s1 s2 s3
    have kicked : s2.map = s.map := by
      unfold s2
      split <;> rfl
    split
    exacts [kicked, deliver_map.trans kicked]

/-- A program whose ring takes an entry ends with its completion. -/
theorem endProg_endsWith {status : Byte} {detail : W16} {info : W64} (running : s.prog p = some x) (heard : x.mute = false)
    (ready : s.CanPost x.host x.q) : s.EndsWith (s.endProg p status detail info) p x status detail info := by
  refine ⟨by rw [endProg_progs, if_pos rfl], ?_⟩
  unfold State.endProg
  simp only [running, heard, Bool.false_eq_true, if_false]
  generalize kicked : (if x.core < 96 then (s.leave p).kickGroup (x.core / 8) else s.leave p) = s2
  have same : s2.queue x.host x.q = s.queue x.host x.q := by
    subst kicked
    split <;> rfl
  rw [same]
  have counted : (s2.setQueue x.host x.q ((s.queue x.host x.q).count status)).queue x.host x.q = (s.queue x.host x.q).count status :=
    queue_setQueue _ _ _ _
  have still : (s2.setQueue x.host x.q ((s.queue x.host x.q).count status)).CanPost x.host x.q := by
    constructor <;> rw [counted]
    exacts [ready.room, ready.none, ready.takes]
  rw [deliver_of_canPost still]
  have sent := (s2.setQueue x.host x.q ((s.queue x.host x.q).count status)).writeCpl_sent x.host x.q (x.cpl status detail info)
  rw [counted] at sent
  exact sent

end State

end Sys2Proof.Machine
end

section
/-! ## Regions made, lent and granted to peers, and hosts that are offered an extent (06 R233, R238 to R240; 02 R91; 09 R370) -/

namespace Sys2Proof.Machine

namespace State

variable {s t : State} {p : Nat} {x : Prog} {w e : W64}

/-! ### A new region (R233) -/

/-- The state with the entry of a new region that has no list of windows. -/
def regionMade (s : State) (e : W64) (h : HostId) (r : RegionId) : State :=
  let s1 := s.setEnt r (newEnt (s.ent r) e h true r)
  { s1 with rt := { s1.rt with
    born := s1.rt.born.set r.toNat 0 s.clk.age, cnt := s1.rt.cnt.del r.toNat, tsets := s1.rt.tsets.del r.toNat } }

/-- REGION.NEW makes the region at the lowest free ID, where Lake and the overcommit limit allow it. -/
theorem regionNew_makes {list : List W16} {r : RegionId} (here : s.AtInstr p x (isOp 0x20) w e) (formed : newCheck s x w e list = none)
    (noList : x.gr (fA w) = 0) (demotable : e.getLsbD 19 = false) (backed : s.hasLake = true ∨ e.getLsbD 20 = true)
    (young : s.lake.wear ≠ .guttering) (fresh : s.lake.wear ≠ .spent) (free : s.freeId = some r)
    (fits : s.visible + (xf e 0 18 + 1) * 65536 * 4096 ≤ s.overcommit) :
    exec (.regionNew p list false) s = .next ((s.regionMade e x.host r).setProg p
      (x.onward { x.setH (fD w) (BitVec.ofNat 64 (r.toNat + 2 ^ 63)) with lastSt := 0 })) := by
  have go : (s.regionMade e x.host r).okOn p (fun y => y.setH (fD w) (BitVec.ofNat 64 (r.toNat + 2 ^ 63))) = _ :=
    goOn_of_running (s := s.regionMade e x.host r) here.prog here.free
  rw [← go]
  simp only [exec, execRegionNew]
  rw [control_of_at here formed]
  simp only [noList, free]
  rw [if_neg (by simp), guarded_of_none]
  · rfl
  · simp only [List.forall_mem_cons, demotable]
    refine ⟨if_neg ?_, if_neg (by simp [young]), if_neg (by simp [fresh]), if_neg (by simp), if_neg (by omega), if_neg (by simp), by simp⟩
    rintro ⟨noLake, -, noBack⟩
    rcases backed with h | h
    exacts [Bool.false_ne_true (noLake.symm.trans h), Bool.false_ne_true (noBack.symm.trans h)]

/-! ### Offers (R240) -/

/-- The extent that a REGION.GRANT in host form asks for, at a DPA. -/
def askedGrant (s : State) (x : Prog) (w : W64) (a : Nat) : Grant :=
  { host := (x.gr (fB w)).setWidth 10, region := hRegion (x.hr (fA w)), first := hBase (x.hr (fA w)) / 2 ^ 28, count := grantCount s x w,
    rw := fModR w / 4 % 2 == 1, dpa := a }

/-- An event for a host grows its log and signals it. -/
theorem dcEvent_told (h : HostId) (v : DcEv) :
    { s with ports := { s.ports with dcLog := s.ports.dcLog.put h.toNat (s.ports.dcLog.getD h.toNat [] ++ [v]) } }.OnlyTold (s.dcEvent h v) :=
  notice_told _ _

theorem regionGrantHost_offers {g a : Nat} (here : s.AtInstr p x (isGrant 0) w e) (formed : grantHostCheck s x w = none)
    (still : s.token (hRegion (x.hr (fA w))) = false)
    (right : s.grantErr x.host ((x.gr (fB w)).setWidth 10) (hRegion (x.hr (fA w))) (fModR w / 4 % 2 == 1) none = none)
    (few : (s.allGrants.filter (fun q => q.2.host == (x.gr (fB w)).setWidth 10)).length < 512) (number : s.freeGrant = some g)
    (room : s.freeDpa ((x.gr (fB w)).setWidth 10) (s.ent (hRegion (x.hr (fA w)))).shared (grantCount s x w * 2 ^ 28) = some a) :
    ∃ t, exec (.regionGrantHost p) s = .next t ∧
      t.rt = { s.rt with offers := s.rt.offers.put g { grant := s.askedGrant x w a, prog := p, d := fD w } } ∧
      t.prog p = some { x with wait := .control } ∧ t.mem = s.mem ∧ t.map = s.map ∧ t.dir = s.dir := by
  let gr := s.askedGrant x w a
  let s1 : State := { s with rt := { s.rt with offers := s.rt.offers.put g { grant := gr, prog := p, d := fD w } } }
  have run : exec (.regionGrantHost p) s = .next ((s1.dcEvent gr.host (.add gr.region gr.first gr.count a)).ctlWait p) := by
    refine (congrArg Host.Outcome.next (control_of_at here formed)).trans (congrArg Host.Outcome.next
      ((if_neg (Bool.not_eq_true _ ▸ still)).trans ((guarded_of_none ?_).trans ?_)))
    · refine List.forall_mem_cons.mpr ⟨right, List.forall_mem_cons.mpr ⟨if_neg ?_, List.forall_mem_cons.mpr ⟨if_neg ?_, by simp⟩⟩⟩
      · rw [number]
        rintro (h | h)
        exacts [absurd few h.not_gt, nomatch h]
      · rw [room]
        exact nofun
    · rw [number, room]
      rfl
  have told := s1.dcEvent_told gr.host (.add gr.region gr.first gr.count a)
  refine ⟨_, run, told.rt_eq, ctlWait_prog ?_, told.mem_eq, told.map_eq, told.dir_eq⟩
  rw [State.prog, told.q_eq]
  exact here.prog

/-! ### Windows and peer grants (02 R91; 09 R370) -/

theorem regionGrantLend_numbers {i : Nat} (here : s.AtInstr p x (isGrant 1) w e) (form : fModR w % 4 = 1)
    (formed : onlyBits w [uD, uB, uC, (36, 3)] = true) (base : (x.gr (fB w)).toNat % 2 ^ 28 = 0) (size : (x.gr (fC w)).toNat % 2 ^ 28 = 0)
    (filled : (x.gr (fC w)).toNat ≠ 0) (bounded : (x.gr (fC w)).toNat ≤ 2 ^ 46) (number : s.rt.windows.lowestFree 4096 0 = some i) :
    exec (.regionGrantLend p) s = .next ({ s with rt := { s.rt with
        windows := s.rt.windows.put i { host := x.host, base := (x.gr (fB w)).toNat, size := (x.gr (fC w)).toNat }
        epochs := s.rt.epochs.put i (s.rt.epochs.getD i 0 + 1) } }.setProg p (x.completed (fD w) (BitVec.ofNat 64 (i + 2 ^ 16)))) := by
  have fine : (if fModR w % 4 = 3 ∨ onlyBits w [uD, uB, uC, (36, 3)] = false then some dReserved
      else if (x.gr (fB w)).toNat % 2 ^ 28 ≠ 0 ∨ (x.gr (fC w)).toNat % 2 ^ 28 ≠ 0 then some dAlign
      else if (x.gr (fC w)).toNat = 0 ∨ 2 ^ 46 < (x.gr (fC w)).toNat then some dRange else none) = none := by
    rw [if_neg (by simp [form, formed]), if_neg (by omega), if_neg (by omega)]
  simp only [exec, execRegionGrantLend]
  rw [control_of_at here fine]
  simp only [number]
  exact congrArg _ (ctlOk_completes here.prog here.free)

theorem regionGrantPeer_numbers {i : Nat} (here : s.AtInstr p x (isGrant 2) w e) (form : fModR w % 4 = 2)
    (formed : onlyBits w [uD, uA, uB, (36, 3)] = true) (handle : handleErr x (fA w) = none) (whole : hBase (x.hr (fA w)) % 2 ^ 28 = 0)
    (sled : (x.gr (fB w)).toNat < 65536) (still : s.token (hRegion (x.hr (fA w))) = false)
    (live : s.cell (hRegion (x.hr (fA w))) (if fModR w / 4 % 2 == 1 then cellWritable else cellLive) = none)
    (right : s.ownerErr x.host (hRegion (x.hr (fA w))) = none) (number : s.rt.peers.lowestFree 1024 0 = some i) :
    exec (.regionGrantPeer p) s = .next ({ s with rt := { s.rt with
        peers := s.rt.peers.put i { sled := (x.gr (fB w)).setWidth 16, region := hRegion (x.hr (fA w)), rw := fModR w / 4 % 2 == 1 } } }.setProg p
      (x.completed (fD w) (BitVec.ofNat 64 (i + 2 ^ 17)))) := by
  have fine : (if fModR w % 4 = 3 ∨ onlyBits w [uD, uA, uB, (36, 3)] = false then some dReserved
      else match handleErr x (fA w) with
        | some d => some d
        | none => if hBase (x.hr (fA w)) % 2 ^ 28 ≠ 0 then some dAlign else if 65536 ≤ (x.gr (fB w)).toNat then some dRange else none) = none := by
    rw [if_neg (by simp [form, formed]), handle]
    exact (if_neg (by omega)).trans (if_neg (by omega))
  simp only [exec, execRegionGrantPeer]
  rw [control_of_at here fine]
  simp only [still, number]
  rw [if_neg Bool.false_ne_true, guarded_of_none]
  · exact congrArg _ (ctlOk_completes here.prog here.free)
  · simp only [List.forall_mem_cons, live, right]
    simp

/-! ### Answers to offers (R240) -/

theorem infoOf_of_none {err : Err1} (state : err.status ≠ eState) (perm : err.status ≠ ePerm) : s.infoOf err = err.info :=
  if_neg (by simp [state, perm])

/-- An offer is withdrawn with a status of its own: the grants stay, and its program ends. -/
theorem withdraw_ends {g : Nat} {o : Offer} {status : Byte} {detail : W16} (offered : s.rt.offers.find g = some o) (running : s.prog o.prog = some x)
    (heard : x.mute = false) (ready : s.CanPost x.host x.q) (state : status ≠ eState) (perm : status ≠ ePerm) :
    (s.withdraw g status detail).rt = { s.rt with offers := s.rt.offers.del g } ∧ s.EndsWith (s.withdraw g status detail) o.prog x status detail 0 ∧
      (s.withdraw g status detail).mem = s.mem ∧ (s.withdraw g status detail).map = s.map := by
  let s1 : State := { s with rt := { s.rt with offers := s.rt.offers.del g } }
  have ends : s.withdraw g status detail = s1.endProg o.prog status detail 0 := by
    simp only [State.withdraw, offered, State.failProg]
    rw [infoOf_of_none state perm]
  have ready1 : s1.CanPost x.host x.q := ⟨ready.room, ready.none, ready.takes⟩
  rw [ends]
  exact ⟨endProg_woundDown.rt, endProg_endsWith (s := s1) running heard ready1, endProg_woundDown.mem, endProg_map⟩

theorem refusedOffer_ends {host : HostId} {g : Nat} {o : Offer} (reached : s.barOpen host = true) (offered : s.rt.offers.find g = some o)
    (own : o.grant.host = host) (running : s.prog o.prog = some x) (heard : x.mute = false) (ready : s.CanPost x.host x.q) :
    ∃ t, exec (.addDynamicCapacityResponse host g false false) s = .next t ∧ t.rt.offers.find g = none ∧ t.rt.grants = s.rt.grants ∧
      s.EndsWith t o.prog x eRefused 1 0 ∧ .mailbox host 0 [] ∈ t.out ∧ t.mem = s.mem ∧ t.map = s.map := by
  let s1 := s.send (.mailbox host 0 [])
  have run : exec (.addDynamicCapacityResponse host g false false) s = .next (s1.withdraw g eRefused 1) := by
    simp [exec, execAddDynamicCapacityResponse, reached, offered, own, s1]
  have ready1 : s1.CanPost x.host x.q := ⟨ready.room, ready.none, ready.takes⟩
  obtain ⟨rt, ends, mem, map⟩ := withdraw_ends (s := s1) (detail := 1) offered running heard ready1 (status := eRefused) (by decide) (by decide)
  obtain ⟨l, sent⟩ := (withdraw_later (lasting := true) (calm := true) (s := s1) (o := g) (status := eRefused) (detail := 1)).sent
  refine ⟨_, run, by rw [rt]; exact Tbl.find_del_same _ _, by rw [rt]; rfl, ends, ?_, mem, map⟩
  rw [sent]
  exact List.mem_append_right _ List.mem_cons_self

theorem grantOfferTimeout_ends {g : Nat} {o : Offer} (offered : s.rt.offers.find g = some o) (running : s.prog o.prog = some x)
    (heard : x.mute = false) (ready : s.CanPost x.host x.q) :
    ∃ t, exec (.grantOfferTimeout g) s = .next t ∧ t.rt.offers.find g = none ∧ t.rt.grants = s.rt.grants ∧
      s.EndsWith t o.prog x eTimeout 2 0 ∧ t.mem = s.mem ∧ t.map = s.map := by
  obtain ⟨rt, ends, mem, map⟩ := withdraw_ends (detail := 2) offered running heard ready (status := eTimeout) (by decide) (by decide)
  exact ⟨_, rfl, by rw [rt]; exact Tbl.find_del_same _ _, by rw [rt], ends, mem, map⟩

/-! ### An offer that its host accepts (R240; 06 R246) -/

/-- A first grant takes a slot, or makes its region COARSE: the rest of the Region Table is as it was. -/
theorem takeSlot_rest (s : State) (r : RegionId) (h : HostId) :
    s.takeSlot r h = { s with rt := { s.rt with slots := (s.takeSlot r h).rt.slots, ent := (s.takeSlot r h).rt.ent } } ∧
      ∃ c, (s.takeSlot r h).ent r = { s.ent r with coarse := c } := by
  unfold State.takeSlot
  split
  · exact ⟨rfl, _, rfl⟩
  · split
    exacts [⟨rfl, _, rfl⟩, ⟨rfl, true, ent_setEnt _ _ _⟩]

theorem change_of_even {r : RegionId} {f : REnt → REnt} (even : (s.ent r).odd = false) :
    s.change r f = s.setEnt r { f (s.ent r) with gen := (s.ent r).gen + 2 } := if_neg (by simp [even])

theorem fixOffers_of_none (offers : s.rt.offers = []) (revokes : s.rt.revokes = []) : s.fixOffers = s := by
  rw [State.fixOffers, offers]
  simp only [List.foldl_nil, revokes, List.filter_nil]

/-- READY and SERVE follow the grants; the rest is told. -/
theorem serveUpdate_told (s : State) : ∃ st, { s with sled := { s.sled with st := st } }.OnlyTold s.serveUpdate := by
  unfold State.serveUpdate
  split
  exacts [⟨_, s.setSled_told _⟩, ⟨_, s.setSled_told _⟩, ⟨_, .refl s⟩]

theorem Metered.standing (a : s.Metered t) : s.Standing t := by
  constructor
  rw [a.rest]

theorem makeRoom_standing {extra : Nat} : s.Standing (s.makeRoom extra) := by
  unfold State.makeRoom
  extract_lets _ s1 above excess
  have h_s1 : s.Standing s1 := ⟨rfl⟩
  exact .ite (.refl s) (.ite h_s1 (h_s1.trans (.foldl (fun _ _ => .ite (.refl _) writeGrant_metered.standing) _ _)))

theorem raiseRt_standing {k : Nat} : s.Standing (s.raiseRt k) :=
  .ite (setLedger_metered.trans writeGrant_metered).standing makeRoom_standing

theorem rtFlags_standing : s.Standing s.rtFlags :=
  .ite (.refl s) (.foldl (fun _ _ => .ite (.refl _) (.ite raiseRt_standing (setLedger_metered.trans writeGrant_metered).standing)) _ _)

/-- The Region Table as the grant of an accepted offer takes effect. -/
def granted (s : State) (g : Nat) (o : Offer) : State :=
  let s1 := { s with rt := { s.rt with offers := s.rt.offers.del g, grants := s.rt.grants.put g o.grant } }
  (s1.takeSlot o.grant.region o.grant.host).change o.grant.region (fun e =>
    { e with nhost := BitVec.ofNat 11 (s1.grantHosts o.grant.region).length, st := if e.st = .new then .active else e.st })

theorem granted_table (s : State) (g : Nat) (o : Offer) (first : (s.ent o.grant.region).st = .new) (even : (s.ent o.grant.region).odd = false) :
    s.granted g o = { s with rt := { s.rt with
      offers := s.rt.offers.del g, grants := s.rt.grants.put g o.grant, slots := (s.granted g o).rt.slots, ent := (s.granted g o).rt.ent } } ∧
      ((s.granted g o).ent o.grant.region).st = .active ∧ ((s.granted g o).ent o.grant.region).gen = (s.ent o.grant.region).gen + 2 := by
  unfold granted
  extract_lets _ s1
  obtain ⟨rest, c, slot⟩ := s1.takeSlot_rest o.grant.region o.grant.host
  have same : s1.ent o.grant.region = s.ent o.grant.region := rfl
  rw [same] at slot
  have still : ((s1.takeSlot o.grant.region o.grant.host).ent o.grant.region).odd = false := by
    rw [slot]
    exact even
  rw [change_of_even still, ent_setEnt, slot]
  refine ⟨?_, if_pos first, rfl⟩
  rw [rest]
  rfl

/-- A grant that has taken effect is told, and its REGION.GRANT completes with its number. -/
theorem grantNow_completes {g : Nat} {o : Offer} (running : s.prog o.prog = some x) (free : x.cancel = none)
    (offers : (s.granted g o).rt.offers = []) (revokes : (s.granted g o).rt.revokes = [])
    (q : (s.granted g o).q = s.q) :
    (s.grantNow g o).rt = (s.granted g o).rt ∧ (s.grantNow g o).prog o.prog = some (x.completed o.d (BitVec.ofNat 64 g)) ∧
      (s.grantNow g o).mem = (s.granted g o).mem ∧ (s.grantNow g o).map = (s.granted g o).map := by
  have eq : s.grantNow g o = ((((((s.granted g o).journalEnt o.grant.region).fixOffers).serveUpdate).rtFlags).notice o.grant.host).ctlOk
    o.prog o.d (BitVec.ofNat 64 g) := rfl
  generalize s.granted g o = u at *
  have written : u.Standing (u.journalEnt o.grant.region) := journalEnt_standing
  rw [fixOffers_of_none (by rw [written.rt_eq, offers]) (by rw [written.rt_eq, revokes])] at eq
  obtain ⟨st, told⟩ := (u.journalEnt o.grant.region).serveUpdate_told
  have after : ({ u.journalEnt o.grant.region with sled := { (u.journalEnt o.grant.region).sled with st := st } } : State).Standing
      (((u.journalEnt o.grant.region).serveUpdate.rtFlags).notice o.grant.host) :=
    told.standing.trans (rtFlags_standing.trans (notice_told _ _).standing)
  have here : (((u.journalEnt o.grant.region).serveUpdate.rtFlags).notice o.grant.host).prog o.prog = some x := by
    rw [State.prog, after.q_eq]
    exact (congrArg (fun q : QS => q.progs.find o.prog) (written.q_eq.trans q)).trans running
  rw [eq, ctlOk_completes here free]
  exact ⟨after.rt_eq.trans written.rt_eq, prog_setProg _ _ _, after.mem_eq.trans written.mem_eq, after.map_eq.trans written.map_eq⟩

theorem acceptedOffer_grants {host : HostId} {g : Nat} {o : Offer} (reached : s.barOpen host = true) (only : s.rt.offers = [(g, o)])
    (revokes : s.rt.revokes = []) (own : o.grant.host = host) (still : s.token o.grant.region = false) (running : s.prog o.prog = some x)
    (free : x.cancel = none) (first : (s.ent o.grant.region).st = .new) (even : (s.ent o.grant.region).odd = false) :
    ∃ t, exec (.addDynamicCapacityResponse host g true false) s = .next t ∧ t.rt.grants.find g = some o.grant ∧ t.rt.offers = [] ∧
      (t.ent o.grant.region).st = .active ∧ (t.ent o.grant.region).gen = (s.ent o.grant.region).gen + 2 ∧
      t.prog o.prog = some (x.completed o.d (BitVec.ofNat 64 g)) ∧ .mailbox host 0 [] ∈ t.out ∧ t.mem = s.mem ∧ t.map = s.map := by
  let s1 := s.send (.mailbox host 0 [])
  have run : exec (.addDynamicCapacityResponse host g true false) s = .next (s1.grantNow g o) := by
    have found : s.rt.offers.find g = some o := by simp [only, Tbl.find]
    simp [exec, execAddDynamicCapacityResponse, reached, found, own, still, s1]
  obtain ⟨rest, active, gen⟩ := s1.granted_table g o first even
  have gone : s.rt.offers.del g = [] := by simp [only, Tbl.del]
  have offers : (s1.granted g o).rt.offers = [] := by
    rw [rest]
    exact gone
  obtain ⟨rt, prog, mem, map⟩ := grantNow_completes (s := s1) running free offers (by rw [rest]; exact revokes) (by rw [rest])
  obtain ⟨l, sent⟩ := (grantNow_later (lasting := true) (calm := true) (s := s1) (g := g) (o := o)).sent
  have ent : (s1.grantNow g o).ent o.grant.region = (s1.granted g o).ent o.grant.region := by rw [State.ent, rt, ← State.ent]
  refine ⟨_, run, ?_, by rw [rt, offers], by rw [ent, active], by rw [ent, gen]; rfl, prog, ?_, ?_, ?_⟩
  · rw [rt, rest]
    exact Tbl.find_put_same _ _ _
  · rw [sent]
    exact List.mem_append_right _ List.mem_cons_self
  · rw [mem, rest]
    rfl
  · rw [map, rest]
    rfl

end State

open State in
/-- Settles O14: each instruction by its equation, an accepted offer by what its grant changes in the Region Table, and an offer that ends by the end
of its program. -/
theorem regionsAreMadeAndGranted : Obligations.RegionsAreMadeAndGranted := by
  unfold Obligations.RegionsAreMadeAndGranted
  refine ⟨?_, ?_, ?_, ?_, ?_, ?_, ?_⟩
  · intro s p list x w e r here formed noList demotable backed young fresh free fits
    refine ⟨_, regionNew_makes here formed noList demotable backed young fresh free fits, ?_⟩
    have ent : (s.regionMade e x.host r).ent r = newEnt (s.ent r) e x.host true r := s.ent_setEnt r _
    have made (y : Prog) : ((s.regionMade e x.host r).setProg p y).ent r = newEnt (s.ent r) e x.host true r := ent
    rw [made]
    exact ⟨rfl, rfl, rfl, rfl, rfl, demotable, rfl, rfl, rfl, rfl, rfl, rfl, prog_setProg _ _ _, fun r2 other => s.ent_setEnt_ne _ other, rfl, rfl, rfl,
      rfl, rfl⟩
  · intro s p x w e g a here formed still right few number room
    obtain ⟨t, run, rt, prog, mem, map, dir⟩ := regionGrantHost_offers here formed still right few number room
    exact ⟨t, run, by rw [rt]; exact Tbl.find_put_same _ _ _, prog, by rw [rt], by rw [rt], mem, map, dir⟩
  · intro s p x w e i here form formed base size filled bounded number
    exact ⟨_, regionGrantLend_numbers here form formed base size filled bounded number, Tbl.find_put_same _ _ _, Tbl.find_put_same _ _ _,
      prog_setProg _ _ _, rfl, rfl, rfl, rfl, rfl⟩
  · intro s p x w e i here form formed handle whole sled still live right number
    exact ⟨_, regionGrantPeer_numbers here form formed handle whole sled still live right number, Tbl.find_put_same _ _ _, prog_setProg _ _ _, rfl, rfl,
      rfl, rfl, rfl⟩
  · exact fun s host g o x reached only revokes own still running free first even =>
      acceptedOffer_grants reached only revokes own still running free first even
  · exact fun s host g o x reached offered own running heard _ ready => refusedOffer_ends reached offered own running heard ready
  · exact fun s g o x offered running heard ready => grantOfferTimeout_ends offered running heard ready

end Sys2Proof.Machine
end

section
/-! ## Hosts that are cut off (06 R246, R251, R253, R254; 07 R299, R300)

A reset of a host, or a snoop that it lets time out, ends its grants: what that changes where nothing else waits in the sled. -/

namespace Sys2Proof.Machine

namespace State

/-- Two states between which a host may have lost grants: the directory, the Region Table's entries and grants, the streams of ports and the SPDM
sessions changed, and events were told. No read came into progress, no request was held and no grant was added. -/
structure CutOff (s t : State) : Prop where
  rest : t = { s with
    sled := t.sled, lake := t.lake, evt := t.evt, trc := t.trc, mgt := t.mgt, out := t.out
    rt := { s.rt with ent := t.rt.ent, slots := t.rt.slots, grants := t.rt.grants, gone := t.rt.gone, stalled := t.rt.stalled, cnt := t.rt.cnt }
    dir := { s.dir with ent := t.dir.ent, snoops := t.dir.snoops, lost := t.dir.lost, held := t.dir.held }
    ports := { s.ports with fn := t.ports.fn, streams := t.ports.streams, runs := t.ports.runs, np := t.ports.np } }
  misses : t.lake.misses = s.lake.misses
  held : s.dir.held = [] → t.dir.held = []
  grants : t.rt.grants ⊆ s.rt.grants

variable {s t u : State} {h : HostId} {r : RegionId}

namespace CutOff

/-- Where held requests and grants are as they were. -/
theorem same {s t : State} (rest : t = { s with
      sled := t.sled, lake := t.lake, evt := t.evt, trc := t.trc, mgt := t.mgt, out := t.out
      rt := { s.rt with ent := t.rt.ent, slots := t.rt.slots, grants := t.rt.grants, gone := t.rt.gone, stalled := t.rt.stalled, cnt := t.rt.cnt }
      dir := { s.dir with ent := t.dir.ent, snoops := t.dir.snoops, lost := t.dir.lost, held := t.dir.held }
      ports := { s.ports with fn := t.ports.fn, streams := t.ports.streams, runs := t.ports.runs, np := t.ports.np } })
    (misses : t.lake.misses = s.lake.misses) (held : t.dir.held = s.dir.held) (grants : t.rt.grants = s.rt.grants) : s.CutOff t :=
  ⟨rest, misses, held.trans, by rw [grants]; exact List.Subset.refl _⟩

theorem refl (s : State) : s.CutOff s := .same rfl rfl rfl rfl

theorem trans (a : s.CutOff t) (b : t.CutOff u) : s.CutOff u := by
  refine ⟨?_, b.misses.trans a.misses, b.held ∘ a.held, List.Subset.trans b.grants a.grants⟩
  have rest := b.rest
  rw [a.rest] at rest
  exact rest

theorem ite {c : Prop} [Decidable c] (a : s.CutOff t) (b : s.CutOff u) : s.CutOff (if c then t else u) := by
  split
  exacts [a, b]

theorem foldl {α : Type} {f : State → α → State} (hf : ∀ (t : State) a, t.CutOff (f t a)) (l : List α) (s : State) : s.CutOff (l.foldl f s) := by
  induction l generalizing s with
  | nil => exact .refl s
  | cons a l ih => exact (hf s a).trans (ih _)

variable (a : s.CutOff t)
include a

theorem mem_eq : t.mem = s.mem := by rw [a.rest]
theorem bind_eq : t.ports.bind = s.ports.bind := by rw [a.rest]
theorem half_eq : t.ports.half = s.ports.half := by rw [a.rest]
theorem perst_eq : t.ports.perst = s.ports.perst := by rw [a.rest]
theorem resets_eq : t.ports.resets = s.ports.resets := by rw [a.rest]

theorem calm (c : s.Calm) : t.Calm := by
  obtain ⟨held, offers, revokes, drains, ops, progs, sch, misses, windows, peers⟩ := c
  refine ⟨a.held held, ?_, ?_, ?_, ?_, ?_, ?_, a.misses.trans misses, ?_, ?_⟩ <;> rw [a.rest] <;> assumption

end CutOff

theorem OnlyTold.cutOff (a : s.OnlyTold t) : s.CutOff t := by
  refine ⟨?_, by rw [a.lake_eq], fun held => by rw [a.dir_eq, held], by rw [a.rt_eq]; exact List.Subset.refl _⟩
  rw [a.rest]

/-! ### Lost lines and ended grants -/

theorem setEnt_cutOff {e : REnt} : s.CutOff (s.setEnt r e) := .same rfl rfl rfl rfl

theorem change_cutOff {f : REnt → REnt} : s.CutOff (s.change r f) := .ite (.same rfl rfl rfl rfl) setEnt_cutOff

theorem count_cutOff {f : RCnt → RCnt} : s.CutOff (s.count r f) := .same rfl rfl rfl rfl

theorem dirDel_cutOff {line : BitVec 40} : s.CutOff (s.dirDel r line) := .same rfl rfl rfl rfl

theorem freeSlots_cutOff : s.CutOff (s.freeSlots r) := .same rfl rfl rfl rfl

theorem dirForget_cutOff : s.CutOff (s.dirForget h r) := .same rfl rfl rfl rfl

theorem settleBusy_cutOff : s.CutOff s.settleBusy := .same rfl rfl rfl rfl

theorem journalEnt_cutOff : s.CutOff (s.journalEnt r) := .ite (.ite (.same rfl rfl rfl rfl) (.refl s)) (.refl s)

theorem recount_cutOff : s.CutOff (s.recount r) := change_cutOff.trans (freeSlots_cutOff.trans journalEnt_cutOff)

theorem loseDir_cutOff : s.CutOff (s.loseDir r) := by
  unfold State.loseDir
  extract_lets hosts s1 keep _ _ s2 s3
  have told : s.CutOff s1 := (OnlyTold.foldl _ (fun u _ => u.send_told _) hosts s).cutOff
  have dropped : s1.CutOff s2 := ⟨rfl, rfl, fun e => e, List.filter_sublist.subset⟩
  have changed : s2.CutOff s3 := (OnlyTold.foldl _ notice_told hosts s2).cutOff.trans change_cutOff
  exact .ite (.refl s) (told.trans (dropped.trans (changed.trans (post_told _ _).cutOff)))

theorem loseLine_cutOff {line : BitVec 40} : s.CutOff (s.loseLine r line h) := by
  unfold State.loseLine
  extract_lets c s1 s2
  have counted : s.CutOff s2 := dirDel_cutOff.trans ((post_told _ _).cutOff.trans count_cutOff)
  clear_value s2
  exact .ite counted (counted.trans (.ite loseDir_cutOff (.same rfl rfl rfl rfl)))

/-- A dropped grant is out of the table, whatever stood there. -/
theorem dropGrant_grants (s : State) (g : Nat) : (s.dropGrant g).rt.grants ⊆ s.rt.grants.del g := by
  unfold State.dropGrant
  split
  · rename_i absent
    rw [Tbl.del_of_find_none absent]
    exact List.Subset.refl _
  · exact recount_cutOff.grants

theorem dropGrant_cutOff {g : Nat} : s.CutOff (s.dropGrant g) := by
  have dropped : s.CutOff { s with rt := { s.rt with grants := s.rt.grants.del g, gone := s.rt.gone.filter (fun n => n != g) } } :=
    ⟨rfl, rfl, fun e => e, List.filter_sublist.subset⟩
  unfold State.dropGrant
  split
  exacts [.refl s, dropped.trans recount_cutOff]

/-- Grants dropped one after the other leave those of other numbers. -/
theorem foldl_dropGrant_grants (l : List (Nat × Grant)) (s : State) {p : Nat × Grant}
    (left : p ∈ (l.foldl (fun t x => t.dropGrant x.1) s).rt.grants) : p ∈ s.rt.grants ∧ ∀ x ∈ l, p.1 ≠ x.1 := by
  induction l generalizing s with
  | nil => exact ⟨left, nofun⟩
  | cons y l ih =>
    obtain ⟨still, others⟩ := ih _ left
    obtain ⟨here, differs⟩ := List.mem_filter.mp (s.dropGrant_grants y.1 still)
    exact ⟨here, List.forall_mem_cons.mpr ⟨bne_iff_ne.mp differs, others⟩⟩

theorem endHostGrants_cutOff (s : State) (h : HostId) : s.CutOff (s.endHostGrants h) ∧ ∀ p ∈ (s.endHostGrants h).rt.grants, p.2.host ≠ h := by
  unfold State.endHostGrants
  extract_lets gs rs s1 s2
  have lost : s.CutOff s1 := .foldl (fun _ _ => .foldl (fun _ _ => loseLine_cutOff) _ _) _ _
  have dropped : s1.CutOff s2 := .foldl (fun _ _ => dropGrant_cutOff) _ _
  have forgotten : s2.CutOff (rs.foldl (fun t r => (t.dirForget h r).freeSlots r) s2).settleBusy :=
    .trans (.foldl (fun _ _ => dirForget_cutOff.trans freeSlots_cutOff) _ _) settleBusy_cutOff
  refine ⟨lost.trans (dropped.trans forgotten), fun p left own => ?_⟩
  obtain ⟨here, differs⟩ := foldl_dropGrant_grants gs s1 (forgotten.grants left)
  exact differs p (List.mem_filter.mpr ⟨lost.grants here, beq_iff_eq.mpr own⟩) rfl

theorem serveUpdate_cutOff (s : State) : s.CutOff s.serveUpdate := by
  obtain ⟨st, told⟩ := s.serveUpdate_told
  exact .trans (.same (by rfl) (by rfl) (by rfl) (by rfl)) told.cutOff

/-! ### A sled where nothing else waits -/

/-- The reads of a host's memory have ended. -/
def noReads (s : State) (h : HostId) : State := { s with ports := { s.ports with np := s.ports.np.filter (fun n => n.2.host != h) } }

theorem noReads_cutOff : s.CutOff (s.noReads h) := .same rfl rfl rfl rfl

namespace Calm

variable (c : s.Calm)
include c

theorem endRevoke_eq {g : Nat} : s.endRevoke g = s := by
  rw [State.endRevoke, c.revokes]
  rfl

theorem endMiss_eq {k : Nat} : s.endMiss k = s := by
  obtain ⟨pmoves, -⟩ := c.peers
  have lake : { s.lake with misses := [] } = s.lake := by rw [← c.misses]
  have ports : { s.ports with pmoves := [] } = s.ports := by rw [← pmoves]
  simp only [State.endMiss, c.misses, pmoves, List.filter_nil, List.filterMap_nil, List.foldl_nil, List.map_nil, lake, ports]

theorem rerun_eq {test : HReq → Bool} {chk : Chk} {pick : W32} : s.rerun test chk pick = s := rerun_of_held_nil c.held chk pick

theorem freeLines_eq {chk : Chk} {pick : W32} : s.freeLines chk pick = s := by
  rw [State.freeLines, c.misses]
  exact c.rerun_eq

theorem lampGrantsGone_eq : s.lampGrantsGone h = s := by
  rw [State.lampGrantsGone, c.sch]
  exact (congrArg (fun l : Tbl Prog => ((l.filter (fun p => p.2.host == h)).flatMap (fun p => p.2.pf)).foldl _ s) c.progs)

theorem afterLines_eq : s.afterLines = s := by
  have revokes : s.runRevokes = s := by
    rw [State.runRevokes, c.revokes]
    rfl
  rw [State.afterLines, revokes, State.runOps, c.ops]
  rfl

theorem noReads : (s.noReads h).Calm := noReads_cutOff.calm c

theorem loseWindows_eq {chk : Chk} {pick : W32} : s.loseWindows h chk pick = s.noReads h := by
  unfold State.loseWindows
  extract_lets ws reads s1 _ s2 s3
  have here : s1 = s := by
    unfold s1 ws
    rw [c.windows]
    rfl
  have reads_end : s3 = s.noReads h := (congrArg (fun u => reads.foldl _ (u.noReads h)) here).trans
    (List.foldl_fixed' (f := fun (t : State) (n : Nat × NpReq) => t.endMiss (segKey n.2.region n.2.seg)) (fun _ => c.noReads.endMiss_eq) reads)
  rw [reads_end]
  exact List.foldl_fixed' (fun _ => c.noReads.rerun_eq) reads

/-- The grants of a host end, and with them the reads of its memory; nothing waited for either. -/
theorem endGrants_eq {chk : Chk} {pick : W32} : s.endGrants h chk pick = ((s.endHostGrants h).noReads h).serveUpdate := by
  have after : (s.endHostGrants h).Calm := (s.endHostGrants_cutOff h).1.calm c
  unfold State.endGrants
  extract_lets gs offers s1 s2 s3 s4
  have h2 : s2 = s1 := by
    unfold s2 offers
    rw [c.offers]
    rfl
  have h3 : s3 = s1 := by
    unfold s3
    rw [h2]
    exact List.foldl_fixed' (fun _ => after.endRevoke_eq) gs
  have h4 : s4 = s1.noReads h := by
    unfold s4
    rw [h3, after.loseWindows_eq]
  have last := after.noReads (h := h)
  rw [h4, last.freeLines_eq, last.lampGrantsGone_eq, fixOffers_of_none last.offers last.revokes]

theorem endGrants_cutOff {chk : Chk} {pick : W32} :
    s.CutOff (s.endGrants h chk pick) ∧ ∀ p ∈ (s.endGrants h chk pick).rt.grants, p.2.host ≠ h := by
  obtain ⟨ended, none⟩ := s.endHostGrants_cutOff h
  have served : (s.endHostGrants h).CutOff (s.endGrants h chk pick) := by
    rw [c.endGrants_eq]
    exact noReads_cutOff.trans (serveUpdate_cutOff _)
  exact ⟨ended.trans served, fun p left => none p (served.grants left)⟩

end Calm

end State

end Sys2Proof.Machine
end

section
/-! ## The host-scoped reset where nothing else waits (07 R299, R300, R310) -/

namespace Sys2Proof.Machine

namespace State

variable {s t u : State} {h : HostId} {row : Nat}

/-! ### Steps 1 to 5 for one host -/

/-- Steps 1 to 3 of a host's reset: it is posted and traced, and the held requests, the streams and the runs of the host have ended. -/
def quieted (s : State) (h : HostId) (row : Nat) : State :=
  let s1 := (s.post { ev := .hostReset, okind := 2, obj := h.toNat, p0 := BitVec.ofNat 64 row }).traceReset 6
  { s1 with
    dir := { s1.dir with held := s1.dir.held.filter (fun x => x.host != h || x.kind == ReqKind.wback) }
    ports := { s1.ports with
      streams := s1.ports.streams.filter (fun x => x.host != h)
      runs := s1.ports.runs.filter (fun x => x.host != h) } }

theorem quieted_cutOff (s : State) (h : HostId) (row : Nat) : s.CutOff (s.quieted h row) := by
  unfold quieted
  extract_lets s1
  have told : s.CutOff s1 := ((post_told _ _).trans (traceReset_told _ _)).cutOff
  refine told.trans ⟨rfl, rfl, fun held => ?_, List.Subset.refl _⟩
  rw [held]
  rfl

/-- The SPDM sessions through a host's DOE have ended. -/
def endSessions (s : State) (h : HostId) : State :=
  { s with mgt := { s.mgt with sess := s.mgt.sess.filter (fun p => decide (p.2.carrier ≠ Carrier.doe h)) } }

theorem endSessions_cutOff : s.CutOff (s.endSessions h) := .same rfl rfl rfl rfl

/-- A host without programs and schedules loses its grants and its sessions. -/
theorem Calm.resetHost_eq (c : s.Calm) : s.resetHost h row = ((s.quieted h row).endGrants h .ok 0).endSessions h := by
  have after := (s.quieted_cutOff h row).calm c
  unfold State.resetHost
  extract_lets s1 _ _ s2 s3 s4 s5
  have h3 : s3 = s2 := congrArg (fun l : Tbl Prog => ((l.filter (fun p => p.2.host == h)).map (fun p => p.1)).foldl State.mutedCancel s2) after.progs
  have h4 : s4 = s2 := by
    unfold s4
    rw [h3]
    exact congrArg (fun l : Tbl Sched => ((l.filter (fun p => schHost p.1 == h)).map (fun p => p.1)).foldl (fun t k => t.dropSched k 0) s2) after.sch
  have h5 : s5 = (s.quieted h row).endGrants h .ok 0 := congrArg (fun u : State => u.endGrants h .ok 0) h4
  exact congrArg (fun u : State => u.endSessions h) h5

theorem Calm.resetHost_cutOff (c : s.Calm) : s.CutOff (s.resetHost h row) ∧ ∀ p ∈ (s.resetHost h row).rt.grants, p.2.host ≠ h := by
  have first := s.quieted_cutOff h row
  obtain ⟨ended, none⟩ := (first.calm c).endGrants_cutOff (h := h) (chk := .ok) (pick := 0)
  rw [c.resetHost_eq]
  generalize (s.quieted h row).endGrants h .ok 0 = t at ended none ⊢
  exact ⟨first.trans (ended.trans endSessions_cutOff), none⟩

/-! ### How many records it posts -/

theorem change_adds {r : RegionId} {f : REnt → REnt} : s.Adds 0 (s.change r f) := .ite (.none rfl rfl) (.none rfl rfl)

theorem freeSlots_adds {r : RegionId} : s.Adds 0 (s.freeSlots r) := .none rfl rfl

theorem dirForget_adds {r : RegionId} : s.Adds 0 (s.dirForget h r) := .none rfl rfl

theorem settleBusy_adds : s.Adds 0 s.settleBusy := .none rfl rfl

theorem noReads_adds : s.Adds 0 (s.noReads h) := .none rfl rfl

theorem endSessions_adds : s.Adds 0 (s.endSessions h) := .none rfl rfl

theorem recount_adds {r : RegionId} : s.Adds 0 (s.recount r) := change_adds.trans (m := 0) (freeSlots_adds.trans (m := 0) journalEnt_adds)

theorem dropGrant_adds {g : Nat} : s.Adds 0 (s.dropGrant g) := by
  unfold State.dropGrant
  split
  exacts [.refl s, .after (by rfl) (by rfl) recount_adds]

/-- Without a directory entry there is no line to lose, and the grants end without a record. -/
theorem endHostGrants_adds (empty : s.dir.ent = []) : s.Adds 0 (s.endHostGrants h) := by
  unfold State.endHostGrants
  extract_lets gs rs s1 s2
  have h1 : s1 = s := List.foldl_fixed' (fun r => by rw [State.exclLines, empty]; rfl) rs
  have dropped : s.Adds 0 s2 := by
    unfold s2
    rw [h1]
    exact .foldl_none (fun _ _ => dropGrant_adds) gs s
  clear_value s2
  exact dropped.trans (m := 0) (Adds.trans (m := 0) (.foldl_none (fun _ _ => dirForget_adds.trans (m := 0) freeSlots_adds) rs s2) settleBusy_adds)

theorem serveUpdate_adds : s.Adds 3 s.serveUpdate := by
  unfold State.serveUpdate
  split
  exacts [setSled_adds, setSled_adds, .refl s]

theorem Calm.resetHost_posted (c : s.Calm) (empty : s.dir.ent = []) (awake : s.sled.st ≠ .off) :
    s.Posted (s.resetHost h row) 0x0504 2 h.toNat := by
  let p : Post := { ev := .hostReset, okind := 2, obj := h.toNat, p0 := BitVec.ofNat 64 row }
  have traced : (s.post p).Adds 1 (s.quieted h row) := Adds.trans (n := 1) (m := 0) trace_adds (.none rfl rfl)
  have none : (s.quieted h row).dir.ent = [] :=
    (congrArg DirS.ent ((post_told _ _).trans (traceReset_told _ _)).dir_eq).trans empty
  have ended : (s.quieted h row).Adds 3 ((s.quieted h row).endGrants h .ok 0) := by
    rw [((s.quieted_cutOff h row).calm c).endGrants_eq]
    exact (endHostGrants_adds none).trans (n := 0) (noReads_adds.trans (n := 0) serveUpdate_adds)
  have adds : (s.post p).Adds (1 + 3) (s.resetHost h row) := by
    rw [c.resetHost_eq]
    exact (traced.trans ended).trans (m := 0) endSessions_adds
  have small := h.isLt
  exact posted_of_post (t := s) le_rfl rfl awake adds (by omega) rfl rfl (by
    show (BitVec.ofNat 32 h.toNat).toNat = h.toNat
    simp
    omega)

end State

end Sys2Proof.Machine
end

section
/-! ## Resets and links that go down (O20)

A half that goes down takes every host behind it into its reset. What all these events keep is `Parted`: nothing else waits, and a host in its reset
holds no grant. -/

namespace Sys2Proof.Machine

theorem Tbl.find_filter_of_key {α : Type} (t : Tbl α) {n : Nat} {keep : Nat → Bool} (out : keep n = false) :
    Tbl.find (t.filter (fun p => keep p.1)) n = none := by
  cases found : Tbl.find (t.filter (fun p => keep p.1)) n with
  | none => rfl
  | some v =>
    have kept := (List.mem_filter.mp (Tbl.find_mem found)).2
    exact absurd (out.symm.trans kept) Bool.false_ne_true

namespace State

variable {s t u : State} {h : HostId} {n row : Nat}

theorem hostsOn_of_bind (same : t.ports.bind = s.ports.bind) (n : Nat) : t.hostsOn n = s.hostsOn n := by
  simp only [State.hostsOn, State.boundHosts, State.halfOf, State.bindOf, same]

theorem halfReg_of_half (same : t.ports.half = s.ports.half) (n : Nat) : t.halfReg n = s.halfReg n := by rw [State.halfReg, same, ← State.halfReg]

theorem inReset_of_resets (same : t.ports.resets = s.ports.resets) (h : HostId) : t.inReset h = s.inReset h := by
  rw [State.inReset, same, ← State.inReset]

/-- An update that leaves the units in which something could wait. -/
theorem Calm.kept (c : s.Calm) (rt : t.rt = s.rt) (dir : t.dir = s.dir) (work : t.q = s.q ∧ t.lamp = s.lamp ∧ t.lake = s.lake)
    (moves : t.ports.pmoves = s.ports.pmoves ∧ t.ports.pwait = s.ports.pwait) : t.Calm := by
  obtain ⟨held, offers, revokes, drains, ops, progs, sch, misses, windows, peers⟩ := c
  obtain ⟨q, lamp, lake⟩ := work
  obtain ⟨pmoves, pwait⟩ := moves
  constructor <;> simp only [rt, dir, q, lamp, lake, pmoves, pwait] <;> assumption

/-- Nothing else waits in the sled, and no host in its reset holds a grant. -/
structure Parted (s : State) : Prop where
  calm : s.Calm
  cut : ∀ h, s.inReset h = true → ∀ p ∈ s.rt.grants, p.2.host ≠ h

namespace Parted

theorem of_calm (c : s.Calm) (fresh : s.ports.resets = []) : s.Parted := ⟨c, fun h waits => by simp [State.inReset, fresh] at waits⟩

theorem hostDown (q : s.Parted) (waits : s.inReset h = true) : s.HostDown h := ⟨q.cut h waits, waits⟩

/-- An update that leaves what waits, the grants and the resets. -/
theorem kept (q : s.Parted) (rt : t.rt = s.rt) (dir : t.dir = s.dir) (work : t.q = s.q ∧ t.lamp = s.lamp ∧ t.lake = s.lake)
    (moves : t.ports.pmoves = s.ports.pmoves ∧ t.ports.pwait = s.ports.pwait) (resets : t.ports.resets = s.ports.resets) : t.Parted :=
  ⟨q.calm.kept rt dir work moves, fun h waits => rt ▸ q.cut h (inReset_of_resets resets h ▸ waits)⟩

end Parted

/-! ### The event of a lost link for the hosts behind it -/

/-- What the events of hosts behind a half that goes down keep: bindings, halves, pins and the stored bytes; and whom they reset stays in reset. -/
structure Severed (s t : State) : Prop where
  parted : t.Parted
  mem : t.mem = s.mem
  bind : t.ports.bind = s.ports.bind
  half : t.ports.half = s.ports.half
  perst : t.ports.perst = s.ports.perst
  waits : ∀ h, s.inReset h = true → t.inReset h = true

theorem Severed.refl (q : s.Parted) : s.Severed s := ⟨q, rfl, rfl, rfl, rfl, fun _ w => w⟩

theorem Severed.trans (a : s.Severed t) (b : t.Severed u) : s.Severed u :=
  ⟨b.parted, b.mem.trans a.mem, b.bind.trans a.bind, b.half.trans a.half, b.perst.trans a.perst, fun h w => b.waits h (a.waits h w)⟩

/-- A host that its link's loss resets waits for the link; one in its reset goes on waiting (R309). -/
theorem hostEvent_severed (q : s.Parted) (h : HostId) (row : Nat) :
    s.Severed (s.hostEvent h row true false) ∧ (s.hostEvent h row true false).inReset h = true := by
  unfold State.hostEvent
  split
  · rename_i waits
    have same (k : HostId) : (s.ports.resets.map (fun x => if x.host = h then { x with link := x.link || true, cold := x.cold || false } else x)).any
        (fun x => x.host == k) = s.inReset k := by
      rw [State.inReset, List.any_map]
      congr 1
      funext x
      dsimp only [Function.comp]
      split <;> rfl
    exact ⟨⟨⟨q.calm.kept rfl rfl ⟨rfl, rfl, rfl⟩ ⟨rfl, rfl⟩, fun k w => q.cut k ((same k).symm.trans w)⟩, rfl, rfl, rfl, rfl,
      fun k w => (same k).trans w⟩, (same h).trans waits⟩
  · extract_lets s1
    obtain ⟨ended, cut⟩ : s.CutOff s1 ∧ ∀ p ∈ s1.rt.grants, p.2.host ≠ h := q.calm.resetHost_cutOff
    clear_value s1
    have waits (k : HostId) : (s1.ports.resets ++ [(⟨h, true, false, none⟩ : HReset)]).any (fun x => x.host == k) = (s.inReset k || h == k) := by
      rw [List.any_append, ended.resets_eq, ← State.inReset]
      simp
    rw [Bool.true_or, if_pos rfl]
    refine ⟨⟨⟨(ended.calm q.calm).kept rfl rfl ⟨rfl, rfl, rfl⟩ ⟨rfl, rfl⟩, fun k w p left => ?_⟩,
      ended.mem_eq, ended.bind_eq, ended.half_eq, ended.perst_eq, fun k w => (waits k).trans (by rw [w]; rfl)⟩, (waits h).trans (by simp)⟩
    rcases Bool.or_eq_true_iff.mp ((waits k).symm.trans w) with old | new
    · exact q.cut k old p (ended.grants left)
    · exact beq_iff_eq.mp new ▸ cut p left

theorem foldl_hostEvent_severed (l : List HostId) (q : s.Parted) :
    s.Severed (l.foldl (fun t h => t.hostEvent h row true false) s) ∧
      ∀ h ∈ l, (l.foldl (fun t h => t.hostEvent h row true false) s).inReset h = true := by
  induction l generalizing s with
  | nil => exact ⟨.refl q, nofun⟩
  | cons k l ih =>
    obtain ⟨first, waits⟩ := hostEvent_severed q k row
    obtain ⟨rest, others⟩ := ih first.parted
    exact ⟨first.trans rest, List.forall_mem_cons.mpr ⟨rest.waits k waits, others⟩⟩

/-! ### Halves that go down -/

/-- What halves that go down leave: each register as `g` gives, the hosts behind them in reset, and every other half as it was. -/
structure HalvesDown (s t : State) (l : List Nat) (g : Half → Half) : Prop where
  parted : t.Parted
  mem : t.mem = s.mem
  bind : t.ports.bind = s.ports.bind
  perst : t.ports.perst = s.ports.perst
  waits : ∀ h, s.inReset h = true → t.inReset h = true
  down : ∀ n ∈ l, t.halfReg n = g (s.halfReg n)
  other : ∀ n, n ∉ l → t.halfReg n = s.halfReg n
  hosts : ∀ n ∈ l, ∀ h ∈ s.hostsOn n, t.inReset h = true

/-- A half's register when its link is lost under a row of R299. -/
def linkLost (row : Nat) (x : Half) : Half := { x with link := 0, ide := false, linkdown := if row = 2 then satInc x.linkdown else x.linkdown }

/-- The streams and runs of a half end with its link, and PANIC with them. -/
def linkCut (s : State) (n row : Nat) : State :=
  let s1 := s.setHalf n (linkLost row (s.halfReg n))
  { s1 with
    ports := { s1.ports with streams := s1.ports.streams.filter (fun x => x.half != n), runs := s1.ports.runs.filter (fun x => x.half != n) }
    pond := { s1.pond with panic := s1.pond.panic.del n } }

theorem dropLink_eq (s : State) (n row : Nat) : s.dropLink n row = (s.linkCut n row).halfEvent n row := rfl

theorem dropLink_down (q : s.Parted) (n row : Nat) : s.HalvesDown (s.dropLink n row) [n] (linkLost row) := by
  have cut : (s.linkCut n row).Parted := q.kept rfl rfl ⟨rfl, rfl, rfl⟩ ⟨rfl, rfl⟩ rfl
  obtain ⟨severed, waits⟩ := foldl_hostEvent_severed ((s.linkCut n row).hostsOn n) (row := row) cut
  rw [dropLink_eq]
  refine ⟨severed.parted, severed.mem, severed.bind, severed.perst, severed.waits, fun k here => ?_, fun k out => ?_, fun k here h behind => ?_⟩
  · obtain rfl := List.mem_singleton.mp here
    exact (halfReg_of_half severed.half k).trans (s.halfReg_setHalf k _)
  · exact (halfReg_of_half severed.half k).trans (s.halfReg_setHalf_ne _ (fun e => out (List.mem_singleton.mpr e)))
  · obtain rfl := List.mem_singleton.mp here
    exact waits h behind

/-- A link that is lost takes the hosts behind its half down. -/
theorem dropLink_hostDown (q : s.Parted) (behind : h ∈ s.hostsOn n) : (s.dropLink n row).HostDown h := by
  have down := dropLink_down q n row
  exact down.parted.hostDown (down.hosts n List.mem_cons_self h behind)

/-! ### PERST# (R298, R299) -/

/-- What PERST# does to one half. -/
def perstHalf (t : State) (n : Nat) : State :=
  let x := t.halfReg n
  let l2 := x.link == 8
  let u := (t.setHalf n { x with persts := satInc x.persts }).dropLink n 0
  if l2 then u.setHalf n { u.halfReg n with link := 8 } else u

/-- A half's register under PERST#. -/
def underPerst (x : Half) : Half := { x with persts := satInc x.persts, link := if x.link = 8 then 8 else 0, ide := false }

theorem perstHalf_down (q : s.Parted) (n : Nat) : s.HalvesDown (s.perstHalf n) [n] underPerst := by
  unfold perstHalf
  extract_lets x l2 u
  have counted : (s.setHalf n { x with persts := satInc x.persts }).Parted := q.kept rfl rfl ⟨rfl, rfl, rfl⟩ ⟨rfl, rfl⟩ rfl
  have down := dropLink_down counted n 0
  have reg : u.halfReg n = linkLost 0 { x with persts := satInc x.persts } :=
    (down.down n List.mem_cons_self).trans (congrArg _ (s.halfReg_setHalf n _))
  have other (k : Nat) (out : k ∉ [n]) : u.halfReg k = s.halfReg k :=
    (down.other k out).trans (s.halfReg_setHalf_ne _ (fun e => out (List.mem_singleton.mpr e)))
  have hosts : ∀ k ∈ [n], ∀ h ∈ s.hostsOn k, u.inReset h = true := down.hosts
  change HalvesDown _ u _ _ at down
  clear_value u
  split
  · rename_i low
    have low : (s.halfReg n).link = 8 := beq_iff_eq.mp low
    refine ⟨down.parted.kept rfl rfl ⟨rfl, rfl, rfl⟩ ⟨rfl, rfl⟩ rfl, down.mem, down.bind, down.perst, down.waits, fun k here => ?_,
      fun k out => (u.halfReg_setHalf_ne _ (fun e => out (List.mem_singleton.mpr e))).trans (other k out), hosts⟩
    obtain rfl := List.mem_singleton.mp here
    refine (u.halfReg_setHalf k { u.halfReg k with link := 8 }).trans ?_
    rw [reg, underPerst, if_pos low]
    rfl
  · rename_i high
    have high : (s.halfReg n).link ≠ 8 := fun e => high (beq_iff_eq.mpr e)
    refine ⟨down.parted, down.mem, down.bind, down.perst, down.waits, fun k here => ?_, other, hosts⟩
    obtain rfl := List.mem_singleton.mp here
    rw [reg, underPerst, if_neg high]
    rfl

theorem foldl_perstHalf_down (l : List Nat) (distinct : l.Nodup) (q : s.Parted) : s.HalvesDown (l.foldl perstHalf s) l underPerst := by
  induction l generalizing s with
  | nil => exact ⟨q, rfl, rfl, rfl, fun _ w => w, nofun, fun _ _ => rfl, nofun⟩
  | cons n l ih =>
    obtain ⟨apart, distinct⟩ := List.nodup_cons.mp distinct
    have first := perstHalf_down q n
    have rest := ih distinct first.parted
    refine ⟨rest.parted, rest.mem.trans first.mem, rest.bind.trans first.bind, rest.perst.trans first.perst,
      fun h w => rest.waits h (first.waits h w), List.forall_mem_cons.mpr ⟨?_, fun k here => ?_⟩, fun k out => ?_,
      List.forall_mem_cons.mpr ⟨fun h behind => rest.waits h (first.hosts n List.mem_cons_self h behind), fun k here h behind => ?_⟩⟩
    · exact (rest.other n apart).trans (first.down n List.mem_cons_self)
    · rw [List.foldl_cons, rest.down k here, first.other k (fun e => apart (List.mem_singleton.mp e ▸ here))]
    · obtain ⟨differs, out⟩ := not_or.mp (fun e => out (List.mem_cons.mpr e))
      exact (rest.other k out).trans (first.other k (fun e => differs (List.mem_singleton.mp e)))
    · exact rest.hosts k here h (hostsOn_of_bind first.bind k ▸ behind)

theorem perstHalves_nodup (s : State) (pg : Nat) : (s.perstHalves pg).Nodup := List.Nodup.filter _ (by simp)

theorem perstAssert_downs {pg : Fin 4} (q : s.Parted) (off : s.ports.perst.contains pg.val = false) :
    ∃ t, exec (.perstAssert pg) s = .next t ∧ t.ports.perst = pg.val :: s.ports.perst ∧
      (∀ n ∈ s.perstHalves pg, t.halfReg n = underPerst (s.halfReg n) ∧ ∀ h ∈ s.hostsOn n, t.HostDown h) ∧ t.mem = s.mem := by
  let s1 : State := { s with ports := { s.ports with perst := pg.val :: s.ports.perst } }
  have down : s1.HalvesDown ((s.perstHalves pg).foldl perstHalf s1) (s.perstHalves pg) underPerst :=
    foldl_perstHalf_down _ (s.perstHalves_nodup pg) (q.kept rfl rfl ⟨rfl, rfl, rfl⟩ ⟨rfl, rfl⟩ rfl)
  have run : exec (.perstAssert pg) s = .next ((s.perstHalves pg).foldl perstHalf s1) :=
    congrArg Host.Outcome.next (if_neg (by rw [off]; exact Bool.false_ne_true))
  exact ⟨_, run, down.perst, fun n here => ⟨down.down n here, fun h behind => down.parted.hostDown (down.hosts n here h behind)⟩, down.mem⟩

/-- What the release of PERST# does to one half. -/
def trainHalf (t : State) (n : Nat) : State := (t.leaveDetect n).setHalf n { t.halfReg n with link := 1 }

/-- The release of PERST# of a half leaves data and other halves as they are. -/
theorem trainHalf_link (s : State) (n : Nat) :
    ((s.trainHalf n).halfReg n).link = 1 ∧ (∀ k, k ≠ n → (s.trainHalf n).halfReg k = s.halfReg k) ∧
      (s.trainHalf n).ports.perst = s.ports.perst ∧ s.DataKept (s.trainHalf n) ∧ (s.trainHalf n).out = s.out := by
  obtain ⟨b, left⟩ : ∃ b, s.leaveDetect n = { s with ports := { s.ports with bifur := b } } := by
    unfold State.leaveDetect
    extract_lets port rest
    split
    exacts [⟨_, rfl⟩, ⟨_, rfl⟩]
  rw [trainHalf, left]
  exact ⟨congrArg Half.link (halfReg_setHalf _ n _), fun k other => halfReg_setHalf_ne _ _ other, rfl, ⟨rfl, rfl, rfl, rfl, rfl⟩, rfl⟩

theorem foldl_trainHalf (l : List Nat) (s : State) :
    (∀ n, n ∈ l ∨ (s.halfReg n).link = 1 → ((l.foldl trainHalf s).halfReg n).link = 1) ∧ (l.foldl trainHalf s).ports.perst = s.ports.perst ∧
      s.DataKept (l.foldl trainHalf s) ∧ (l.foldl trainHalf s).out = s.out := by
  induction l generalizing s with
  | nil => exact ⟨fun n here => here.resolve_left List.not_mem_nil, rfl, ⟨rfl, rfl, rfl, rfl, rfl⟩, rfl⟩
  | cons k l ih =>
    obtain ⟨link, other, perst, data, out⟩ := s.trainHalf_link k
    obtain ⟨links, perst', data', out'⟩ := ih (s.trainHalf k)
    refine ⟨fun n here => links n ?_, perst'.trans perst,
      ⟨data'.mem.trans data.mem, data'.map.trans data.map, data'.rt.trans data.rt, data'.dir.trans data.dir, data'.lake.trans data.lake⟩, out'.trans out⟩
    by_cases same : n = k
    · exact .inr (same ▸ link)
    · rw [other n same]
      exact here.imp_left (fun e => (List.mem_cons.mp e).resolve_left same)

theorem perstRelease_frees {pg : Fin 4} (on : s.ports.perst.contains pg.val = true) :
    ∃ t, exec (.perstRelease pg) s = .next t ∧ t.ports.perst.contains pg.val = false ∧ (∀ n ∈ s.perstHalves pg, (t.halfReg n).link = 1) ∧
      s.DataKept t ∧ t.out = s.out := by
  let s1 : State := { s with ports := { s.ports with perst := s.ports.perst.filter (fun x => x != pg.val) } }
  have run : exec (.perstRelease pg) s = .next ((s.perstHalves pg).foldl trainHalf s1) :=
    congrArg Host.Outcome.next (if_neg (c := s.ports.perst.contains pg.val = false) (by rw [on]; exact nofun))
  obtain ⟨links, perst, data, out⟩ := foldl_trainHalf (s.perstHalves pg) s1
  refine ⟨_, run, ?_, fun n here => links n (.inl here), ⟨data.mem, data.map, data.rt, data.dir, data.lake⟩, out⟩
  rw [perst]
  simp [s1]

/-! ### A reset of one function (R300 step 6, R307) -/

/-- Step 6 leaves a host without grants as a fresh one. -/
theorem returnHost_fresh (none : ∀ p ∈ s.rt.grants, p.2.host ≠ h) : (s.returnHost h).HostFresh h := by
  refine ⟨none, ?_, fun q => ?_, ?_, ?_⟩
  · simp [State.inReset, State.returnHost]
  · have key : (qKey h q / 64 != h.toNat) = false := by
      have small := q.isLt
      unfold qKey
      simp
      omega
    exact congrArg (fun o : Option Queue => o.getD .reset)
      (Tbl.find_filter_of_key (keep := fun n => n / 64 != h.toNat) s.q.qs key)
  · exact congrArg (fun o : Option Fn => o.getD .reset) (Tbl.find_del_same s.ports.fn h.toNat)
  · exact Tbl.getD_put_same s.evt.rd h.toNat _ _

/-- An event of one function resets its host at once: no link and no function must return first. -/
theorem hostEvent_now (out : s.inReset h = false) : s.hostEvent h row false false = (s.resetHost h row).returnHost h := by
  rw [State.hostEvent, out]
  rfl

theorem returnHost_posted {code okind obj : Nat} (posted : s.Posted t code okind obj) : s.Posted (t.returnHost h) code okind obj := posted

theorem hostEvent_fresh (c : s.Calm) (out : s.inReset h = false) :
    (s.hostEvent h row false false).HostFresh h ∧ (s.hostEvent h row false false).ports.half = s.ports.half ∧
      (s.hostEvent h row false false).bindOf h = s.bindOf h ∧ (s.hostEvent h row false false).mem = s.mem := by
  obtain ⟨ended, none⟩ := c.resetHost_cutOff (h := h) (row := row)
  rw [hostEvent_now out]
  generalize s.resetHost h row = t at ended none ⊢
  exact ⟨returnHost_fresh none, ended.half_eq, congrArg (fun b : Tbl Bind => b.getD h.toNat .none) ended.bind_eq, ended.mem_eq⟩

theorem fnReset_fresh (c : s.Calm) (bound : (s.bindOf h).valid = true) (free : (s.halfReg (s.halfOf h)).hold = false) (out : s.inReset h = false) :
    (s.fnReset h).HostFresh h ∧ ((s.fnReset h).halfReg (s.halfOf h)).resets = satInc (s.halfReg (s.halfOf h)).resets ∧
      (s.fnReset h).bindOf h = s.bindOf h ∧ (s.fnReset h).mem = s.mem := by
  let s1 := s.setHalf (s.halfOf h) { s.halfReg (s.halfOf h) with resets := satInc (s.halfReg (s.halfOf h)).resets }
  have run : s.fnReset h = s1.hostEvent h 3 false false := if_neg (by rw [bound, free]; simp)
  obtain ⟨fresh, half, bind, mem⟩ := hostEvent_fresh (s := s1) (row := 3) (c.kept rfl rfl ⟨rfl, rfl, rfl⟩ ⟨rfl, rfl⟩) out
  rw [run]
  refine ⟨fresh, ?_, bind, mem⟩
  rw [halfReg_of_half half]
  exact congrArg Half.resets (s.halfReg_setHalf _ _)

theorem freset_fresh (c : s.Calm) (empty : s.dir.ent = []) (reached : s.barOpen h = true) (awake : s.sled.st ≠ .off) :
    ∃ t, exec (.freset h) s = .next t ∧ t.HostFresh h ∧ t.ports.half = s.ports.half ∧ t.bindOf h = s.bindOf h ∧ s.Posted t 0x0504 2 h.toNat ∧
      t.mem = s.mem := by
  have out : s.inReset h = false := by
    simp only [State.barOpen, State.reach, Bool.and_eq_true, Bool.not_eq_true'] at reached
    obtain ⟨⟨-, out⟩, -⟩ := reached
    exact out
  have run : exec (.freset h) s = .next (s.hostEvent h 3 false false) := congrArg Host.Outcome.next (if_pos reached)
  obtain ⟨fresh, half, bind, mem⟩ := hostEvent_fresh (row := 3) c out
  refine ⟨_, run, fresh, half, bind, ?_, mem⟩
  rw [hostEvent_now out]
  exact returnHost_posted (c.resetHost_posted empty awake)

/-! ### A snoop that its host does not answer (06 R253) -/

theorem biSnoopTimeout_ends {r : RegionId} {line : BitVec 40} {chk : Chk} {pick : W32} {n : Snoop} (c : s.Calm)
    (waits : s.dir.snoops.find? (fun n => n.region == r && n.line == line && n.host == h) = some n) :
    ∃ t, exec (.biSnoopTimeout h r line chk pick) s = .next t ∧ .err (s.halfOf h) .fatal ∈ t.out ∧ (∀ p ∈ t.rt.grants, p.2.host ≠ h) ∧
      t.mem = s.mem := by
  have told : (s.fatalTo h).Calm := c.kept rfl rfl ⟨rfl, rfl, rfl⟩ ⟨rfl, rfl⟩
  obtain ⟨ended, none⟩ := told.endGrants_cutOff (h := h) (chk := chk) (pick := pick)
  have run : exec (.biSnoopTimeout h r line chk pick) s = .next ((s.fatalTo h).endGrants h chk pick) := by
    refine (congrArg Host.Outcome.next ?_).trans (congrArg Host.Outcome.next (ended.calm told).afterLines_eq)
    rw [waits]
  obtain ⟨l, sent⟩ := (endGrants_later (lasting := true) (calm := true) (s := s.fatalTo h) (h := h) (c := chk) (pick := pick)).sent
  refine ⟨_, run, ?_, none, ended.mem_eq⟩
  rw [sent]
  exact List.mem_append_right _ List.mem_cons_self

end State

open State in
/-- Settles O20: what a reset, a lost link and a snoop without an answer change is `CutOff`, the halves that go down are told by `HalvesDown`, and
step 6 leaves the host fresh. -/
theorem hostResetsEndGrants : Obligations.HostResetsEndGrants := by
  unfold Obligations.HostResetsEndGrants
  refine ⟨?_, ?_, ?_, ?_, ?_, ?_, ?_, ?_⟩
  · intro s
    refine ⟨_, rfl, rfl, fun x => List.mem_filter.trans (and_congr_right fun _ => ?_)⟩
    simp only [List.any_eq_true, Bool.and_eq_true, beq_iff_eq]
  · intro s pg calm _ fresh off
    obtain ⟨t, run, perst, halves, mem⟩ := perstAssert_downs (.of_calm calm fresh) off
    refine ⟨t, run, perst, fun n here => ?_, mem⟩
    obtain ⟨reg, down⟩ := halves n here
    rw [reg]
    exact ⟨rfl, rfl, down⟩
  · exact fun s pg on => perstRelease_frees on
  · intro s half calm _ fresh free present
    let s1 := s.setHalf half { s.halfReg half with resets := satInc (s.halfReg half).resets }
    have run : exec (.hotReset half) s = .next (s1.dropLink half 1) := congrArg Host.Outcome.next (if_neg (by rw [free, present]; simp))
    have parted : s1.Parted := (Parted.of_calm calm fresh).kept rfl rfl ⟨rfl, rfl, rfl⟩ ⟨rfl, rfl⟩ rfl
    have down := dropLink_down parted half 1
    have reg := (down.down half List.mem_cons_self).trans (congrArg (linkLost 1) (s.halfReg_setHalf half _))
    exact ⟨_, run, congrArg Half.resets reg, congrArg Half.link reg, fun h behind => dropLink_hostDown parted behind, down.mem⟩
  · intro s half calm _ fresh free present up
    have run : exec (.linkDown half) s = .next (s.dropLink half 2) := congrArg Host.Outcome.next
      (if_neg (by rw [free, present]; exact not_or.mpr ⟨nofun, not_or.mpr ⟨nofun, up⟩⟩))
    have parted := Parted.of_calm calm fresh
    have down := dropLink_down parted half 2
    have reg := down.down half List.mem_cons_self
    exact ⟨_, run, congrArg Half.linkdown reg, congrArg Half.link reg, fun h behind => dropLink_hostDown parted behind, down.mem⟩
  · intro s host calm _ bound free out
    exact ⟨⟨_, rfl, fnReset_fresh calm bound free out⟩, ⟨_, rfl, fnReset_fresh calm bound free out⟩⟩
  · exact fun s host calm empty reached awake => freset_fresh calm empty reached awake
  · exact fun s host region line chk pick n calm waits => biSnoopTimeout_ends calm waits

end Sys2Proof.Machine
end

section
/-! ## A load beyond line 2^40 of its region (O1)

The far extent that refutes the clause on stores of O2 refutes the clause on loads too: the line of the request holds its low 40 bits, so the load of
line 2^40 reads line 0 of the region, whose segment is POISONED in `FarExtent.linked`. -/

namespace Sys2Proof.Machine

/-- A load through the far extent is answered with the poison of segment 0. -/
theorem FarExtent.load_poisoned {t : State} (run : exec (.memRd 0 0 0 false .ok) linked = .next t) : t.out = [.poison 0 0] := by
  obtain rfl := Host.Outcome.next.inj run
  decide +kernel

/-- Refutes O1: where the extent of a grant begins at line 2^40, the line of a load does not fit the 40 bits of the request, and the load is answered
from line 0 of the region, with poison, and not with the stored line of the extent. -/
theorem not_hostLoadsAnswerTheStoredLine : ¬ Obligations.HostLoadsAnswerTheStoredLine := by
  unfold Obligations.HostLoadsAnswerTheStoredLine
  rintro ⟨load, -⟩
  obtain ⟨t, run, answer, -⟩ := load FarExtent.linked 0 0 0 false .ok 0 0 (2 ^ 40) 256 FarExtent.grant FarExtent.linked_mapped
    FarExtent.linked_untracked FarExtent.linked_inPond rfl
  rw [FarExtent.load_poisoned run] at answer
  cases answer

end Sys2Proof.Machine
end

section
/-! ## Requests without an extent, and stores to a read-only one (06 R243; 07 R275, R282, R300) -/

namespace Sys2Proof.Machine

namespace State

variable {s : State} {half : Nat} {spid : BitVec 12} {h : HostId} {x : HReq} {o : Output}

/-- A request comes to its host where the link carries it, a binding names the host and no reset of the host goes on. -/
theorem fromHost_of_live (link : s.linkOpen half = true) (host : s.hostAt half spid = some h) (live : s.inReset h = false) (f : HostId → State) :
    s.fromHost half spid f = f h := by
  simp [State.fromHost, link, host, live]

theorem hostWrite_of_clean {c : Chk} {pick : W32} (runs : s.ports.stopStores = false) (clean : x.poison = false)
    (ide : s.needsIde x.half = false) : s.hostWrite x c pick = s.accept x c pick := by
  simp [State.hostWrite, runs, clean, ide]

/-! ### No extent (R282) -/

theorem accept_of_unmapped {c : Chk} {pick : W32} (absent : s.lookup x.host x.dpa.toNat = none) (kind : x.kind ≠ .wback) :
    s.accept x c pick = s.unmapped { x with no := s.dir.reqNo, gnt := none } := by
  simp [State.accept, State.lookUp, absent, State.serveReq, kind]

theorem hostRead_of_unmapped {c : Chk} (ide : s.needsIde x.half = false) (absent : s.lookup x.host x.dpa.toNat = none) (kind : x.kind ≠ .wback) :
    s.hostRead x c = s.unmapped { x with no := s.dir.reqNo, gnt := none } := by
  simp [State.hostRead, ide, absent, accept_of_unmapped absent kind]

/-- UNMAPPED_ACCESS of a request's host. -/
def unmappedPost (x : HReq) : Post := { ev := .unmappedAccess, okind := 2, obj := x.host.toNat, shost := x.host, p0 := x.dpa.setWidth 64 }

/-- The time at which UNMAPPED_ACCESS was last posted for a host is now. -/
def unmappedNow (s : State) (h : HostId) : State := { s with ports := { s.ports with unmappedAt := s.ports.unmappedAt.put h.toNat s.clk.ms } }

/-- Whether UNMAPPED_ACCESS was posted for a host within the last second. -/
def unmappedRecently (s : State) (h : HostId) : Bool :=
  match s.ports.unmappedAt.find h.toNat with
  | some t => decide (s.clk.ms < t + 1000)
  | none => false

/-- A request without an extent is answered, and told once per second. -/
theorem unmapped_eq (sends : s.answerPoison x = s.send o) :
    s.unmapped x = if s.unmappedRecently x.host then s.send o else ((s.send o).unmappedNow x.host).post (unmappedPost x) := by
  rw [State.unmapped, sends]
  rfl

theorem unmapped_tells (sends : s.answerPoison x = s.send o) :
    o ∈ (s.unmapped x).out ∧ s.DataKept (s.unmapped x) ∧ s.UnmappedTold (s.unmapped x) x.host := by
  rw [unmapped_eq sends]
  split
  · rename_i recent
    refine ⟨List.mem_cons_self, ⟨rfl, rfl, rfl, rfl, rfl⟩, ⟨fun _ _ _ => rfl, fun old _ => ?_⟩⟩
    unfold State.unmappedRecently at recent
    split at recent
    · rename_i a last
      have := old a last
      have := of_decide_eq_true recent
      omega
    · cases recent
  · rename_i quiet
    have told := ((s.send o).unmappedNow x.host).post_told (unmappedPost x)
    obtain ⟨l, sent⟩ := told.sent
    refine ⟨by rw [sent]; exact List.mem_append_right _ List.mem_cons_self, ⟨told.mem_eq, told.map_eq, told.rt_eq, told.dir_eq, told.lake_eq⟩,
      ⟨fun a last young => ?_, fun _ awake => ⟨?_, ?_⟩⟩⟩
    · exact absurd (by simp [State.unmappedRecently, last, young]) quiet
    · have small := x.host.isLt
      exact posted_of_post (t := (s.send o).unmappedNow x.host) le_rfl rfl awake (.refl _) (Nat.zero_le _) rfl rfl
        ((BitVec.toNat_ofNat x.host.toNat 32).trans (Nat.mod_eq_of_lt (by omega)))
    · rw [told.rest]
      exact Tbl.find_put_same _ _ _

/-! ### An extent held read-only (R243) -/

theorem roWrite_discards {g line : Nat} {r : RegionId} (sends : s.answerPoison x = s.send o) :
    o ∈ (s.roWrite x g r line).out ∧ (s.roWrite x g r line).mem = s.mem ∧ (s.roWrite x g r line).map = s.map ∧ (s.roWrite x g r line).dir = s.dir := by
  unfold State.roWrite
  rw [sends]
  extract_lets s1 recent
  split
  · exact ⟨List.mem_cons_self, rfl, rfl, rfl⟩
  · have told := State.post_told { s1 with rt := { s1.rt with roAt := s1.rt.roAt.put g s1.clk.ms } } (linePost .grantRoWrite r line x.host)
    obtain ⟨l, sent⟩ := told.sent
    exact ⟨by rw [sent]; exact List.mem_append_right _ List.mem_cons_self, told.mem_eq, told.map_eq, told.dir_eq⟩

/-- A store through a mapped extent that is held read-only is discarded, whatever line the request names. -/
theorem accept_of_readOnly {c : Chk} {pick : W32} {g line : Nat} {gr : Grant} (found : s.lookup x.host x.dpa.toNat = some (g, gr, line))
    (even : (s.ent gr.region).odd = false) (kept : (s.ent gr.region).dlost = false) (ro : gr.rw = false) (stores : x.kind = .wr ∨ x.kind = .wrPtl) :
    s.accept x c pick = s.roWrite (s.lookUp { x with no := s.dir.reqNo }) g gr.region (BitVec.ofNat 40 line).toNat := by
  have own : x.kind ≠ .wback := by rcases stores with k | k <;> simp [k]
  have writes : x.kind.reads = false := by rcases stores with k | k <;> simp [k, ReqKind.reads]
  simp [State.accept, State.lookUp, found, State.serveReq, own, even, kept, writes, State.serveWrite, ro]

end State

open State in
/-- Settles O3: an access without an extent is answered with poison or discarded and told once per second; a store through a read-only extent is
discarded before anything is looked up in the map. -/
theorem unmappedAndReadOnlyAccesses : Obligations.UnmappedAndReadOnlyAccesses := by
  unfold Obligations.UnmappedAndReadOnlyAccesses
  constructor
  · intro s half spid dpa nocache chk h link host live ide absent
    refine ⟨⟨_, rfl, ?_⟩, ⟨_, rfl, ?_⟩, fun data keep pick runs => ⟨_, rfl, ?_⟩, fun data mask pick runs => ⟨_, rfl, ?_⟩⟩
    · rw [fromHost_of_live link host live, hostRead_of_unmapped ide absent (by simp [mkReq])]
      exact unmapped_tells rfl
    · rw [fromHost_of_live link host live, hostRead_of_unmapped ide absent (by simp [mkReq])]
      exact unmapped_tells rfl
    · rw [fromHost_of_live link host live, hostWrite_of_clean runs rfl ide, accept_of_unmapped absent (by simp [mkReq])]
      exact unmapped_tells rfl
    · rw [fromHost_of_live link host live, hostWrite_of_clean runs rfl ide, accept_of_unmapped absent (by simp [mkReq])]
      exact unmapped_tells rfl
  · intro s half spid dpa data mask keep chk pick h g line gr mapped ro runs
    obtain ⟨link, host, live, ide, found, even, kept⟩ := mapped
    refine ⟨⟨_, rfl, ?_⟩, ⟨_, rfl, ?_⟩⟩
    · rw [fromHost_of_live link host live, hostWrite_of_clean runs rfl ide, accept_of_readOnly found even kept ro (.inl rfl)]
      exact roWrite_discards (by simp [State.answerPoison, State.lookUp, mkReq, found])
    · rw [fromHost_of_live link host live, hostWrite_of_clean runs rfl ide, accept_of_readOnly found even kept ro (.inr rfl)]
      exact roWrite_discards (by simp [State.answerPoison, State.lookUp, mkReq, found])

end Sys2Proof.Machine
end

section
/-! ## The mailbox and the DOE (07 R271, R272, R280, R283, R284) -/

namespace Sys2Proof.Machine

theorem State.mailbox_of_open {s : State} {h : HostId} (opened : s.barOpen h = true) (code : Nat) (words : List Nat) :
    s.mailbox h code words = s.send (.mailbox h code (words.map (BitVec.ofNat 64))) := if_pos opened

theorem grantsOfHost_of_one {s : State} {h : HostId} {g : Nat} {gr : Grant} (one : s.rt.grants = [(g, gr)]) (own : gr.host = h) :
    s.grantsOfHost h = [(g, gr)] := by
  simp [State.grantsOfHost, one, own]

/-- A clear answers and empties the log of its host alone. -/
theorem clearEventRecords_empties {s : State} {host : HostId} (opened : s.barOpen host = true) :
    ∃ t, exec (.clearEventRecords host) s = .next t ∧ t.out = .mailbox host 0 [] :: s.out ∧ t.ports.dcLog.getD host.toNat [] = [] ∧
      (∀ h : HostId, h ≠ host → t.ports.dcLog.find h.toNat = s.ports.dcLog.find h.toNat) ∧ t = { s with out := t.out, ports := t.ports } := by
  let s1 := s.send (.mailbox host 0 [])
  have run : exec (.clearEventRecords host) s = .next { s1 with ports := { s1.ports with dcLog := s1.ports.dcLog.del host.toNat } } := by
    simp only [exec, execClearEventRecords, if_pos opened, State.mailbox_of_open opened]
    rfl
  refine ⟨_, run, rfl, ?_, fun h other => Tbl.find_del_ne _ (fun e => other (BitVec.eq_of_toNat_eq e)), rfl⟩
  rw [Tbl.getD, Tbl.find_del_same]
  rfl

open State in
/-- Settles O19: each answer by its words; the extent list from the one grant of the host. -/
theorem mailboxAnswers : Obligations.MailboxAnswers := by
  unfold Obligations.MailboxAnswers
  refine ⟨fun s host opened => ?_, fun s host g gr opened one own here => ?_, fun s host opened => ⟨(stdWords 0x4000 6).map (BitVec.ofNat 64), ?_⟩,
    fun s host v opened one => ?_,
    fun s host opened => clearEventRecords_empties opened,
    fun s host opened => ⟨(stdWords 0x4200 3).map (BitVec.ofNat 64), ?_⟩, fun s host opened => ⟨(stdWords 0x0400 3).map (BitVec.ofNat 64), ?_⟩,
    fun s host opcode opened unlisted => ?_, fun s host reached => ⟨BitVec.ofNat 64 (s.halfReg (s.halfOf host)).width.toNat,
      BitVec.ofNat 64 (s.halfReg (s.halfOf host)).speed.toNat, ?_⟩⟩
  · exact congrArg Host.Outcome.next (mailbox_of_open opened 0 _)
  · have held : (s.grantsOfHost host).filter (fun p => !s.rt.gone.contains p.1) = [(g, gr)] := by
      rw [grantsOfHost_of_one one own]
      simp at here
      simp [here]
    simp only [exec, execGetDynamicCapacityExtentList, held, mailbox_of_open opened]
    rfl
  · exact congrArg Host.Outcome.next (mailbox_of_open opened 0 _)
  · simp only [exec, execGetEventRecords, one, mailbox_of_open opened]
    simp
  · exact congrArg Host.Outcome.next (mailbox_of_open opened 0 _)
  · exact congrArg Host.Outcome.next (mailbox_of_open opened 0 _)
  · have other : ([0x4800, 0x4801, 0x4802, 0x4803, 0x4000, 0x0100, 0x0101, 0x4200, 0x0400] : List Nat).contains opcode.toNat = false :=
      Bool.eq_false_iff.mpr (fun listed => unlisted (List.contains_iff_mem.mp listed))
    simp only [exec, execMailboxUnsupported, other, mailbox_of_open opened]
    rfl
  · exact congrArg Host.Outcome.next (if_pos reached)

end Sys2Proof.Machine
end

section
/-! ## Links: streams, power states, errors and IDE (07 R271, R287, R291, R296, R298, R306, R310) -/

namespace Sys2Proof.Machine

namespace State

variable {s t : State}

theorem Metered.ports_eq (a : s.Metered t) : t.ports = { s.ports with fn := t.ports.fn } := by rw [a.rest]

theorem Metered.halfReg_eq (a : s.Metered t) (n : Nat) : t.halfReg n = s.halfReg n := halfReg_of_half (by rw [a.ports_eq]) n

/-! ### A port group that leaves L1 (13 R477) -/

theorem answerEntry_metered {i share : Nat} : s.Metered (s.answerEntry i share) := by
  unfold State.answerEntry
  extract_lets e perm want give s1
  exact .ite (.refl s) (writeGrant_metered.trans setLedger_metered)

theorem answerAll_metered : s.Metered s.answerAll := .foldl (fun _ _ => .foldl (fun _ _ => answerEntry_metered) _ _) _ _

theorem pgLit_metered {half : Nat} : s.Metered (s.pgLit half) := by
  unfold State.pgLit
  extract_lets i s1
  have asked : s.Metered (s.askWake i) := setLedger_metered
  have first : s.Metered s1 := .ite writeGrant_metered (.ite (.refl s) (.ite (asked.trans answerAll_metered) asked))
  exact .ite (first.trans setPst_metered) first

/-! ### Streams and reads without completion (R287, R291) -/

theorem clearPanic_controlled (s : State) (half : Nat) :
    { s with pond := { s.pond with panic := s.pond.panic.del half } }.Controlled (s.clearPanic half) := Sets.foldl repay_sets _ _

theorem rtStreamIdle_closes (s : State) (half : Fin 16) (host : HostId) (region : RegionId) :
    ∃ t, exec (.rtStreamIdle half host region) s = .next t ∧
      t.ports.streams = s.ports.streams.filter (fun x => !(x.half == half.val && x.host == host && x.region == region)) ∧
      ((∀ x ∈ t.ports.streams, x.half ≠ half.val) → t.pond.panic.has half = false) ∧ s.DataKept t ∧ s.ControlKept t ∧ t.out = s.out := by
  let s1 : State := { s with ports := { s.ports with
    streams := s.ports.streams.filter (fun x => !(x.half == half.val && x.host == host && x.region == region)) } }
  by_cases left : s1.ports.streams.any (fun x => x.half == half.val) = true
  · refine ⟨s1, congrArg Host.Outcome.next (if_pos left), rfl, fun none => ?_, ⟨rfl, rfl, rfl, rfl, rfl⟩, ⟨rfl, rfl, rfl, rfl, rfl, rfl, rfl, rfl, rfl⟩,
      rfl⟩
    obtain ⟨x, here, own⟩ := List.any_eq_true.mp left
    exact absurd (beq_iff_eq.mp own) (none x here)
  · refine ⟨s1.clearPanic half, congrArg Host.Outcome.next (if_neg left), ?_⟩
    rw [s1.clearPanic_controlled half]
    refine ⟨rfl, fun _ => ?_, ⟨rfl, rfl, rfl, rfl, rfl⟩, ⟨rfl, rfl, rfl, rfl, rfl, rfl, rfl, rfl, rfl⟩, rfl⟩
    exact congrArg Option.isSome (Tbl.find_del_same s.pond.panic half)

theorem completionTimeout_repeats {req : Nat} {n : NpReq} (found : s.ports.np.find req = some n) (fresh : n.retried = false)
    (issued : s.issued req = true) :
    exec (.completionTimeout req) s =
      .next { s.send (.err (s.halfOf n.host) .nonfatal) with ports := { s.ports with np := s.ports.np.put req { n with retried := true } } } := by
  simp [exec, execCompletionTimeout, found, issued, fresh]

/-! ### Link power (R296, R298, R306) -/

theorem linkPowerStateChange_takes {half : Fin 16} {link : BitVec 4} (free : (s.halfReg half).hold = false) (up : s.up = true)
    (may : link ∈ [2#4, 5#4, 6#4, 7#4, 8#4] ∨
      link = 3 ∧ (s.portCfg (half.val / 2)).l0pEn = true ∧ s.rtHalf half = false ∧ (s.halfReg half).link = 2)
    (now : (s.halfReg half).link ∈ [2#4, 3#4, 5#4, 6#4, 7#4, 8#4]) :
    exec (.linkPowerStateChange half link) s = .next (if link = 2 then (s.setHalf half { s.halfReg half with link := link }).pgLit half
      else s.setHalf half { s.halfReg half with link := link }) := by
  refine congrArg Host.Outcome.next (if_neg ?_)
  rintro (held | down | barred | ⟨wide, barred⟩)
  · rw [free] at held
    cases held
  · rw [up] at down
    cases down
  · rcases may with may | ⟨rfl, enabled, plain, full⟩ <;> simp_all
  · simp_all

/-- A half in a trained state that is let into another takes it, and asks for the light of its port group on the way back to L0. -/
theorem linkReturns_toL0 {half : Fin 16} (free : (s.halfReg half).hold = false) (up : s.up = true)
    (now : (s.halfReg half).link ∈ [2#4, 3#4, 5#4, 6#4, 7#4, 8#4]) :
    ∃ t, exec (.linkPowerStateChange half 2) s = .next t ∧ (t.halfReg half).link = 2 ∧ s.DataKept t := by
  have lit := pgLit_metered (s := s.setHalf half { s.halfReg half with link := 2 }) (half := half)
  obtain ⟨mem, map, rt, dir, lake⟩ := lit.dataKept
  refine ⟨_, linkPowerStateChange_takes free up (.inl (by simp)) now, ?_, ⟨mem, map, rt, dir, lake⟩⟩
  rw [if_pos rfl, lit.halfReg_eq, halfReg_setHalf]

/-! ### Errors (R271, R310) -/

/-- A half that reports a fatal error loses its link. -/
theorem fatal_dropsLink (q : s.Parted) (n : Nat) :
    .err n .fatal ∈ ((s.send (.err n .fatal)).dropLink n 2).out ∧ ((s.send (.err n .fatal)).dropLink n 2).halfReg n = linkLost 2 (s.halfReg n) ∧
      (∀ h ∈ s.hostsOn n, ((s.send (.err n .fatal)).dropLink n 2).HostDown h) ∧ ((s.send (.err n .fatal)).dropLink n 2).mem = s.mem := by
  have told : (s.send (.err n .fatal)).Parted := q.kept rfl rfl ⟨rfl, rfl, rfl⟩ ⟨rfl, rfl⟩ rfl
  have down := dropLink_down told n 2
  obtain ⟨l, sent⟩ := (dropLink_later (lasting := true) (calm := true) (s := s.send (.err n .fatal)) (half := n) (row := 2)).sent
  refine ⟨?_, down.down n List.mem_cons_self, fun h behind => dropLink_hostDown told behind, down.mem⟩
  rw [sent]
  exact List.mem_append_right _ List.mem_cons_self

theorem malformedTlp_drops {half : Fin 16} (q : s.Parted) (opened : s.linkOpen half = true) :
    ∃ t, exec (.malformedTlp half) s = .next t ∧ .err half .fatal ∈ t.out ∧ (t.halfReg half).link = 0 ∧
      (t.halfReg half).linkdown = satInc (s.halfReg half).linkdown ∧ (∀ h ∈ s.hostsOn half, t.HostDown h) ∧ t.mem = s.mem := by
  obtain ⟨told, reg, down, mem⟩ := fatal_dropsLink q half
  refine ⟨_, congrArg Host.Outcome.next (if_pos opened), told, ?_, ?_, down, mem⟩ <;> rw [reg] <;> rfl

theorem ideCheckFail_drops {half : Fin 16} (q : s.Parted) (opened : s.linkOpen half = true) (secure : (s.halfReg half).ide = true) :
    ∃ t, exec (.ideCheckFail half) s = .next t ∧ .err half .fatal ∈ t.out ∧ (t.halfReg half).link = 0 ∧ (t.halfReg half).ide = false ∧
      (∀ h ∈ s.hostsOn half, t.HostDown h) ∧ t.mem = s.mem := by
  have insecure : (s.setHalf half { s.halfReg half with ide := false }).Parted := q.kept rfl rfl ⟨rfl, rfl, rfl⟩ ⟨rfl, rfl⟩ rfl
  obtain ⟨told, reg, down, mem⟩ := fatal_dropsLink insecure half
  refine ⟨_, congrArg Host.Outcome.next (if_pos ⟨opened, secure⟩), told, ?_, ?_, down, mem⟩ <;> rw [reg] <;> rfl

end State

open State in
/-- Settles O22: each event by the equation of its command; the fatal ones by what a lost link leaves where nothing else waits. -/
theorem linkEventsAct : Obligations.LinkEventsAct := by
  unfold Obligations.LinkEventsAct
  refine ⟨fun s half host region => rtStreamIdle_closes s half host region, fun s req n found fresh issued => ?read,
    fun s half opened idle plain => ?idle, fun s half width opened fits plain => ?lanes, fun s half link free up low now => ?low,
    fun s half free up now plain enabled => ?narrow, fun s half free up now => linkReturns_toL0 free up now, fun s half opened => ?corrected,
    fun s half calm _ fresh opened => malformedTlp_drops (.of_calm calm fresh) opened,
    fun s half calm _ fresh opened secure => ideCheckFail_drops (.of_calm calm fresh) opened secure, fun s half opened => ?keyed⟩
  case read =>
    exact ⟨_, completionTimeout_repeats found fresh issued, rfl, Tbl.find_put_same _ _ _, ⟨rfl, rfl, rfl, rfl, rfl⟩,
      ⟨rfl, rfl, rfl, rfl, rfl, rfl, rfl, rfl, rfl⟩⟩
  case idle =>
    have may : ¬ (s.linkOpen half = false ∨ (s.portCfg (half.val / 2)).l1Idle = 0 ∨ s.rtHalf half = true) := by
      rw [opened, plain]
      simpa using idle
    exact congrArg Host.Outcome.next (if_neg may)
  case lanes => exact congrArg Host.Outcome.next (if_neg (by simp [opened, BitVec.not_lt.mpr fits, plain]))
  case low =>
    have other : link ≠ 2 := by
      rintro rfl
      simp at low
    rw [linkPowerStateChange_takes free up (.inl (List.mem_cons_of_mem _ low)) now, if_neg other]
  case narrow =>
    exact linkPowerStateChange_takes free up (.inr ⟨rfl, enabled, plain, now⟩) (by simp [now])
  case corrected => exact congrArg Host.Outcome.next (if_pos opened)
  case keyed => exact congrArg Host.Outcome.next (if_pos ⟨rfl, opened⟩)

end Sys2Proof.Machine
end

section
/-! ## Windows that are lost (02 R67, R91, R95) -/

namespace Sys2Proof.Machine

/-! ### Entries that leave TRANSIT -/

/-- An entry whose move has ended without a commit: its source state has returned. -/
def Sme.returned (e : Sme) : Sme := e.edit (fun f => { f with st := e.src.code, prior := 0 })

theorem Sme.src_of_transit {e : Sme} (moving : e.st = .transit) : e.src = priorSt e.f.prior := if_pos moving

/-- A stored form has one of four states. -/
theorem priorSt_stored (b : BitVec 2) : priorSt b ∈ [SegSt.opn, .packed, .lake, .tarn] := by
  revert b
  decide

theorem Sme.st_returned (e : Sme) : e.returned.st = e.src := by
  rw [Sme.st, Sme.returned, Sme.f_edit]
  exact segSt_code _

theorem Sme.home_returned {e : Sme} (moving : e.st = .transit) : e.returned.home = e.home := by
  have still : e.returned.st ≠ .transit := by
    rw [e.st_returned, Sme.src_of_transit moving]
    have stored := priorSt_stored e.f.prior
    intro same
    rw [same] at stored
    simp at stored
  have src : e.returned.src = e.src := (if_neg still).trans e.st_returned
  rw [Sme.home, src, Sme.returned, Sme.f_edit]
  rfl

theorem Sme.st_new (age : W16) : (Sme.new age).st = .zero := by
  rw [Sme.st, Sme.new, SmeF.f_word]
  rfl

theorem Sme.home_new (age : W16) : (Sme.new age).home = none := by
  have src : (Sme.new age).src = .zero := (if_neg (by rw [Sme.st_new]; nofun)).trans (Sme.st_new age)
  rw [Sme.home, src]

theorem Sme.st_poison (e : Sme) (cause : Nat) : (e.poison cause).st = .poisoned := by
  rw [Sme.st, Sme.poison, SmeF.f_word]
  rfl

theorem Sme.returned_ne_new {e : Sme} (moving : e.st = .transit) (age : W16) : e.returned ≠ Sme.new age := by
  intro same
  have stored := priorSt_stored e.f.prior
  rw [← Sme.src_of_transit moving, ← e.st_returned, same, Sme.st_new] at stored
  simp at stored

theorem Sme.poison_ne_new (e : Sme) (cause : Nat) (age : W16) : e.poison cause ≠ Sme.new age := by
  intro same
  have st := e.st_poison cause
  rw [same, Sme.st_new] at st
  cases st

theorem keyRegion_segKey (r : RegionId) {seg : Nat} (small : seg < 2 ^ 34) : keyRegion (segKey r seg) = r := by
  apply BitVec.eq_of_toNat_eq
  have := r.isLt
  simp only [keyRegion, segKey, BitVec.toNat_ofNat]
  omega

theorem keySeg_segKey (r : RegionId) {seg : Nat} (small : seg < 2 ^ 34) : keySeg (segKey r seg) = seg := by
  simp only [keySeg, segKey]
  omega

namespace State

variable {s t u : State} {k : Nat} {P : Sme → Prop}

/-- The entry listed under a key has a property. -/
def Lists (s : State) (k : Nat) (P : Sme → Prop) : Prop := ∃ e, s.map.sme.find k = some e ∧ P e

theorem Lists.sme {r : RegionId} {seg : Nat} (here : s.Lists (segKey r seg) P) : P (s.sme r seg) := by
  obtain ⟨e, found, p⟩ := here
  rw [State.sme, Tbl.getD, found]
  exact p

/-- A segment with a home is listed. -/
theorem lists_of_home {r : RegionId} {seg : Nat} {l : Loc} (home : (s.sme r seg).home = some l) :
    s.Lists (segKey r seg) (fun e => e.home = some l) := by
  cases found : s.map.sme.find (segKey r seg) with
  | none =>
    rw [State.sme, Tbl.getD, found, Option.getD_none, State.newSme, Sme.home_new] at home
    cases home
  | some e =>
    rw [State.sme, Tbl.getD, found] at home
    exact ⟨e, found, home⟩

/-- An entry written under a key, its own or another, where the write is not that of an unlisted entry. -/
theorem Lists.set {n : Nat} {d x : Sme} (here : s.Lists k P) (written : t.map.sme = s.map.sme.set n d x) (differs : x ≠ d) (own : n = k → P x) :
    t.Lists k P := by
  have put : t.map.sme = s.map.sme.put n x := by rw [written, Tbl.set, if_neg differs]
  by_cases same : n = k
  · exact ⟨x, by rw [put, same, Tbl.find_put_same], own same⟩
  · obtain ⟨e, found, p⟩ := here
    exact ⟨e, by rw [put, Tbl.find_put_ne _ _ (Ne.symm same), found], p⟩

/-! ### Moves that end (02 R69, R70) -/

theorem sealBack_map (m : Move) : (s.sealBack m).map = s.map := by
  unfold State.sealBack
  split
  · split <;> rfl
  · rfl

theorem abortMove_lists {n : Nat} (stable : ∀ e : Sme, e.st = .transit → P e → P e.returned) (here : s.Lists k P) : (s.abortMove n).Lists k P := by
  unfold State.abortMove
  split
  · exact here
  · rename_i m _
    extract_lets s1 e _ _ s2
    have listed : s2.Lists k P := by
      obtain ⟨x, found, p⟩ := here
      exact ⟨x, (congrArg (fun y : MapS => y.sme.find k) (s.sealBack_map m)).trans found, p⟩
    split
    · rename_i moving
      refine listed.set sme_commitSme (Sme.returned_ne_new moving _) (fun same => ?_)
      have own : P (s2.sme m.region m.seg) := Lists.sme (same ▸ listed)
      exact stable e moving own
    · exact listed

theorem cancelMove_lists {r : RegionId} {seg : Nat} (stable : ∀ e : Sme, e.st = .transit → P e → P e.returned) (here : s.Lists k P) :
    (s.cancelMove r seg).Lists k P := by
  unfold State.cancelMove
  split
  exacts [abortMove_lists stable here, here]

theorem foldl_abortMove_lists {l : List (Nat × Move)} (stable : ∀ e : Sme, e.st = .transit → P e → P e.returned) (here : s.Lists k P) :
    (l.foldl (fun t m => t.abortMove m.1) s).Lists k P := by
  induction l generalizing s with
  | nil => exact here
  | cons m l ih => exact ih (abortMove_lists stable here)

/-! ### Poisoned segments (02 R67) -/

theorem poisonSeg_sme (s : State) (r : RegionId) (seg cause : Nat) :
    (s.poisonSeg r seg cause).map.sme = (s.cancelMove r seg).map.sme.set (segKey r seg) ((s.cancelMove r seg).newSme r)
      (((s.cancelMove r seg).sme r seg).poison cause) := by
  unfold State.poisonSeg
  extract_lets s1 e s2 s3
  have written : s2.map.sme = s1.map.sme.set (segKey r seg) (s1.newSme r) (e.poison cause) := sme_commitSme
  refine Eq.trans ?_ written
  show s3.map.sme = s2.map.sme
  unfold s3
  split
  exacts [sme_release, rfl]

/-- A POISONED entry is not on the way anywhere. -/
theorem poisoned_stable (e : Sme) (moving : e.st = .transit) (poisoned : e.st = .poisoned) : e.returned.st = .poisoned := by
  rw [moving] at poisoned
  cases poisoned

/-- A poisoned segment is listed as one. -/
theorem poisonSeg_poisons (s : State) (r : RegionId) (seg cause : Nat) :
    (s.poisonSeg r seg cause).Lists (segKey r seg) (fun e => e.st = .poisoned) := by
  refine ⟨((s.cancelMove r seg).sme r seg).poison cause, ?_, Sme.st_poison _ _⟩
  exact (congrArg (fun y : Tbl Sme => y.find (segKey r seg)) ((poisonSeg_sme s r seg cause).trans (if_neg (Sme.poison_ne_new _ _ _)))).trans
    (Tbl.find_put_same _ _ _)

theorem poisonSeg_keepsPoison {r : RegionId} {seg cause : Nat} (here : s.Lists k (fun e => e.st = .poisoned)) :
    (s.poisonSeg r seg cause).Lists k (fun e => e.st = .poisoned) :=
  (cancelMove_lists poisoned_stable here).set (poisonSeg_sme s r seg cause) (Sme.poison_ne_new _ _ _) (fun _ => Sme.st_poison _ _)

theorem foldl_poisonSeg_poisons {l : List (Nat × Sme)} {cause : Nat} (own : segKey (keyRegion k) (keySeg k) = k)
    (due : k ∈ l.map Prod.fst ∨ s.Lists k (fun e => e.st = .poisoned)) :
    (l.foldl (fun t p => t.poisonSeg (keyRegion p.1) (keySeg p.1) cause) s).Lists k (fun e => e.st = .poisoned) := by
  induction l generalizing s with
  | nil => exact due.resolve_left List.not_mem_nil
  | cons p l ih =>
    refine ih ?_
    rcases due with due | done
    · rcases List.mem_cons.mp due with rfl | later
      · right
        have here := s.poisonSeg_poisons (keyRegion p.1) (keySeg p.1) cause
        rwa [own] at here
      · exact .inl later
    · exact .inr (poisonSeg_keepsPoison done)

/-! ### What the end of moves and the loss of segments leave -/

/-- Two states between which moves ended and segments were lost: the Segment Map, Lake's journal and stripes, what operations reserve and the counts
of regions changed, and nothing else. -/
structure Unhomed (s t : State) : Prop where
  rest : t = { s with map := t.map, lake := t.lake, q := { s.q with ops := t.q.ops }, rt := { s.rt with cnt := t.rt.cnt } }
  ops : s.q.ops = [] → t.q.ops = []

namespace Unhomed

theorem refl (s : State) : s.Unhomed s := ⟨rfl, fun none => none⟩

theorem trans (a : s.Unhomed t) (b : t.Unhomed u) : s.Unhomed u := by
  refine ⟨?_, b.ops ∘ a.ops⟩
  have rest := b.rest
  rw [a.rest] at rest
  exact rest

theorem foldl {α : Type} {f : State → α → State} (hf : ∀ (t : State) a, t.Unhomed (f t a)) (l : List α) (s : State) : s.Unhomed (l.foldl f s) := by
  induction l generalizing s with
  | nil => exact .refl s
  | cons a l ih => exact (hf s a).trans (ih _)

end Unhomed

theorem commitSme_unhomed {r : RegionId} {seg : Nat} {e : Sme} : s.Unhomed (s.commitSme r seg e) := by
  rw [commitSme_rest]
  exact ⟨rfl, fun none => none⟩

theorem sealBack_unhomed {m : Move} : s.Unhomed (s.sealBack m) := by
  unfold State.sealBack
  split
  · split
    · refine ⟨rfl, fun none => ?_⟩
      simp only [none]
      rfl
    · exact .refl s
  · exact .refl s

theorem abortMove_unhomed {n : Nat} : s.Unhomed (s.abortMove n) := by
  unfold State.abortMove
  split
  · exact .refl s
  · extract_lets s1 e _ _ s2
    have ended : s.Unhomed s2 := sealBack_unhomed.trans ⟨rfl, fun none => none⟩
    split
    exacts [ended.trans commitSme_unhomed, ended]

theorem poisonSeg_unhomed {r : RegionId} {seg cause : Nat} : s.Unhomed (s.poisonSeg r seg cause) := by
  unfold State.poisonSeg
  extract_lets s1 e s2 s3
  have h1 : s.Unhomed s1 := by
    unfold s1 State.cancelMove
    split
    exacts [abortMove_unhomed, .refl s]
  have h2 : s1.Unhomed s2 := commitSme_unhomed
  have h3 : s2.Unhomed s3 := by
    unfold s3
    split
    · rw [release_rest]
      exact ⟨rfl, fun none => none⟩
    · exact .refl s2
  exact h1.trans (h2.trans (h3.trans ⟨rfl, fun none => none⟩))

/-! ### A lost window (R95) -/

/-- Whether a location lies in a window. -/
def inWindow (w : Nat) (l : Option Loc) : Bool := match l with
  | some (.tarn v _) => v == w
  | _ => false

/-- The segments with a home in a window are POISONED, the moves into it having ended; the window and the releases of its runs are gone. -/
def windowGone (s : State) (w : Nat) : State :=
  let s1 := (s.map.moves.filter (fun m => inWindow w (some m.2.dest))).foldl (fun t m => t.abortMove m.1) s
  let s2 := (s1.map.sme.filter (fun p => inWindow w p.2.home)).foldl (fun t p => t.poisonSeg (keyRegion p.1) (keySeg p.1) 4) s1
  { s2 with
    rt := { s2.rt with windows := s2.rt.windows.del w, tsets := s2.rt.tsets.map (fun (p : Nat × List Nat) => (p.1, p.2.filter (fun x => x != w))) }
    map := { s2.map with rel := s2.map.rel.filter (fun p => !inWindow w (some p.2.loc)) } }

/-- The homes that a window takes with it. -/
def windowHomes (s : State) (w : Nat) : Nat :=
  (((s.map.moves.filter (fun m => inWindow w (some m.2.dest))).foldl (fun t m => t.abortMove m.1) s).map.sme.filter
    (fun p => inWindow w p.2.home)).length

/-- TARN_LOST of a window. -/
def tarnLostPost (s : State) (w : Nat) (v : Window) : Post :=
  { ev := .tarnLost, okind := 2, obj := v.host.toNat, shost := v.host, p0 := BitVec.ofNat 64 w, p1 := BitVec.ofNat 64 (s.windowHomes w) }

theorem loseWindow_eq {w : Nat} {v : Window} (found : s.rt.windows.find w = some v) :
    s.loseWindow w = (s.windowGone w).post (s.tarnLostPost w v) := by
  unfold State.loseWindow
  rw [found]
  rfl

theorem windowGone_rest (s : State) (w : Nat) : ∃ t, s.Unhomed t ∧ s.windowGone w = { t with
    rt := { t.rt with windows := t.rt.windows.del w, tsets := t.rt.tsets.map (fun (p : Nat × List Nat) => (p.1, p.2.filter (fun x => x != w))) }
    map := { t.map with rel := t.map.rel.filter (fun p => !inWindow w (some p.2.loc)) } } :=
  ⟨_, .trans (.foldl (fun _ _ => abortMove_unhomed) _ _) (.foldl (fun _ _ => poisonSeg_unhomed) _ _), rfl⟩

theorem windowGone_later (s : State) (w : Nat) : s.Later true true (s.windowGone w) :=
  .trans (.foldl (fun _ _ => abortMove_later)) (.trans (.foldl (fun _ _ => poisonSeg_later)) (.same rfl rfl))

theorem windowGone_poisons {w sec : Nat} {r : RegionId} {seg : Nat} (small : seg < 2 ^ 34) (home : (s.sme r seg).home = some (.tarn w sec)) :
    (s.windowGone w).Lists (segKey r seg) (fun e => e.st = .poisoned) := by
  have stable (e : Sme) (moving : e.st = .transit) (there : e.home = some (.tarn w sec)) : e.returned.home = some (.tarn w sec) :=
    (Sme.home_returned moving).trans there
  have key : segKey (keyRegion (segKey r seg)) (keySeg (segKey r seg)) = segKey r seg := by
    rw [keyRegion_segKey r small, keySeg_segKey r small]
  obtain ⟨e, found, there⟩ := foldl_abortMove_lists (l := s.map.moves.filter (fun m => inWindow w (some m.2.dest))) stable (lists_of_home home)
  have lost : inWindow w e.home = true := by
    rw [there]
    exact beq_self_eq_true w
  exact foldl_poisonSeg_poisons (cause := 4) key (.inl (List.mem_map_of_mem (f := Prod.fst) (List.mem_filter.mpr ⟨Tbl.find_mem found, lost⟩)))

end State

end Sys2Proof.Machine
end

section
/-! ## What a post leaves of a function (07 R292, R297) -/

namespace Sys2Proof.Machine

namespace State

variable {s : State} {k : HostId}

/-- A vector that is held leaves the function's Bus Master Enable. -/
theorem signal_busMaster (h : HostId) (vec : Nat) : ((s.signal h vec).fnOf k).busMaster = (s.fnOf k).busMaster := by
  unfold State.signal
  extract_lets f
  split
  · split
    · rfl
    · by_cases same : k = h
      · rw [same, fnOf_setFn]
      · rw [fnOf_setFn_ne _ _ same]
  · rfl

theorem notify0_busMaster (h : HostId) (r : EvRec) : ((s.notify0 h r).fnOf k).busMaster = (s.fnOf k).busMaster := by
  unfold State.notify0
  extract_lets rd
  split
  · split
    exacts [rfl, signal_busMaster _ _]
  · rfl

theorem postRec_busMaster (p : Post) : ((s.postRec p).fnOf k).busMaster = (s.fnOf k).busMaster := by
  have all (l : List HostId) (u : State) : ((l.foldl (fun t h => t.notify0 h (p.toRec s.time)) u).fnOf k).busMaster = (u.fnOf k).busMaster := by
    induction l generalizing u with
    | nil => rfl
    | cons h l ih => exact (ih _).trans (notify0_busMaster _ _)
  unfold State.postRec
  extract_lets r full oldest old _ s1
  refine (all _ s1).trans ?_
  unfold s1
  split <;> rfl

theorem traceEvent_busMaster (r : EvRec) : ((s.traceEvent r).fnOf k).busMaster = (s.fnOf k).busMaster := by
  unfold State.traceEvent
  split <;> rfl

theorem post_busMaster (p : Post) : ((s.post p).fnOf k).busMaster = (s.fnOf k).busMaster := by
  unfold State.post State.traceCheck
  split
  · rfl
  · extract_lets s1 q
    split
    · rw [traceEvent_busMaster, postRec_busMaster, traceEvent_busMaster, postRec_busMaster]
    · rw [traceEvent_busMaster, postRec_busMaster]

end State

end Sys2Proof.Machine
end

section
/-! ## Bindings and the power states of functions (07 R275, R277, R292, R295, R297, R299, R300, R308) -/

namespace Sys2Proof.Machine

namespace State

variable {s t : State} {h : HostId}

theorem bindOf_setBind_ne {k : HostId} (s : State) (b : Bind) (other : k ≠ h) : (s.setBind h b).bindOf k = s.bindOf k :=
  Tbl.getD_set_ne _ _ _ _ (fun e => other (BitVec.eq_of_toNat_eq e))

theorem inReset_of_reach (reached : s.reach h = true) : s.inReset h = false := by
  simp only [State.reach, Bool.and_eq_true, Bool.not_eq_true'] at reached
  exact reached.2

/-! ### Bindings (R277, R308) -/

/-- A binding write that changes a binding in force resets its host, and then applies. -/
theorem rebind_fresh (c : s.Calm) (out : s.inReset h = false) (b : Bind) :
    (s.rebind h b).HostFresh h ∧ (s.rebind h b).bindOf h = b ∧ (s.rebind h b).mem = s.mem := by
  obtain ⟨ended, none⟩ := c.resetHost_cutOff (h := h) (row := 4)
  have run : s.rebind h b = ((s.resetHost h 4).returnHost h).setBind h b := if_neg (by rw [out]; exact Bool.false_ne_true)
  rw [run]
  generalize s.resetHost h 4 = t at ended none ⊢
  exact ⟨returnHost_fresh none, bindOf_setBind _ _ _, ended.mem_eq⟩

/-! ### D3cold (R299, R300) -/

/-- A function that enters D3cold resets its host, which waits for its return. -/
theorem d3cold_hostDown (c : s.Calm) (empty : s.dir.ent = []) (out : s.inReset h = false) (awake : s.sled.st ≠ .off) :
    (s.hostEvent h 5 false true).HostDown h ∧ s.Posted (s.hostEvent h 5 false true) 0x0504 2 h.toNat ∧ (s.hostEvent h 5 false true).mem = s.mem := by
  obtain ⟨ended, cut⟩ := c.resetHost_cutOff (h := h) (row := 5)
  have posted := c.resetHost_posted (h := h) (row := 5) empty awake
  have run : s.hostEvent h 5 false true =
      { s.resetHost h 5 with ports := { (s.resetHost h 5).ports with resets := (s.resetHost h 5).ports.resets ++ [⟨h, false, true, none⟩] } } := by
    rw [State.hostEvent, out]
    rfl
  rw [run]
  generalize s.resetHost h 5 = t at ended cut posted ⊢
  exact ⟨⟨cut, by simp [State.inReset]⟩, posted, ended.mem_eq⟩

/-- The last that a host's reset waited for has come back: step 6 follows. -/
theorem hostBack_of_last {waitsLink waitsCold link cold : Bool} (waits : s.ports.resets = [⟨h, waitsLink, waitsCold, none⟩])
    (back : (waitsLink && !link) = false ∧ (waitsCold && !cold) = false) : s.hostBack h link cold = s.returnHost h := by
  obtain ⟨linked, warm⟩ := back
  simp [State.hostBack, waits, linked, warm]

/-! ### D3hot and D0 (R295, R297) -/

/-- Vector 1 of a function in D3hot is held, with what it holds already. -/
theorem notice_of_d3 (low : (s.fnOf h).d3 = true) :
    s.notice h = if 1 ∈ (s.fnOf h).msixPend then s else s.setFn h { s.fnOf h with msixPend := (s.fnOf h).msixPend ++ [1] } := by
  simp [State.notice, State.signal, low]

theorem d3hotEntry_holds (reached : s.reach h = true) (full : (s.fnOf h).d3 = false) :
    ∃ t, exec (.d3hotEntry h) s = .next t ∧ (t.fnOf h).d3 = true ∧ 1 ∈ (t.fnOf h).msixPend ∧ t.out = s.out ∧
      t = { s with ports := { s.ports with fn := t.ports.fn } } := by
  have run : exec (.d3hotEntry h) s = .next ((s.setFn h { s.fnOf h with d3 := true }).notice h) :=
    congrArg Host.Outcome.next (if_neg (by simp [reached, full]))
  refine ⟨_, run, ?_⟩
  rw [notice_of_d3 (by rw [fnOf_setFn]), fnOf_setFn]
  split
  · rename_i held
    rw [fnOf_setFn]
    exact ⟨rfl, held, rfl, rfl⟩
  · rw [fnOf_setFn]
    exact ⟨rfl, List.mem_append_right _ List.mem_cons_self, rfl, rfl⟩

/-- A function in D0 sends its vectors as they come. -/
theorem foldl_signal_of_d0 (l : List Nat) (d0 : (s.fnOf h).d3 = false) :
    l.foldl (fun t v => t.signal h v) s = { s with out := (l.map (Output.msix h)).reverse ++ s.out } := by
  induction l generalizing s with
  | nil => rfl
  | cons v l ih =>
    rw [List.foldl_cons, signal_of_not_d3 d0, ih (s := s.send (.msix h v)) d0, List.map_cons, List.reverse_cons, List.append_assoc]
    rfl

theorem d0Entry_sends (reached : s.reach h = true) (low : (s.fnOf h).d3 = true) :
    ∃ t, exec (.d0Entry h) s = .next t ∧ (t.fnOf h).d3 = false ∧ (t.fnOf h).msixPend = [] ∧ (∀ v ∈ (s.fnOf h).msixPend, .msix h v ∈ t.out) ∧
      t = { s with out := t.out, ports := { s.ports with fn := t.ports.fn } } := by
  let f : Fn := { s.fnOf h with d3 := false, msixPend := [] }
  have up : (s.setFn h f).fnOf h = f := fnOf_setFn _ _ _
  have d0 : ((s.setFn h f).fnOf h).d3 = false := congrArg Fn.d3 up
  let sent : State := { s.setFn h f with out := ((s.fnOf h).msixPend.map (Output.msix h)).reverse ++ s.out }
  have told : ((s.fnOf h).msixPend.foldl (fun t v => t.signal h v) (s.setFn h f)).notice h = sent.send (.msix h 1) := by
    rw [foldl_signal_of_d0 _ d0]
    exact signal_of_not_d3 (s := sent) d0
  have run : exec (.d0Entry h) s = .next (sent.send (.msix h 1)) := congrArg Host.Outcome.next
    ((if_neg (by rw [inReset_of_reach reached]; exact Bool.false_ne_true)).trans ((if_neg (by simp [reached, low])).trans told))
  exact ⟨_, run, d0, congrArg Fn.msixPend up,
    fun v held => List.mem_cons_of_mem _ (List.mem_append_left _ (List.mem_reverse.mpr (List.mem_map_of_mem held))), rfl⟩

/-! ### A link that returns (R273, R300) -/

theorem leaveDetect_ports (s : State) (n : Nat) : ∃ b, s.leaveDetect n = { s with ports := { s.ports with bifur := b } } := by
  unfold State.leaveDetect
  extract_lets port rest
  split
  exacts [⟨_, rfl⟩, ⟨_, rfl⟩]

/-- A half that has trained holds what the training gave; data, bindings and resets are as they were. -/
theorem trained_trains {half : Nat} {train : Train} (good : train.ok = true) :
    (s.trained half train).halfReg half = { s.halfReg half with
      link := 2, width := train.width, speed := train.speed, flit := train.flit, hold := false, trained := true } ∧
    (s.trained half train).ports.bind = s.ports.bind ∧ (s.trained half train).ports.resets = s.ports.resets ∧ s.DataKept (s.trained half train) := by
  let x : Half := { s.halfReg half with
    link := 2, width := train.width, speed := train.speed, flit := train.flit, hold := false, trained := true }
  have run : s.trained half train = (s.setHalf half x).pgLit half := if_pos good
  have lit := pgLit_metered (s := s.setHalf half x) (half := half)
  rw [run]
  obtain ⟨mem, map, rt, dir, lake⟩ := lit.dataKept
  exact ⟨(lit.halfReg_eq half).trans (halfReg_setHalf _ _ _), by rw [lit.ports_eq]; rfl, by rw [lit.ports_eq]; rfl, ⟨mem, map, rt, dir, lake⟩⟩

/-- A good training of a half that waits in Polling brings the hosts behind it back. -/
theorem exec_linkReturn {half : Fin 16} {train : Train} (whole : half.val % 2 = 0) (good : train.ok = true) (up : s.up = true)
    (free : (s.halfReg half).hold = false) (polls : (s.halfReg half).link = 1) (pins : s.ports.perst = []) (works : s.fenced (.half half) = false) :
    exec (.linkReturn half train) s = .next ((((s.leaveDetect half).trained half train).hostsOn half).foldl (fun t h => t.hostBack h true true)
      ((s.leaveDetect half).trained half train)) := by
  obtain ⟨b, left⟩ := s.leaveDetect_ports half
  simp only [exec, execLinkReturn]
  rw [left]
  refine congrArg Host.Outcome.next ((if_neg ?_).trans (if_pos good))
  rintro (down | held | pin | missing | fenced | ⟨-, other, -⟩)
  · exact absurd (up.symm.trans down) nofun
  · exact absurd (free.symm.trans held) nofun
  · simp [pins] at pin
  · simp [State.halfExists, whole] at missing
  · exact absurd (works.symm.trans fenced) nofun
  · exact other polls

theorem linkReturn_returns {half : Fin 16} {train : Train} (whole : half.val % 2 = 0) (good : train.ok = true) (up : s.up = true)
    (free : (s.halfReg half).hold = false) (polls : (s.halfReg half).link = 1) (pins : s.ports.perst = []) (works : s.fenced (.half half) = false)
    (behind : s.hostsOn half = [h]) (waits : s.ports.resets = [⟨h, true, false, none⟩]) (cut : ∀ p ∈ s.rt.grants, p.2.host ≠ h) :
    ∃ t, exec (.linkReturn half train) s = .next t ∧ (t.halfReg half).link = 2 ∧ (t.halfReg half).width = train.width ∧
      (t.halfReg half).speed = train.speed ∧ t.HostFresh h ∧ s.DataKept t := by
  have run := exec_linkReturn whole good up free polls pins works
  obtain ⟨b, left⟩ := s.leaveDetect_ports half
  obtain ⟨reg, bind, resets, ⟨mem, map, rt, dir, lake⟩⟩ := trained_trains (s := s.leaveDetect half) (half := half) good
  rw [left] at run reg bind resets mem map rt dir lake
  have hosts := (hostsOn_of_bind (s := s) bind half).trans behind
  rw [hosts] at run
  refine ⟨_, run.trans (congrArg Host.Outcome.next (hostBack_of_last (resets.trans waits) ⟨rfl, rfl⟩)), congrArg Half.link reg, congrArg Half.width reg,
    congrArg Half.speed reg, returnHost_fresh (by rw [rt]; exact cut), ⟨mem, map, rt, dir, lake⟩⟩

/-! ### Bus Master Enable (R292; 02 R95) -/

theorem loseWindows_of_one {w : Nat} {v : Window} {c : Chk} {pick : W32} (one : s.rt.windows = [(w, v)]) (own : v.host = h) (reads : s.ports.np = []) :
    ∃ np, s.loseWindows h c pick = { s.loseWindow w with ports := { (s.loseWindow w).ports with np := np } } := by
  refine ⟨(s.loseWindow w).ports.np.filter (fun n => n.2.host != h), ?_⟩
  simp [State.loseWindows, one, own, reads]

theorem busMasterDisable_loses {w : Nat} {v : Window} (reached : s.reach h = true) (one : s.rt.windows = [(w, v)]) (own : v.host = h)
    (revokes : s.rt.revokes = []) (ops : s.q.ops = []) (reads : s.ports.np = []) (awake : s.sled.st ≠ .off) :
    ∃ t, exec (.busMasterDisable h) s = .next t ∧ t.rt.windows = [] ∧ (t.fnOf h).busMaster = false ∧
      (∀ (r : RegionId) (seg sec : Nat), seg < 2 ^ 34 → (s.sme r seg).home = some (.tarn w sec) → (t.sme r seg).st = .poisoned) ∧
      s.Posted t 0x0305 2 h.toNat ∧ t.mem = s.mem := by
  let s1 := s.setFn h { s.fnOf h with busMaster := false }
  let p := s1.tarnLostPost w v
  let s2 := s1.windowGone w
  have found : s1.rt.windows.find w = some v := by
    show s.rt.windows.find w = some v
    simp [one, Tbl.find]
  obtain ⟨np, lost⟩ := loseWindows_of_one (s := s1) (h := h) (c := .ok) (pick := 0) one own reads
  rw [loseWindow_eq found] at lost
  obtain ⟨u, unhomed, gone⟩ := s1.windowGone_rest w
  have told := s2.post_told p
  have later : s1.Later true true s2 := s1.windowGone_later w
  have rt : s2.rt.windows = [] ∧ s2.rt.revokes = [] := by
    unfold s2
    rw [gone, unhomed.rest]
    refine ⟨?_, revokes⟩
    show s.rt.windows.del w = []
    simp [one, Tbl.del]
  have fn : s2.ports = s1.ports ∧ s2.mem = s.mem := by
    unfold s2
    rw [gone, unhomed.rest]
    exact ⟨rfl, rfl⟩
  have idle : s2.q.ops = [] := by
    unfold s2
    rw [gone]
    exact unhomed.ops ops
  obtain ⟨windows, quiet⟩ := rt
  obtain ⟨ports, mem⟩ := fn
  let t : State := { s2.post p with ports := { (s2.post p).ports with np := np } }
  have rest : t.afterLines = t := by
    have none : t.rt.revokes = [] := (congrArg RtS.revokes told.rt_eq).trans quiet
    have still : t.q.ops = [] := (congrArg QS.ops told.q_eq).trans idle
    have revoked : t.runRevokes = t := by
      rw [State.runRevokes, none]
      rfl
    rw [State.afterLines, revoked, State.runOps, still]
    rfl
  have run : exec (.busMasterDisable h) s = .next t :=
    congrArg Host.Outcome.next ((if_pos reached).trans ((congrArg State.afterLines lost).trans rest))
  refine ⟨t, run, (congrArg RtS.windows told.rt_eq).trans windows, ?_, fun r seg sec small home => ?_, ?_, told.mem_eq.trans mem⟩
  · refine (post_busMaster (k := h) p).trans ?_
    rw [State.fnOf, ports]
    exact congrArg Fn.busMaster (fnOf_setFn s h _)
  · have poisoned : s2.Lists (segKey r seg) (fun e => e.st = .poisoned) := windowGone_poisons (s := s1) small home
    have same : t.map = s2.map := told.map_eq
    refine Lists.sme (P := fun e => e.st = .poisoned) ?_
    unfold Lists
    rw [same]
    exact poisoned
  · have few := v.host.isLt
    refine posted_of_post (t := s2) (p := p) (later.posted rfl) (later.time rfl) ((later.inService rfl).awake awake) (.none (n := 0) rfl rfl)
      (Nat.zero_le _) rfl rfl ?_
    show (BitVec.ofNat 32 v.host.toNat).toNat = h.toNat
    rw [own] at few ⊢
    rw [BitVec.toNat_ofNat]
    omega

end State

open State in
/-- Settles O21: bindings and resets by what a reset leaves where nothing else waits, power states by the vectors that a function holds or sends, and
the windows of a host by the loss of each home in them. -/
theorem bindingsAndFunctionPower : Obligations.BindingsAndFunctionPower := by
  unfold Obligations.BindingsAndFunctionPower
  refine ⟨fun s host value unbound => ?bind, fun s host value calm _ bound out ends => ?rebind, fun s host calm empty bound free out awake => ?d3cold,
    fun s host reached full => d3hotEntry_holds reached full, fun s host reached low => d0Entry_sends reached low, fun s host waits cut => ?back,
    fun s half train host whole good up free polls pins works behind waits cut =>
      linkReturn_returns whole good up free polls pins works behind waits cut,
    fun s host w v reached one own revokes ops reads awake => busMasterDisable_loses reached one own revokes ops reads awake⟩
  case bind =>
    have run : exec (.kdevBindWrite host value) s = .next (s.setBind host (s.bindOfWord host value)) :=
      congrArg Host.Outcome.next (if_neg (by simp [unbound]))
    refine ⟨_, run, ?_, ?_, ?_, fun h other => bindOf_setBind_ne s _ other, rfl⟩ <;> rw [bindOf_setBind] <;> rfl
  case rebind =>
    exact ⟨_, congrArg Host.Outcome.next (if_pos ⟨bound, .inl ends⟩), rebind_fresh calm out _⟩
  case d3cold =>
    exact ⟨_, congrArg Host.Outcome.next (if_pos ⟨bound, free⟩), d3cold_hostDown calm empty out awake⟩
  case back =>
    have run : exec (.d0Entry host) s = .next (s.hostBack host false true) :=
      congrArg Host.Outcome.next (if_pos (by simp [State.inReset, waits]))
    rw [hostBack_of_last waits ⟨rfl, rfl⟩] at run
    exact ⟨_, run, returnHost_fresh cut, ⟨rfl, rfl, rfl, rfl, rfl⟩⟩

end Sys2Proof.Machine
end

section
/-! ## Queues take doorbells, are enabled and drain (08 R319 to R322, R347, R350) -/

namespace Sys2Proof.Machine

/-- A KQ_CFG value without a reserved value sets each of its fields; INFLIGHT alone may keep its old value, outside a compute queue. -/
theorem Queue.configure_of_ok {c : W64} (ok : cfgOk c = true) (x : Queue) :
    x.configure c = { x with
      kind := c.extractLsb' 1 2, bwclass := c.extractLsb' 3 2, group := c.extractLsb' 5 4, sizeM1 := c.extractLsb' 9 12, irqEn := c.getLsbD 21
      runlim := c.extractLsb' 24 16
      inflight := if 1 ≤ (c.extractLsb' 40 7).toNat ∧ (c.extractLsb' 40 7).toNat ≤ 64 then c.extractLsb' 40 7 else x.inflight } := by
  simp only [cfgOk, Bool.and_eq_true, Bool.or_eq_true, bne_iff_ne, beq_iff_eq, Bool.not_eq_true', decide_eq_false_iff_not] at ok
  obtain ⟨⟨⟨kind, cls⟩, group⟩, -⟩ := ok
  have kind' : c.extractLsb' 1 2 ≠ 3 := fun e => kind (congrArg BitVec.toNat e)
  have cls' : c.extractLsb' 3 2 = 1 ∨ c.extractLsb' 3 2 = 2 := cls.imp BitVec.eq_of_toNat_eq BitVec.eq_of_toNat_eq
  simp only [Queue.configure, if_neg kind', if_pos cls', if_neg group]

namespace State

variable {s t u : State} {h : HostId} {q : QueueNo} {v : W32} {x y : Queue}

/-- One queue pair has been written, and nothing else. -/
structure QueueSet (s t : State) (h : HostId) (q : QueueNo) (x : Queue) : Prop where
  own : t.queue h q = x
  others : ∀ h2 q2, qKey h2 q2 ≠ qKey h q → t.queue h2 q2 = s.queue h2 q2
  rest : t = { s with q := { s.q with qs := t.q.qs } }

namespace QueueSet

theorem trans (a : s.QueueSet t h q x) (b : t.QueueSet u h q y) : s.QueueSet u h q y :=
  ⟨b.own, fun h2 q2 e => (b.others h2 q2 e).trans (a.others h2 q2 e), by rw [b.rest, a.rest]⟩

theorem dataKept (a : s.QueueSet t h q x) : s.DataKept t := by
  constructor <;> rw [a.rest]

theorem out (a : s.QueueSet t h q x) : t.out = s.out := by rw [a.rest]

theorem evt (a : s.QueueSet t h q x) : t.evt = s.evt := by rw [a.rest]

end QueueSet

theorem setQueue_queueSet (s : State) (h : HostId) (q : QueueNo) (x : Queue) : s.QueueSet (s.setQueue h q x) h q x :=
  ⟨queue_setQueue s h q x, fun _ _ e => Tbl.getD_set_ne _ _ _ _ e, rfl⟩

/-- With no completion held, there is nothing to write: the queue's HELD bit clears. -/
theorem flushCpl_of_none (n : Nat) (none : (s.queue h q).heldCpl = []) :
    s.flushCpl h q (n + 1) = s.setQueue h q { s.queue h q with heldBit := false } := by
  simp only [State.flushCpl, none]

/-- A queue is set and no completion is held for it: the second write clears its HELD bit. -/
theorem setQueue_flushCpl_of_none (none : x.heldCpl = []) :
    s.QueueSet ((s.setQueue h q x).flushCpl h q (x.heldCpl.length + 1)) h q { x with heldBit := false } := by
  rw [flushCpl_of_none _ (by rw [queue_setQueue]; exact none), queue_setQueue]
  exact (setQueue_queueSet s h q x).trans (setQueue_queueSet _ h q _)

/-- A queue goes into ERROR: its state and cause, with QUEUE_ERROR posted. -/
theorem queueError_stops (awake : s.sled.st ≠ .off) (e : BitVec 4) :
    (s.queueError h q e).queue h q = { s.queue h q with st := .error, err := e } ∧
      s.Posted (s.queueError h q e) 0x0601 3 (q.toNat + h.toNat * 2 ^ 16) ∧ s.DataKept (s.queueError h q e) := by
  have told := (s.setQueue h q { s.queue h q with st := .error, err := e }).post_told
    { ev := .queueError, okind := 3, obj := q.toNat + h.toNat * 2 ^ 16, shost := h, p0 := e.setWidth 64, p1 := 3 }
  refine ⟨?_, ?_, ⟨told.mem_eq, told.map_eq, told.rt_eq, told.dir_eq, told.lake_eq⟩⟩
  · rw [State.queueError, State.queue, told.q_eq]
    exact queue_setQueue s h q _
  · refine posted_of_post (t := s.setQueue h q _) (n := 0) (le_refl _) rfl awake (.refl _) (Nat.zero_le _) rfl rfl ?_
    have hq := q.isLt
    have hh := h.isLt
    exact Nat.mod_eq_of_lt (by simp only; omega)

/-! ### Doorbells (R319 to R322) -/

theorem tailBell_of_going (opened : s.barOpen h = true) (going : s.inPause = false) : s.tailBell h q v = s.tailWrite h q v := by
  simp only [State.tailBell, opened, going, Bool.true_eq_false, Bool.false_eq_true, if_false]

theorem tailBell_of_paused (opened : s.barOpen h = true) (paused : s.inPause = true) :
    s.tailBell h q v = s.setQueue h q { s.queue h q with keptTail := some v } := by
  simp only [State.tailBell, opened, paused, Bool.true_eq_false, if_true, if_false]

theorem headBell_of_going (opened : s.barOpen h = true) (going : s.inPause = false) : s.headBell h q v = s.headWrite h q v := by
  simp only [State.headBell, opened, going, Bool.true_eq_false, Bool.false_eq_true, if_false]

theorem headBell_of_paused (opened : s.barOpen h = true) (paused : s.inPause = true) :
    s.headBell h q v = s.setQueue h q { s.queue h q with keptHead := some v } := by
  simp only [State.headBell, opened, paused, Bool.true_eq_false, if_true, if_false]

theorem tailWrite_of_inside (runs : (s.queue h q).st = .running) (inside : v.toNat % 4096 < (s.queue h q).size) :
    s.tailWrite h q v = s.setQueue h q { s.queue h q with sqtail := v.toNat % 4096 } := by
  rw [State.tailWrite, if_neg (not_not.mpr runs), if_neg (Nat.not_le.mpr inside)]

theorem tailWrite_of_outside (runs : (s.queue h q).st = .running) (outside : (s.queue h q).size ≤ v.toNat % 4096) :
    s.tailWrite h q v = s.queueError h q 1 := by
  rw [State.tailWrite, if_neg (not_not.mpr runs), if_pos outside]

/-- A head write up to the completion tail frees its entries. -/
theorem headWrite_of_inside (runs : (s.queue h q).st = .running) (inside : v.toNat % 4096 < (s.queue h q).size)
    (behind : (v.toNat % 4096 + (s.queue h q).size - (s.queue h q).cqhead) % (s.queue h q).size ≤
      ((s.queue h q).cqtail + (s.queue h q).size - (s.queue h q).cqhead) % (s.queue h q).size) (none : (s.queue h q).heldCpl = []) :
    s.QueueSet (s.headWrite h q v) h q { s.queue h q with cqhead := v.toNat % 4096, heldBit := false } := by
  rw [State.headWrite, if_neg (fun c => c.1 runs), if_neg (not_or.mpr ⟨Nat.not_le.mpr inside, Nat.not_lt.mpr behind⟩)]
  exact setQueue_flushCpl_of_none (x := { s.queue h q with cqhead := v.toNat % 4096 }) none

theorem headWrite_of_outside (runs : (s.queue h q).st = .running) (outside : (s.queue h q).size ≤ v.toNat % 4096) :
    s.headWrite h q v = s.queueError h q 2 := by
  rw [State.headWrite, if_neg (fun c => c.1 runs), if_pos (.inl outside)]

/-! ### Enabling and draining (R347, R350) -/

theorem enableQueue_of_ok {c : W64} (opened : s.barOpen h = true) (up : s.up = true) (off : (s.queue h q).enable = false)
    (disabled : (s.queue h q).st = .disabled) (ok : cfgOk c = true) (sq : (s.queue h q).sqbase ≠ 0) (cq : (s.queue h q).cqbase ≠ 0)
    (few : s.enabledQueues < 8192) (none : (s.queue h q).heldCpl = []) :
    s.QueueSet (s.enableQueue h q c) h q { (s.queue h q).configure c with
      enable := true, st := .running, sqhead := 0, sqtail := 0, cqtail := 0, cqhead := 0, phase := true, heldBit := false, err := 0,
      ready := [], fetched := [] } := by
  have formed : ¬(cfgOk c = false ∨ (s.queue h q).sqbase = 0 ∨ (s.queue h q).cqbase = 0) := by
    rintro (reserved | zero | zero)
    exacts [Bool.false_ne_true (reserved.symm.trans ok), sq zero, cq zero]
  rw [State.enableQueue, if_neg (by simp [opened, up, off, disabled]), if_neg formed, if_neg (Nat.not_le.mpr few)]
  exact setQueue_flushCpl_of_none (x := { (s.queue h q).configure c with
      enable := true, st := .running, sqhead := 0, sqtail := 0, cqtail := 0, cqhead := 0, phase := true, heldBit := false, err := 0,
      ready := [], fetched := [] }) none

/-- A reserved value leaves the queue DISABLED, with BAD_CONFIG. -/
theorem enableQueue_of_reserved {c : W64} (opened : s.barOpen h = true) (up : s.up = true) (off : (s.queue h q).enable = false)
    (disabled : (s.queue h q).st = .disabled) (reserved : cfgOk c = false) :
    s.enableQueue h q c = s.setQueue h q { (s.queue h q).configure c with err := 3 } := by
  rw [State.enableQueue, if_neg (by simp [opened, up, off, disabled]), if_pos (.inl reserved)]

theorem disableQueue_of_enabled (opened : s.barOpen h = true) (on : (s.queue h q).enable = true) :
    s.disableQueue h q = s.setQueue h q { s.queue h q with enable := false, st := .draining } := by
  rw [State.disableQueue, if_neg (by simp [opened, on])]

theorem dropScheds_of_none (none : s.lamp.sch = []) : s.dropScheds h q = s := by
  rw [State.dropScheds, none]
  rfl

end State

open State in
/-- Settles O23: each doorbell and each change of a queue by what it writes of that queue, an ERROR by what its post leaves. -/
theorem queuesAreRungEnabledAndDrained : Obligations.QueuesAreRungEnabledAndDrained := by
  unfold Obligations.QueuesAreRungEnabledAndDrained
  refine ⟨fun s h q v opened going runs inside => ?tail, fun s h q v opened going runs outside awake => ?tailOut,
    fun s h q v opened paused => ?kept, fun s h q v opened going runs inside behind none => ?head,
    fun s h q v opened going runs outside awake => ?headOut, fun s h q cfg opened up off disabled ok sq cq few none => ?enable,
    fun s h q cfg opened up off disabled reserved => ?reserved, fun s h q opened on => ?disable, fun s h q drains idle none sch => ?drained⟩
  case tail =>
    have set := setQueue_queueSet s h q { s.queue h q with sqtail := v.toNat % 4096 }
    rw [← tailWrite_of_inside runs inside, ← tailBell_of_going opened going] at set
    exact ⟨_, rfl, set.own, set.others, set.dataKept, set.out, set.evt⟩
  case tailOut =>
    refine ⟨_, rfl, ?_⟩
    rw [tailBell_of_going opened going, tailWrite_of_outside runs outside]
    exact queueError_stops awake 1
  case kept =>
    refine ⟨⟨_, rfl, ?_⟩, ⟨_, rfl, ?_⟩⟩
    · rw [tailBell_of_paused opened paused]
      exact ⟨queue_setQueue .., (setQueue_queueSet ..).dataKept⟩
    · rw [headBell_of_paused opened paused]
      exact ⟨queue_setQueue .., (setQueue_queueSet ..).dataKept⟩
  case head =>
    have set := headWrite_of_inside runs inside behind none
    rw [← headBell_of_going opened going] at set
    exact ⟨_, rfl, set.own, set.others, set.dataKept, set.out, set.evt⟩
  case headOut =>
    refine ⟨_, rfl, ?_⟩
    rw [headBell_of_going opened going, headWrite_of_outside runs outside]
    exact queueError_stops awake 2
  case enable =>
    have set := enableQueue_of_ok opened up off disabled ok sq cq few none
    rw [Queue.configure_of_ok ok] at set
    exact ⟨_, rfl, set.own, set.others, set.dataKept, set.out⟩
  case reserved =>
    refine ⟨_, rfl, ?_⟩
    rw [enableQueue_of_reserved opened up off disabled reserved, queue_setQueue]
    exact ⟨off, disabled, rfl, (setQueue_queueSet ..).dataKept⟩
  case disable =>
    have set := setQueue_queueSet s h q { s.queue h q with enable := false, st := .draining }
    rw [← disableQueue_of_enabled opened on] at set
    exact ⟨_, rfl, set.own, set.others, set.dataKept, set.out, set.evt⟩
  case drained =>
    have set := setQueue_queueSet s h q { s.queue h q with st := .disabled, ready := [], fetched := [], heldBit := false }
    rw [← dropScheds_of_none (s := s.setQueue h q _) (h := h) (q := q) sch] at set
    exact ⟨_, congrArg Host.Outcome.next (if_pos ⟨drains, idle, .inl none⟩), set.own, set.others, set.dataKept⟩

end Sys2Proof.Machine
end

section
/-! ## A lamp word in the line of another (O33)

`State.lampStore` stores a lamp word as the write-back of a whole line, whose bytes outside the word are zero: `HReq.patch` heeds the mask of a partial
write alone. So the lamp words of one line do not all stand after arming, and the earlier one reads READY. -/

namespace Sys2Proof.Machine

namespace SharedLine

/-- SCHED.ARM with A = 0: schedule 0. -/
def word : W64 := BitVec.ofNat 64 (0xA1 + 1 * 2 ^ 13)

/-- A schedule program of host 0 at SCHED.ARM. -/
def prog : Prog := startProg 0 0 .schedule { cid := 7, irq := false, order := false, words := [word], args := [], h0 := 0 } 256

/-- A step of segment 0 of region 1 at beat 5, with its lamp word. -/
def step (lamp : Nat) : LStep :=
  { region := 1, seg := 0, nseg := 1, dbeat := 5, dus := 0, fb := 0, spring := false, drop := false, altreg := 0, altseg := 0, altnseg := 1,
    core := 0, lamp := lamp }

/-- Two steps, whose lamp words 0 and 1 lie in one line of region 1. -/
def sched : Sched := { loadedSched 0 [step 0, step 1] with lregion := 1, period := 8 }

/-- The schedule is loaded, and segment 0 of region 1, which host 0 may write, is in Pond. -/
def state : State :=
  { State.reset with
    sled := { State.reset.sled with st := .serve }
    rt := { State.reset.rt with
      ent := [(1, { REnt.freed with gen := 2, st := .active, owner := 0, ponly := true })]
      grants := [(0, { host := 0, region := 1, first := 0, count := 1, rw := true, dpa := 0 })] }
    map := { State.reset.map with sme := [(segKey 1 0, FarExtent.sme)] }
    q := { State.reset.q with progs := [(0, prog)] }
    lamp := { State.reset.lamp with sch := [(0, sched)] } }

theorem atArm : state.AtInstr 0 prog (fun v => isOp 0xA1 v && fModI v % 2 == 0) word 0 := by constructor <;> decide +kernel

theorem inPond : state.InPond 1 0 256 := by constructor <;> decide +kernel

/-- The store of lamp word 1 clears lamp word 0. -/
theorem arm_clears_first_lamp {t : State} (run : exec (.schedArm 0 .ok 0) state = .next t) :
    readBytes t.mem.bytes (pondByte 256 0 + 64) 8 = zeros 8 := by
  obtain rfl := Host.Outcome.next.inj run
  decide +kernel

end SharedLine

/-- Refutes O33: where the lamp words of two steps lie in one line, arming leaves the first one READY and not COLD. -/
theorem not_schedulesAreLoadedAndArmed : ¬ Obligations.SchedulesAreLoadedAndArmed := by
  unfold Obligations.SchedulesAreLoadedAndArmed
  rintro ⟨-, -, -, arm, -⟩
  obtain ⟨t, run, -, -, -, -, lamps, -⟩ := arm SharedLine.state 0 .ok 0 SharedLine.prog SharedLine.word 0 0 256 SharedLine.sched _
    SharedLine.atArm (by decide +kernel) (by decide +kernel) (by decide +kernel) rfl rfl (List.cons_ne_nil _ _) (by decide +kernel)
    (by decide +kernel) rfl rfl (by decide +kernel) (by decide +kernel) SharedLine.inPond (by decide +kernel) (by decide +kernel) (by decide +kernel)
    (by decide +kernel) (by decide +kernel) rfl
  have cold := lamps (SharedLine.step 0) List.mem_cons_self
  rw [show pondByte 256 0 + SharedLine.sched.loff % 4096 + 64 + 8 * (SharedLine.step 0).lamp = pondByte 256 0 + 64 from rfl,
    SharedLine.arm_clears_first_lamp run] at cold
  exact absurd cold (by decide)

end Sys2Proof.Machine
end

section
/-! ## Register writes through a BAR, and the trace registers (08 R319, R346; 14 R500; 18 R624 to R628; 19 R637 to R641) -/

namespace Sys2Proof.Machine

/-! ### Values of a piece (R638) -/

theorem length_toBytes (n v : Nat) : (toBytes n v).length = n := by
  induction n generalizing v with
  | zero => rfl
  | succ n ih => simp [toBytes, ih]

theorem toBytes_succ_ne_nil (n v : Nat) : toBytes (n + 1) v ≠ [] := List.cons_ne_nil _ _

theorem fromBytes_toBytes (n v : Nat) : fromBytes (toBytes n v) = v % 256 ^ n := by
  induction n generalizing v with
  | zero => simp [toBytes, fromBytes, Nat.mod_one]
  | succ n ih =>
    rw [toBytes, fromBytes, ih, BitVec.toNat_ofNat]
    show v % 256 + 256 * _ = _
    rw [Nat.pow_succ', Nat.mod_mul]

theorem fromBytes_toBytes_of_lt {n v : Nat} (small : v < 256 ^ n) : fromBytes (toBytes n v) = v := by
  rw [fromBytes_toBytes, Nat.mod_eq_of_lt small]

/-- The low half of a slot. -/
theorem pieceVal_low (v : W32) : pieceVal 0 (toBytes 4 v.toNat) = (v.setWidth 64, 0xFFFFFFFF#64) := by
  rw [pieceVal, fromBytes_toBytes_of_lt v.isLt, length_toBytes]
  refine Prod.ext (BitVec.eq_of_toNat_eq ?_) rfl
  simp

/-- The high half of a slot. -/
theorem pieceVal_high (v : W32) : pieceVal 4 (toBytes 4 v.toNat) = (v.setWidth 64 <<< 32, 0xFFFFFFFF00000000#64) := by
  rw [pieceVal, fromBytes_toBytes_of_lt v.isLt, length_toBytes]
  refine Prod.ext (BitVec.eq_of_toNat_eq ?_) rfl
  simp [Nat.shiftLeft_eq]

/-- A whole slot. -/
theorem pieceVal_whole (v : W64) : pieceVal 0 (toBytes 8 v.toNat) = (v, BitVec.allOnes 64) := by
  rw [pieceVal, fromBytes_toBytes_of_lt v.isLt, length_toBytes]
  exact Prod.ext (by simp) rfl

/-- Bytes that lie in one slot are one piece. -/
theorem pieces_of_one_slot {off : Nat} {b : List Byte} (some : b ≠ []) (fits : b.length ≤ 8 - off % 8) :
    pieces b.length off b = [(off - off % 8, off % 8, b)] := by
  obtain ⟨x, l, rfl⟩ := List.exists_cons_of_ne_nil some
  have done (n o : Nat) : pieces n o [] = [] := by cases n <;> rfl
  rw [List.length_cons, pieces, if_neg some]
  dsimp only
  rw [List.take_of_length_le fits, List.drop_of_length_le fits, done]

namespace State

variable {s : State} {h : HostId} {q : QueueNo} {bar : Bar} {off : Nat} {b : List Byte}

/-- A piece that acts on a slot of a BAR: its value and the bits it writes. -/
def slotWrite (s : State) (h : HostId) (bar : Bar) (a : Nat) (w : W64 × W64) : State :=
  match bar with
  | .bar0 => s.bar0Write h a w.1 w.2
  | .bar2 => s.bar2Write h a w.1 w.2
  | .bar4 => s.bar4Write h a w.1 w.2

theorem registerWrite_of_one_slot (opened : s.barOpen h = true) (some : b ≠ []) (fits : b.length ≤ 8 - off % 8)
    (acts : pieceActs (off % 8) b = true) :
    exec (.registerWrite h bar off b) s = .next (s.slotWrite h bar (off - off % 8) (pieceVal (off % 8) b)) := by
  show execRegisterWrite h bar off b s = _
  rw [execRegisterWrite, pieces_of_one_slot some fits, List.foldl_cons, List.foldl_nil, if_neg (by simp [opened, acts])]
  cases bar <;> rfl

/-- A write no piece of which changes the state leaves it as it is. -/
theorem registerWrite_of_idle (idle : ∀ p ∈ pieces b.length off b,
      s.barOpen h = false ∨ pieceActs p.2.1 p.2.2 = false ∨ s.slotWrite h bar p.1 (pieceVal p.2.1 p.2.2) = s) :
    exec (.registerWrite h bar off b) s = .next s := by
  show execRegisterWrite h bar off b s = _
  rw [execRegisterWrite]
  refine congrArg Host.Outcome.next ?_
  generalize pieces b.length off b = l at idle
  induction l with
  | nil => rfl
  | cons p l ih =>
    rw [List.foldl_cons]
    refine (congrArg (fun t => List.foldl _ t l) (?_ : _ = s)).trans (ih (fun x hx => idle x (List.mem_cons_of_mem _ hx)))
    split
    · rfl
    · rename_i live
      obtain ⟨opened, acts⟩ := not_or.mp live
      rcases idle p List.mem_cons_self with c | c | c
      exacts [absurd c opened, absurd c acts, by cases bar <;> exact c]

/-- A dword in the low half of a slot. -/
theorem registerWrite_low (opened : s.barOpen h = true) (aligned : off % 8 = 0) (v : W32) :
    exec (.registerWrite h bar off (toBytes 4 v.toNat)) s = .next (s.slotWrite h bar off (v.setWidth 64, 0xFFFFFFFF#64)) := by
  rw [registerWrite_of_one_slot opened (toBytes_succ_ne_nil 3 _) (by rw [length_toBytes]; omega) (by rw [aligned]; rfl), aligned, pieceVal_low]
  rfl

/-- A dword in the high half of a slot. -/
theorem registerWrite_high (opened : s.barOpen h = true) (aligned : off % 8 = 0) (v : W32) :
    exec (.registerWrite h bar (off + 4) (toBytes 4 v.toNat)) s =
      .next (s.slotWrite h bar off (v.setWidth 64 <<< 32, 0xFFFFFFFF00000000#64)) := by
  have half : (off + 4) % 8 = 4 := by omega
  rw [registerWrite_of_one_slot opened (toBytes_succ_ne_nil 3 _) (by rw [length_toBytes]; omega) (by rw [half]; rfl), half, pieceVal_high]
  rfl

/-- A qword in a whole slot. -/
theorem registerWrite_whole (opened : s.barOpen h = true) (aligned : off % 8 = 0) (v : W64) :
    exec (.registerWrite h bar off (toBytes 8 v.toNat)) s = .next (s.slotWrite h bar off (v, BitVec.allOnes 64)) := by
  rw [registerWrite_of_one_slot opened (toBytes_succ_ne_nil 7 _) (by rw [length_toBytes]; omega) (by rw [aligned]; rfl), aligned, pieceVal_whole]
  rfl

/-! ### The registers (R633, R634, R645) -/

theorem low32_setWidth (v : W32) : low32 (v.setWidth 64) = v := by
  simp [low32]

theorem low32_high (v : W32) : low32 ((v.setWidth 64 <<< 32) >>> 32) = v := by
  refine BitVec.eq_of_toNat_eq ?_
  have hv := v.isLt
  simp only [low32, BitVec.toNat_setWidth, BitVec.toNat_ushiftRight, BitVec.toNat_shiftLeft, Nat.shiftLeft_eq, Nat.shiftRight_eq_div_pow]
  omega

/-- The doorbell slot of a queue: its low half is KQ_SQTAIL, its high half KQ_CQHEAD. -/
theorem bar2Write_doorbells (v m : W64) : s.bar2Write h (q.toNat * 0x1000) v m =
    (let t := if m.getLsbD 0 then s.tailBell h q (low32 v) else s
    if m.getLsbD 32 then t.headBell h q (low32 (v >>> 32)) else t) := by
  have hq := q.isLt
  have own : BitVec.ofNat 6 (q.toNat * 0x1000 / 0x1000) = q := by
    rw [Nat.mul_div_cancel _ (by decide)]
    simp
  rw [State.bar2Write, own, if_neg (by omega), if_pos (Nat.mul_mod_left _ _)]

theorem bar2Write_tail (v : W32) : s.bar2Write h (q.toNat * 0x1000) (v.setWidth 64) 0xFFFFFFFF#64 = s.tailBell h q v := by
  rw [bar2Write_doorbells, low32_setWidth]
  rfl

theorem bar2Write_head (v : W32) : s.bar2Write h (q.toNat * 0x1000) (v.setWidth 64 <<< 32) 0xFFFFFFFF00000000#64 = s.headBell h q v := by
  rw [bar2Write_doorbells, low32_high]
  rfl

theorem bar0Write_ack (v : W32) : s.bar0Write h 0x9008 (v.setWidth 64) 0xFFFFFFFF#64 = s.ackWrite h v := by
  simp [State.bar0Write, low32_setWidth]

theorem bar0Write_ctl (v : W32) : s.bar0Write h 0x9018 (v.setWidth 64) 0xFFFFFFFF#64 = s.ctlWrite h v := by
  simp [State.bar0Write, low32_setWidth]

/-- The first slot of a queue frame is KQ_SQBASE. -/
theorem bar0Write_sqbase (off : (s.queue h q).enable = false) (v : W64) :
    s.bar0Write h (0x1000 + q.toNat * 0x40) v (BitVec.allOnes 64) = s.setQueue h q { s.queue h q with sqbase := v &&& ~~~0xFFF#64 } := by
  have hq := q.isLt
  have own : BitVec.ofNat 6 ((0x1000 + q.toNat * 0x40 - 0x1000) / 0x40) = q := by
    rw [Nat.add_sub_cancel_left, Nat.mul_div_cancel _ (by decide)]
    simp
  have slot : (0x1000 + q.toNat * 0x40) % 0x40 = 0 := by omega
  rw [State.bar0Write, if_neg (by omega), if_pos (by omega), own, slot]
  simp only [State.queueReg, off, Bool.false_eq_true, if_false, BitVec.not_allOnes, BitVec.and_zero, BitVec.and_allOnes, BitVec.zero_or]

/-! ### The trace unit (18 R624 to R628) -/

theorem traceCheck_of_same {old : State} (same : s.trc.stopped = old.trc.stopped) : s.traceCheck old = s :=
  if_neg (fun c => by rw [same, c.2] at c; exact Bool.false_ne_true c.1)

/-- A mark whose source is on reaches the trace unit, which takes or loses it without stopping. -/
theorem writeMark_of_going {m : Nat} (awake : s.sled.st ≠ .off) (on : s.trc.srcEn.getLsbD 0 = true)
    (same : (s.trc.put (s.trcRec 0 7 (BitVec.ofNat 48 (m % 2 ^ 48)))).stopped = s.trc.stopped) :
    s.writeMark m = { s with trc := s.trc.put (s.trcRec 0 7 (BitVec.ofNat 48 (m % 2 ^ 48))) } := by
  have wants : s.trc.wants 0 7 = true := on
  rw [State.writeMark, State.trace, if_neg (by simp [awake, wants])]
  exact traceCheck_of_same same


theorem writeMark_overwrites {m : Nat} (awake : s.sled.st ≠ .off) (on : s.trc.srcEn.getLsbD 0 = true) (going : s.trc.frozen = false)
    (running : s.trc.stopped = false) (wrap : s.trc.wrap = false) :
    s.writeMark m = { s with trc := s.trc.put (s.trcRec 0 7 (BitVec.ofNat 48 (m % 2 ^ 48))) } :=
  writeMark_of_going awake on (by simp [TrcS.put, going, running, wrap])

theorem writeMark_of_frozen {m : Nat} (awake : s.sled.st ≠ .off) (on : s.trc.srcEn.getLsbD 0 = true) (frozen : s.trc.frozen = true) :
    s.writeMark m = { s with trc := s.trc.lose } := by
  have lost (r : TRec) : s.trc.put r = s.trc.lose := if_pos (.inl frozen)
  rw [writeMark_of_going awake on (by rw [lost]; rfl), lost]

end State

open State in
/-- Settles O54: a write that lies in one slot by the value and the bits of its piece, the trace by what the unit takes or loses. -/
theorem registerWritesAndTheTrace : Obligations.RegisterWritesAndTheTrace := by
  unfold Obligations.RegisterWritesAndTheTrace
  refine ⟨fun s h q v opened => ⟨?tail, ?head, ?ack, ?ctl⟩, fun s h bar off b => ?byte,
    fun s h bar off bytes shut _ _ _ _ => registerWrite_of_idle (fun _ _ => .inl shut),
    fun s h off bytes other => registerWrite_of_idle (fun _ _ => .inr (.inr (if_neg (by simp [other])))),
    fun s h q v opened off => ?base, fun s awake alive => ?trace⟩
  case tail =>
    exact (registerWrite_low opened (by omega) v).trans (congrArg Host.Outcome.next (bar2Write_tail v))
  case head =>
    exact (registerWrite_high opened (by omega) v).trans (congrArg Host.Outcome.next (bar2Write_head v))
  case ack =>
    exact (registerWrite_low opened rfl v).trans (congrArg Host.Outcome.next (bar0Write_ack v))
  case ctl =>
    exact (registerWrite_low opened rfl v).trans (congrArg Host.Outcome.next (bar0Write_ctl v))
  case byte =>
    refine registerWrite_of_idle (fun p hp => .inr (.inl ?_))
    rw [pieces_of_one_slot (List.cons_ne_nil _ _) (by simp only [List.length_singleton]; omega), List.mem_singleton] at hp
    rw [hp]
    rfl
  case base =>
    refine ⟨_, registerWrite_whole opened (by omega) v, ?_⟩
    show (s.bar0Write _ _ _ _).queue h q = _ ∧ s.DataKept (s.bar0Write _ _ _ _)
    rw [bar0Write_sqbase off v]
    exact ⟨queue_setQueue .., (setQueue_queueSet ..).dataKept⟩
  case trace =>
    have lives : s.bootToVigil = true := by simp [State.bootToVigil, State.awake, awake, alive]
    refine ⟨⟨_, congrArg Host.Outcome.next (if_pos lives), rfl, rfl, rfl, rfl, rfl, rfl, rfl, rfl⟩,
      ⟨_, congrArg Host.Outcome.next (if_pos lives), rfl, rfl, rfl, rfl⟩, fun v on going running wrap => ?_, fun v on frozen => ?_⟩
    · have run : exec (.trcMarkWrite v) s = .next (s.writeMark (fld v 0 48)) := congrArg Host.Outcome.next (if_pos lives)
      rw [writeMark_overwrites awake on going running wrap] at run
      have taken : ¬(s.trc.frozen = true ∨ s.trc.stopped = true) := by simp [going, running]
      refine ⟨_, s.trcRec 0 7 (BitVec.ofNat 48 (fld v 0 48 % 2 ^ 48)), run, ?_, rfl, rfl, ?_, ?_, ?_, ⟨rfl, rfl, rfl, rfl, rfl⟩, ⟨rfl, rfl, rfl, rfl, rfl, rfl, rfl, rfl, rfl⟩⟩
      · rw [TrcS.put, if_neg taken]
        exact Tbl.find_put_same _ _ _
      · refine BitVec.eq_of_toNat_eq ?_
        simp [State.trcRec, fld]
      · rw [TrcS.put, if_neg taken]
      · rw [TrcS.put, if_neg taken]
    · have run : exec (.trcMarkWrite v) s = .next (s.writeMark (fld v 0 48)) := congrArg Host.Outcome.next (if_pos lives)
      rw [writeMark_of_frozen awake on frozen] at run
      exact ⟨_, run, rfl, rfl⟩

end Sys2Proof.Machine
end

section
/-! ## Lines of a segment that stands in Pond (02 R62, R72, R73; 03 R111)

A line of such a segment is read and written where it stands: the access changes the map, Pond's controllers and their queues, and what it writes. -/

namespace Sys2Proof.Machine

/-- A read gives the bytes it asks for, whatever memory lists. -/
theorem length_readBytes (m : List Host.Cell) (a n : Nat) : (readBytes m a n).length = n := by
  have sorted (m : List Host.Cell) (a n : Nat) : (readSorted n m a).length = n := by
    induction n generalizing m a with
    | zero => cases m <;> rfl
    | succ n ih =>
      cases m with
      | nil => simp [readSorted, ih]
      | cons c m =>
        rw [readSorted]
        split <;> simp [ih]
  exact sorted _ a n

/-- A patch without gaps replaces the bytes under it. -/
theorem patchBytes_map_some {old new : List Byte} (same : old.length = new.length) : patchBytes old (new.map some) = new := by
  induction old generalizing new with
  | nil => rw [List.eq_nil_of_length_eq_zero same.symm]; rfl
  | cons b old ih =>
    cases new with
    | nil => cases same
    | cons c new => exact congrArg (c :: ·) (ih (Nat.succ.inj same))

/-- A window in the first bytes of a tail. -/
theorem take_drop_take_drop {α : Type} (l : List α) {i k m n : Nat} (inside : k + m ≤ n) :
    ((((l.drop i).take n).drop k).take m) = (l.drop (i + k)).take m := by
  rw [List.drop_take, List.take_take, List.drop_drop, Nat.min_eq_left (by omega)]

namespace State

variable {s t u : State} {r : RegionId} {seg a : Nat} {c : Chk}

/-! ### Reads -/

theorem InPond.codec (pond : s.InPond r seg a) : (s.sme r seg).f.codec = 2 := by
  have good := pond.good
  simp only [State.malformed, Bool.or_eq_false_iff, Bool.not_eq_false', pond.src] at good
  obtain ⟨⟨⟨⟨⟨form, -⟩, -⟩, -⟩, -⟩, -⟩ := good
  simp only [formOk, Bool.and_eq_true, beq_iff_eq] at form
  exact form.1

theorem InPond.checkSme (pond : s.InPond r seg a) : s.checkSme r seg = s := by
  simp only [State.checkSme, pond.good, pond.home, pond.noImage, pond.live, Bool.false_eq_true, false_and, if_false]

theorem InPond.lineBytes (pond : s.InPond r seg a) (j : Nat) :
    s.lineBytes (s.sme r seg) (some (.near false a)) j = some (((s.readRun (.near false a) 16).drop (64 * j)).take 64) := by
  rw [State.lineBytes, pond.codec, pond.cs]
  rfl

theorem noteChk_placed {l : Loc} : s.Placed (s.noteChk l c) := by
  unfold State.noteChk
  split
  · unfold State.corrected
    split
    exacts [⟨rfl, rfl⟩, ⟨rfl, rfl⟩, .refl s]
  · exact .refl s

theorem dropImage_placed : s.Placed (s.dropImage r seg) := by
  unfold State.dropImage
  extract_lets e
  split
  · exact .refl s
  · exact commitSme_placed.trans ⟨by rw [release_rest], by rw [release_rest]⟩

theorem mend_placed {l : Loc} {pick : W32} : s.Placed (s.mend r seg l c pick) := by
  unfold State.mend
  extract_lets many e
  clear_value many
  split
  · refine .ite dropImage_placed (.ite ?_ (.refl s))
    split
    exacts [startMove_placed, .refl s]
  · exact .refl s

/-- A line whose sector check passes is read from its home. -/
theorem InPond.readLine (pond : s.InPond r seg a) (fine : chkFails c = false) (j : Nat) :
    ∃ t, s.Placed t ∧ s.readLine r seg j c = (t, .line (((s.readRun (.near false a) 16).drop (64 * j)).take 64)) := by
  refine ⟨((s.noteChk (.near false a) c).touch r seg).mend r seg (.near false a) c 0, (noteChk_placed.trans touch_placed).trans mend_placed, ?_⟩
  unfold State.readLine
  rw [pond.checkSme]
  simp only [pond.here, pond.opn, pond.noImage, pond.home, pond.live, fine, pond.lineBytes, Bool.false_eq_true, reduceCtorEq, if_false]

/-- A load of a line that no directory guards and no loss took. -/
theorem InPond.loadLine {line : Nat} {p : Option Nat} {served : List Nat} (pond : s.InPond r (line / 64) a) (own : s.Untracked r line)
    (fine : chkFails c = false) :
    ∃ t, s.Placed t ∧ s.loadLine p served r line c = (t, .bytes (((s.readRun (.near false a) 16).drop (64 * (line % 64))).take 64)) := by
  obtain ⟨t, placed, read⟩ := pond.readLine fine (line % 64)
  refine ⟨t, placed, ?_⟩
  have quiet : (if served.contains (lineKey r (BitVec.ofNat 40 line)) then (s, false) else s.curSnoop r (BitVec.ofNat 40 line)) = (s, false) := by
    rw [State.curSnoop, if_pos own.free]
    exact ite_self _
  simp only [State.loadLine, own.found, quiet, read, Bool.false_eq_true, if_false]

/-- Bytes within one segment in Pond are ready where the entry is even. -/
theorem InPond.dataReady {off n : Nat} (pond : s.InPond r (off / 4096) a) (even : (s.ent r).odd = false) (within : off % 4096 + n ≤ 4096) :
    s.dataReady r [(off, n)] = true := by
  have segs : ∀ g ∈ rangeSegsOf [(off, n)], g = off / 4096 := by
    intro g hg
    simp only [rangeSegsOf, List.flatMap_cons, List.flatMap_nil, List.append_nil] at hg
    split at hg
    · cases hg
    · obtain ⟨i, hi, rfl⟩ := List.mem_map.mp hg
      rw [List.mem_range] at hi
      omega
  simp only [State.dataReady, even, Bool.not_false, Bool.true_and, List.all_eq_true]
  intro g hg
  rw [segs g hg, pond.ready, pond.awake]
  rfl

end State

end Sys2Proof.Machine
end

section
/-! ## Descriptors that become programs, and programs that start (08 R318, R320, R323 to R327, R335, R338, R351; 10 R400, R402) -/

namespace Sys2Proof.Machine

/-- A queue whose next descriptor has been read. -/
def Queue.passed (x : Queue) : Queue := { x with sqhead := (x.sqhead + 1) % x.size, fetched := [] }

namespace State

variable {s t u : State} {h : HostId} {q : QueueNo} {d : Line} {words : List W64} {chk : Chk} {x : Prog} {p : Nat}

/-! ### What a completion leaves -/

theorem DataKept.trans (a : s.DataKept t) (b : t.DataKept u) : s.DataKept u :=
  ⟨b.mem.trans a.mem, b.map.trans a.map, b.rt.trans a.rt, b.dir.trans a.dir, b.lake.trans a.lake⟩

theorem deliver_dataKept {c : Cpl} : s.DataKept (s.deliver h q c) := by
  unfold State.deliver State.writeCpl
  extract_lets x last s1
  have sent : s.DataKept s1 := ⟨rfl, rfl, rfl, rfl, rfl⟩
  split
  · exact ⟨rfl, rfl, rfl, rfl, rfl⟩
  · split
    exacts [sent.trans (s1.signal_told h _).dataKept, sent]

/-- Writing a completion moves the completion tail, and its phase at the ring's end. -/
theorem queue_writeCpl (c : Cpl) : ∃ tail phase, (s.writeCpl h q c).queue h q = { s.queue h q with cqtail := tail, phase := phase } := by
  unfold State.writeCpl
  extract_lets x last s1
  have own : s1.queue h q = _ := queue_setQueue _ h q _
  split
  · rw [State.queue, signal_q]
    exact ⟨_, _, own⟩
  · exact ⟨_, _, own⟩

/-- A completion for a queue that has just been set, and whose ring takes it. -/
theorem QueueSet.deliver {y : Queue} (set : s.QueueSet t h q y) (room : y.full = false) (none : y.heldCpl = []) (takes : y.err ≠ 6) (c : Cpl) :
    .completion h q y.cqtail y.phase y.sqhead c ∈ (t.deliver h q c).out ∧
      (∃ tail phase, (t.deliver h q c).queue h q = { y with cqtail := tail, phase := phase }) ∧ s.DataKept (t.deliver h q c) := by
  have kept := set.dataKept.trans (deliver_dataKept (h := h) (q := q) (c := c))
  obtain rfl := set.own
  rw [deliver_of_canPost ⟨room, none, takes⟩] at kept ⊢
  exact ⟨writeCpl_sent h q c, queue_writeCpl c, kept⟩

theorem endProg_dir {status : Byte} {detail : W16} {info : W64} : (s.endProg p status detail info).dir = s.dir := by
  unfold State.endProg
  split
  · rfl
  · extract_lets s1 s2 s3
    have kicked : s2.dir = s.dir := by
      unfold s2
      split <;> rfl
    split
    exacts [kicked, deliver_dataKept.dir.trans kicked]

/-! ### Descriptors (R320, R323, R324) -/

/-- The queue runs and holds a descriptor that the sled has not read. -/
structure Fetching (s : State) (h : HostId) (q : QueueNo) : Prop where
  up : s.up = true
  runs : (s.queue h q).st = .running
  waits : (s.queue h q).sqhead ≠ (s.queue h q).sqtail

theorem Fetching.goes (f : s.Fetching h q) : ¬(s.up = false ∨ (s.queue h q).st ≠ .running ∨ (s.queue h q).sqhead = (s.queue h q).sqtail) := by
  simp [f.up, f.runs, f.waits]

/-- The sled is up, so it is awake. -/
theorem awake_of_up (up : s.up = true) : s.sled.st ≠ .off := by
  intro off
  simp [State.up, off] at up

theorem passDesc_queueSet (s : State) (h : HostId) (q : QueueNo) : s.QueueSet (s.passDesc h q) h q (s.queue h q).passed :=
  setQueue_queueSet s h q _

theorem readyDesc_queueSet (s : State) (h : HostId) (q : QueueNo) (r : Ready) :
    s.QueueSet (s.readyDesc h q r) h q { (s.queue h q).passed with ready := (s.queue h q).ready ++ [r] } := by
  have passed := passDesc_queueSet s h q
  rw [State.readyDesc]
  dsimp only
  rw [passed.own]
  exact passed.trans (setQueue_queueSet ..)

/-- A descriptor that ends with an error passes, and its completion is written. -/
theorem rejectDesc_completes {cid : W16} {irq : Bool} {e : Err1} (ready : s.CanPost h q) :
    .completion h q (s.queue h q).cqtail (s.queue h q).phase (((s.queue h q).sqhead + 1) % (s.queue h q).size)
        (descCpl cid irq e ((s.passDesc h q).infoOf e)) ∈ (s.rejectDesc h q cid irq e).out ∧
      ((s.rejectDesc h q cid irq e).queue h q).sqhead = ((s.queue h q).sqhead + 1) % (s.queue h q).size ∧
      ((s.rejectDesc h q cid irq e).queue h q).ready = (s.queue h q).ready ∧
      ((s.rejectDesc h q cid irq e).queue h q).st = (s.queue h q).st ∧ s.DataKept (s.rejectDesc h q cid irq e) := by
  have passed := passDesc_queueSet s h q
  have counted := passed.trans (setQueue_queueSet _ h q ((s.queue h q).passed.count e.status))
  obtain ⟨sent, ⟨tail, phase, after⟩, kept⟩ := counted.deliver ready.room ready.none ready.takes (descCpl cid irq e ((s.passDesc h q).infoOf e))
  rw [State.rejectDesc, passed.own, after]
  exact ⟨sent, rfl, rfl, rfl, kept⟩

/-! ### The words of a program in a region (R324) -/

/-- Words that lie in one line of a segment in Pond. -/
theorem InPond.fetchWords {r : RegionId} {off n a : Nat} {served : List Nat} (pond : s.InPond r (off / 64 / 64) a) (own : s.Untracked r (off / 64))
    (inside : off % 64 + 8 * n ≤ 64) (fine : chkFails chk = false) :
    ∃ t, s.Placed t ∧ s.fetchWords served r off n chk =
      (t, .bytes (((s.readRun (.near false a) 16).drop (64 * (off / 64 % 64) + off % 64)).take (8 * n))) := by
  obtain ⟨t, placed, load⟩ := pond.loadLine (p := none) (served := served) own fine
  refine ⟨t, placed, ?_⟩
  have fetch : s.fetchLine served r (off / 64) chk = s.loadLine none served r (off / 64) chk := by
    rw [State.fetchLine, load]
  have one : (off + 8 * n - 1) / 64 - off / 64 + 1 = 1 := by omega
  unfold State.fetchWords
  extract_lets first a'
  have whole : a' = (t, .bytes (((s.readRun (.near false a) 16).drop (64 * (off / 64 % 64))).take 64), .ok) := by
    simp only [a', first, one, List.range_one, List.foldl_cons, List.foldl_nil, Nat.add_zero, fetch, load, List.nil_append]
  rw [whole]
  dsimp only
  rw [take_drop_take_drop _ inside]

/-- A REGIONPTR descriptor whose words lie in one line of a segment in Pond. -/
theorem descriptorFetchDone_regionPtr {r : RegionId} {off n : Nat} (f : s.Fetching h q) (ok : descOk d = true)
    (form : ((descWord d 0).extractLsb' 16 2).toNat = 2) (count : ((descWord d 0).extractLsb' 32 16).toNat = n)
    (place : ((descWord d 1).extractLsb' 0 46).toNat = off) (region : (descWord d 1).extractLsb' 46 14 = r)
    (ready : s.dataReady r [(off, 8 * n)] = true) (may : s.access h r off (8 * n) false = none) {b : List Byte}
    (fetch : s.fetchWords (s.queue h q).fetched r off n chk = (t, .bytes b)) :
    exec (.descriptorFetchDone h q d words chk) s = .next (t.readyDesc h q {
      cid := (descWord d 0).extractLsb' 0 16, irq := (descWord d 0).getLsbD 24, order := (descWord d 0).getLsbD 25, words := wordsOf n b
      args := [descWord d 2, descWord d 3, descWord d 4, descWord d 5], h0 := descWord d 6 }) := by
  show execDescriptorFetchDone h q d words chk s = _
  unfold execDescriptorFetchDone
  subst count place region
  simp only [if_neg f.goes, ok, form, ready, may, fetch, Bool.true_eq_false, if_false]

/-- An INLINE or HOSTPTR descriptor becomes ready with the words of its own line, or of the host's memory. -/
theorem descriptorFetchDone_ownWords (f : s.Fetching h q) (ok : descOk d = true) (form : ((descWord d 0).extractLsb' 16 2).toNat < 2) :
    exec (.descriptorFetchDone h q d words chk) s = .next (s.readyDesc h q {
      cid := (descWord d 0).extractLsb' 0 16, irq := (descWord d 0).getLsbD 24, order := (descWord d 0).getLsbD 25
      words := (List.range ((descWord d 0).extractLsb' 32 16).toNat).map (fun i =>
        if ((descWord d 0).extractLsb' 16 2).toNat = 0 then descWord d (i + 1) else words.getD i 0)
      args := if ((descWord d 0).extractLsb' 16 2).toNat = 0 then [] else [descWord d 2, descWord d 3, descWord d 4, descWord d 5]
      h0 := if ((descWord d 0).extractLsb' 16 2).toNat = 0 then 0 else descWord d 6 }) := by
  show execDescriptorFetchDone h q d words chk s = _
  unfold execDescriptorFetchDone
  obtain inline | pointer : ((descWord d 0).extractLsb' 16 2).toNat = 0 ∨ ((descWord d 0).extractLsb' 16 2).toNat = 1 := by omega
  · simp only [if_neg f.goes, ok, inline, Bool.true_eq_false, if_false, if_true]
  · simp only [if_neg f.goes, ok, pointer, Bool.true_eq_false, if_false, Nat.one_ne_zero]

/-! ### Dispatch (R316 to R321; 10 R400, R402) -/

/-- With no segment, move or release on record, a core's scratch is free at once: only memory changes. -/
theorem clearScratch_of_empty {c : Nat} (sme : s.map.sme = []) (rel : s.map.rel = []) (moves : s.map.moves = []) :
    ∃ m, s.clearScratch c = ({ s with mem := m }, true) := by
  simp [State.clearScratch, State.oldestFirst, sme, rel, moves]

/-- A program that starts enters the machine under the next number and leaves the ready list. -/
theorem start_enters {k : QKind} {r : Ready} {l : List Ready} {core : Nat} (first : (s.queue h q).ready = r :: l) :
    (s.start h q k r core).prog s.q.progNo = some (startProg h q k r core) ∧
      (s.start h q k r core).queue h q = { s.queue h q with ready := l } ∧
      (∀ p, p ≠ s.q.progNo → (s.start h q k r core).prog p = s.prog p) ∧ s.DataKept (s.start h q k r core) := by
  refine ⟨Tbl.find_put_same _ _ _, ?_, fun p e => Tbl.find_put_ne _ _ e, ⟨rfl, rfl, rfl, rfl, rfl⟩⟩
  have left : (s.start h q k r core).queue h q = { s.queue h q with ready := (s.queue h q).ready.drop 1 } := queue_setQueue s h q _
  rw [left, first]
  rfl

/-- A ready program of a compute queue starts on the idle core that dispatch takes, once its scratch is free. -/
theorem programDispatch_compute {pick : W32} {r : Ready} {l : List Ready} {c : Nat} (first : (s.queue h q).ready = r :: l)
    (may : s.mayStart h q r = true) (kind : (s.queue h q).kind = 1) (cores : s.eligible h (s.queue h q).group.toNat ≠ [])
    (chosen : s.chooseCore (s.eligible h (s.queue h q).group.toNat) pick = some c) (cleared : s.clearScratch c = (t, true)) :
    exec (.programDispatch h q pick) s = .next (t.start h q .compute r c) := by
  show execProgramDispatch h q pick s = _
  unfold execProgramDispatch
  obtain ⟨core, others, listed⟩ := List.exists_cons_of_ne_nil cores
  rw [listed] at chosen
  simp only [first, may, kind, listed, chosen, cleared, Bool.true_eq_false, if_false, if_true]

theorem programDispatch_control {pick : W32} {r : Ready} {l : List Ready} (first : (s.queue h q).ready = r :: l)
    (may : s.mayStart h q r = true) (kind : (s.queue h q).kind = 0) :
    exec (.programDispatch h q pick) s = .next (s.start h q .control r (256 + s.controlLantern (chipletOfHalf (s.halfOf h)))) := by
  show execProgramDispatch h q pick s = _
  unfold execProgramDispatch
  simp only [first, may, kind, Bool.true_eq_false, if_false]
  rfl

theorem programDispatch_schedule {pick : W32} {r : Ready} {l : List Ready} (first : (s.queue h q).ready = r :: l)
    (may : s.mayStart h q r = true) (kind : (s.queue h q).kind = 2) :
    exec (.programDispatch h q pick) s = .next (s.start h q .schedule r (256 + s.lanternOf (hRegion r.h0))) := by
  show execProgramDispatch h q pick s = _
  unfold execProgramDispatch
  simp only [first, may, kind, Bool.true_eq_false, if_false]
  rfl

end State

open State in
/-- Settles O24: a descriptor by the queue it leaves, a program's start by what enters the machine, its end by its completion. -/
theorem descriptorsBecomePrograms : Obligations.DescriptorsBecomePrograms := by
  unfold Obligations.DescriptorsBecomePrograms
  refine ⟨fun s h q d words chk up runs waits ok form => ?ready,
    fun s h q d words chk off n a r up runs waits ok form count place region even may inside pond free found fine => ?region,
    fun s h q d words chk up runs waits bad room => ?malformed, fun s h q up runs waits => ?fetchFail,
    fun s h q awake on unset => ?postFail, fun s h q pick r l c first may kind cores chosen sme rel moves => ?compute,
    fun s h q pick r l first may kind => ?lantern, fun s p x running limit acts heard room => ?limit⟩
  case ready =>
    have set := readyDesc_queueSet s h q {
      cid := (descWord d 0).extractLsb' 0 16, irq := (descWord d 0).getLsbD 24, order := (descWord d 0).getLsbD 25
      words := (List.range ((descWord d 0).extractLsb' 32 16).toNat).map (fun i =>
        if ((descWord d 0).extractLsb' 16 2).toNat = 0 then descWord d (i + 1) else words.getD i 0)
      args := if ((descWord d 0).extractLsb' 16 2).toNat = 0 then [] else [descWord d 2, descWord d 3, descWord d 4, descWord d 5]
      h0 := if ((descWord d 0).extractLsb' 16 2).toNat = 0 then 0 else descWord d 6 }
    exact ⟨_, descriptorFetchDone_ownWords ⟨up, runs, waits⟩ ok form, set.own, set.others, set.dataKept, set.out⟩
  case region =>
    have here : s.InPond r (off / 4096) a := by rwa [Nat.div_div_eq_div_mul] at pond
    obtain ⟨t, placed, fetch⟩ := pond.fetchWords (served := (s.queue h q).fetched) ⟨free, found⟩ inside fine
    have set := readyDesc_queueSet t h q {
      cid := (descWord d 0).extractLsb' 0 16, irq := (descWord d 0).getLsbD 24, order := (descWord d 0).getLsbD 25
      words := wordsOf n (((s.readRun (.near false a) 16).drop (64 * (off / 64 % 64) + off % 64)).take (8 * n))
      args := [descWord d 2, descWord d 3, descWord d 4, descWord d 5], h0 := descWord d 6 }
    have same : t.queue h q = s.queue h q := by rw [placed.rest]; rfl
    rw [same] at set
    refine ⟨_, descriptorFetchDone_regionPtr ⟨up, runs, waits⟩ ok form count place region (here.dataReady even (by omega)) may fetch,
      set.dataKept.mem.trans placed.mem, set.out.trans (by rw [placed.rest]), by rw [set.own]; rfl, by rw [set.own]⟩
  case malformed =>
    obtain ⟨sent, head, ready, st, kept⟩ := rejectDesc_completes (cid := (descWord d 0).extractLsb' 0 16) (irq := (descWord d 0).getLsbD 24)
      (e := argErr dBadDesc) room
    have f : s.Fetching h q := ⟨up, runs, waits⟩
    exact ⟨_, congrArg Host.Outcome.next ((if_neg f.goes).trans (if_pos bad)), sent, head, ready, st.trans runs, kept⟩
  case fetchFail =>
    have f : s.Fetching h q := ⟨up, runs, waits⟩
    exact ⟨_, congrArg Host.Outcome.next (if_neg f.goes), queueError_stops (awake_of_up up) 5⟩
  case postFail =>
    exact ⟨_, congrArg Host.Outcome.next (if_neg (not_or.mpr ⟨on, unset⟩)), queueError_stops awake 6⟩
  case compute =>
    obtain ⟨m, cleared⟩ := clearScratch_of_empty (c := c) sme rel moves
    obtain ⟨enters, left, others, kept⟩ := start_enters (s := { s with mem := m }) (k := .compute) (core := c) first
    exact ⟨_, programDispatch_compute first may kind cores chosen cleared, enters, left, others, kept.rt, kept.dir, kept.lake⟩
  case lantern =>
    rcases kind with control | schedule
    · obtain ⟨enters, left, others, kept⟩ :=
        start_enters (k := .control) (core := 256 + s.controlLantern (chipletOfHalf (s.halfOf h))) first
      exact ⟨_, programDispatch_control first may control, by rw [enters, if_pos control], left, others, kept⟩
    · obtain ⟨enters, left, others, kept⟩ := start_enters (k := .schedule) (core := 256 + s.lanternOf (hRegion r.h0)) first
      exact ⟨_, programDispatch_schedule first may schedule, by rw [enters, if_neg (by rw [schedule]; decide)], left, others, kept⟩
  case limit =>
    have run : exec (.runLimitExpiry p) s = .next (s.endProg p eTimeout 4 0) := by
      show execRunLimitExpiry p s = _
      rcases acts with wait | wait <;> simp only [execRunLimitExpiry, running, limit, wait, if_false]
    have wound := endProg_woundDown (s := s) (p := p) (status := eTimeout) (detail := 4) (info := 0)
    exact ⟨_, run, endProg_endsWith running heard room, wound.mem, endProg_map, wound.rt, endProg_dir, wound.lamp⟩

end Sys2Proof.Machine
end

section
/-! ## Stores to a segment that stands in Pond (02 R72, R73) -/

namespace Sys2Proof.Machine

namespace State

variable {s t : State} {r : RegionId} {seg a : Nat}

theorem touchStore_placed : s.Placed (s.touchStore r seg) := by
  unfold State.touchStore
  extract_lets s1 e
  have looked : s.Placed s1 := looked_placed
  cases e.home with
  | none => exact looked.trans ⟨rfl, rfl⟩
  | some l => exact (looked.trans wakeSid_placed).trans ⟨rfl, rfl⟩

theorem noteChk_ok (s : State) (l : Loc) : s.noteChk l .ok = s := rfl

theorem mend_ok (s : State) (r : RegionId) (seg : Nat) (l : Loc) (pick : W32) : s.mend r seg l .ok pick = s := rfl

/-- No move holds a segment that stands in Pond. -/
theorem InPond.idle (pond : s.InPond r seg a) : s.promoting r seg = false := by rw [State.promoting, pond.still]

/-- A state whose memory holds other bytes from an address on, in Pond. -/
def withBytes (s : State) (a : Nat) (b : List Byte) : State := { s with mem := { s.mem with bytes := writeBytes s.mem.bytes a b } }

/-- Bytes stored to a segment in OPEN form replace those where it stands. -/
theorem InPond.storeSeg {off : Nat} {bytes : List Byte} {pick : W32} {past last : Bool} (pond : s.InPond r seg a) :
    ∃ t, (s.withBytes ((Loc.near false a).sector * 256 + off) bytes).Placed t ∧
      s.storeSeg r seg off (bytes.map some) .ok pick past last = (t, .done) := by
  have still : s.cancelMove r seg = s := by rw [State.cancelMove, pond.still]
  have own : (s.endTrial r seg).sme r seg = s.sme r seg := rfl
  have replaced : patchBytes (readBytes s.mem.bytes ((Loc.near false a).sector * 256 + off) (bytes.map some).length) (bytes.map some) = bytes :=
    patchBytes_map_some (by rw [length_readBytes, List.length_map])
  have ended : (s.withBytes ((Loc.near false a).sector * 256 + off) bytes).Placed
      ((s.endTrial r seg).withBytes ((Loc.near false a).sector * 256 + off) bytes) := ⟨rfl, rfl⟩
  refine ⟨_, ended.trans (touchStore_placed (r := r) (seg := seg)), ?_⟩
  unfold State.storeSeg
  simp only [pond.checkSme, pond.here, pond.opn, pond.idle, pond.live, still, own, pond.home, chkFails, noteChk_ok, mend_ok, Option.any_some,
    reduceCtorEq, Bool.false_eq_true, false_and, or_self, if_false, if_true]
  rw [show (s.endTrial r seg).mem = s.mem from rfl, replaced]
  rfl

end State

end Sys2Proof.Machine
end

section
/-! ## Commits (08 R334; 10 R398; 02 R72) -/

namespace Sys2Proof.Machine

/-- A store that lies in one line touches that line. -/
theorem PStore.lines_of_one_line {y : PStore} (filled : y.bytes ≠ []) (inside : y.off % 64 + y.bytes.length ≤ 64) :
    y.lines = [(y.region, y.off / 64)] := by
  have long : 0 < y.bytes.length := List.length_pos_iff.mpr filled
  have one : (y.off + y.bytes.length - 1) / 64 - y.off / 64 + 1 = 1 := by omega
  rw [PStore.lines, if_neg filled, one]
  rfl

theorem storeLines_of_one_line {y : PStore} (filled : y.bytes ≠ []) (inside : y.off % 64 + y.bytes.length ≤ 64) :
    storeLines [y] = [(y.region, y.off / 64)] := by
  simp [storeLines, PStore.lines_of_one_line filled inside]

/-- A store that lies in one line is all in it. -/
theorem PStore.inLine_of_one_line {y : PStore} (inside : y.off % 64 + y.bytes.length ≤ 64) : y.inLine (y.off / 64) = (y.off % 64, y.bytes) := by
  have lo : max (y.off / 64 * 64) y.off = y.off := by omega
  have hi : min (y.off / 64 * 64 + 64) (y.off + y.bytes.length) = y.off + y.bytes.length := by omega
  have at0 : y.off - y.off / 64 * 64 = y.off % 64 := by omega
  simp only [PStore.inLine, PStore.within, lo, hi, at0, Nat.sub_self, List.drop_zero, Nat.add_sub_cancel_left, List.take_length]

namespace State

variable {s t : State} {p : Nat} {x : Prog} {c : Chk} {pick : W32} {y : PStore} {a : Nat}

/-- A store of the log whose bytes lie in one line of a segment that stands in Pond, which no directory guards (08 R334; 02 R72). -/
structure OneLine (s : State) (y : PStore) (a : Nat) : Prop where
  plain : y.add = none
  filled : y.bytes ≠ []
  inside : y.off % 64 + y.bytes.length ≤ 64
  free : (s.ent y.region).tracked = false
  pond : s.InPond y.region (y.off / 64 / 64) a

/-- The line of the store is written, and what was lost of it is no longer. -/
theorem OneLine.commitLine {h : HostId} (o : s.OneLine y a) :
    ∃ t, (s.withBytes (pondByte a (y.off / 64 % 64) + y.off % 64) y.bytes).Placed t ∧
      s.commitLine y h (y.off / 64) pick = t.endLoss y.region (BitVec.ofNat 40 (y.off / 64)) := by
  obtain ⟨t, placed, store⟩ := o.pond.storeSeg (off := y.off / 64 % 64 * 64 + y.off % 64) (bytes := y.bytes) (pick := pick) (past := true)
    (last := true)
  have free : (t.ent y.region).tracked = false := by
    rw [State.ent, placed.rest]
    exact o.free
  rw [← Nat.add_assoc] at placed
  refine ⟨t, placed, ?_⟩
  unfold State.commitLine
  simp only [PStore.inLine_of_one_line o.inside, o.plain, store, free, Bool.false_eq_true, if_false]

/-- A commit that nothing holds up writes its stores, and the program goes on. -/
theorem finishCommit_of_clear {after : AfterCommit} (running : s.prog p = some x) (waits : x.wait = .commit after)
    (ready : s.commitHeld x = false) (may : s.commitErr x = none) (quiet : s.commitBusy x = false) (fine : chkFails c = false)
    (asked : s.commitSnoops x.stores = s) (here : s.commitMisses p x.stores = (s, false)) (opened : s.commitOpens x pick = (s, false)) :
    s.finishCommit p c pick = (s.commitStores x 0).afterCommit p after := by
  unfold State.finishCommit
  simp only [running, waits, ready, may, quiet, fine, asked, here, opened, Bool.false_eq_true, false_and, if_false]

theorem finishCommit_of_err {after : AfterCommit} {e : Err1} (running : s.prog p = some x) (waits : x.wait = .commit after)
    (ready : s.commitHeld x = false) (fails : s.commitErr x = some e) : s.finishCommit p c pick = s.failProg p e := by
  unfold State.finishCommit
  simp only [running, waits, ready, fails, Bool.false_eq_true, if_false]

/-- A commit of one store that lies in one line. -/
theorem OneLine.finishCommit {after : AfterCommit} (o : s.OneLine y a) (running : s.prog p = some x) (waits : x.wait = .commit after)
    (sole : x.stores = [y]) (may : s.access x.host y.region y.off y.bytes.length true = none)
    (quiet : s.snoopsOf y.region (BitVec.ofNat 40 (y.off / 64)) = []) (even : (s.ent y.region).odd = false) (fine : chkFails c = false) :
    s.finishCommit p c pick = (s.commitLine y x.host (y.off / 64) 0).afterCommit p after := by
  have inside := o.inside
  have lines := storeLines_of_one_line o.filled o.inside
  have ready : s.dataReady y.region [(y.off, y.bytes.length)] = true :=
    InPond.dataReady (by rw [← Nat.div_div_eq_div_mul _ 64 64]; exact o.pond) even (by omega)
  have near : s.mustWait y.region (y.off / 64 / 64) = false := by
    simp [State.mustWait, o.pond.here, o.pond.idle, o.pond.home, Loc.isNear]
  have opened : s.unopened x = [] := by
    simp [State.unopened, sole, lines, o.pond.opn]
  rw [finishCommit_of_clear running waits (by simp [State.commitHeld, sole, ready]) (by simp [State.commitErr, sole, may, o.plain])
    (by simp [State.commitBusy, sole, lines, quiet]) fine (by simp [State.commitSnoops, sole, lines, o.free])
    (by simp [State.commitMisses, sole, lines, near]) (by simp [State.commitOpens, opened]),
    State.commitStores, sole]
  simp [PStore.lines_of_one_line o.filled o.inside]

theorem afterCommit_next (running : s.prog p = some x) (free : x.cancel = none) :
    (s.afterCommit p .next).prog p = some (x.onward { x with stores := [], log := [], lastSt := 0, holdAt := none }) ∧
      s.afterCommit p .next = { s with q := (s.afterCommit p .next).q } := by
  have e : s.afterCommit p .next = (s.setProg p { x with stores := [], log := [], wait := .run, holdAt := none }).okOn p (fun y => y) := by
    rw [State.afterCommit, running]
  have on := goOn_of_running (f := fun y => { y with lastSt := 0 }) (prog_setProg s p { x with stores := [], log := [], wait := .run, holdAt := none })
    free
  rw [e, State.okOn, on]
  exact ⟨prog_setProg .., rfl⟩

end State

open State in
/-- Settles O28: a commit of one line by the store that it makes, one that fails by its program's end, a stream that falls idle by its feeder. -/
theorem commitsWriteThePendingBytes : Obligations.CommitsWriteThePendingBytes := by
  unfold Obligations.CommitsWriteThePendingBytes
  refine ⟨fun s p chk pick x r off a bytes rd running waits free sole filled inside may untracked quiet even pond fine => ?write,
    fun s p chk pick x after y l e running waits stores fails heard room ready => ?fail, fun s p region x running => ?idle⟩
  case write =>
    have o : s.OneLine ⟨r, off, bytes, none, rd⟩ a := ⟨rfl, filled, inside, untracked, by rwa [Nat.div_div_eq_div_mul]⟩
    obtain ⟨t, placed, line⟩ := o.commitLine (h := x.host) (pick := 0)
    have run : exec (.commitWriteDone p chk pick) s = .next ((t.endLoss r (BitVec.ofNat 40 (off / 64))).afterCommit p .next) :=
      congrArg Host.Outcome.next ((o.finishCommit running waits sole may quiet even fine).trans (congrArg (State.afterCommit · p .next) line))
    have still : (t.endLoss r (BitVec.ofNat 40 (off / 64))).prog p = some x := by
      rw [placed.rest]
      exact running
    obtain ⟨goes, rest⟩ := afterCommit_next still free
    have bytes' : ((t.endLoss r (BitVec.ofNat 40 (off / 64))).afterCommit p .next).mem = (s.withBytes (pondByte a (off / 64 % 64) + off % 64) bytes).mem := by
      rw [rest]
      exact placed.mem
    refine ⟨_, run, by rw [bytes']; rfl, fun z out => ?_, goes, ?_, ?_⟩
    · rw [bytes']
      exact readByte_writeBytes_out _ _ _ _ out
    · rw [rest, placed.rest]
      rfl
    · rw [rest, placed.rest]
      rfl
  case fail =>
    have held : s.commitHeld x = false := by
      simpa [State.commitHeld] using ready
    have err : s.commitErr x = some e := by
      simp only [State.commitErr, stores, List.findSome?_cons, fails]
    have run : exec (.commitWriteDone p chk pick) s = .next (s.failProg p e) := congrArg Host.Outcome.next (finishCommit_of_err running waits held err)
    exact ⟨_, run, endProg_endsWith running heard room, endProg_woundDown.mem, endProg_map⟩
  case idle =>
    refine ⟨_, rfl, ?_, rfl⟩
    have listed : s.q.progs.find p = some x := running
    show (s.q.progs.upd p _).find p = _
    rw [Tbl.find_upd, if_pos rfl, listed]
    rfl

end Sys2Proof.Machine
end

section
/-! ## Programs at an instruction: what runs, what is refused, what is passed over (08 R327, R333, R335) -/

namespace Sys2Proof.Machine

namespace State

variable {s : State} {p : Nat} {x : Prog} {sel : W64 → Bool} {w e : W64}

theorem AtInstr.word (here : s.AtInstr p x sel w e) : s.AtWord p x sel w e := ⟨here.prog, here.run, here.cur, here.free⟩

section
variable {check : Prog → W64 → W64 → Option W16} {f : Prog → W64 → W64 → State}

theorem AtWord.instr (here : s.AtWord p x sel w e) (taken : (x.pred w).getLsbD 0 = true) (formed : check x w e = none) :
    s.instr p sel check f = f x w e := by
  simp only [State.instr, here.prog, here.run, here.cur, formed, taken, if_true, Bool.true_eq_false, if_false]

theorem AtInstr.instr (here : s.AtInstr p x sel w e) (formed : check x w e = none) : s.instr p sel check f = f x w e :=
  here.word.instr here.taken formed

theorem AtWord.instr_malformed {d : W16} (here : s.AtWord p x sel w e) (bad : check x w e = some d) :
    s.instr p sel check f = s.failProg p (argErr d) := by
  simp only [State.instr, here.prog, here.run, here.cur, bad, Bool.true_eq_false, if_false]

theorem AtWord.instr_untaken (here : s.AtWord p x sel w e) (formed : check x w e = none) (off : (x.pred w).getLsbD 0 = false) :
    s.instr p sel check f = s.setProg p (x.onward x) := by
  simp only [State.instr, here.prog, here.run, here.cur, formed, off, Bool.true_eq_false, Bool.false_eq_true, if_false]
  exact goOn_of_running here.prog here.free

end

section
variable {check : Prog → W64 → Option W16} {f : Prog → W64 → Prog}

/-- A compute instruction whose fields are well formed changes its program and no more. -/
theorem AtWord.vinstr (here : s.AtWord p x sel w e) (formed : check x w = none) : s.vinstr p sel check f = s.setProg p (x.onward (f x w)) := by
  simp only [State.vinstr, here.prog, here.run, here.cur, formed, Bool.true_eq_false, if_false]
  exact goOn_of_running here.prog here.free

end

theorem only_of_onlyBits {used : List (Nat × Nat)} (h : onlyBits w used = true) : only used w = none := if_pos h

theorem okOn_of_running {f : Prog → Prog} (running : s.prog p = some x) (free : x.cancel = none) :
    s.okOn p f = s.setProg p (x.onward { f x with lastSt := 0 }) := goOn_of_running running free

/-- An instruction that completes with OK and writes nothing. -/
theorem okOn_completes (running : s.prog p = some x) (free : x.cancel = none) : s.okOn p (fun y => y) = s.setProg p (x.completed 0 0) :=
  okOn_of_running running free

theorem failProg_endsWith {er : Err1} (running : s.prog p = some x) (heard : x.mute = false) (ready : s.CanPost x.host x.q) :
    s.EndsWith (s.failProg p er) p x er.status er.detail (s.infoOf er) := endProg_endsWith running heard ready

/-- A malformed word ends its program with E_ARG and the detail that its check found. -/
theorem AtWord.endsWith_eArg {d : W16} (here : s.AtWord p x sel w e) (heard : x.mute = false) (ready : s.CanPost x.host x.q) :
    s.EndsWith (s.failProg p (argErr d)) p x eArg d 0 := failProg_endsWith here.prog heard ready

end State

end Sys2Proof.Machine
end

section
/-! ## Flow instructions (09 R364; 08 R333, R334) -/

namespace Sys2Proof.Machine

/-- A program whose pending stores have been written: its log is empty. -/
def Prog.cleared (x : Prog) : Prog := { x with stores := [], log := [], wait := .run, holdAt := none }

namespace State

variable {s : State} {p : Nat} {x : Prog} {w e : W64}

/-! ### Targets -/

theorem jump_of_starts {n : Nat} {f : Prog → Prog} (lands : (starts x.words).getD n false = true) :
    s.jump p x n f = s.setProg p { f x with pc := n, served := [] } := by
  rw [State.jump, if_neg, Int.toNat_natCast]
  rintro (below | elsewhere)
  · omega
  · rw [Int.toNat_natCast, lands] at elsewhere
    cases elsewhere

theorem jump_of_not_starts {n : Nat} {f : Prog → Prog} (astray : (starts x.words).getD n false = false) :
    s.jump p x n f = s.failProg p (argErr dBadTarget) := if_pos (.inr astray)

/-! ### Commit points of programs without pending stores (08 R334) -/

theorem commitPoint_of_clean {a : AfterCommit} (running : s.prog p = some x) (clean : x.stores = []) : s.commitPoint p a = s.afterCommit p a := by
  simp only [State.commitPoint, running, clean, if_true]

@[simp] theorem setProg_setProg (s : State) (p : Nat) (x y : Prog) : (s.setProg p x).setProg p y = s.setProg p y := by
  simp only [State.setProg, Tbl.put_put]

theorem afterCommit_next_eq (running : s.prog p = some x) (free : x.cancel = none) :
    s.afterCommit p .next = s.setProg p (x.onward { x.cleared with lastSt := 0 }) := by
  have goes := okOn_of_running (x := x.cleared) (f := fun y => y) (prog_setProg s p x.cleared) free
  rw [setProg_setProg] at goes
  rw [State.afterCommit, running]
  exact goes

/-- Where every prefetch of the program is placed or abandoned, FENCE PF waits for none. -/
theorem afterCommit_nextPf_eq (running : s.prog p = some x) (free : x.cancel = none) (placed : ∀ m ∈ x.pf, s.map.moves.find m = none) :
    s.afterCommit p .nextPf = s.setProg p (x.onward { x.cleared with pf := [], lastSt := 0 }) := by
  have goes := okOn_of_running (x := x.cleared) (f := fun y => { y with pf := [] }) (prog_setProg s p x.cleared) free
  rw [setProg_setProg] at goes
  have idle : (s.setProg p x.cleared).prefetching x = false := by
    simpa [State.prefetching, Tbl.has] using placed
  simp only [State.afterCommit, running]
  exact (if_neg (by rw [Bool.not_eq_true]; exact idle)).trans goes

theorem commitSnoops_of_untracked {l : List PStore} (free : ∀ y ∈ l, (s.ent y.region).tracked = false) : s.commitSnoops l = s := by
  have own : ∀ z ∈ storeLines l, (s.ent z.1).tracked = false := by
    intro z hz
    simp only [storeLines, List.mem_dedup, List.mem_flatMap] at hz
    obtain ⟨y, hy, hz⟩ := hz
    unfold PStore.lines at hz
    split at hz
    · cases hz
    · obtain ⟨i, -, rfl⟩ := List.mem_map.mp hz
      exact free y hy
  unfold State.commitSnoops
  generalize storeLines l = lines at own
  induction lines with
  | nil => rfl
  | cons z lines ih =>
    rw [List.foldl_cons, if_pos (own z List.mem_cons_self)]
    exact ih (fun y hy => own y (List.mem_cons_of_mem _ hy))

/-- HALT without pending stores ends its program at once. -/
theorem afterCommit_ends (running : s.prog p = some x) :
    s.afterCommit p .ends = (s.setProg p x.cleared).endProg p (if x.fbcnt = 0 then stOk else eFallback) 0 0 := by
  rw [State.afterCommit, running]
  rfl

end State

open State in
/-- Settles O25: a branch by where its target lands, a commit point by what is pending. -/
theorem flowInstructionsMoveThePc : Obligations.FlowInstructionsMoveThePc := by
  unfold Obligations.FlowInstructionsMoveThePc
  refine ⟨fun s p x w e n here form lands => ?br, fun s p x w e here fields ind astray heard room => ?badTarget,
    fun s p x w e here fields => ?loop, fun s p x w e here fields placed => ?fence,
    fun s p x w e running run cur taken fields pending free => ?fenceStores, fun s p x w e here fields heard room => ?halt⟩
  case br =>
    refine congrArg Host.Outcome.next ?_
    rcases form with ⟨ind, fields, target⟩ | ⟨direct, fields, target⟩
    · refine (here.instr (only_of_onlyBits (by rwa [if_pos ind]))).trans ?_
      simp only [ind, target, beq_self_eq_true, if_true]
      exact jump_of_starts lands
    · refine (here.instr (only_of_onlyBits (by rwa [if_neg (by omega)]))).trans ?_
      simp only [direct, Nat.reduceBEq, Bool.false_eq_true, if_false, target]
      exact jump_of_starts lands
  case badTarget =>
    have run : exec (.br p) s = .next (s.failProg p (argErr dBadTarget)) := by
      refine congrArg Host.Outcome.next ((here.instr (only_of_onlyBits (by rwa [if_pos ind]))).trans ?_)
      simp only [ind, beq_self_eq_true, if_true]
      exact jump_of_not_starts astray
    exact ⟨_, run, here.word.endsWith_eArg heard room⟩
  case loop =>
    refine ⟨fun zero => congrArg Host.Outcome.next ((here.instr (only_of_onlyBits fields)).trans ?_),
      fun one => congrArg Host.Outcome.next ((here.instr (only_of_onlyBits fields)).trans ?_),
      fun n more target lands => congrArg Host.Outcome.next ((here.instr (only_of_onlyBits fields)).trans ?_)⟩
    · exact (if_pos zero).trans (goOn_of_running here.prog here.free)
    · exact (if_neg (by rw [one]; decide)).trans ((if_pos one).trans (goOn_of_running here.prog here.free))
    · have nonzero : x.gr (fD w) ≠ 0 := fun same => absurd more (by rw [same]; decide)
      have notOne : x.gr (fD w) ≠ 1 := fun same => absurd more (by rw [same]; decide)
      exact (if_neg nonzero).trans ((if_neg notOne).trans (target ▸ jump_of_starts lands))
  case fence =>
    have run : exec (.fence p) s = .next (s.afterCommit p (if fModI w = 1 then .nextPf else .next)) :=
      congrArg Host.Outcome.next ((here.instr (only_of_onlyBits fields)).trans (commitPoint_of_clean here.prog here.clean))
    by_cases pf : fModI w = 1
    · rw [if_pos pf, afterCommit_nextPf_eq here.prog here.free (placed pf)] at run
      exact ⟨_, run, by rw [prog_setProg, if_pos pf]; rfl, rfl⟩
    · rw [if_neg pf, afterCommit_next_eq here.prog here.free] at run
      exact ⟨_, run, by rw [prog_setProg, if_neg pf]; rfl, rfl⟩
  case fenceStores =>
    have acts : exec (.fence p) s = .next (s.commitPoint p (if fModI w = 1 then .nextPf else .next)) := by
      refine congrArg Host.Outcome.next ?_
      simp only [State.instr, running, run, cur, only_of_onlyBits fields, taken, if_true, Bool.true_eq_false, if_false]
    rw [acts, State.commitPoint, running]
    simp only [if_neg pending, commitSnoops_of_untracked free]
  case halt =>
    have run : exec (.halt p) s = .next ((s.setProg p x.cleared).endProg p (if x.fbcnt = 0 then stOk else eFallback) 0 0) :=
      congrArg Host.Outcome.next ((here.instr (only_of_onlyBits fields)).trans
        ((commitPoint_of_clean here.prog here.clean).trans (afterCommit_ends here.prog)))
    exact ⟨_, run, endProg_endsWith (s := s.setProg p x.cleared) (x := x.cleared) (prog_setProg ..) heard ⟨room.room, room.none, room.takes⟩,
      endProg_woundDown.mem, endProg_map, endProg_woundDown.rt, endProg_dir⟩

end Sys2Proof.Machine
end

section
/-! ## Waits, signals and KICK (09 R365, R366; 08 R335; 15 R527) -/

namespace Sys2Proof.Machine

/-- The bits that the common fields and the named ones take. -/
def fieldMask (used : List (Nat × Nat)) : W64 := used.foldl (fun m u => m ||| bitsAt u.1 u.2) (bitsAt 0 16)

/-- A word that keeps to some fields keeps to more. -/
theorem onlyBits_mono {w : W64} {few many : List (Nat × Nat)} (h : onlyBits w few = true)
    (more : ~~~(fieldMask few) &&& ~~~(fieldMask many) = ~~~(fieldMask many)) :
    onlyBits w many = true := by
  have none : w &&& ~~~(fieldMask few) = 0 := eq_of_beq h
  refine beq_iff_eq.mpr (?_ : w &&& ~~~(fieldMask many) = 0)
  rw [← more, ← BitVec.and_assoc, none]
  exact BitVec.zero_and

theorem waitCheck_of_fits {used few : List (Nat × Nat)} {w : W64} (form : fModI w % 4 ≠ 3) (fields : onlyBits w few = true)
    (more : ~~~(fieldMask few) &&& ~~~(fieldMask ((32, 32) :: used)) = ~~~(fieldMask ((32, 32) :: used))) (bound : 0 < (fImm w).toInt) :
    waitCheck used w = none := by
  rw [waitCheck, if_neg]
  simp [form, onlyBits_mono fields more, bound]

namespace State

variable {s : State} {p : Nat} {x : Prog} {w e : W64}

theorem waitFor_waits {wt : PWait} (running : s.prog p = some x) : (s.waitFor p wt).prog p = some { x with wait := wt } := by
  simp only [State.waitFor, State.prog] at running ⊢
  rw [Tbl.find_upd, if_pos rfl, running]
  rfl

/-- A wait whose end has come completes at once; any other holds its program. -/
theorem waits_unless {c : Prop} [Decidable c] {wt : PWait} (running : s.prog p = some x) (free : x.cancel = none) :
    ∃ t, (if c then s.okOn p (fun y => y) else s.waitFor p wt) = t ∧
      t.prog p = some (if c then x.completed 0 0 else { x with wait := wt }) ∧ t = { s with q := { s.q with progs := t.q.progs } } := by
  refine ⟨_, rfl, ?_⟩
  split
  · rw [okOn_completes running free]
    exact ⟨prog_setProg .., rfl⟩
  · exact ⟨waitFor_waits running, rfl⟩

/-! ### Signal counters (R366) -/

/-- SIGNAL has added to a counter, and its program has gone on. -/
def signalled (s : State) (p : Nat) (x : Prog) (c : Nat) (v : W64) : State :=
  let t := s.setProg p (x.onward x)
  { t with q := { t.q with sig := t.q.sig.set (x.host.toNat * 16 + c) 0 (s.sigOf x.host c + v) } }

theorem signal_runs (here : s.AtInstr p x (isOp 4) w e) (fields : onlyBits w [(26, 4), uImm] = true) :
    exec (.signal p) s = .next ((s.signalled p x (fModI w) ((fImm w).signExtend 64)).wakeSignals x.host (fModI w)) := by
  refine congrArg Host.Outcome.next ((here.instr (only_of_onlyBits fields)).trans ?_)
  rw [goOn_of_running here.prog here.free]
  rfl

theorem sigOf_signalled (s : State) (p : Nat) (x : Prog) (c : Nat) (v : W64) :
    (s.signalled p x c v).sigOf x.host c = s.sigOf x.host c + v := Tbl.getD_set_same _ _ _ _

theorem sigOf_signalled_ne {h : HostId} {c k : Nat} {v : W64} (other : h.toNat * 16 + k ≠ x.host.toNat * 16 + c) :
    (s.signalled p x c v).sigOf h k = s.sigOf h k := Tbl.getD_set_ne _ _ _ _ other

/-- Where no program waits for a signal, none is woken. -/
theorem wakeSignals_of_none {h : HostId} {c : Nat} (none : ∀ y ∈ s.q.progs, ∀ c n, y.2.wait ≠ .signal c n) : s.wakeSignals h c = s := by
  unfold State.wakeSignals
  extract_lets v
  rw [List.filter_eq_nil_iff.mpr]
  · rfl
  · intro y hy due
    simp only [Bool.and_eq_true] at due
    obtain ⟨-, waits⟩ := due
    split at waits
    · exact none y hy _ _ ‹_›
    · cases waits

/-- Of two programs, the one that waits for the counter goes on when its value has come. -/
theorem wakeSignals_of_two {h : HostId} {c p2 : Nat} {n : W64} {y x2 : Prog} (two : s.q.progs = [(p, y), (p2, x2)]) (other : p ≠ p2)
    (runs : y.wait = .run) (own : x2.host = h) (waits : x2.wait = .signal c n) (free : x2.cancel = none) (due : n.toInt ≤ (s.sigOf h c).toInt) :
    s.wakeSignals h c = s.setProg p2 (x2.completed 0 0) := by
  have listed : s.prog p2 = some x2 := by
    simp [State.prog, two, Tbl.find, other]
  unfold State.wakeSignals
  extract_lets v
  rw [two, List.filter_cons_of_neg (by simp [runs]), List.filter_cons_of_pos (by simp [own, waits, v, due]), List.filter_nil]
  exact okOn_completes listed free

/-! ### Watchdogs (R366; 15 R527) -/

theorem kick_runs (here : s.AtInstr p x (isOp 5) w e) (fields : onlyBits w [] = true) :
    exec (.kick p) s = .next { s.setProg p (x.onward x) with
      wd := { s.wd with wde := s.wd.wde.upd (if x.core < 96 then 4 + x.core / 8 else x.core - 256) (fun y => { y with elapsed := 0 }) } } := by
  refine congrArg Host.Outcome.next ((here.instr (only_of_onlyBits fields)).trans ?_)
  rw [goOn_of_running here.prog here.free]
  rfl

end State

/-- The schedule that g[A] of WAIT BEAT names: number [4:0] of queue pair [13:8]. -/
theorem schedName_fields (q : QueueNo) {n : Nat} (small : n < 32) :
    (BitVec.ofNat 64 (q.toNat * 256 + n)).extractLsb' 5 3 = 0 ∧ (BitVec.ofNat 64 (q.toNat * 256 + n)).extractLsb' 14 50 = 0 ∧
      (BitVec.ofNat 64 (q.toNat * 256 + n)).extractLsb' 8 6 = q ∧ ((BitVec.ofNat 64 (q.toNat * 256 + n)).extractLsb' 0 5).toNat = n := by
  have hq := q.isLt
  refine ⟨BitVec.eq_of_toNat_eq ?_, BitVec.eq_of_toNat_eq ?_, BitVec.eq_of_toNat_eq ?_, ?_⟩ <;>
    simp only [BitVec.extractLsb'_toNat, BitVec.toNat_ofNat, Nat.shiftRight_eq_div_pow, BitVec.ofNat_eq_ofNat] <;> omega

open State in
/-- Settles O26: a wait by whether its end has come, SIGNAL by its counter and whom it wakes, KICK by the watchdog that it serves. -/
theorem waitsSignalsAndKicks : Obligations.WaitsSignalsAndKicks := by
  unfold Obligations.WaitsSignalsAndKicks
  refine ⟨fun s p x w e here form fields bound => ?time, fun s p x w e q n here form fields bound name small scheduled => ?beat,
    fun s p x w e here form fields bound => ?counter, fun s p x running waits free => ?timeOut,
    fun s p x c n running waits heard room => ?signalOut, fun s p x w e here fields alone => ?signal,
    fun s p p2 x x2 w e n here fields below two own waits free due => ?wakes, fun s p x w e here fields => ?kick⟩
  case time =>
    have run : exec (.waitTime p) s = .next (s.waitFor p .time) :=
      congrArg Host.Outcome.next (here.instr (waitCheck_of_fits (by omega) fields (by decide) bound))
    exact ⟨_, run, waitFor_waits here.prog, rfl⟩
  case beat =>
    obtain ⟨low, high, pair, number⟩ := schedName_fields q small
    have formed : waitCheck [uD, uA, (26, 2)] w = none := waitCheck_of_fits (by omega) fields (by decide) bound
    obtain ⟨t, ends, goes, rest⟩ := waits_unless
      (c := (s.sched (schKey x.host q n)).any (fun y => y.armed && decide ((x.gr (fD w)).toNat ≤ y.beats)) = true)
      (wt := .beat q.toNat n (x.gr (fD w))) here.prog here.free
    refine ⟨t, congrArg Host.Outcome.next ((here.instr ?_).trans ?_), ?_, rest⟩
    · simp only [formed, name, low, high, pair, scheduled]
      rfl
    · rw [← ends, name]
      simp only [pair, number, BitVec.ofNat_toNat, BitVec.setWidth_eq]
      cases s.sched (schKey x.host q n) <;> simp
    · rw [goes]
      cases s.sched (schKey x.host q n) <;> simp
  case counter =>
    obtain ⟨t, ends, goes, rest⟩ := waits_unless (c := (x.gr (fD w)).toInt ≤ (s.sigOf x.host (fModI w / 4)).toInt)
      (wt := .signal (fModI w / 4) (x.gr (fD w))) here.prog here.free
    exact ⟨t, congrArg Host.Outcome.next ((here.instr (waitCheck_of_fits (by omega) fields (by decide) bound)).trans ends), goes, rest⟩
  case timeOut =>
    refine congrArg Host.Outcome.next ?_
    simp only [running, waits]
    exact okOn_completes running free
  case signalOut =>
    have run : exec (.waitTimeout p) s = .next (s.endProg p eTimeout 3 0) := by
      refine congrArg Host.Outcome.next ?_
      simp only [running, waits]
    exact ⟨_, run, endProg_endsWith running heard room, endProg_woundDown.mem, endProg_woundDown.rt⟩
  case signal =>
    have none : ∀ y ∈ (s.signalled p x (fModI w) ((fImm w).signExtend 64)).q.progs, ∀ c n, y.2.wait ≠ .signal c n := by
      intro y hy c n
      rcases Tbl.mem_put hy with rfl | before
      · nofun
      · exact alone y before c n
    have run := signal_runs here fields
    rw [wakeSignals_of_none none] at run
    exact ⟨_, run, prog_setProg .., sigOf_signalled .., fun h c other => sigOf_signalled_ne other, rfl⟩
  case wakes =>
    have run := signal_runs here fields
    have after : (s.signalled p x (fModI w) ((fImm w).signExtend 64)).q.progs = [(p, x.onward x), (p2, x2)] := by
      show s.q.progs.put p (x.onward x) = _
      rw [two]
      simp [Tbl.put]
    rw [wakeSignals_of_two after below.ne rfl own waits free (by rwa [sigOf_signalled])] at run
    refine ⟨_, run, ?_, prog_setProg ..⟩
    rw [prog_setProg_ne _ _ below.ne]
    exact prog_setProg ..
  case kick =>
    exact ⟨_, kick_runs here fields, prog_setProg .., (Tbl.find_upd _ _ _ _).trans (if_pos rfl), rfl⟩

end Sys2Proof.Machine
end

section
/-! ## MOVS (09 R367; 08 R327 to R329) -/

namespace Sys2Proof.Machine

/-! ### Handles (09 R355): flags [63:62], base [61:16], region and reserved bits [15:0] -/

theorem hBase_parts (flags : BitVec 2) (base : BitVec 46) (low : BitVec 16) : hBase (flags ++ base ++ low) = base.toNat := by
  refine congrArg BitVec.toNat (?_ : BitVec.extractLsb' 16 46 (flags ++ base ++ low) = base)
  rw [BitVec.extractLsb'_append_eq_of_le (le_refl 16)]
  exact BitVec.extractLsb'_append_eq_right

theorem hRegion_parts (flags : BitVec 2) (base : BitVec 46) (low : BitVec 16) : hRegion (flags ++ base ++ low) = low.extractLsb' 0 14 :=
  BitVec.extractLsb'_append_eq_of_add_le (by decide)

theorem hValid_parts (flags : BitVec 2) (base : BitVec 46) (low : BitVec 16) : hValid (flags ++ base ++ low) = flags.getLsbD 1 := by
  rw [hValid, BitVec.getLsbD_append, if_neg (by decide), BitVec.getLsbD_append, if_neg (by decide)]

/-- A handle whose base has moved keeps its region and its flags. -/
theorem handle_moved (h : W64) {base : Nat} (fits : base < 2 ^ 46) :
    hBase (h.extractLsb' 62 2 ++ BitVec.ofNat 46 base ++ h.extractLsb' 0 16) = base ∧
      hRegion (h.extractLsb' 62 2 ++ BitVec.ofNat 46 base ++ h.extractLsb' 0 16) = hRegion h ∧
      hValid (h.extractLsb' 62 2 ++ BitVec.ofNat 46 base ++ h.extractLsb' 0 16) = hValid h := by
  refine ⟨?_, ?_, ?_⟩
  · rw [hBase_parts, BitVec.toNat_ofNat, Nat.mod_eq_of_lt fits]
  · rw [hRegion_parts, hRegion]
    ext i hi
    simp
  · rw [hValid_parts, hValid]
    simp

/-! ### Words -/

/-- A word within an instruction's fields has no bit of IMM above those that the instruction uses. -/
theorem fImm_le_of_onlyBits {w : W64} {used : List (Nat × Nat)} {m : W32} (fields : onlyBits w used = true)
    (mask : (~~~(fieldMask used)).extractLsb' 32 32 = ~~~m) : (fImm w).toNat ≤ m.toNat := by
  have none : w &&& ~~~(fieldMask used) = 0 := eq_of_beq fields
  have above : fImm w &&& ~~~m = 0 := by
    rw [← mask, fImm, ← BitVec.extractLsb'_and, none]
    rfl
  have within : fImm w &&& m = fImm w := by
    calc fImm w &&& m = (fImm w &&& m) ||| (fImm w &&& ~~~m) := by rw [above]; simp
      _ = fImm w := by rw [← BitVec.and_or_distrib_left, BitVec.or_not_self, BitVec.and_allOnes]
  rw [← within, BitVec.toNat_and]
  exact Nat.and_le_right

/-! ### What the check finds -/

section
variable {s : State} {x : Prog} {w : W64}

theorem special_of_movsCheck (fine : movsCheck s x w = none) (form : fModI w = 0) : ∃ v, s.special x (fImm w).toNat = some v := by
  cases known : s.special x (fImm w).toNat with
  | some v => exact ⟨v, rfl⟩
  | none => simp [movsCheck, movsFields, form, known] at fine

/-- What the check of H.ADD asks (R367). -/
theorem movsCheck_hadd (form : fModI w = 0xD) : movsCheck s x w =
    if onlyBits w [uD, uA, uModI, (32, 5)] = false then some dReserved
    else if 8 ≤ fD w ∨ 8 ≤ fA w then some dReserved
    else if 2 ^ 46 ≤ hBase (x.hr (fA w)) + (x.gr ((fImm w).toNat % 32)).toNat then some dRange else none := by
  simp [movsCheck, movsFields, form]

theorem base_of_movsCheck (fine : movsCheck s x w = none) (form : fModI w = 0xD) :
    hBase (x.hr (fA w)) + (x.gr ((fImm w).toNat % 32)).toNat < 2 ^ 46 := by
  rw [movsCheck_hadd form] at fine
  by_contra far
  rw [not_lt] at far
  simp only [if_pos far] at fine
  split_ifs at fine

/-- A special register that exists is a well-formed source. -/
theorem movsCheck_of_special (form : fModI w = 0) (fields : onlyBits w [uD, uModI, uImm] = true) {v : W64}
    (known : s.special x (fImm w).toNat = some v) : movsCheck s x w = none := by
  simp [movsCheck, movsFields, form, fields, known]

theorem movsCheck_of_base (form : fModI w = 0xD) (fields : onlyBits w [uD, uA, uModI, (32, 5)] = true) (d : fD w < 8) (a : fA w < 8)
    (far : 2 ^ 46 ≤ hBase (x.hr (fA w)) + (x.gr ((fImm w).toNat % 32)).toNat) : movsCheck s x w = some dRange := by
  rw [movsCheck_hadd form, if_neg (by simp [fields]), if_neg (by omega), if_pos far]

/-- The forms and operands that are reserved (R367). -/
theorem movsCheck_of_reserved (reserved : 0x11 ≤ fModI w ∨ (fModI w = 0 ∧ 12 ≤ (fImm w).toNat) ∨ (fModI w = 1 ∧ fImm w ≠ 10) ∨
      (fModI w = 2 ∧ hValid (x.gr (fA w)) = true ∧ ((x.gr (fA w)).extractLsb' 14 2 ≠ 0 ∨ (x.gr (fA w)).getLsbD 62 = true)) ∨
      (32 ≤ (fImm w).toNat ∧ fModI w ∈ [7, 8, 9, 0xD, 0x10])) : movsCheck s x w = some dReserved := by
  rcases reserved with high | ⟨form, unknown⟩ | ⟨form, other⟩ | ⟨form, valid, flaw⟩ | ⟨far, form⟩
  · have none : movsFields (fModI w) = none := by
      unfold movsFields
      repeat rw [if_neg (by omega)]
    simp only [movsCheck, none]
  · have none : s.special x (fImm w).toNat = none := by
      obtain ⟨n, above⟩ := Nat.exists_eq_add_of_le' unknown
      rw [above]
      rfl
    simp [movsCheck, movsFields, form, none]
  · have other : (fImm w).toNat ≠ 10 := fun same => other (BitVec.eq_of_toNat_eq same)
    simp [movsCheck, movsFields, form, other]
  · have bad : hValid (x.gr (fA w)) = true ∧ ((x.gr (fA w)).extractLsb' 14 2 ≠ 0 ∨ (x.gr (fA w)).getLsbD 62 = true) := ⟨valid, flaw⟩
    have used : movsFields 2 = some [uD, uA, uModI] := rfl
    simp only [movsCheck, form, used, if_pos bad, Nat.reduceEqDiff, if_true, if_false, ite_self]
  · have beyond : onlyBits w [uD, uA, uModI, (32, 5)] = false := by
      rw [← Bool.not_eq_true]
      intro fields
      have := fImm_le_of_onlyBits (m := 31) fields (by decide)
      exact absurd (far.trans this) (by decide)
    have used : movsFields (fModI w) = some [uD, uA, uModI, (32, 5)] := by
      simp only [List.mem_cons, List.not_mem_nil, or_false] at form
      rcases form with form | form | form | form | form <;> rw [form] <;> rfl
    simp only [movsCheck, used, beyond, if_true]

end

namespace State

variable {s : State} {p : Nat} {x : Prog} {w e : W64}

/-- MOVS that is well formed: its program has the register, and the free value that CYCLE took is spent. -/
theorem movs_runs (here : s.AtInstr p x (isOp 8) w e) (fine : movsCheck s x w = none) :
    exec (.movs p) s = .next (let t := s.setProg p (x.onward (movsEffect s x w))
      if fModI w = 0 ∧ fImm w = 4 then { t with q := { t.q with freeNo := t.q.freeNo + 1 } } else t) := by
  refine congrArg Host.Outcome.next ((here.instr fine).trans ?_)
  rw [goOn_of_running here.prog here.free]

end State

open State in
/-- Settles O27: each form by the register that its effect writes, a reserved one by what the check finds. -/
theorem movsComputesEveryForm : Obligations.MovsComputesEveryForm := by
  unfold Obligations.MovsComputesEveryForm
  refine ⟨fun s p x w e here fine => ?forms, fun s p x w e here form imm fields => ?cycle, fun s p x w e here fine off => ?untaken,
    fun s p x w e here heard room => ⟨fun reserved => ?reserved, fun form fields d a far => ?range⟩⟩
  case forms =>
    refine ⟨_, movsEffect s x w, movs_runs here fine, ?goes, ?rest, ?special, ?_, ?_, ?_, ?_, ?_, ?_, ?_, ?_, ?_, ?_, ?_, ?_, ?hadd, ?_, ?_, ?_⟩
    case goes =>
      dsimp only
      split <;> exact prog_setProg ..
    case rest =>
      dsimp only
      split <;> rfl
    case special =>
      intro form
      obtain ⟨v, known⟩ := special_of_movsCheck fine form
      exact ⟨v, known, by simp only [movsEffect, form, known, Option.getD_some]⟩
    case hadd =>
      intro form
      exact ⟨_, by simp only [movsEffect, form], handle_moved (x.hr (fA w)) (base_of_movsCheck fine form)⟩
    all_goals
      intro form
      simp only [movsEffect, form]
  case cycle =>
    have known : s.special x (fImm w).toNat = some (Config.cycle s.q.freeNo) := by rw [imm]; rfl
    have run := movs_runs here (movsCheck_of_special form fields known)
    simp only [form, imm, and_self, if_true] at run
    refine ⟨_, run, ?_, rfl⟩
    refine (prog_setProg ..).trans ?_
    simp only [movsEffect, form, known, Option.getD_some]
  case untaken =>
    exact congrArg Host.Outcome.next (here.instr_untaken fine off)
  case reserved =>
    exact ⟨_, congrArg Host.Outcome.next (here.instr_malformed (movsCheck_of_reserved reserved)), here.endsWith_eArg heard room⟩
  case range =>
    exact ⟨_, congrArg Host.Outcome.next (here.instr_malformed (movsCheck_of_base form fields d a far)), here.endsWith_eArg heard room⟩

end Sys2Proof.Machine
end

section
/-! ## Vector registers and their elements (08 R327; 09 R356, R357) -/

namespace Sys2Proof.Machine

theorem fD_lt (w : W64) : fD w < 32 := (w.extractLsb' 16 5).isLt

/-! ### Elements -/

@[simp] theorem length_elems (v : VReg) (b : Nat) : (elems v b).length = 1024 / b := by simp [elems]

theorem getD_elems (v : VReg) {b i : Nat} (inside : i < 1024 / b) : (elems v b).getD i 0 = elemAt v b i := by
  simp [elems, List.getD_eq_getElem?_getD, inside]

/-- A run of the elements of a register. -/
theorem take_drop_elems (v : VReg) {b i m : Nat} (inside : i + m ≤ 1024 / b) :
    ((elems v b).drop i).take m = (List.range m).map (fun j => elemAt v b (i + j)) := by
  apply List.ext_getElem
  · simp [elems]
    omega
  · simp [elems]

@[simp] theorem length_masked (pr : W128) (old new : List Nat) : (masked pr old new).length = min old.length new.length := by simp [masked]

/-- A result takes the place of an old element where the predicate bit of the element is set (R357). -/
theorem getD_masked (pr : W128) {old new : List Nat} {i : Nat} (o : i < old.length) (n : i < new.length) :
    (masked pr old new).getD i 0 = if pr.getLsbD i then new.getD i 0 else old.getD i 0 := by
  simp [masked, List.getD_eq_getElem?_getD, o, n]

/-- An element computed from those of three lists, under a predicate. -/
theorem getD_masked_zip (pr : W128) {d a b : List Nat} {i : Nat} (hd : i < d.length) (ha : i < a.length) (hb : i < b.length)
    (f : Nat × Nat × Nat → Nat) : (masked pr d ((d.zip (a.zip b)).map f)).getD i 0 =
      if pr.getLsbD i then f (d.getD i 0, a.getD i 0, b.getD i 0) else d.getD i 0 := by
  have long : i < ((d.zip (a.zip b)).map f).length := by simp [hd, ha, hb]
  rw [getD_masked pr hd long, List.getD_eq_getElem _ _ long, List.getElem_map, List.getElem_zip, List.getElem_zip,
    List.getD_eq_getElem _ _ hd, List.getD_eq_getElem _ _ ha, List.getD_eq_getElem _ _ hb]

/-! ### Registers -/

theorem Prog.vr_setV_same {x : Prog} {i : Nat} {v : VReg} (listed : i < x.v.length) : (x.setV i v).vr i = v := by
  simp [Prog.vr, Prog.setV, List.getD_eq_getElem?_getD, listed]

theorem Prog.vr_setV_ne {x : Prog} {i j : Nat} {v : VReg} (other : j ≠ i) : (x.setV i v).vr j = x.vr j := by
  simp [Prog.vr, Prog.setV, List.getD_eq_getElem?_getD, List.getElem?_set_ne other.symm]

/-- A program with n vector registers written from a first one. -/
def Prog.setVs (x : Prog) (d n : Nat) (r : Nat → VReg) : Prog := (List.range n).foldl (fun y k => y.setV (d + k) (r k)) x

section
variable {x : Prog} {d n : Nat} {r : Nat → VReg}

theorem Prog.setVs_succ : x.setVs d (n + 1) r = (x.setVs d n r).setV (d + n) (r n) := by
  simp [Prog.setVs, List.range_succ]

theorem Prog.setVs_rest : x.setVs d n r = { x with v := (x.setVs d n r).v } := by
  induction n with
  | zero => rfl
  | succ n ih =>
    rw [Prog.setVs_succ, ih]
    rfl

theorem Prog.length_setVs : (x.setVs d n r).v.length = x.v.length := by
  induction n with
  | zero => rfl
  | succ n ih => rw [Prog.setVs_succ, Prog.setV, List.length_set, ih]

theorem Prog.vr_setVs_out {j : Nat} (out : j < d ∨ d + n ≤ j) : (x.setVs d n r).vr j = x.vr j := by
  induction n with
  | zero => rfl
  | succ n ih => rw [Prog.setVs_succ, Prog.vr_setV_ne (by omega), ih (by omega)]

theorem Prog.vr_setVs {k : Nat} (listed : d + n ≤ x.v.length) (within : k < n) : (x.setVs d n r).vr (d + k) = r k := by
  induction n with
  | zero => omega
  | succ n ih =>
    rw [Prog.setVs_succ]
    rcases Nat.lt_succ_iff_lt_or_eq.mp within with before | rfl
    · rw [Prog.vr_setV_ne (by omega), ih (by omega) before]
    · exact Prog.vr_setV_same (by rw [Prog.length_setVs]; omega)

end

/-- The registers that D names, one or a group of eight (R356), all exist. -/
theorem group_listed {x : Prog} {w : W64} {c n : Nat} (regs : x.v.length = 32) (size : (if c = 1 then 8 else 1) = n)
    (aligned : c = 1 → fD w % 8 = 0) : fD w + n ≤ x.v.length := by
  have small := fD_lt w
  split at size
  · have := aligned ‹_›
    omega
  · omega

theorem grpOk_of_aligned {c n : Nat} (aligned : c = 1 → n % 8 = 0) : grpOk (c == 1) n = true := by
  by_cases group : c = 1
  · simp [grpOk, group, aligned group]
  · simp [grpOk, group]

end Sys2Proof.Machine
end

section
/-! ## VMAC, VDOT, DEQ and CVT (09 R378 to R381, R385) -/

namespace Sys2Proof.Machine

/-! ### VMAC (R379) -/

/-- The elements of the second source of VMAC: one scalar for all, or a register. -/
def vmacOther (x : Prog) (w : W64) (k : Nat) : List Nat :=
  let bits := elemBits (fModR w % 4)
  if fModR w / 8 % 2 == 1 then List.replicate (1024 / bits) ((x.gr (fB w)).toNat % 2 ^ bits) else elems (x.vr (fB w + k)) bits

/-- The elements that VMAC puts in one register of its destination. -/
def vmacElems (x : Prog) (w : W64) (k : Nat) : List Nat :=
  let m := fModR w
  let bits := elemBits (m % 4)
  let d := elems (x.vr (fD w + k)) bits
  let a := elems (x.vr (fA w + k)) bits
  masked (x.pred w) d ((d.zip (a.zip (vmacOther x w k))).map (fun t => vmacElem (m % 4) x.round.toNat (m / 16 % 8) t.2.1 t.2.2 t.1))

theorem vmac_regs (x : Prog) (w : W64) (n : Nat) : (List.range n).foldl (fun y k => vmacReg x w k (x.pred w) y) x =
    x.setVs (fD w) n (fun k => regOf (elemBits (fModR w % 4)) (vmacElems x w k)) := rfl

section
variable (x : Prog) (w : W64) (k : Nat)

@[simp] theorem length_vmacOther : (vmacOther x w k).length = 1024 / elemBits (fModR w % 4) := by
  simp only [vmacOther]
  split
  exacts [List.length_replicate, length_elems ..]

theorem getD_vmacOther {i : Nat} (inside : i < 1024 / elemBits (fModR w % 4)) : (vmacOther x w k).getD i 0 =
    if fModR w / 8 % 2 = 1 then (x.gr (fB w)).toNat % 2 ^ elemBits (fModR w % 4) else elemAt (x.vr (fB w + k)) (elemBits (fModR w % 4)) i := by
  simp only [vmacOther, beq_iff_eq]
  split
  · exact List.getD_replicate _ inside
  · exact getD_elems _ inside

@[simp] theorem length_vmacElems : (vmacElems x w k).length = 1024 / elemBits (fModR w % 4) := by simp [vmacElems]

theorem getD_vmacElems {i : Nat} (inside : i < 1024 / elemBits (fModR w % 4)) :
    (vmacElems x w k).getD i 0 = if (x.pred w).getLsbD i then
        vmacElem (fModR w % 4) x.round.toNat (fModR w / 16 % 8) (elemAt (x.vr (fA w + k)) (elemBits (fModR w % 4)) i)
          ((vmacOther x w k).getD i 0) (elemAt (x.vr (fD w + k)) (elemBits (fModR w % 4)) i)
      else elemAt (x.vr (fD w + k)) (elemBits (fModR w % 4)) i := by
  refine (getD_masked_zip _ (by simpa using inside) (by simpa using inside) (by simpa using inside) _).trans ?_
  rw [getD_elems _ inside, getD_elems _ inside]

end

/-- An element of VMAC by its operation (R379). -/
theorem vmacElem_eq (ty mode op a b d : Nat) : vmacElem ty mode op a b d =
    if op = 0 then toElem mode ty (sumFV mode [(ev ty a).mul (ev ty b), ev ty d])
    else if op = 1 then toElem mode ty (sumFV mode [ev ty d, ((ev ty a).mul (ev ty b)).neg])
    else if op = 2 then toElem mode ty ((ev ty a).mul (ev ty b))
    else if op = 3 then toElem mode ty (sumFV mode [ev ty a, ev ty b])
    else vmacElem ty mode op a b d := by
  match op with
  | 0 | 1 | 2 | 3 => rfl
  | _ + 4 => rfl

/-! ### VDOT (R380) -/

/-- The pairs of source elements that VDOT takes for one of its accumulators. -/
def vdotPairs (x : Prog) (w : W64) (k i : Nat) : List (Nat × Nat) :=
  let bits := elemBits (fModR w % 16)
  (List.range (32 / bits)).map (fun j => (elemAt (x.vr (fA w + k)) bits (i * (32 / bits) + j), elemAt (x.vr (fB w + k)) bits (i * (32 / bits) + j)))

/-- The accumulators that VDOT puts in one register of its destination. -/
def vdotElems (x : Prog) (w : W64) (k : Nat) : List Nat :=
  let m := fModR w
  let n := 32 / elemBits (m % 16)
  let a := elems (x.vr (fA w + k)) (elemBits (m % 16))
  let b := elems (x.vr (fB w + k)) (elemBits (m % 16))
  let d := elems (x.vr (fD w + k)) 32
  masked (x.pred w) d (d.mapIdx (fun i v =>
    vdotElem (m % 16) x.round.toNat (if m / 32 % 2 = 1 then 0 else v) ((a.drop (i * n)).take n) ((b.drop (i * n)).take n)))

theorem vdot_regs (x : Prog) (w : W64) (n : Nat) : (List.range n).foldl (fun y k => vdotReg x w k (x.pred w) y) x =
    x.setVs (fD w) n (fun k => regOf 32 (vdotElems x w k)) := rfl

theorem length_vdotElems (x : Prog) (w : W64) (k : Nat) : (vdotElems x w k).length = 32 := by simp [vdotElems]

/-- One accumulator of VDOT, from the pairs of source elements. -/
def vdotSum (ty mode d : Nat) (l : List (Nat × Nat)) : Nat :=
  if ty = 5 then satInt 32 (signedOf 32 d + (l.map (fun z => signedOf 8 z.1 * signedOf 8 z.2)).sum)
  else Fmt.fp32.encode mode (sumFV mode (Fmt.fp32.decode d :: l.map (fun z => (ev ty z.1).mul (ev ty z.2))))

theorem getD_vdotElems (x : Prog) (w : W64) (k : Nat) {i : Nat} (inside : i < 32)
    (whole : 32 * (32 / elemBits (fModR w % 16)) ≤ 1024 / elemBits (fModR w % 16)) :
    (vdotElems x w k).getD i 0 = if (x.pred w).getLsbD i then
        vdotSum (fModR w % 16) x.round.toNat (if fModR w / 32 % 2 = 1 then 0 else elemAt (x.vr (fD w + k)) 32 i) (vdotPairs x w k i)
      else elemAt (x.vr (fD w + k)) 32 i := by
  have run : i * (32 / elemBits (fModR w % 16)) + 32 / elemBits (fModR w % 16) ≤ 1024 / elemBits (fModR w % 16) := by
    rw [← Nat.succ_mul]
    exact (Nat.mul_le_mul_right _ inside).trans whole
  refine (getD_masked _ (by simpa using inside) (by simpa using inside)).trans ?_
  rw [getD_elems _ (by simpa using inside)]
  refine if_congr Iff.rfl ?_ rfl
  rw [List.getD_eq_getElem _ _ (by simpa using inside), List.getElem_mapIdx, take_drop_elems _ run, take_drop_elems _ run, vdotElem,
    ← List.getD_eq_getElem _ 0 (by simpa using inside), getD_elems _ (by simpa using inside), List.zip_map']
  rfl

/-! ### CVT (R385) -/

theorem length_span (x : Prog) (first n b : Nat) : (x.span first n b).length = n * (1024 / b) := by
  simp [Prog.span, List.length_flatMap]

/-- Both sides of a conversion span as many elements as one register holds of the narrower type. -/
theorem cvtSpan_elems {self other : Nat} (a : cvtType self = true) (b : cvtType other = true) :
    cvtSpan self other * (1024 / elemBits self) = 1024 / min (elemBits self) (elemBits other) := by
  have types (ty : Nat) (h : cvtType ty = true) : elemBits ty = 8 ∨ elemBits ty = 16 ∨ elemBits ty = 32 := by
    obtain small | rfl : ty ≤ 5 ∨ ty = 7 := by simpa [cvtType] using h
    · interval_cases ty <;> decide
    · decide
  rcases types self a with h | h | h <;> rcases types other b with h' | h' | h' <;> simp [cvtSpan, h, h']

/-- What CVT puts in its destination. -/
def cvtElems (x : Prog) (w : W64) : List Nat :=
  let src := fModR w / 16
  let dst := fModR w % 16
  let from0 := x.span (fA w) (cvtSpan src dst) (elemBits src)
  masked (x.pred w) (x.span (fD w) (cvtSpan dst src) (elemBits dst)) (if src = dst then from0 else from0.map (fun v => toElem x.round.toNat dst (ev src v)))

theorem getD_cvtElems (x : Prog) (w : W64) {i : Nat} (source : cvtType (fModR w / 16) = true) (dest : cvtType (fModR w % 16) = true)
    (inside : i < 1024 / min (elemBits (fModR w / 16)) (elemBits (fModR w % 16))) : (cvtElems x w).getD i 0 =
      if (x.pred w).getLsbD i then
        (if fModR w / 16 = fModR w % 16 then (x.span (fA w) (cvtSpan (fModR w / 16) (fModR w % 16)) (elemBits (fModR w / 16))).getD i 0
          else toElem x.round.toNat (fModR w % 16) (ev (fModR w / 16)
            ((x.span (fA w) (cvtSpan (fModR w / 16) (fModR w % 16)) (elemBits (fModR w / 16))).getD i 0)))
      else (x.span (fD w) (cvtSpan (fModR w % 16) (fModR w / 16)) (elemBits (fModR w % 16))).getD i 0 := by
  unfold cvtElems
  extract_lets src dst from0
  have taken : i < from0.length := by
    rw [length_span, cvtSpan_elems source dest]
    exact inside
  have held : i < (x.span (fD w) (cvtSpan dst src) (elemBits dst)).length := by
    rw [length_span, cvtSpan_elems dest source, min_comm]
    exact inside
  rw [getD_masked _ held (by split <;> simpa using taken)]
  refine if_congr Iff.rfl ?_ rfl
  split
  · rfl
  · rw [List.getD_eq_getElem _ _ (by simpa using taken), List.getElem_map, ← List.getD_eq_getElem _ 0 taken]

/-! ### DEQ (R381) -/

/-- The type of the values that DEQ writes: FP32 or BF16. -/
def deqOut (w : W64) : Nat := if fModR w / 16 % 2 = 1 then 2 else 0

theorem elemBits_deqOut (w : W64) : elemBits (deqOut w) = if fModR w / 16 % 2 = 1 then 32 else 16 := by
  unfold deqOut
  split <;> rfl

/-- The scaled elements of DEQ. -/
def deqElems (x : Prog) (w : W64) : List Nat :=
  (elems (x.vr (fA w)) (elemBits (fModR w % 16))).mapIdx (fun i q =>
    toElem x.round.toNat (deqOut w) ((ev (fModR w % 16) q).mul (ev 0 (elemAt (x.vr (fB w)) 16
      (if fModR w / 32 % 4 = 3 then (x.gr (fC w)).toNat % 64 else ((x.gr (fC w)).toNat + i / (32 * 2 ^ (fModR w / 32 % 4))) % 64)))))

theorem length_deqElems (x : Prog) (w : W64) : (deqElems x w).length = 1024 / elemBits (fModR w % 16) := by simp [deqElems]

theorem getD_deqElems (x : Prog) (w : W64) {i : Nat} (inside : i < 1024 / elemBits (fModR w % 16)) :
    (deqElems x w).getD i 0 = toElem x.round.toNat (deqOut w) ((ev (fModR w % 16) (elemAt (x.vr (fA w)) (elemBits (fModR w % 16)) i)).mul
      (ev 0 (elemAt (x.vr (fB w)) 16
        (if fModR w / 32 % 4 = 3 then (x.gr (fC w)).toNat % 64 else ((x.gr (fC w)).toNat + i / (32 * 2 ^ (fModR w / 32 % 4))) % 64)))) := by
  rw [List.getD_eq_getElem _ _ (by simpa [deqElems] using inside), ← getD_elems (x.vr (fA w)) inside,
    List.getD_eq_getElem _ _ (by simpa using inside)]
  exact List.getElem_mapIdx ..

theorem deq_runs {s : State} {p : Nat} {x : Prog} {w e : W64} (here : s.AtWord p x (isOp 0x62) w e)
    (small : fModR w < 128) (type : deqType (fModR w % 16) = true) (fields : onlyBits w [uD, uA, uB, uC, uModR] = true)
    (aligned : fD w % deqSpan (fModR w) = 0) :
    exec (.deq p) s = .next (s.setProg p (x.onward (if (x.pred w).getLsbD 0
      then x.putSpan (fD w) (deqSpan (fModR w)) (elemBits (deqOut w)) (deqElems x w) else x))) := by
  refine congrArg Host.Outcome.next (here.vinstr ((if_neg ?_).trans (if_neg ?_)))
  · simp only [fields, type, not_or, Bool.true_eq_false, not_false_eq_true, true_and, and_true]
    omega
  · exact not_not.mpr aligned

open State in
/-- Settles O31: each element by its place in the lists of elements that the instruction reads before it writes. -/
theorem vectorInstructionsComputeElementwise : Obligations.VectorInstructionsComputeElementwise := by
  unfold Obligations.VectorInstructionsComputeElementwise
  refine ⟨fun s p x w e m ty bits n here regs mod small type float width op fields size aligned => ?vmac,
    fun s p x w e m ty bits n here regs mod small type known other width fields size aligned => ?vdot,
    fun s p x w e m bits here mod small type width fields aligned => ?deq,
    fun s p x w e src dst here from0 to0 source dest fields alignA alignD => ?cvt⟩
  case vmac =>
    subst mod type width
    refine ⟨_, congrArg Host.Outcome.next ((here.vinstr ?formed).trans (by rw [size, vmac_regs])), Prog.setVs_rest,
      fun j out => Prog.vr_setVs_out out, fun k within => ⟨vmacElems x w k,
        Prog.vr_setVs (group_listed regs size (fun g => (aligned g).1)) within, length_vmacElems .., fun i inside => ?elem⟩⟩
    case formed =>
      refine (if_neg ?_).trans (if_neg ?_)
      · simp only [fields, not_or, Bool.true_eq_false, not_false_eq_true, true_and]
        omega
      · rw [grpOk_of_aligned (fun g => (aligned g).1), grpOk_of_aligned (fun g => (aligned g).2.1)]
        rintro (bad | bad | ⟨reg, bad⟩)
        · cases bad
        · cases bad
        · rw [grpOk_of_aligned (fun g => (aligned g).2.2 reg)] at bad
          cases bad
    case elem =>
      rw [getD_vmacElems x w k inside, getD_vmacOther x w k inside, Nat.mod_eq_of_lt (by omega : fModR w / 16 < 8), vmacElem_eq]
  case vdot =>
    subst mod type width
    have whole : 32 * (32 / elemBits (fModR w % 16)) ≤ 1024 / elemBits (fModR w % 16) := by
      generalize fModR w % 16 = ty at known
      interval_cases ty <;> decide
    refine ⟨_, congrArg Host.Outcome.next ((here.vinstr ?formed).trans (by rw [size, vdot_regs])), Prog.setVs_rest,
      fun j out => Prog.vr_setVs_out out, fun k within => ⟨vdotElems x w k,
        Prog.vr_setVs (group_listed regs size (fun g => (aligned g).1)) within, length_vdotElems .., fun i inside => ?elem⟩⟩
    case formed =>
      refine (if_neg ?_).trans (if_neg ?_)
      · simp only [fields, not_or, Bool.true_eq_false, not_false_eq_true, true_and]
        omega
      · rw [grpOk_of_aligned (fun g => (aligned g).1), grpOk_of_aligned (fun g => (aligned g).2.1), grpOk_of_aligned (fun g => (aligned g).2.2)]
        nofun
    case elem =>
      rw [getD_vdotElems x w k inside whole, Nat.mod_eq_of_lt (by omega : fModR w / 32 < 2)]
      rfl
  case deq =>
    subst mod width
    have run := deq_runs here small type fields aligned
    refine ⟨fun off => by rwa [if_neg (by rw [off]; exact Bool.false_ne_true)] at run, fun on =>
      ⟨deqElems x w, length_deqElems .., by rwa [if_pos on, elemBits_deqOut] at run, fun i inside => ?_⟩⟩
    rw [getD_deqElems x w inside, Nat.mod_eq_of_lt (by omega : fModR w / 32 < 4)]
    rfl
  case cvt =>
    subst from0 to0
    refine ⟨cvtElems x w, congrArg Host.Outcome.next (here.vinstr ((if_neg ?_).trans (if_neg ?_))), fun i inside =>
      getD_cvtElems x w source dest inside⟩
    · simp [fields, source, dest]
    · simp [alignA, alignD]

end Sys2Proof.Machine
end

section
/-! ## What an access to one segment leaves of those that stand in Pond (02 R57 to R62, R67; 10 R395, R396; 14 R509)

An access looks at an entry, loses it where it is malformed or cannot be read, and wakes what it needs. A segment that stands in OPEN form in
Pond on a unit in service is never the one that is lost. -/

namespace Sys2Proof.Machine

/-- An entry of a segment that stands in OPEN form at a near Pond address, without an image. -/
structure Sme.Stands (a : Nat) (e : Sme) : Prop where
  opn : e.st = .opn
  home : e.home = some (.near false a)
  noImage : e.image = none
  formed : ∀ s : State, s.malformed e = false

namespace Sme.Stands

variable {e : Sme} {a : Nat} (here : e.Stands a)
include here

theorem still : e.st ≠ .transit := by rw [here.opn]; nofun

theorem src : e.src = .opn := (if_neg here.still).trans here.opn

theorem form : e.f.codec = 2 ∧ e.cs = 16 := by
  have good := here.formed State.reset
  simp only [State.malformed, Bool.or_eq_false_iff, Bool.not_eq_false', here.src] at good
  obtain ⟨⟨⟨⟨⟨form, -⟩, -⟩, -⟩, -⟩, -⟩ := good
  simpa only [formOk, Bool.and_eq_true, beq_iff_eq] using form

theorem ne_new (age : W16) : e ≠ Sme.new age := by
  rintro rfl
  have opn := here.opn
  rw [Sme.st_new] at opn
  cases opn

/-- A stamp of the age leaves the entry where it stands. -/
theorem aged (age : W16) : (e.edit (fun f => { f with age := age })).Stands a := by
  have st : (e.edit (fun f => { f with age := age })).st = e.st := by rw [Sme.st, Sme.f_edit]; rfl
  have src : (e.edit (fun f => { f with age := age })).src = e.src := Sme.src_edit e rfl rfl
  have home : (e.edit (fun f => { f with age := age })).home = e.home := Sme.home_edit e rfl rfl rfl
  have image : (e.edit (fun f => { f with age := age })).image = e.image := by rw [Sme.image, Sme.f_edit]; rfl
  have cs : (e.edit (fun f => { f with age := age })).cs = e.cs := by rw [Sme.cs, Sme.f_edit]; rfl
  refine ⟨st.trans here.opn, home.trans here.home, image.trans here.noImage, fun s => ?_⟩
  rw [← here.formed s]
  simp only [State.malformed, st, src, home, image, cs, Sme.f_edit]

end Sme.Stands

/-- Whether a near entry without an image is malformed follows from the entry alone. -/
theorem malformed_of_near {e : Sme} {spr : Bool} {a : Nat} (home : e.home = some (.near spr a)) (noImage : e.image = none) (s t : State) :
    s.malformed e = t.malformed e := by
  simp only [State.malformed, home, noImage]
  rfl

namespace State

variable {s t u : State} {r : RegionId} {seg a k : Nat}

theorem InPond.stands (pond : s.InPond r seg a) : s.Lists (segKey r seg) (Sme.Stands a) := by
  obtain ⟨e, found, -⟩ := lists_of_home pond.home
  have own : s.sme r seg = e := by rw [State.sme, Tbl.getD, found]; rfl
  exact ⟨e, found, own ▸ ⟨pond.opn, pond.home, pond.noImage, fun t =>
    (malformed_of_near pond.home pond.noImage t s).trans pond.good⟩⟩

/-! ### The relation -/

/-- Two states that agree on programs, bytes, entries of regions, grants and the directory, and on all else that an access to a segment leaves. -/
def Aside (s t : State) : Prop := t = { s with
  map := t.map, pond := t.pond, lake := t.lake, ports := t.ports, pwr := t.pwr, evt := t.evt, trc := t.trc, out := t.out
  q := { s.q with ops := t.q.ops }, rt := { s.rt with cnt := t.rt.cnt } }

theorem Aside.trans (x : s.Aside t) (y : t.Aside u) : s.Aside u := by
  unfold Aside at x y ⊢
  rw [x] at y
  exact y

/-- Two states between which segments were looked at, read ahead or lost, and none that stands in Pond. -/
structure Spares (s t : State) : Prop where
  rest : s.Aside t
  fmap : t.evt.fmap = s.evt.fmap
  moveNo : t.map.moveNo = s.map.moveNo
  away : t.map.away = s.map.away
  moves : ∀ m ∈ t.map.moves, m ∈ s.map.moves
  training : ∀ n, (t.pch n).training = (s.pch n).training
  pst : ∀ n, (t.ledger n).st = (s.ledger n).st
  stands : ∀ k a, s.dead (.near false a) = false → s.Lists k (Sme.Stands a) → t.Lists k (Sme.Stands a)

namespace Spares

theorem refl (s : State) : s.Spares s := ⟨rfl, rfl, rfl, rfl, fun _ h => h, fun _ => rfl, fun _ => rfl, fun _ _ _ h => h⟩

theorem dead (x : s.Spares t) (l : Loc) : t.dead l = s.dead l := by
  simp only [State.dead, State.pchFenced, State.fenced, x.fmap]

theorem trans (x : s.Spares t) (y : t.Spares u) : s.Spares u := by
  exact ⟨x.rest.trans y.rest, y.fmap.trans x.fmap, y.moveNo.trans x.moveNo, y.away.trans x.away, fun m h => x.moves m (y.moves m h),
    fun n => (y.training n).trans (x.training n), fun n => (y.pst n).trans (x.pst n),
    fun k a live h => y.stands k a ((x.dead _).trans live) (x.stands k a live h)⟩

theorem ite {c : Prop} [Decidable c] (x : s.Spares t) (y : s.Spares u) : s.Spares (if c then t else u) := by
  split
  exacts [x, y]

theorem foldl {α : Type} {f : State → α → State} (hf : ∀ (t : State) a, t.Spares (f t a)) (l : List α) (s : State) : s.Spares (l.foldl f s) := by
  induction l generalizing s with
  | nil => exact .refl s
  | cons b l ih => exact (hf s b).trans (ih _)

theorem mem (x : s.Spares t) : t.mem = s.mem := by rw [x.rest]
theorem dir (x : s.Spares t) : t.dir = s.dir := by rw [x.rest]
theorem ent (x : s.Spares t) : t.rt.ent = s.rt.ent := by rw [x.rest]
theorem grants (x : s.Spares t) : t.rt.grants = s.rt.grants := by rw [x.rest]
theorem progs (x : s.Spares t) : t.q.progs = s.q.progs := by rw [x.rest]

/-- Where the state of units and the entries of the map are as they were, nothing that stands is lost. -/
theorem quiet
    (rest : t = { s with
      map := t.map, lake := t.lake, ports := t.ports, evt := t.evt, trc := t.trc, out := t.out, rt := { s.rt with cnt := t.rt.cnt } })
    (fmap : t.evt.fmap = s.evt.fmap)
    (map : t.map = { s.map with rel := t.map.rel, relNo := t.map.relNo, look := t.map.look, trials := t.map.trials, lostRuns := t.map.lostRuns }) :
    s.Spares t :=
  ⟨by rw [Aside, rest], fmap, by rw [map], by rw [map], fun m h => by rwa [map] at h, fun n => by rw [rest]; rfl, fun n => by rw [rest]; rfl,
    fun k a _ h => by rw [Lists, map]; exact h⟩

/-- A segment in Pond stays there. -/
theorem inPond (x : s.Spares t) (pond : s.InPond r seg a) : t.InPond r seg a := by
  have here := (x.stands _ _ pond.live pond.stands).sme
  have live : t.dead (.near false a) = false := (x.dead _).trans pond.live
  refine ⟨?_, here.formed t, here.opn, here.home, here.noImage, live, ?_, ?_, ?_⟩
  · rw [State.pageAway, x.away]
    exact pond.here
  · have awake := pond.awake
    have codec := here.form.1
    have codec' := pond.stands.sme.form.1
    simp [State.asleep, pond.noImage, pond.home, Loc.tile, State.decoder, codec'] at awake
    simp [State.asleep, here.noImage, here.home, Loc.tile, State.decoder, codec, x.pst, awake]
  · have ready := pond.ready
    simp [State.trainRun, pond.noImage, pond.home, pond.live, State.trainHeld, Loc.pch] at ready
    simp [State.trainRun, here.noImage, here.home, live, State.trainHeld, Loc.pch, x.training, ready]
  · have still := pond.still
    rw [State.moveOf, List.find?_eq_none] at still ⊢
    exact fun m hm => still m (x.moves m hm)

end Spares

/-! ### Operations that spare what stands in Pond -/

theorem post_spares {p : Post} : s.Spares (s.post p) := by
  have told := s.post_told p
  exact .quiet (by rw [told.rest]) told.fmap (by rw [told.map_eq])

theorem count_spares {f : RCnt → RCnt} : s.Spares (s.count r f) := .quiet rfl rfl rfl

theorem countRecov_spares {l : Loc} : s.Spares (s.countRecov l r seg) := .quiet rfl rfl rfl

theorem release_spares {l : Loc} {len : Nat} {image : Bool} : s.Spares (s.release l len image) := by
  rw [release_rest]
  exact .quiet rfl rfl rfl

theorem endTrial_spares : s.Spares (s.endTrial r seg) := .quiet rfl rfl rfl

theorem lostRuns_spares {l : List (Loc × Nat)} : s.Spares { s with map := { s.map with lostRuns := l } } := .quiet rfl rfl rfl

theorem looked_spares : s.Spares (s.looked r seg) := by
  unfold State.looked
  split
  exacts [.refl s, .quiet rfl rfl rfl]

theorem startMiss_spares {p : Option Nat} : s.Spares (s.startMiss r seg p) := by
  unfold State.startMiss
  split
  · exact .ite (.quiet rfl rfl rfl) (.quiet rfl rfl rfl)
  · exact .quiet rfl rfl rfl

theorem askWake_spares {n : Nat} : s.Spares (s.askWake n) := by
  refine ⟨rfl, rfl, rfl, rfl, fun _ h => h, fun _ => rfl, fun m => ?_, fun _ _ _ h => h⟩
  unfold State.askWake
  by_cases own : m = n
  · rw [own, ledger_setLedger]
  · rw [ledger_setLedger_ne _ _ own]

theorem wakeFor_spares {l : List (Nat × Nat)} : s.Spares (s.wakeFor r l) := by
  refine .ite (.refl s) (.foldl (fun t seg => ?_) _ _)
  cases t.asleep r seg with
  | none => exact .refl t
  | some n => exact askWake_spares

theorem wakeSid_spares {l : Loc} : s.Spares (s.wakeSid l) := by
  have rest := s.wakeSid_rest l 1 .host 1
  refine ⟨by rw [Aside, rest], by rw [rest], by rw [rest], by rw [rest], fun m h => by rwa [rest] at h, fun n => ?_, fun n => by rw [rest]; rfl,
    fun k a _ h => by rw [rest]; exact h⟩
  unfold State.wakeSid
  split
  · rename_i b
    show (State.pch (if (s.pch (b / 2 ^ 23)).pd.isEmpty then s else _) n).training = _
    split
    · rfl
    · by_cases own : n = b / 2 ^ 23
      · rw [own, pch_setPch]
        rfl
      · rw [pch_setPch_ne _ _ own]
  · rfl

/-- An entry written under a key: under its own key it must stand. -/
theorem Lists.written {P : Sme → Prop} {n : Nat} {d x : Sme} (here : s.Lists k P) (write : t.map.sme = s.map.sme.set n d x)
    (own : n = k → x ≠ d ∧ P x) : t.Lists k P := by
  by_cases same : n = k
  · exact here.set write (own same).1 (fun _ => (own same).2)
  · obtain ⟨e, found, p⟩ := here
    refine ⟨e, ?_, p⟩
    rw [write, Tbl.set]
    split
    · rw [Tbl.find_del_ne _ (Ne.symm same), found]
    · rw [Tbl.find_put_ne _ _ (Ne.symm same), found]

/-- A stamp of the age of a segment. -/
theorem stamp_spares {age : W16} : s.Spares (s.putSme r seg ((s.sme r seg).edit (fun f => { f with age := age }))) := by
  refine ⟨rfl, rfl, rfl, rfl, fun _ h => h, fun _ => rfl, fun _ => rfl, fun k a _ h => h.written (t := s.putSme r seg _) rfl ?_⟩
  rintro rfl
  exact ⟨(h.sme.aged age).ne_new _, h.sme.aged age⟩

theorem foldl_wakeSid_map (l : List Loc) : (l.foldl (fun t l => t.wakeSid l) s).map = s.map := by
  induction l generalizing s with
  | nil => rfl
  | cons b l ih => rw [List.foldl_cons, ih, wakeSid_rest]

theorem touch_spares : s.Spares (s.touch r seg) := by
  unfold State.touch
  extract_lets s1 e s2
  have woken : s.Spares s2 := looked_spares.trans (.foldl (fun _ _ => wakeSid_spares) _ _)
  have same : s2.sme r seg = e := by
    have map : s2.map = s1.map := foldl_wakeSid_map _
    have rt : s2.rt = s1.rt :=
      (congrArg State.rt (Placed.foldl (s := s1) (f := fun t l => t.wakeSid l) (fun _ _ => wakeSid_placed) [e.image, e.home].reduceOption).rest :)
    simp only [e, State.sme, State.newSme, map, rt]
  refine .ite woken (woken.trans ?_)
  rw [← same]
  exact stamp_spares

/-- The entry of a segment that did not stand is written. -/
theorem Spares.commitSme {e : Sme} (x : s.Spares t) (lost : ∀ a, s.dead (.near false a) = false → ¬(s.sme r seg).Stands a) :
    s.Spares (t.commitSme r seg e) := by
  have rest := commitSme_rest (s := t) r seg e
  have map := map_commitSme (s := t) r seg e
  have aside : t.Aside (t.commitSme r seg e) := by rw [Aside, rest]
  refine ⟨x.rest.trans aside, by rw [rest, x.fmap], by rw [map, x.moveNo], by rw [map, x.away], fun m h => x.moves m (by rwa [map] at h),
    fun n => by rw [rest, ← x.training]; rfl, fun n => by rw [rest, ← x.pst]; rfl, fun k a live h => (x.stands k a live h).written sme_commitSme ?_⟩
  rintro rfl
  exact absurd h.sme (lost a live)

/-- A move that ends leaves the map but for its entry and its place among the moves. -/
theorem abortMove_map (n : Nat) :
    (s.abortMove n).map = { s.map with sme := (s.abortMove n).map.sme, moves := (s.abortMove n).map.moves } := by
  unfold State.abortMove
  split
  · rfl
  · rename_i m _
    extract_lets s0 e _ _ s1
    have kept : s1.map = { s.map with moves := s.map.moves.del n } := by
      rw [← sealBack_map (s := s) m]
    split
    · rw [map_commitSme, kept]
    · rw [kept]

/-- A move that ends may give an entry its place back, and takes none that stands. -/
theorem abortMove_spares {n : Nat} : s.Spares (s.abortMove n) := by
  have rest := (abortMove_unhomed (s := s) (n := n)).rest
  refine ⟨by rw [Aside, rest], by rw [rest], by rw [abortMove_map], by rw [abortMove_map], fun m h => ?_, fun n => by rw [rest]; rfl,
    fun n => by rw [rest]; rfl, fun k a _ h => abortMove_lists (fun e moving here => absurd moving here.still) h⟩
  rw [(s.abortMove_forgets n).2] at h
  exact List.mem_of_mem_filter h

theorem cancelMove_spares : s.Spares (s.cancelMove r seg) := by
  unfold State.cancelMove
  split
  exacts [abortMove_spares, .refl s]

theorem poisonSeg_spares {cause : Nat} (lost : ∀ a, s.dead (.near false a) = false → ¬(s.sme r seg).Stands a) :
    s.Spares (s.poisonSeg r seg cause) := by
  unfold State.poisonSeg
  extract_lets s1 e s2 s3
  have gone : s.Spares s2 := cancelMove_spares.commitSme lost
  have freed : s2.Spares s3 := by
    unfold s3
    split
    exacts [release_spares, .refl s2]
  exact ((gone.trans freed).trans endTrial_spares).trans count_spares

theorem servedMalformed_spares (bad : s.malformed (s.sme r seg) = true) : s.Spares (s.servedMalformed r seg) := by
  unfold State.servedMalformed
  extract_lets e s1 runs
  have gone : s.Spares s1 := cancelMove_spares.commitSme (fun a _ here => Bool.false_ne_true ((here.formed s).symm.trans bad))
  exact ((gone.trans lostRuns_spares).trans count_spares).trans post_spares

theorem dropImage_spares : s.Spares (s.dropImage r seg) := by
  unfold State.dropImage
  extract_lets e
  split
  · exact .refl s
  · rename_i l image
    refine (Spares.commitSme (.refl s) (fun a _ here => ?_)).trans release_spares
    rw [here.noImage] at image
    cases image

theorem checkSme_spares : s.Spares (s.checkSme r seg) := by
  unfold State.checkSme
  extract_lets e
  split
  · exact servedMalformed_spares ‹_›
  · split
    · exact .ite dropImage_spares (.refl s)
    · rename_i h home _
      split
      · rename_i fenced
        refine (poisonSeg_spares (fun a live here => ?_)).trans countRecov_spares
        have same : h = .near false a := Option.some.inj (home.symm.trans here.home)
        rw [same, live] at fenced
        exact Bool.false_ne_true fenced.1
      · exact .refl s
    · exact .refl s

/-! ### Reads ahead (10 R395, R396) -/

/-- A stored form that does not decode: the home is lost (03 R127). -/
theorem homeFault_spares {l : Loc} {tag : Bool} (lost : ∀ a, s.dead (.near false a) = false → ¬(s.sme r seg).Stands a) :
    s.Spares (s.homeFault r seg l tag true) := by
  unfold State.homeFault
  extract_lets e s1 s2 s3
  have gone : s.Spares s2 := poisonSeg_spares lost
  have told : s.Spares s3 := gone.trans (.ite (count_spares.trans post_spares) (.refl s2))
  exact told.trans (count_spares.trans post_spares)

theorem imageFault_spares {l : Loc} {tag : Bool} : s.Spares (s.imageFault r seg l tag true) := by
  unfold State.imageFault
  extract_lets e s1 s2 s3
  have told : s.Spares s2 := .ite (count_spares.trans post_spares) (.refl s)
  exact (told.trans (count_spares.trans post_spares)).trans dropImage_spares

/-- A segment that stands on a unit in service is read where it stands. -/
theorem lineBytes_of_stands {e : Sme} (here : e.Stands a) (j : Nat) :
    s.lineBytes e (some (.near false a)) j = some (((s.readRun (.near false a) 16).drop (64 * j)).take 64) := by
  rw [State.lineBytes, here.form.1, here.form.2]
  rfl

/-- A read whose sector checks pass loses no more than a home that does not decode. -/
theorem readLine_spares (j : Nat) : s.Spares (s.readLine r seg j .ok).1 := by
  unfold State.readLine
  extract_lets s1 e
  have checked : s.Spares s1 := checkSme_spares
  refine checked.trans ?_
  split
  · exact .refl s1
  · split
    · exact touch_spares
    · split
      · simp only [chkFails, Bool.false_eq_true, if_false]
        split
        · rw [noteChk_ok, mend_ok]
          exact touch_spares
        · exact imageFault_spares
      · rename_i home
        simp only [chkFails, Bool.false_eq_true, if_false]
        split
        · exact .refl s1
        · split
          · rw [noteChk_ok, mend_ok]
            exact touch_spares
          · rename_i unread
            refine (homeFault_spares (fun a _ here => ?_)).trans touch_spares
            rw [Option.some.inj (home.symm.trans here.home), lineBytes_of_stands here] at unread
            cases unread
      · exact .refl s1
      · exact touch_spares

theorem feedAhead_spares {h : HostId} {last : Nat} : s.Spares (s.feedAhead h r last) := by
  refine .foldl (fun t i => ?_) _ _
  extract_lets seg
  split
  · exact .refl t
  · split
    · exact wakeFor_spares
    · have read := readLine_spares (s := t) (r := r) (seg := seg) 0
      split <;> rename_i same <;> rw [same] at read
      · exact read.trans startMiss_spares
      · exact read

end State

end Sys2Proof.Machine
end

section
/-! ## Loads of programs from segments that stand in Pond (06 R255; 08 R334; 10 R395, R397) -/

namespace Sys2Proof.Machine

namespace State

variable {s t u : State} {r : RegionId} {seg a off n p : Nat} {x : Prog} {c : Chk}

/-! ### Bytes of one segment -/

/-- One line of a load, after the lines before it. -/
def loadStep (p : Option Nat) (served : List Nat) (r : RegionId) (first : Nat) (b : State × Ld × Chk) (i : Nat) : State × Ld × Chk :=
  match b.2.1 with
  | .bytes l =>
    match b.1.loadLine p served r (first + i) b.2.2 with
    | (t, .bytes y) => (t, .bytes (l ++ y), .ok)
    | (t, other) => (t, other, .ok)
  | _ => b

theorem loadBytes_eq (p : Option Nat) (served : List Nat) : s.loadBytes p served r off n c =
    (let b := (List.range ((off + n - 1) / 64 - off / 64 + 1)).foldl (loadStep p served r (off / 64)) (s, Ld.bytes [], c)
    match b.2.1 with
    | .bytes l => (b.1, .bytes ((l.drop (off % 64)).take n))
    | other => (b.1, other)) := rfl

/-- What a load finds of a region: no directory guards its lines, none is lost. -/
structure Free (s : State) (r : RegionId) : Prop where
  untracked : (s.ent r).tracked = false
  whole : ∀ y ∈ s.dir.lost, y.2.1 ≠ r

theorem Free.untracked_line (own : s.Free r) (line : Nat) : s.Untracked r line := by
  refine ⟨own.untracked, ?_⟩
  simp only [State.isLost, List.any_eq_false]
  intro y hy
  simp [own.whole y hy]

theorem Spares.free (x : s.Spares t) (own : s.Free r) : t.Free r :=
  ⟨by rw [State.ent, x.ent]; exact own.untracked, by rw [x.dir]; exact own.whole⟩

theorem loadLine_of_readLine {line : Nat} {q : Option Nat} {served : List Nat} {b : List Byte} (own : s.Untracked r line)
    (read : s.readLine r (line / 64) (line % 64) c = (t, .line b)) : s.loadLine q served r line c = (t, .bytes b) := by
  have quiet : (if served.contains (lineKey r (BitVec.ofNat 40 line)) then (s, false) else s.curSnoop r (BitVec.ofNat 40 line)) = (s, false) := by
    rw [State.curSnoop, if_pos own.free]
    exact ite_self _
  simp only [State.loadLine, own.found, quiet, read, Bool.false_eq_true, if_false]

/-- A line whose check passes outright is read where it stands, and its segment stays. -/
theorem InPond.loadLine_ok {line : Nat} {q : Option Nat} {served : List Nat} (pond : s.InPond r (line / 64) a) (own : s.Free r) :
    ∃ t, s.Placed t ∧ s.Spares t ∧
      s.loadLine q served r line .ok = (t, .bytes (((s.readRun (.near false a) 16).drop (64 * (line % 64))).take 64)) := by
  obtain ⟨t, placed, read⟩ := pond.readLine (c := .ok) rfl (line % 64)
  have spares := readLine_spares (s := s) (r := r) (seg := line / 64) (line % 64)
  rw [read] at spares
  exact ⟨t, placed, spares, loadLine_of_readLine (own.untracked_line line) read⟩

/-- Lines of one segment, read one after another. -/
theorem InPond.loadLines {first m : Nat} {q : Option Nat} {served : List Nat} (pond : s.InPond r (first / 64) a) (own : s.Free r)
    (inside : first % 64 + m ≤ 64) : ∃ t, s.Placed t ∧ s.Spares t ∧
      (List.range m).foldl (loadStep q served r first) (s, Ld.bytes [], .ok) =
        (t, .bytes (((s.readRun (.near false a) 16).drop (64 * (first % 64))).take (64 * m)), .ok) := by
  induction m with
  | zero => exact ⟨s, .refl s, .refl s, by simp⟩
  | succ m ih =>
    obtain ⟨t, placed, spares, lines⟩ := ih (by omega)
    have seg : (first + m) / 64 = first / 64 := by omega
    have line : (first + m) % 64 = first % 64 + m := by omega
    obtain ⟨u, placed', spares', load⟩ := InPond.loadLine_ok (line := first + m) (q := q) (served := served)
      (by rw [seg]; exact spares.inPond pond) (spares.free own)
    refine ⟨u, placed.trans placed', spares.trans spares', ?_⟩
    have same : t.readRun (.near false a) 16 = s.readRun (.near false a) 16 := by rw [State.readRun, spares.mem]; rfl
    rw [List.range_succ, List.foldl_append, lines, List.foldl_cons, List.foldl_nil, loadStep]
    simp only [load, same, line]
    rw [Nat.mul_succ, List.take_add, List.drop_drop, Nat.mul_add]

/-- Bytes of one segment in Pond whose checks pass outright. -/
theorem InPond.loadBytes_ok {q : Option Nat} {served : List Nat} (pond : s.InPond r (off / 4096) a) (own : s.Free r) (some : 0 < n)
    (inside : off % 4096 + n ≤ 4096) :
    ∃ t, s.Placed t ∧ s.Spares t ∧ s.loadBytes q served r off n .ok = (t, .bytes (s.pondBytes a off n)) := by
  obtain ⟨t, placed, spares, lines⟩ := InPond.loadLines (first := off / 64) (m := (off + n - 1) / 64 - off / 64 + 1) (q := q) (served := served)
    (by rwa [Nat.div_div_eq_div_mul]) own (by omega)
  refine ⟨t, placed, spares, ?_⟩
  have place : 64 * (off / 64 % 64) + off % 64 = off % 4096 := by omega
  simp only [loadBytes_eq, lines]
  rw [take_drop_take_drop _ (by omega), place]
  rfl

/-- Bytes of one line in Pond whose check passes. -/
theorem InPond.loadBytes_of_one_line {q : Option Nat} {served : List Nat} (pond : s.InPond r (off / 4096) a) (own : s.Free r) (some : 0 < n)
    (inside : off % 64 + n ≤ 64) (fine : chkFails c = false) :
    ∃ t, s.Placed t ∧ s.loadBytes q served r off n c = (t, .bytes (s.pondBytes a off n)) := by
  obtain ⟨t, placed, load⟩ := InPond.loadLine (line := off / 64) (p := q) (served := served) (by rwa [Nat.div_div_eq_div_mul])
    (own.untracked_line _) fine
  refine ⟨t, placed, ?_⟩
  have one : (off + n - 1) / 64 - off / 64 + 1 = 1 := by omega
  have place : 64 * (off / 64 % 64) + off % 64 = off % 4096 := by omega
  simp only [loadBytes_eq, one, List.range_one, List.foldl_cons, List.foldl_nil, loadStep, Nat.add_zero, load, List.nil_append]
  rw [take_drop_take_drop _ inside, place]
  rfl

theorem progLoad_of_loadBytes {b : List Byte} (load : s.loadBytes (some p) x.served r off n c = (t, .bytes b)) :
    s.progLoad p x r off n c = (t, some (x.sees r off b)) := by
  simp only [State.progLoad, load]

theorem sees_of_clean {b : List Byte} (clean : x.stores = []) : x.sees r off b = b := by
  rw [Prog.sees, clean]
  rfl

/-! ### Feeder streams (10 R395) -/

/-- A state after a load of a program has been noted: only its feeder has changed of the program, and segments in Pond stay. -/
structure Fed (s t : State) (p : Nat) (x : Prog) : Prop where
  prog : ∃ f, t.prog p = some { x with feed := f }
  mem : t.mem = s.mem
  ent : t.rt.ent = s.rt.ent
  grants : t.rt.grants = s.rt.grants
  dir : t.dir = s.dir
  inPond : ∀ {r seg a}, s.InPond r seg a → t.InPond r seg a

theorem Fed.refl (running : s.prog p = some x) : s.Fed s p x := ⟨⟨x.feed, running⟩, rfl, rfl, rfl, rfl, fun h => h⟩

theorem setProg_inPond {y : Prog} (pond : s.InPond r seg a) : (s.setProg p y).InPond r seg a :=
  ⟨pond.here, pond.good, pond.opn, pond.home, pond.noImage, pond.live, pond.awake, pond.ready, pond.still⟩

theorem setFeed_fed (f : List Feed) : s.Fed (s.setProg p { x with feed := f }) p x :=
  ⟨⟨f, prog_setProg ..⟩, rfl, rfl, rfl, rfl, setProg_inPond⟩

theorem feed_fed {line m : Nat} (running : s.prog p = some x) : s.Fed (s.feed p r line m) p x := by
  unfold State.feed
  split
  · exact .refl running
  · obtain rfl := Option.some.inj (running.symm.trans ‹_›)
    split
    · exact .refl running
    extract_lets others run kept opened gone s1
    have noted : s.Fed s1 p x := setFeed_fed _
    split
    · have ahead : s1.Spares (s1.feedAhead x.host r (line + m - 1)) := feedAhead_spares
      obtain ⟨f, listed⟩ := noted.prog
      refine ⟨⟨f, ?_⟩, ahead.mem.trans noted.mem, ahead.ent.trans noted.ent, ahead.grants.trans noted.grants, ahead.dir.trans noted.dir,
        fun pond => ahead.inPond (noted.inPond pond)⟩
      rw [State.prog, ahead.progs]
      exact listed
    · exact noted

/-- A load of fewer lines than a stream takes, by a program without a feeder. -/
theorem feed_of_few {line m : Nat} (running : s.prog p = some x) (none : x.feed = []) (few : m < 4) :
    (s.feed p r line m).rt = s.rt ∧ (s.feed p r line m).out = s.out := by
  have short : min 4 m ≠ 4 := by omega
  unfold State.feed
  rw [running]
  simp only [none, List.find?_nil, if_neg short]
  split <;> exact ⟨rfl, rfl⟩

end State

end Sys2Proof.Machine
end

section
/-! ## LD and ST (09 R355, R356, R374, R389; 08 R334; 10 R391 to R394) -/

namespace Sys2Proof.Machine

variable {s t u : State} {p n off a : Nat} {x : Prog} {w e : W64} {r : RegionId} {chk : Chk}

/-! ### Sizes and places -/

/-- The access widths are the powers of two 1 to 8, 128 and 1024. -/
theorem accSize_cases {k : Nat} (size : accSize k = some n) : k ≤ 3 ∧ n ∣ 8 ∨ k = 4 ∧ n = 128 ∨ k = 5 ∧ n = 1024 := by
  match k with
  | 0 | 1 | 2 | 3 => obtain rfl := Option.some.inj size; decide
  | 4 | 5 => obtain rfl := Option.some.inj size; decide
  | _ + 6 => cases size

theorem accSize_dvd {k : Nat} (size : accSize k = some n) : n ∣ 4096 := by
  rcases accSize_cases size with ⟨-, small⟩ | ⟨-, rfl⟩ | ⟨-, rfl⟩
  exacts [small.trans (by decide), by decide, by decide]

theorem accSize_pos {k : Nat} (size : accSize k = some n) : 0 < n := Nat.pos_of_dvd_of_pos (accSize_dvd size) (by decide)

/-- An access on a multiple of its size stays within an aligned block. -/
theorem within_of_aligned {m : Nat} (size : n ∣ m) (some : 0 < m) (aligned : n ∣ off) : off % m + n ≤ m := by
  have below := Nat.mod_lt off some
  obtain ⟨j, hj⟩ := (Nat.dvd_mod_iff size).mpr aligned
  obtain ⟨k, rfl⟩ := size
  rw [hj] at below ⊢
  exact Nat.mul_succ n j ▸ Nat.mul_le_mul_left n (Nat.lt_of_mul_lt_mul_left below)

theorem length_storeFrom (size : accSize (accWidth w) = some n) : (x.storeFrom w).length = n := by
  unfold Prog.storeFrom
  split
  · rename_i wide
    rw [wide] at size
    rw [length_toBytes]
    exact Option.some.inj size
  · rename_i wide
    rw [wide] at size
    rw [List.length_flatMap]
    simp only [length_toBytes]
    exact Option.some.inj size
  · rw [length_toBytes, size]
    rfl

/-- What is loaded does not reach a program's feeder. -/
theorem loadInto_feed (x : Prog) (w : W64) (b : List Byte) (f : List Feed) :
    Prog.loadInto { x with feed := f } w b = { x.loadInto w b with feed := f } := by
  unfold Prog.loadInto
  split
  · rfl
  · refine List.foldl_hom (fun y : Prog => { y with feed := f }) ?_
    exact fun _ _ => rfl
  · unfold Prog.setG
    split <;> rfl

namespace State

/-! ### Rights -/

theorem live_of_loads {k : Int} (access : s.dataAccess x.host r k n false = none) : (s.ent r).st ≠ .freed := by
  intro freed
  simp only [State.dataAccess, State.loadState, freed, if_true, Bool.false_eq_true, if_false] at access
  split at access
  · cases access
  · rename_i lasting
    split at lasting <;> cases lasting

theorem aligned_of_ldstCheck (fine : ldstCheck s x w = none) (region : isScratch w = false) (size : accSize (accWidth w) = some n)
    (live : (s.ent (hRegion (x.hr (fH w)))).st ≠ .freed) (addr : x.effAddr w n = (off : Int)) : n ∣ off := by
  simp only [ldstCheck, size, addr, region, live, Bool.false_eq_true, if_false, false_and, and_false, true_and] at fine
  split_ifs at fine with _ _ _ _ _ whole
  exact Int.natCast_dvd_natCast.mp (Int.dvd_of_emod_eq_zero (not_not.mp whole))

/-! ### Pending stores -/

theorem growLog_prog {f m : Nat} (running : s.prog p = some x) (grown : s.growLog p m f = .ok t) : ∃ l, t.prog p = some { x with log := l } := by
  induction f generalizing s x with
  | zero => cases grown
  | succ f ih =>
    simp only [State.growLog, running] at grown
    split at grown
    · cases grown
      exact ⟨x.log, running⟩
    · split at grown
      · rename_i a _
        exact ih (x := { x with log := x.log ++ [a] }) (prog_setProg ..) grown
      · cases grown
      · cases grown

theorem prog_upd {f : Prog → Prog} (running : s.prog p = some x) :
    State.prog { s with q := { s.q with progs := s.q.progs.upd p f } } p = some (f x) := by
  rw [State.prog] at running ⊢
  rw [Tbl.find_upd, if_pos rfl, running]
  rfl

theorem pend_prog {l : List PStore} (running : s.prog p = some x) (held : s.pend p l = .ok t) :
    ∃ g, t.prog p = some { x with stores := x.stores ++ l, log := g } := by
  simp only [State.pend, running] at held
  split at held
  · split at held
    · cases held
    · split at held
      · rename_i grown
        obtain ⟨g, listed⟩ := growLog_prog running grown
        cases held
        exact ⟨g, prog_upd listed⟩
      · rename_i other
        exact absurd held (other t)
  · split at held
    · cases held
    · cases held
      exact ⟨x.log, prog_upd running⟩

/-- A control program holds its stores without log space (08 R334). -/
theorem pend_of_control {l : List PStore} (running : s.prog p = some x) (control : 96 ≤ x.core) (few : (storeLines (x.stores ++ l)).length ≤ 1024) :
    s.pend p l = .ok (s.setProg p { x with stores := x.stores ++ l }) := by
  have upd : s.q.progs.upd p (fun y => { y with stores := x.stores ++ l }) = s.q.progs.put p { x with stores := x.stores ++ l } := by
    rw [Tbl.upd, show s.q.progs.find p = some x from running]
  simp only [State.pend, running, upd, if_neg (Nat.not_lt.mpr control), if_neg (Nat.not_lt.mpr few)]
  rfl

theorem okOn_setProg {f : Prog → Prog} (free : x.cancel = none) :
    (s.setProg p x).okOn p f = s.setProg p (x.onward { f x with lastSt := 0 }) := by
  rw [okOn_of_running (prog_setProg ..) free, setProg_setProg]

/-- The program of an instruction that holds stores, once its request for log space has ended. -/
def heldStores (s : State) (p : Nat) : PendEnd → State
  | .ok t => t.okOn p (fun y => y)
  | .wait t => t
  | .full => s.failProg p (capErr 6)

theorem heldStores_ok {l : List PStore} (running : s.prog p = some x) (free : x.cancel = none) (held : s.pend p l = .ok t) :
    ∃ g, (s.heldStores p (.ok t)).prog p = some (x.onward { x with stores := x.stores ++ l, log := g, lastSt := 0 }) := by
  obtain ⟨g, listed⟩ := pend_prog running held
  refine ⟨g, ?_⟩
  rw [heldStores, okOn_of_running listed free, prog_setProg]
  rfl

theorem heldStores_full (running : s.prog p = some x) (heard : x.mute = false) (ready : s.CanPost x.host x.q) :
    s.EndsWith (s.heldStores p .full) p x eCapacity 6 0 ∧ (s.heldStores p .full).mem = s.mem :=
  ⟨failProg_endsWith (er := capErr 6) running heard ready, endProg_woundDown.mem⟩

/-! ### The instructions -/

theorem ld_scratch (here : s.AtWord p x (isOp 0x40) w e) (taken : (x.pred w).getLsbD 0 = true) (formed : ldstCheck s x w = none)
    (scratch : isScratch w = true) (size : accSize (accWidth w) = some n) (addr : x.effAddr w n = (off : Int)) (fine : chkFails chk = false) :
    exec (.ld p chk) s = .next (s.setProg p (x.onward { x.loadInto w (readBytes s.mem.bytes (x.scratchAt off) n) with lastSt := 0 })) := by
  refine congrArg Host.Outcome.next ((here.instr taken formed).trans ?_)
  simp only [scratch, if_true, fine, Bool.false_eq_true, if_false, size, Option.getD_some, addr, Int.toNat_natCast]
  exact okOn_of_running here.prog here.free

/-- A load of a region that is ready and open to the program. -/
theorem ld_region {b : List Byte} (here : s.AtWord p x (isOp 0x40) w e) (taken : (x.pred w).getLsbD 0 = true) (formed : ldstCheck s x w = none)
    (region : isScratch w = false) (size : accSize (accWidth w) = some n) (addr : x.effAddr w n = (off : Int)) (handle : hRegion (x.hr (fH w)) = r)
    (ready : s.dataReady r [(off, n)] = true) (access : s.dataAccess x.host r off n false = none)
    (load : s.loadBytes (some p) x.served r off n chk = (t, .bytes b)) :
    exec (.ld p chk) s = .next ((t.feed p r (off / 64) ((off + n - 1) / 64 - off / 64 + 1)).okOn p (fun y => y.loadInto w (x.sees r off b))) := by
  refine congrArg Host.Outcome.next ((here.instr taken formed).trans ?_)
  simp only [region, Bool.false_eq_true, if_false, size, Option.getD_some, addr, Int.toNat_natCast, handle, ready, Bool.true_eq_false, access,
    progLoad_of_loadBytes load]

theorem ld_refused {er : Err1} (here : s.AtWord p x (isOp 0x40) w e) (taken : (x.pred w).getLsbD 0 = true) (formed : ldstCheck s x w = none)
    (region : isScratch w = false) (size : accSize (accWidth w) = some n)
    (ready : s.dataReady (hRegion (x.hr (fH w))) [((x.effAddr w n).toNat, n)] = true)
    (refused : s.dataAccess x.host (hRegion (x.hr (fH w))) (x.effAddr w n) n false = some er) :
    exec (.ld p chk) s = .next (s.failProg p er) := by
  refine congrArg Host.Outcome.next ((here.instr taken formed).trans ?_)
  simp only [region, Bool.false_eq_true, if_false, size, Option.getD_some, ready, Bool.true_eq_false, refused]

theorem st_scratch (here : s.AtWord p x (isOp 0x41) w e) (taken : (x.pred w).getLsbD 0 = true) (formed : ldstCheck s x w = none)
    (scratch : isScratch w = true) (size : accSize (accWidth w) = some n) (addr : x.effAddr w n = (off : Int)) :
    exec (.st p) s = .next ((s.scratchWrite x off (x.storeFrom w)).setProg p (x.completed 0 0)) := by
  refine congrArg Host.Outcome.next ((here.instr taken formed).trans ?_)
  simp only [scratch, if_true, size, Option.getD_some, addr, Int.toNat_natCast]
  exact okOn_completes here.prog here.free

theorem st_region (here : s.AtWord p x (isOp 0x41) w e) (taken : (x.pred w).getLsbD 0 = true) (formed : ldstCheck s x w = none)
    (region : isScratch w = false) (size : accSize (accWidth w) = some n) (addr : x.effAddr w n = (off : Int)) (handle : hRegion (x.hr (fH w)) = r)
    (even : (s.ent r).odd = false) (access : s.dataAccess x.host r off n true = none) :
    exec (.st p) s = .next (s.heldStores p (s.pend p [⟨r, off, x.storeFrom w, none, x.round⟩])) := by
  refine congrArg Host.Outcome.next ((here.instr taken formed).trans ?_)
  simp only [region, Bool.false_eq_true, if_false, size, Option.getD_some, addr, Int.toNat_natCast, handle, even, access]
  cases s.pend p [⟨r, off, x.storeFrom w, none, x.round⟩] <;> rfl

end State

end Sys2Proof.Machine
end

section
/-! ## PREFETCH, and what loads, stores and prefetches of programs do (09 R374, R375) -/

namespace Sys2Proof.Machine

namespace State

variable {s t u : State} {p : Nat} {x : Prog} {w e : W64} {r : RegionId}

/-! ### Placements -/

theorem startMove_moveNo (m : Move) : (s.startMove m).1.map.moveNo = s.map.moveNo + 1 := by
  unfold State.startMove
  split
  · rfl
  · rw [map_commitSme]

theorem placePond_moveNo {seg cls : Nat} {why : MoveFor} {pick : W32} : s.map.moveNo ≤ (s.placePond r seg cls why pick).map.moveNo := by
  unfold State.placePond
  extract_lets e lend far
  split
  · exact le_rfl
  · split
    · exact le_rfl
    · rw [startMove_moveNo]
      exact Nat.le_succ _

/-- A state after placements that a program asked for: the program has noted moves that began since, and only those. -/
structure Fetched (s t : State) (p : Nat) (x : Prog) : Prop where
  prog : ∃ f, t.prog p = some { x with pf := x.pf ++ f } ∧ ∀ m ∈ f, s.map.moveNo ≤ m ∧ m < t.map.moveNo
  count : s.map.moveNo ≤ t.map.moveNo
  mem : t.mem = s.mem
  dir : t.dir = s.dir
  grants : t.rt.grants = s.rt.grants

namespace Fetched

theorem refl (running : s.prog p = some x) : s.Fetched s p x :=
  ⟨⟨[], by rw [List.append_nil]; exact running, nofun⟩, le_rfl, rfl, rfl, rfl⟩

/-- A step that leaves the programs notes nothing. -/
theorem mono (y : s.Fetched t p x) (progs : u.q.progs = t.q.progs) (count : t.map.moveNo ≤ u.map.moveNo) (mem : u.mem = t.mem) (dir : u.dir = t.dir)
    (grants : u.rt.grants = t.rt.grants) : s.Fetched u p x := by
  obtain ⟨f, listed, since⟩ := y.prog
  refine ⟨⟨f, ?_, fun m hm => ⟨(since m hm).1, (since m hm).2.trans_le count⟩⟩, y.count.trans count, mem.trans y.mem, dir.trans y.dir,
    grants.trans y.grants⟩
  rw [State.prog, progs]
  exact listed

/-- A move that has begun is noted. -/
theorem note {m : Nat} (y : s.Fetched t p x) (since : s.map.moveNo ≤ m) (begun : m < t.map.moveNo) :
    s.Fetched { t with q := { t.q with progs := t.q.progs.upd p (fun y => { y with pf := y.pf ++ [m] }) } } p x := by
  obtain ⟨f, listed, earlier⟩ := y.prog
  refine ⟨⟨f ++ [m], ?_, fun k hk => ?_⟩, y.count, y.mem, y.dir, y.grants⟩
  · rw [prog_upd listed, List.append_assoc]
  · rcases List.mem_append.mp hk with old | new
    · exact earlier k old
    · obtain rfl := List.mem_singleton.mp new
      exact ⟨since, begun⟩

end Fetched

theorem prefetch_fetched {first count : Nat} (running : s.prog p = some x) : s.Fetched (s.prefetch p x r first count) p x := by
  unfold State.prefetch
  extract_lets cls segs
  refine List.foldlRecOn (motive := fun t => s.Fetched t p x) segs _ (.refl running) (fun t y seg _ => ?_)
  extract_lets _ t1 t2
  have looked : t1.Spares (t1.checkSme r seg) := checkSme_spares
  have placed : (t1.checkSme r seg).Placed t2 := placePond_placed
  have count : t1.map.moveNo ≤ t2.map.moveNo := looked.moveNo ▸ placePond_moveNo
  have fetched : s.Fetched t2 p x :=
    y.mono (by rw [placed.rest]; exact looked.progs) count (placed.mem.trans looked.mem) (placed.dir.trans looked.dir)
      (by rw [placed.rest]; exact looked.grants)
  split
  · exact fetched
  · rename_i moved
    exact fetched.note y.count (lt_of_le_of_ne count (Ne.symm moved))

theorem prefetch_of_none {first count : Nat} (none : s.smes r = []) : s.prefetch p x r first count = s := by
  rw [State.prefetch, none]
  rfl

theorem prefetch_runs {off : Nat} (here : s.AtWord p x (isOp 0x44) w e) (taken : (x.pred w).getLsbD 0 = true)
    (fields : onlyBits w [uD, (26, 8), (38, 26)] = true) (valid : hValid (x.hr (fH w)) = true) (handle : hRegion (x.hr (fH w)) = r)
    (addr : (hBase (x.hr (fH w)) : Int) + (x.gr (fBM w)).toNat * 4096 + fOff w = (off : Int)) (aligned : off % 4096 = 0)
    (inside : off + (x.gr (fD w)).toNat ≤ (s.ent r).bytes) (even : (s.ent r).odd = false)
    (access : s.dataAccess x.host r off (x.gr (fD w)).toNat false = none) :
    exec (.prefetch p) s = .next ((s.prefetch p x r (off / 4096) (((x.gr (fD w)).toNat + 4095) / 4096)).okOn p (fun y => y)) := by
  refine congrArg Host.Outcome.next ((here.instr taken ?formed).trans ?_)
  case formed =>
    simp only [fields, valid, addr, handle, Bool.true_eq_false, if_false]
    rw [if_neg (by omega), if_neg (by omega), if_neg (by omega)]
  simp only [handle, even, Bool.false_eq_true, if_false, addr, Int.toNat_natCast, access]

end State

open State

/-- Settles O29: a load of a region reads the bytes of its one segment, and only the feeder of its program notes it; a store of a region is a pending
store of its program, unless the log finds no room; a prefetch notes the moves that it began. -/
theorem loadsAndStoresOfPrograms : Obligations.LoadsAndStoresOfPrograms := by
  unfold Obligations.LoadsAndStoresOfPrograms
  refine ⟨fun s p chk x w e n off here taken formed scratch size addr fine => ld_scratch here taken formed scratch size addr fine,
    fun s p chk x w e n off a r here taken formed region size addr handle access pond untracked even whole checked => ?load,
    fun s p chk x w e n er here taken formed region size ready refused heard room =>
      ⟨_, ld_refused here taken formed region size ready refused, failProg_endsWith here.prog heard room, endProg_woundDown.mem⟩,
    fun s p x w e n off here taken formed scratch size addr => ?scratch,
    fun s u p x w e n off r here taken formed region size addr handle even access => ?store,
    fun s p x w e off r here taken fields valid handle addr aligned inside even access => ?prefetch⟩
  case load =>
    have place : n ∣ off := aligned_of_ldstCheck formed region size (handle ▸ live_of_loads access) addr
    have within : off % 4096 + n ≤ 4096 := within_of_aligned (accSize_dvd size) (by decide) place
    have own : s.Free r := ⟨untracked, whole⟩
    obtain ⟨t, placed, load⟩ : ∃ t, s.Placed t ∧ s.loadBytes (some p) x.served r off n chk = (t, .bytes (s.pondBytes a off n)) := by
      rcases checked with ⟨narrow, fine⟩ | rfl
      · have small : n ∣ 64 := by
          rcases accSize_cases size with ⟨-, small⟩ | ⟨wide, -⟩ | ⟨wide, -⟩
          · exact small.trans (by decide)
          all_goals omega
        exact pond.loadBytes_of_one_line own (accSize_pos size) (within_of_aligned small (by decide) place) fine
      · obtain ⟨t, placed, -, load⟩ := pond.loadBytes_ok own (accSize_pos size) within
        exact ⟨t, placed, load⟩
    have running : t.prog p = some x := by rw [placed.rest]; exact here.prog
    have fed := feed_fed (r := r) (line := off / 64) (m := (off + n - 1) / 64 - off / 64 + 1) running
    obtain ⟨f, listed⟩ := fed.prog
    refine ⟨_, f, ld_region here taken formed region size addr handle (pond.dataReady even within) access load, ?_⟩
    rw [okOn_of_running listed here.free, loadInto_feed]
    refine ⟨prog_setProg .., fed.mem.trans placed.mem, fed.ent.trans (by rw [placed.rest]), fed.grants.trans (by rw [placed.rest]),
      fed.dir.trans placed.dir, fun narrow none => ?_⟩
    have few : (off + n - 1) / 64 - off / 64 + 1 < 4 := by
      rcases accSize_cases size with ⟨-, small⟩ | ⟨-, rfl⟩ | ⟨wide, -⟩
      · have := Nat.le_of_dvd (by decide) small
        omega
      all_goals omega
    obtain ⟨rt, out⟩ := feed_of_few (r := r) (line := off / 64) running none few
    exact ⟨rt.trans (by rw [placed.rest]), out.trans (by rw [placed.rest])⟩
  case scratch =>
    refine ⟨_, st_scratch here taken formed scratch size addr, prog_setProg .., rfl, fun k outside => ?_, rfl⟩
    rw [← length_storeFrom (x := x) size] at outside
    exact readByte_writeBytes_out _ _ _ _ outside
  case store =>
    have run := st_region here taken formed region size addr handle even access
    refine ⟨fun control few => ?_, fun waits => ?_, fun held => ?_, fun full heard room => ?_⟩
    · rw [run, pend_of_control here.prog control few, heldStores, okOn_setProg]
      exacts [rfl, here.free]
    · rw [run, waits]
      rfl
    · obtain ⟨g, listed⟩ := heldStores_ok here.prog here.free held
      exact ⟨_, g, by rw [run, held], listed⟩
    · rw [full] at run
      obtain ⟨ends, mem⟩ := heldStores_full here.prog heard room
      exact ⟨_, run, ends, mem⟩
  case prefetch =>
    have run := prefetch_runs here taken fields valid handle addr aligned inside even access
    by_cases none : s.smes r = []
    · rw [prefetch_of_none none, okOn_completes here.prog here.free] at run
      exact ⟨_, [], run, by rw [List.append_nil]; exact prog_setProg .., nofun, fun _ => rfl, rfl, rfl, rfl⟩
    · have fetched := prefetch_fetched (r := r) (first := off / 4096) (count := ((x.gr (fD w)).toNat + 4095) / 4096) here.prog
      obtain ⟨f, listed, since⟩ := fetched.prog
      rw [okOn_completes listed here.free] at run
      exact ⟨_, f, run, prog_setProg .., since, fun empty => absurd empty none, fetched.mem, fetched.dir, fetched.grants⟩

end Sys2Proof.Machine
end

section
/-! ## GATHER and SCATTER (09 R376, R377, R361; 10 R393) -/

namespace Sys2Proof.Machine

namespace State

variable {s t u : State} {p a n : Nat} {x : Prog} {y : Rows} {w e : W64} {r : RegionId} {chk : Chk} {f : Int → Nat} {l : List Int}

/-! ### Rows that stand in Pond -/

theorem rowb_of_rowsCheck {scatter : Bool} (formed : rowsCheck x w e scatter = none) : 0 < (x.rows w e).rowb := by
  refine Nat.pos_of_ne_zero fun zero => ?_
  simp only [rowsCheck, zero, true_or, if_true] at formed
  split_ifs at formed

/-- Ranges may be accessed where the entry is even and each of them may be. -/
theorem dataReady_of_each {l : List (Nat × Nat)} (even : (s.ent r).odd = false) (each : ∀ z ∈ l, s.dataReady r [z] = true) :
    s.dataReady r l = true := by
  simp only [State.dataReady, even, Bool.not_false, Bool.true_and, List.all_eq_true, rangeSegsOf, List.flatMap_cons, List.flatMap_nil,
    List.append_nil] at each ⊢
  intro seg hseg
  obtain ⟨z, hz, within⟩ := List.mem_flatMap.mp hseg
  exact each z hz seg within

/-- Each row that the indices name lies within one segment, which stands in Pond. -/
def RowsIn (s : State) (y : Rows) (f : Int → Nat) (l : List Int) : Prop :=
  ∀ k ∈ l, 0 ≤ k → (hBase y.handle + k.toNat * y.stride) % 4096 + y.rowb ≤ 4096 ∧
    s.InPond (hRegion y.handle) ((hBase y.handle + k.toNat * y.stride) / 4096) (f k)

theorem RowsIn.dataReady (rows : s.RowsIn y f l) (even : (s.ent (hRegion y.handle)).odd = false) :
    s.dataReady (hRegion y.handle) (y.ranges l) = true := by
  refine dataReady_of_each even (fun z hz => ?_)
  obtain ⟨k, hk, row⟩ := List.mem_filterMap.mp hz
  split at row
  · cases row
  · cases row
    obtain ⟨within, pond⟩ := rows k hk (by omega)
    exact pond.dataReady even within

/-- The stored bytes of the row that an index names; none for a skipped one. -/
def pondRow (s : State) (y : Rows) (f : Int → Nat) (k : Int) : Option (List Byte) :=
  if k < 0 then none else some (s.pondBytes (f k) (hBase y.handle + k.toNat * y.stride) y.rowb)

/-! ### Loads of rows, one after another -/

theorem Fed.free (z : s.Fed t p x) (own : s.Free r) : t.Free r :=
  ⟨by rw [State.ent, z.ent]; exact own.untracked, by rw [z.dir]; exact own.whole⟩

theorem Fed.rowsIn (z : s.Fed t p x) (rows : s.RowsIn y f l) : t.RowsIn y f l :=
  fun k hk named => ⟨(rows k hk named).1, z.inPond (rows k hk named).2⟩

theorem Fed.trans {z : List Feed} (a : s.Fed t p x) (b : t.Fed u p { x with feed := z }) : s.Fed u p x :=
  ⟨b.prog, b.mem.trans a.mem, b.ent.trans a.ent, b.grants.trans a.grants, b.dir.trans a.dir, fun pond => b.inPond (a.inPond pond)⟩

/-- A load that only looked at segments, and was then noted by the feeder. -/
theorem Spares.fed {line m : Nat} (looked : s.Spares t) (running : s.prog p = some x) : s.Fed (t.feed p r line m) p x := by
  have there : t.prog p = some x := by rw [State.prog, looked.progs]; exact running
  have noted := feed_fed (r := r) (line := line) (m := m) there
  exact ⟨noted.prog, noted.mem.trans looked.mem, noted.ent.trans looked.ent, noted.grants.trans looked.grants, noted.dir.trans looked.dir,
    fun pond => noted.inPond (looked.inPond pond)⟩

/-- One row of a load, after the rows before it. -/
def rowStep (p : Nat) (x : Prog) (y : Rows) (b : State × Option (List (Option (List Byte))) × Chk) (k : Int) :
    State × Option (List (Option (List Byte))) × Chk :=
  match b.2.1 with
  | none => b
  | some rows =>
    if k < 0 then (b.1, some (none :: rows), b.2.2)
    else match b.1.progLoad p x (hRegion y.handle) (hBase y.handle + k.toNat * y.stride) y.rowb b.2.2 with
      | (t, some c) =>
        let first := hBase y.handle + k.toNat * y.stride
        (t.feed p (hRegion y.handle) (first / 64) ((first + y.rowb - 1) / 64 - first / 64 + 1), some (some c :: rows), .ok)
      | (t, none) => (t, none, .ok)

theorem loadRows_eq (l : List Int) : s.loadRows p x y l chk =
    (let z := l.foldl (rowStep p x y) (s, some [], chk)
    (z.1, z.2.1.map List.reverse)) := rfl

theorem rowStep_of_load {k : Int} {rows : List (Option (List Byte))} {b : List Byte} (named : ¬k < 0)
    (load : s.progLoad p x (hRegion y.handle) (hBase y.handle + k.toNat * y.stride) y.rowb chk = (t, some b)) :
    rowStep p x y (s, some rows, chk) k = (t.feed p (hRegion y.handle) ((hBase y.handle + k.toNat * y.stride) / 64)
      ((hBase y.handle + k.toNat * y.stride + y.rowb - 1) / 64 - (hBase y.handle + k.toNat * y.stride) / 64 + 1), some (some b :: rows), .ok) := by
  simp only [rowStep, named, if_false, load]

/-- The next row is loaded whole, or skipped. -/
theorem RowsIn.step {k : Int} {rows : List (Option (List Byte))} (all : s.RowsIn y f [k]) (own : s.Free (hRegion y.handle)) (wide : 0 < y.rowb)
    (clean : x.stores = []) {z : List Feed} (running : s.prog p = some { x with feed := z }) :
    ∃ t, s.Fed t p { x with feed := z } ∧ rowStep p x y (s, some rows, .ok) k = (t, some (s.pondRow y f k :: rows), .ok) := by
  by_cases skipped : k < 0
  · exact ⟨s, .refl running, by simp only [rowStep, pondRow, skipped, if_true]⟩
  · obtain ⟨within, pond⟩ := all k (List.mem_singleton_self k) (by omega)
    obtain ⟨t, -, looked, load⟩ := pond.loadBytes_ok (q := some p) (served := x.served) own wide within
    have step := rowStep_of_load (rows := rows) skipped ((progLoad_of_loadBytes load).trans (by rw [sees_of_clean clean]))
    rw [pondRow, if_neg skipped]
    exact ⟨_, looked.fed running, step⟩

theorem Fed.pondRow_eq (z : s.Fed t p x) : t.pondRow y f = s.pondRow y f := by
  unfold pondRow State.pondBytes State.readRun
  rw [z.mem]

theorem RowsIn.loads {z : List Feed} {rows : List (Option (List Byte))} (all : s.RowsIn y f l) (own : s.Free (hRegion y.handle)) (wide : 0 < y.rowb)
    (clean : x.stores = []) (running : s.prog p = some { x with feed := z }) :
    ∃ t, s.Fed t p { x with feed := z } ∧
      l.foldl (rowStep p x y) (s, some rows, .ok) = (t, some ((l.map (s.pondRow y f)).reverse ++ rows), .ok) := by
  induction l generalizing s z rows with
  | nil => exact ⟨s, .refl running, rfl⟩
  | cons k l ih =>
    obtain ⟨t, first, step⟩ := RowsIn.step (k := k) (rows := rows) (fun i hi => all i (by simp_all)) own wide clean running
    obtain ⟨z', listed⟩ := first.prog
    obtain ⟨u, others, steps⟩ := ih (rows := s.pondRow y f k :: rows) (first.rowsIn (fun i hi => all i (List.mem_cons_of_mem k hi)))
      (first.free own) listed
    refine ⟨u, first.trans others, ?_⟩
    rw [List.foldl_cons, step, steps, first.pondRow_eq, List.map_cons, List.reverse_cons, List.append_assoc]
    rfl

theorem RowsIn.loadRows_ok (all : s.RowsIn y f l) (own : s.Free (hRegion y.handle)) (wide : 0 < y.rowb) (clean : x.stores = [])
    (running : s.prog p = some x) : ∃ t, s.Fed t p x ∧ s.loadRows p x y l .ok = (t, some (l.map (s.pondRow y f))) := by
  obtain ⟨t, fed, loads⟩ := all.loads (z := x.feed) (rows := []) own wide clean running
  refine ⟨t, fed, ?_⟩
  simp only [loadRows_eq, loads, List.append_nil, Option.map_some, List.reverse_reverse]

/-! ### Writes of scratch -/

theorem foldl_scratchWrite (l : List (Nat × List Byte)) : l.foldl (fun t o => t.scratchWrite x o.1 o.2) s =
    { s with mem := { s.mem with bytes := l.foldl (fun m o => writeBytes m (x.scratchAt o.1) o.2) s.mem.bytes } } := by
  induction l generalizing s with
  | nil => rfl
  | cons o l ih => exact ih

theorem foldl_scratchWrite_prog (l : List (Nat × List Byte)) : (l.foldl (fun t o => t.scratchWrite x o.1 o.2) s).prog p = s.prog p := by
  rw [foldl_scratchWrite]
  rfl

/-! ### Stores of rows -/

theorem filterMap_guarded {α : Type} (F : Int → Nat → α) (l : List (Int × Nat)) :
    l.filterMap (fun z => if z.1 < 0 then none else some (F z.1 z.2)) = (l.filter (fun z => decide (0 ≤ z.1))).map (fun z => F z.1 z.2) := by
  rw [← List.filterMap_eq_map, List.filterMap_filter]
  refine List.filterMap_congr (fun z _ => ?_)
  by_cases below : z.1 < 0
  · rw [if_pos below, if_neg (by simpa using below)]
  · rw [if_neg below, if_pos (by simpa using below)]
    rfl

/-- What SCATTER holds: a store per index that names a row, in the order of the indices. -/
def scattered (s : State) (x : Prog) (y : Rows) (l : List Int) : List PStore :=
  (l.zipIdx.filter (fun z => decide (0 ≤ z.1))).map (fun z =>
    ⟨hRegion y.handle, hBase y.handle + z.1.toNat * y.stride, s.scratchRead x (y.out + z.2 * y.rowb) y.rowb,
      if y.add then some (BitVec.ofNat 4 y.ety) else none, x.round⟩)

theorem scattered_eq (l : List Int) : s.scattered x y l =
    (l.mapIdx (fun j k => if k < 0 then none else
      some (⟨hRegion y.handle, hBase y.handle + k.toNat * y.stride, s.scratchRead x (y.out + j * y.rowb) y.rowb,
        if y.add then some (BitVec.ofNat 4 y.ety) else none, x.round⟩ : PStore))).filterMap (fun z => z) := by
  rw [scattered, List.mapIdx_eq_zipIdx_map, List.filterMap_map]
  exact (filterMap_guarded (fun k j => (⟨hRegion y.handle, hBase y.handle + k.toNat * y.stride, s.scratchRead x (y.out + j * y.rowb) y.rowb,
    if y.add then some (BitVec.ofNat 4 y.ety) else none, x.round⟩ : PStore)) l.zipIdx).symm

/-! ### The instructions -/

theorem gather_runs {rows : List (Option (List Byte))} (here : s.AtInstr p x (isOp 0x42) w e) (formed : rowsCheck x w e false = none)
    (ready : s.dataReady (hRegion (x.rows w e).handle) ((x.rows w e).ranges (s.indices x (x.rows w e))) = true)
    (allowed : s.rowsErr x (x.rows w e) (s.indices x (x.rows w e)) false = none)
    (load : s.loadRows p x (x.rows w e) (s.indices x (x.rows w e)) chk = (t, some rows)) :
    exec (.gather p chk) s =
      .next (((gatherOut x (x.rows w e) rows).foldl (fun u o => u.scratchWrite x o.1 o.2) t).okOn p (fun z => z)) := by
  refine congrArg Host.Outcome.next ((here.instr formed).trans ?_)
  simp only [ready, Bool.true_eq_false, if_false, allowed, load]

theorem gather_refused {er : Err1} (here : s.AtInstr p x (isOp 0x42) w e) (formed : rowsCheck x w e false = none)
    (ready : s.dataReady (hRegion (x.rows w e).handle) ((x.rows w e).ranges (s.indices x (x.rows w e))) = true)
    (refused : s.rowsErr x (x.rows w e) (s.indices x (x.rows w e)) false = some er) :
    exec (.gather p chk) s = .next (s.failProg p er) := by
  refine congrArg Host.Outcome.next ((here.instr formed).trans ?_)
  simp only [ready, Bool.true_eq_false, if_false, refused]

theorem scatter_runs (here : s.AtInstr p x (isOp 0x43) w e) (formed : rowsCheck x w e true = none)
    (even : (s.ent (hRegion (x.rows w e).handle)).odd = false) (allowed : s.rowsErr x (x.rows w e) (s.indices x (x.rows w e)) true = none) :
    exec (.scatter p) s = .next (s.heldStores p (s.pend p (s.scattered x (x.rows w e) (s.indices x (x.rows w e))))) := by
  refine congrArg Host.Outcome.next ((here.instr formed).trans ?_)
  simp only [even, Bool.false_eq_true, if_false, allowed, scattered_eq]
  split <;> rename_i held <;> rw [held] <;> rfl

theorem scatter_refused {er : Err1} (here : s.AtInstr p x (isOp 0x43) w e) (formed : rowsCheck x w e true = none)
    (even : (s.ent (hRegion (x.rows w e).handle)).odd = false) (refused : s.rowsErr x (x.rows w e) (s.indices x (x.rows w e)) true = some er) :
    exec (.scatter p) s = .next (s.failProg p er) := by
  refine congrArg Host.Outcome.next ((here.instr formed).trans ?_)
  simp only [even, Bool.false_eq_true, if_false, refused]

end State

open State

/-- Settles O30: the rows are loaded one after another from segments that stay in Pond; the stores of a scatter are held as those of ST are. -/
theorem gatherAndScatterRows : Obligations.GatherAndScatterRows := by
  unfold Obligations.GatherAndScatterRows
  refine ⟨fun s p x w e y f here formed operands allowed untracked even whole rows => ?gather,
    fun s p chk x w e er here formed ready refused heard room =>
      ⟨_, gather_refused here formed ready refused, failProg_endsWith here.prog heard room, endProg_woundDown.mem⟩,
    fun s u p x w e y l here formed operands even allowed stores => ?scatter,
    fun s p x w e er here formed even refused heard room =>
      ⟨_, scatter_refused here formed even refused, failProg_endsWith here.prog heard room, endProg_woundDown.mem⟩⟩
  case gather =>
    subst operands
    have rows : s.RowsIn (x.rows w e) f (s.indices x (x.rows w e)) := rows
    obtain ⟨t, fed, load⟩ := rows.loadRows_ok ⟨untracked, whole⟩ (rowb_of_rowsCheck formed) here.clean here.prog
    obtain ⟨g, listed⟩ := fed.prog
    have run := gather_runs here formed (rows.dataReady even) allowed load
    rw [okOn_completes ((foldl_scratchWrite_prog _).trans listed) here.free, foldl_scratchWrite, fed.mem] at run
    exact ⟨_, g, run, prog_setProg .., rfl, fed.ent, fed.grants, fed.dir⟩
  case scatter =>
    subst operands
    have run := scatter_runs here formed even allowed
    rw [show s.scattered x (x.rows w e) (s.indices x (x.rows w e)) = l from stores.symm] at run
    refine ⟨fun waits => ?_, fun held => ?_, fun full heard room => ?_⟩
    · rw [run, waits]
      rfl
    · obtain ⟨g, listed⟩ := heldStores_ok here.prog here.free held
      rw [here.clean, List.nil_append] at listed
      exact ⟨_, g, by rw [run, held], listed⟩
    · rw [full] at run
      obtain ⟨ends, mem⟩ := heldStores_full here.prog heard room
      exact ⟨_, run, ends, mem⟩

end Sys2Proof.Machine
end
